-- ==== Sys2Proof/Word.lean ====
section
/-! DEFINITION. The word types of the engine and the shape of its sparse stores. -/
namespace Sys2Proof

/-- A byte of memory, of a frame or of a cell. -/
abbrev Byte := BitVec 8
/-- A 32-bit register or table word (R26, R49). -/
abbrev W32 := BitVec 32
/-- A 64-bit value: a register pair, a host address or a stand time. -/
abbrev W64 := BitVec 64

/-- Data kept by key, keys strictly rising, with no entry equal to what an unlisted key reads as. -/
abbrev Store (α : Type) := List (Nat × α)

end Sys2Proof
end

