-- ==== Sys2Proof/Syntax.lean ====
section
/-! DEFINITION. The commands of the block: one constructor per row of the spec's operation table, with the
operands each takes from outside (addresses, data, what a device, a link or a host answers). -/
namespace Sys2Proof

/-- A host write as it reaches BAR0 or BAR2 (R49): offset in the BAR, bytes, whether every byte enable of the
access is set, data (low word first), PCIe requester. -/
structure HostWrite where
  off : Nat
  size : Nat
  allBE : Bool
  data : BitVec 1024
  req : BitVec 16
deriving DecidableEq, Repr

/-- A BAR4 access (R52): engine image, BAR0 or BAR2 image, offset in the image, and whether the path to the
engine holds; of another engine, the data it returns, and whether it refuses an access to IND_DATA: `some false` with
cause TABLE, `some true` with PHASE. -/
structure StandAcc where
  engine : Fin 64
  bar2 : Bool
  isRead : Bool
  off : Nat
  size : Nat
  allBE : Bool
  data : BitVec 1024
  req : BitVec 16
  pathOk : Bool
  answer : W64
  refused : Option Bool
deriving DecidableEq, Repr

/-- A job: its queue, the ring index of its first entry, and how many WQM soft resets the queue had met when the entry was
fetched (R61: a started job that a reset cuts off ends in its block, while its entry may be submitted again). -/
structure JobRef where
  q : Fin 528
  idx : Nat
  gen : Nat := 0
deriving DecidableEq, Repr


/-- One colour plane of a decoded picture, line by line. -/
abbrev Plane := List (List Nat)

/-- Samples of a decoded picture (R131): chroma 0 4:2:0, 1 4:2:2, 2 4:4:4; depth in bits; the three planes. -/
structure SrcPic where
  chroma : Nat
  depth : Nat
  y : Plane
  cb : Plane
  cr : Plane
deriving DecidableEq, Repr

/-- What a core's work on the picture in flight came to (R143, R149-R152): the CEPOCH it was taken under, the samples, the
second field of an interlaced pair, bitstream errors, the 16 × 16 luma blocks that could not be decoded (in raster order of
the frame), the motion vectors of the decoded ones in luma samples, the lines of a JPEG XS or ST 2110-20 picture that are
missing, whether a recovery point is reached, the serials due for output in output order, the slots no longer references,
and the CLK_COD cycles it kept the core busy. -/
structure PicResult where
  ctx : Fin 512
  cepoch : Fin 16
  pic : SrcPic
  bottom : Option SrcPic
  biterr : Nat
  blocks : List Nat
  vectors : List (Nat × Int × Int)
  lines : List Nat
  recovery : Bool
  out : List Nat
  unref : List Nat
  busy : Nat
deriving DecidableEq, Repr

/-- A ready picture in a core's queue (R143), as its headers say: its packets (the staves from the end of the picture
before it to the end of the last packet that no later picture shares), the PID of its PES in a transport stream, whether
it starts and whether it ends its access unit, its size, level, chroma format, bit depth and decoded picture buffer
(sps_max_dec_pic_buffering, or AVC's by level or VUI), its colour, whether it is a key and a reference picture, the
reference pictures it names, by serial (none: one that never arrived), whether its profile and tools are those of
Table 6.1, and whether carriage or syntax does not match CODEC (Table 6.7). -/
structure PicTake where
  ctx : Fin 512
  start : W32
  stop : W32
  pid : Fin 8192
  newUnit : Bool
  endUnit : Bool
  width : Nat
  height : Nat
  level : Nat
  chroma : Fin 3
  depth : Nat
  dpb : Nat
  colour : Fin 16
  full : Bool
  key : Bool
  ref : Bool
  refs : List (Option Nat)
  supported : Bool
  mismatch : Bool
deriving DecidableEq, Repr

/-- What an encode pass made (R172): the bits of the parameter sets around what the model itself writes into them (the
HEVC VPS and SPS before and after their HRD parameters and the PPS; the AVC SPS likewise and the PPS; the AV1 sequence
header before, between and after its decoder model fields), the coded slices or tile rows behind their headers, the
reconstructed picture, the partitions smaller than 16 × 16 (column, line, width, height), and the CLK_COD cycles of the
pass. -/
structure EncOut where
  sets : List (List Bool)
  slices : List (List Byte)
  recon : Plane × Plane × Plane
  parts : List (Nat × Nat × Nat × Nat)
  busy : Nat
deriving DecidableEq, Repr

/-- A received frame (R88, R89, R91): bytes without FCS, whether the FCS is good, the bytes of frames of class 0-5 and of class
6-7 that the ingress buffer of its port still holds, the stand time at the receive balls with its fraction in 2⁻¹⁶ ns, and the codewords of FEC corrected and not
correctable since the frame before it. -/
structure RxFrame where
  bytes : List Byte
  fcsOk : Bool
  low : Nat
  high : Nat
  stamp : W64
  frac : BitVec 16
  fecCorr : Nat
  fecUncorr : Nat
deriving DecidableEq, Repr

/-- What a tile is, as its maker built it and its tag says (Tables 9.5, 10.9): serial, lamp pixels, format, most slots it
can hold, forwarding latencies in ns, maker's codes, firmware, management targets. -/
structure TileProps where
  serial : W32 := 0
  w : Nat := 0
  h : Nat := 0
  fmt36 : Bool := false
  maxLdisp : Nat := 2
  depth12 : Bool := true
  fwdDn : Nat := 0
  fwdUp : Nat := 0
  vendor : BitVec 16 := 0
  product : BitVec 16 := 0
  fw : W32 := 0
  targets : BitVec 16 := 0
deriving DecidableEq, Repr

/-- What a tile measures for a STATUS_UP (Table 10.10): codewords corrected and not correctable since the last one,
temperature, fault code, supply,
whether the OUT link is locked. -/
structure TileEnv where
  fecCorr : Nat
  fecUncorr : Nat
  temp : BitVec 8
  fault : BitVec 8
  supply : BitVec 16
  outLock : Bool
deriving DecidableEq, Repr

/-- A tile's answer to a management request (Table 10.12): STATUS, bytes moved, and the data of a read. -/
structure MgmtAns where
  status : Fin 7
  len : Nat
  data : List Byte
deriving DecidableEq, Repr

/-- What came of the memory accesses of a channel command: all good; the fetch of the command failed; a list or data
access failed; the transfer buffer held an uncorrectable error; a micro-access bus error is pending (R300, Table 11.8). -/
inductive ChMem where | ok | fetchFails | dataFails | bufferUe | busError
deriving DecidableEq, Repr

/-- What the memory and the management bus answered to a channel command (R296-R323): memory; the code of Table 11.9 of
a line fault or timeout; whether a bus clear freed SDA first; whether the address was acknowledged; written bytes
acknowledged; bytes read; line levels sampled at the end. -/
structure ChAns where
  mem : ChMem
  fault : Option (Fin 18)
  clear : Bool
  addrAck : Bool
  wrote : Nat
  data : List Byte
  scl : Bool
  sda : Bool
deriving DecidableEq, Repr

/-- A tile's tag as an automatic admission finds it (R325): its bytes from address 0 on, and the read at which it stays busy (0 the
identity block, 1 the calibration image, 2 the ledger copies), if at one. -/
structure TagAns where
  tag : List Byte
  busy : Option (Fin 3)
deriving DecidableEq, Repr

/-- What a tile's tag answered to a ledger write (R326): the two copies before, and what the copy written read back as
after the first and the second write; `none` where the tag stayed busy. -/
structure LedgerAns where
  before : Option (List Byte)
  first : Option (List Byte)
  second : Option (List Byte)
deriving DecidableEq, Repr

/-- What an uncorrectable yard word belongs to (Table 15.2), where the offset alone does not tell: nothing that acts on
it; a stave of a Flume's head or tail; a rule entry; a bucking or tile-type entry in use; a frame held for an instance or
in the transmit buffer (its place there); ports that wait for the pixels; lamp pixels of a Tally sample; a word of another
table, which only its readers meet (R47). -/
inductive YardUse where
  | none
  | flume (c : Fin 512)
  | rule (table : Fin 2) (entry : Fin 32768)
  | bucking (t : Fin 4032)
  | tileType (y : Fin 64)
  | ingress (inst : Fin 8)
  | transmit (place : Nat)
  | landing (ports : List (Fin 64))
  | tally (lamps : List (Fin 67108864))
  | table (page : Fin 512) (table : Fin 256) (word : Fin 16777216)
  | staging (channel : Fin 32)
deriving DecidableEq, Repr

/-- Who reads an HBM burst that cannot be corrected (Table 15.4), where the engine acts by itself. -/
inductive HbmUser where
  | none
  | sceneStore (feed : Fin 8)
  | layer (index : Nat)
  | skidder (channel : Fin 32) (isDesc : Bool)
  | encWork (c : Fin 512)
deriving DecidableEq, Repr

/-- A Cororn cable between two engines, each with its label and link. -/
structure Cable where
  a : Nat
  aLink : Fin 4
  b : Nat
  bLink : Fin 4
deriving DecidableEq, Repr

/-- What discovery meets (R410, R412): this engine's label, the cables whose links train, with the lead as label 0, and the
links of this engine that reach another lead candidate. -/
structure Discovered where
  own : Nat
  cables : List Cable
  conflict : List (Fin 4)
deriving DecidableEq, Repr

/-- A mode with its epoch, as a stand operation carries it (Table 16.5). -/
structure StandMode where
  cfg : W32
  num : W32
  den : W32
  colour : W32
  epoch : W32
  /-- The round: prepare, or commit (R421). -/
  prepare : Bool
deriving DecidableEq, Repr

/-- A REG message (R414, R415): an access to this engine, of a host or an upstream engine; or on the lead a member's
read or write of host memory, with whether the host answers, or its cause for PM_PME. -/
inductive RegMsg where
  | access (bar2 isRead : Bool) (off size : Nat) (allBE : Bool) (data : BitVec 1024) (req : BitVec 16)
  | hostRead (addr : W64) (n : Nat) (ok : Bool)
  | hostWrite (addr : W64) (data : List Byte)
  | pme
deriving DecidableEq, Repr

/-- A shared picture as its flits bring it (R428, R429): slot entry, declared size and format, lines, whether every flit
came. -/
structure SharePic where
  entry : List W32
  width : Nat
  height : Nat
  fmt : Nat
  lines : List (List Byte)
  complete : Bool
deriving DecidableEq, Repr


/-- What the power-on sequence finds (R441, R466, Table 17.5): whether the supplies were applied anew, or PERST_N alone
held the engine in reset; REFCLK100 present, with its frequency in kHz; a junction above 100 °C; the BOOT_MODE pins;
PWR_FAIL_N asserted; the codec cores (0-35 DEC, 36-44 XSD, 45-62 ENC) and the lanes that fail their self-test. -/
structure PowerOn where
  supply : Bool
  refclk : Bool
  khz : Fin 262144
  hot : Bool
  bootMode : Fin 4
  pwrFail : Bool
  badCores : List (Fin 63)
  badLanes : List (Fin 104)
deriving DecidableEq, Repr

/-- A job whose descriptor is read from host memory: false where it cannot be (Table 3.16). -/
structure JobRead where
  ref : JobRef
  ok : Bool
deriving DecidableEq, Repr

/-- A job that goes on by so many lines or records at a time (R140, R244). -/
structure JobPart where
  ref : JobRef
  n : Nat
deriving DecidableEq, Repr

/-- A BARRIER (R422): whether every present engine has replied, and whether this is the broadcast, on a member. -/
structure BarrierSide where
  replied : Bool
  cast : Bool
deriving DecidableEq, Repr

/-- A mask of R83: of one vector, or (none) the Function Mask, and the value it takes. -/
structure VectorMask where
  vec : Option (Fin 2048)
  mask : Bool
deriving DecidableEq, Repr

/-- The negotiated link speed, and what configuration software leaves: the base address registers (R26) and the code of
Max_Read_Request_Size (R362). -/
structure LinkSpeed where
  speed : Fin 16
  bars : W64 × W64 × W64
  mrrs : Fin 6
deriving DecidableEq, Repr

/-- A word that a host writes, with its requester. -/
structure ReqWord where
  val : W32
  req : BitVec 16
deriving DecidableEq, Repr

/-- A lane whose residue fails (R220), and the lamp pixel of the wall, or none for a pixel of a capture. -/
structure LaneHit where
  lane : Fin 104
  pixel : Option (BitVec 16 × BitVec 16)
deriving DecidableEq, Repr

/-- A neighbour refresh of a pseudo-channel (R398): drawn by an activate of a row, or (none) the oldest one carried out. -/
structure NearRefresh where
  stack : Fin 2
  pc : Fin 32
  row : Option (BitVec 25)
deriving DecidableEq, Repr
/-- The commands of the block, one constructor per row of the operation table. -/
inductive Instr where
  /-- CTX_OPEN (R133). Administrative command that checks a context descriptor and opens and admits a DEC, XSD, RAW or ENC context. -/
  | ctxOpen (j : JobRead)
  /-- CTX_CONFIG (R134). Command that changes the allowed fields of an open context, with re-admission when the pixel rate rises. -/
  | ctxConfig (j : JobRead)
  /-- CTX_CLOSE (R135). Command that stops a context at its next access-unit boundary, draining first if DRAIN is set. -/
  | ctxClose (j : JobRef)
  /-- CTX_MIGRATE (R154). Command that moves a context to a named core or to the engine's choice by normal migration. -/
  | ctxMigrate (j : JobRef)
  /-- FEED (R118). Job that writes host bytes into a HOST Flume, opening and committing packets. -/
  | feed (j : JobRef)
  /-- FRAME_PUT (R140). Job that writes one host image into a HOST_IMAGE RAW context's frame ring. -/
  | framePut (j : JobPart)
  /-- SCENE_SUBMIT (R201). Job that reads, checks and prepares a scene descriptor and holds it for its epoch. -/
  | sceneSubmit (j : JobRef) (ok : Bool)
  /-- KEY_REQUEST (R176). Job that merges a key-picture request into an encode context's pending request. -/
  | keyRequest (j : JobRef)
  /-- ENC_RECONFIG (R177). Job that changes an encode context's bit rate, CPB size and VBR at the next picture boundary. -/
  | encReconfig (j : JobRef)
  /-- CHAN_START (R294). Job that starts a channel program on an idle subchannel. -/
  | chanStart (j : JobRef)
  /-- CHAN_RESUME (R295). Job that resumes a suspended subchannel or sets RESUME_PEND on an active one. -/
  | chanResume (j : JobRef)
  /-- CHAN_HALT (R295). Job that ends a subchannel's program and posts HALTED status. -/
  | chanHalt (j : JobRef)
  /-- TABLE_LOAD (R68). Job that writes table data to a page's table, immediately or as an epoch load. -/
  | tableLoad (j : JobRef) (n : Nat)
  /-- TALLY_SNAPSHOT (R244). Job that copies dose records of a range of lamp pixels to host memory. -/
  | tallySnapshot (j : JobPart)
  /-- STAND_OP_MODE (R421). Stand operation that prepares and commits a mode change on every engine for an epoch. -/
  | standOpMode (j : JobRef) (ok : Bool) (refused : Option (Fin 64 × BitVec 8)) (missed : Fin 64) (commit : Option StandMode)
  /-- STAND_OP_BARRIER (R422). Stand operation that completes when every present engine has finished its earlier administrative jobs. -/
  | standOpBarrier (j : JobRef) (replied : BarrierSide)
  /-- STAND_OP_SNAPSHOT (R423). Stand operation that schedules a register latch on every engine at a stand time. -/
  | standOpSnapshot (j : JobRef) (ok : Bool) (captured : Option (Fin 65))
  /-- STAND_RESET (R424). Stand operation that soft-resets the listed pages of every engine at an epoch. -/
  | standReset (j : JobRef) (missed : Fin 64) (commit : Option W32)
  /-- REDISCOVER (R410). Stand operation that runs a new discovery of the stand. -/
  | rediscover (j : JobRef)
  /-- NOP (R66). Job that completes at once with no effect. -/
  | nop (j : JobRef)
  /-- SQ_DB (R65). Submission doorbell write that advances a queue's tail or puts the queue in ERROR with DB_OVERRUN. -/
  | sqDb (q : Fin 528) (v : W32)
  /-- CQ_DB (R79). Completion doorbell write that advances a completion queue's head or is ignored with CQ_DB_INVALID. -/
  | cqDb (c : Fin 256) (v : W32)
  /-- PUSH_WINDOW_WRITE (R76). Host write of submission entries into a queue's push window. -/
  | pushWindowWrite (q : Fin 512) (dw : Fin 32) (data : List W32)
  /-- QCFG_EN_WRITE (R58). Write of a submission queue's EN that enables it or starts draining it, or is discarded. -/
  | qcfgEnWrite (q : Fin 528) (v : W32)
  /-- CQCFG_EN_WRITE (R60). Write of a completion queue's EN that enables it with head and tail 0, or is discarded. -/
  | cqcfgEnWrite (c : Fin 256) (v : W32)
  /-- ENTRY_FETCH (R73). Fetch arbiter reads submission entries of a queue in its round and checks them. -/
  | entryFetch (ok : Bool)
  /-- JOB_START (R74). Start of a fetched job once its fence, completion-queue room and data channel allow. -/
  | jobStart (q : Fin 528) (ok : Bool)
  /-- JOB_COMPLETE (R75). Writing of a job's completion entry after its data, with the published head. -/
  | jobComplete (j : JobRef)
  /-- QUEUE_DRAINED (R77). A draining queue with no started job outstanding becomes DISABLED. -/
  | queueDrained (q : Fin 528)
  /-- MODERATION_TIMER (R80). Expiry of a completion queue's moderation time that sends its MSI-X vector. -/
  | moderationTimer (c : Fin 256)
  /-- VECTOR_UNMASK (R83). Unmasking of an MSI-X vector that sends its pending message. -/
  | vectorUnmask (v : VectorMask)
  /-- L1_EXIT (R84). Initiation of link exit from L1 when a host-memory request falls due. -/
  | l1Exit
  /-- D3HOT_ENTRY (R85). Function enters D3hot; host-memory requests stop and completions are held. -/
  | d3hotEntry (pmeEn : Bool)
  /-- D0_RETURN (R85). Return to D0 that writes held completions, sends pending messages and resumes fetching. -/
  | d0Return
  /-- LINK_DOWN (R488). Data link layer of the host link goes down; requests wait and completions are held. -/
  | linkDown
  /-- LINK_UP (R488). Host link returns; held completions, messages and waiting requests proceed. -/
  | linkUp (width : Fin 64) (speed : LinkSpeed)
  /-- LINK_DEGRADED (R55). PCIe link trains narrower or slower than advertised. -/
  | linkDegraded (width : Fin 64) (speed : Fin 16)
  /-- PAGE_CTL_RUN (R33). Applied RUN value that starts or stops a page under the page state machine. -/
  | pageCtlRun (p : Fin 512) (run : Bool)
  /-- SOFT_RESET (R34). PAGE_CTL write with SOFT_RESET that clears a block's state and leaves it STOPPED. -/
  | softReset (p : Fin 512)
  /-- POSTED_WRITE_APPLY (R40). Application of a posted write in its clock domain and clearing of POST_BUSY. -/
  | postedWriteApply (p : Fin 512)
  /-- PAGE_READY (R33). Block becomes ready while STARTING and moves to RUNNING or STOPPING. -/
  | pageReady (p : Fin 512) (passed : Bool) (badSpares : List Nat)
  /-- PAGE_QUIESCENT (R33). Block becomes quiescent while STOPPING and moves to STOPPED or STARTING. -/
  | pageQuiescent (p : Fin 512)
  /-- START_TIMEOUT (R33). STARTING limit passes and the page enters FAULT. -/
  | startTimeout (p : Fin 512)
  /-- STOP_TIMEOUT (R33). STOPPING limit passes and the page enters FAULT. -/
  | stopTimeout (p : Fin 512)
  /-- INT_CAUSE_WRITE (R35). W1C write to INT_CAUSE that clears causes and re-raises the interrupt if still pending. -/
  | intCauseWrite (p : Fin 512) (v : ReqWord)
  /-- INT_FORCE_WRITE (R35). Write to INT_FORCE that sets interrupt causes as the hardware would. -/
  | intForceWrite (p : Fin 512) (v : ReqWord)
  /-- ALIAS_WRITE (R38). BAR2 alias write that changes one bit of a flag-window register. -/
  | aliasWrite (a : HostWrite)
  /-- IND_DATA_READ (R43). Read of IND_DATA that returns table data and advances the window. -/
  | indDataRead (p : Fin 512) (req : BitVec 16)
  /-- IND_DATA_WRITE (R46). Write of IND_DATA that writes a table entry under its write condition. -/
  | indDataWrite (p : Fin 512) (v : W32) (req : BitVec 16)
  /-- IND_SEL_WRITE (R44). Write to IND_SEL or IND_CTL that resets the window phase and leaves END. -/
  | indSelWrite (p : Fin 512) (ctl : Bool) (v : ReqWord)
  /-- BUSERR_LOG_CLEAR (R51). Write of 1 to BUSERR_LOG.VALID that re-arms the bus-error log. -/
  | buserrLogClear
  /-- REGISTER_WRITE (R41). Write to a register without behaviour of its own, under its access code. -/
  | registerWrite (a : HostWrite)
  /-- STAND_WINDOW_ACCESS (R53). BAR4 access forwarded as REG messages to a stand engine. -/
  | standWindowAccess (a : StandAcc)
  /-- FRAME_RECEIVED (R88). A MAC instance receives a frame, which is filtered, parsed, looked up, policed and delivered. -/
  | frameReceived (inst : Fin 8) (f : RxFrame)
  /-- SPQ_HEAD_WRITE (R107). Host write of a slow-path queue head that may send its vector. -/
  | spqHeadWrite (q : Fin 16) (v : W32)
  /-- YRX_POP (R108). Read that removes the oldest Yarder delivery entry. -/
  | yrxPop
  /-- YRX_FREE (R108). Write that returns a Yarder receive buffer. -/
  | yrxFree (v : W32)
  /-- NET_LINK_CHANGE (R87). Change of a MAC instance's link state. -/
  | netLinkChange (inst : Fin 8) (up : Bool) (fecLock : Bool) (hiBer : Bool)
  /-- SPILL_WRITE_DONE (R112). HBM accepts a Flume tail buffer burst, freeing tail space. -/
  | spillWriteDone (c : Fin 512) (n : Fin 65)
  /-- READ (R123). Consumer operation that reads committed staves and advances RD. -/
  | flumeRead (c : Fin 512) (k : W32)
  /-- MARK (R123). Consumer operation that sets the Blaze at RD. -/
  | flumeMark (c : Fin 512)
  /-- REWIND (R123). Consumer operation that returns RD to the Blaze. -/
  | flumeRewind (c : Fin 512)
  /-- RELEASE (R123). Consumer operation that frees staves before a position and writes a held Kerf. -/
  | flumeRelease (c : Fin 512) (p : W32)
  /-- DROP_REM (R123). Consumer operation that skips the rest of the current packet. -/
  | flumeDropRem (c : Fin 512)
  /-- STALE_CHECK (R127). Check at each wall frame's first SYNC that flags Flumes whose RD has not moved. -/
  | staleCheck
  /-- PICTURE_DECODED (R143). A core finishes a picture, commits in decode order and takes its next picture. -/
  | pictureDecoded (kind : Fin 3) (unit : Fin 36) (fin : Option PicResult) (ready : List PicTake)
  /-- CSB_WRITE (R148). Writing of a context status block on a change, an event or every 100 ms. -/
  | csbWrite (c : Fin 512)
  /-- CORE_HANG (R157). HANG_T without progress on a started picture faults the core. -/
  | coreHang (k : Fin 45) (badSpares : List Nat)
  /-- CORE_UE (R157). Uncorrectable error in core memory faults and retires the core. -/
  | coreUe (k : Fin 45) (badSpares : List Nat)
  /-- NORMAL_MIGRATION (R153). Lossless move of a context to new cores at an access-unit boundary. -/
  | normalMigration (c : Fin 512)
  /-- REBALANCE (R154). Once-a-second move of a context off a core that counted LATE pictures. -/
  | rebalance
  /-- CONTEXT_FAULT (R148). Contained context fault that puts a context in FAULT. -/
  | contextFault (c : Fin 512) (code : Fin 6)
  /-- ENCODE_INSTANT (R165). Start of an encode picture from a tap capture or a source context. -/
  | encodeInstant (c : Fin 512) (skip : EncOut)
  /-- ENCODE_PASS_DONE (R172). End of an encode pass with escalation, filler and rate-control update. -/
  | encodePassDone (c : Fin 512) (o : EncOut) (skip : EncOut)
  /-- KEY_HOLDOFF_EXPIRY (R174). End of KEY_HOLDOFF that releases held PLI and FIR requests. -/
  | keyHoldoffExpiry (c : Fin 512)
  /-- ENC_CORE_FAULT (R186). Failure of an encode core, with retirement and resumption of its contexts. -/
  | encCoreFault (k : Fin 18) (hang : Bool) (badSpares : List Nat)
  /-- ESB_WRITE (R185). Writing of an encode status block. -/
  | esbWrite (c : Fin 512)
  /-- SLOT_START (R191). At a slot's SYNC stand time the Landing selects pictures and composes the feed. -/
  | slotStart
  /-- SLOT_END (R14). End of a slot period, with BLACK and underrun counting for unfinished ports. -/
  | slotEnd (missedTaps : List (Fin 512))
  /-- EPOCH_APPLY (R22). Application of stand operations, mode change, table swaps and scenes at an epoch. -/
  | epochApply
  /-- MODE_ARM (R193). MODE_CTL.ARM write that validates and arms the next mode. -/
  | modeArm
  /-- MODE_CANCEL (R194). MODE_CTL.CANCEL write that cancels an armed mode outside its lead. -/
  | modeCancel
  /-- CAM_SYNC_EDGE (R199). Edge of a CAM_SYNC pulse at its target stand time. -/
  | camSyncEdge (k : Fin 8) (frame : BitVec 48) (slot : Fin 9)
  /-- LANE_FAULT (R220). Residue mismatch in a Landing lane that retires it and promotes a spare. -/
  | laneFault (lane : LaneHit) (badSpares : List Nat)
  /-- FLASH_HOLD_END (R217). End of the FG_HOLD time that restarts the flash counts. -/
  | flashHoldEnd (feed : Fin 8)
  /-- BRIGHTNESS_WRITE (R228). Write of global brightness that takes effect at the next SYNC stand time. -/
  | brightnessWrite (v : W32)
  /-- ADOPT (R232). TILE_CONFIRM operation that adopts the seen serial and sets doses and baselines. -/
  | adopt (t : Fin 4096)
  /-- VALIDATE (R232). TILE_CONFIRM operation that sets VALID for a tile. -/
  | validate (t : Fin 4096)
  /-- REVOKE (R232). TILE_CONFIRM operation that clears VALID for a tile. -/
  | revoke (t : Fin 4096)
  /-- LAMP_UE (R230). Detection of an uncorrectable Lamp map entry that drives its lamp pixel to 0. -/
  | lampUe (n : Fin 67108864)
  /-- TALLY_SAMPLE (R237). Sampling of every lamp's drive into staged dose increments on a sampled wall frame. -/
  | tallySample
  /-- FOLD_DONE (R238). End of folding a sample's increments into the dose records. -/
  | foldDone
  /-- SWEEP (R241). Periodic or requested walk that recomputes gain codes from doses. -/
  | sweep (ue : List (Fin 67108864))
  /-- NOW (R241). SWEEP_CTL.NOW write that starts a sweep at once. -/
  | sweepNow
  /-- PAUSE (R241). SWEEP_CTL.PAUSE write that holds or releases the sweep. -/
  | sweepPause (on : Bool)
  /-- LEDGER_PERIOD_EXPIRY (R246). Every LEDGER_PERIOD hours, writing of ledger summaries and LEDGER_READY. -/
  | ledgerPeriodExpiry
  /-- START (R248). CRUISE_CTL.START write that starts a Cruise survey. -/
  | cruiseStart (snag : Bool)
  /-- ABORT (R248). CRUISE_CTL.ABORT write that ends a Cruise survey. -/
  | cruiseAbort
  /-- CRUISE_TIMEOUT (R248). CRUISE_T passes before every asked tile reports. -/
  | cruiseTimeout
  /-- LAMP_REPORT_RX (R249). Engine records a LAMP_REPORT cell and may make Snags. -/
  | lampReportRx (port : Fin 64) (cell : List Byte)
  /-- CELL_SLOT (R266). Engine sends the highest-priority waiting cell in a downstream cell slot. -/
  | cellSlot (port : Fin 64) (t : W64)
  /-- SYNC_REPEAT (R270). Repeat of a slot's SYNC every 8 ms within a long slot. -/
  | syncRepeat (port : Fin 64)
  /-- CRUISE_SYNC (R270). Cruise SYNC sent every 1 ms while LND is stopped. -/
  | cruiseSync (port : Fin 64)
  /-- BLACK_NOW (R272). BLACK cell with NOW = 1 sent at the start of a port-wide condition. -/
  | blackNow (port : Fin 64)
  /-- MARKER_LOCK (R258). Receiver declares lock after 4 candidates at the expected spacing. -/
  | markerLock (port : Fin 64) (inverted : Bool)
  /-- LOCK_LOSS (R258). Receiver declares loss of lock after 3 missing markers. -/
  | lockLoss (port : Fin 64) (signal : Bool)
  /-- TILE_SYNC_RX (R281). Tile receives a SYNC cell, schedules presentation and may discard held slots. -/
  | tileSyncRx (port : Fin 64) (k : Fin 128) (cell : List Byte) (arr : W64)
  /-- TILE_PIXEL_RX (R268). Tile receives a PIXEL cell for the current slot. -/
  | tilePixelRx (port : Fin 64) (k : Fin 128) (cell : List Byte)
  /-- TILE_BLACK_RX (R271). Tile receives a BLACK cell and blanks the named slot. -/
  | tileBlackRx (port : Fin 64) (k : Fin 128) (cell : List Byte) (arr : W64)
  /-- ENUM (R278). Tile receives a HELLO ENUM, takes a position, sends DESC and forwards. -/
  | enumRx (port : Fin 64) (k : Fin 128) (cell : List Byte) (onOut : Bool) (props : TileProps) (outLock : Bool) (turn : W32)
  /-- ASSIGN (R279). Tile receives a HELLO ASSIGN with its position and delay. -/
  | assignRx (port : Fin 64) (k : Fin 128) (cell : List Byte)
  /-- DESC (R278). Engine receives a HELLO DESC during enumeration. -/
  | descRx (port : Fin 64) (cell : List Byte) (rtt : W32)
  /-- ENUM_COLLECTION_CLOSE (R278). Close of DESC collection at LAST, OVER or 5 ms, and sending of ASSIGNs. -/
  | enumCollectionClose (port : Fin 64)
  /-- ENUM_COMPLETE (R278). Every answering tile reports ASSIGNED and the port becomes READY. -/
  | enumComplete (port : Fin 64)
  /-- STATUS_UP (R274). Engine receives a tile's STATUS_UP and copies it into the tile block. -/
  | statusUp (port : Fin 64) (cell : List Byte)
  /-- STATUS_MISS (R274). 50 ms without a STATUS_UP from a tile triggers re-enumeration. -/
  | statusMiss (port : Fin 64) (pos : Fin 63)
  /-- TILE_STATUS_SEND (R274). Tile sends a STATUS_UP on change or every 10 ms. -/
  | tileStatusSend (port : Fin 64) (k : Fin 128) (env : TileEnv)
  /-- MGMT_DOWN (R275). Tile receives a management request and answers with one MGMT_UP. -/
  | mgmtDownRx (port : Fin 64) (k : Fin 128) (cell : List Byte) (ans : MgmtAns)
  /-- MGMT_UP (R275). Engine receives a management reply and queues it for its subchannel. -/
  | mgmtUpRx (port : Fin 64) (cell : List Byte)
  /-- MGMT_TIMEOUT (R275). No reply within TIMEOUT plus 2 ms completes a request with TIMEOUT. -/
  | mgmtTimeout (sub : Fin 4096)
  /-- BULK (R276). Tile receives a BULK cell and places its data. -/
  | bulkRx (port : Fin 64) (k : Fin 128) (cell : List Byte)
  /-- TILE_PRESENT (R280). Tile presents a slot at its display instant. -/
  | tilePresent (port : Fin 64) (k : Fin 128) (now : W64)
  /-- TILE_WATCHDOG (R282). Tile drives every lamp to 0 when SYNCs stop for two slot periods or 20 ms. -/
  | tileWatchdog (port : Fin 64) (k : Fin 128) (now : W64) (lost : Bool)
  /-- CRUISE_TEST (R283). Tile tests its lamps in a Cruise slot and sends LAMP_REPORT cells. -/
  | cruiseTest (port : Fin 64) (k : Fin 128) (res : List (Fin 64))
  /-- RETRAIN (R277). PORT_CMD.RETRAIN write that sends the port to TRAIN. -/
  | retrain (port : Fin 64)
  /-- REENUM (R277). PORT_CMD.REENUM write that enumerates the chain again. -/
  | reenum (port : Fin 64)
  /-- TRAIN_TIMEOUT (R277). No lock within 150 ms; TRAIN_FAIL counted and the next rate tried. -/
  | trainTimeout (port : Fin 64)
  /-- SENSE_SAMPLE (R285). 1 ms SENSE sample that changes the SENSE state after 3 agreeing samples. -/
  | senseSample (port : Fin 64) (mv : BitVec 12)
  /-- HS_FAULT (R287). Common-mode or receiver-detect fault puts the transmitter into electrical idle. -/
  | hsFault (port : Fin 64) (pairs : BitVec 2)
  /-- HS_FAULT_CHECK (R287). 100 ms recheck that releases the pair fault after three clean checks. -/
  | hsFaultCheck (port : Fin 64) (clean : Bool)
  /-- HI_ERR_INTERVAL (R288). End of a 10 ms error interval that enters or leaves HI_ERR. -/
  | hiErrInterval (port : Fin 64) (corr : W32) (uncorr : W32)
  /-- WRITE (R313). Channel command that writes data to the device at the subchannel's address. -/
  | chanWrite (sub : Fin 4096) (ans : ChAns)
  /-- BULK_WRITE (R315). Channel WRITE with BULK that sends data as BULK cells. -/
  | bulkWrite (sub : Fin 4096) (ans : ChAns)
  /-- CHANNEL_READ (R314). Channel command that reads data from the device. -/
  | channelRead (sub : Fin 4096) (ans : ChAns)
  /-- NETRX_READ (R316). Channel READ with NETRX that takes a frame delivered by the Debarker. -/
  | netrxRead (sub : Fin 4096) (ans : ChAns)
  /-- CONTROL (R297). Channel command that sends control data to the device. -/
  | chanControl (sub : Fin 4096) (ans : ChAns)
  /-- SEEK (R313). Engine function that loads the subchannel's device address. -/
  | chanSeek (sub : Fin 4096) (ans : ChAns)
  /-- BUS_CLEAR (R320). Engine function that clocks SCL until SDA is released. -/
  | busClear (sub : Fin 4096) (ans : ChAns)
  /-- PROBE (R322). Engine function that tests the port's management lines. -/
  | chanProbe (sub : Fin 4096) (ans : ChAns)
  /-- SENSE (R318). Channel command that returns sense data of the target or path. -/
  | chanSense (sub : Fin 4096) (ans : ChAns)
  /-- GOTO (R304). Channel command that continues the program at ADDRESS. -/
  | chanGoto (sub : Fin 4096) (ans : ChAns)
  /-- WAIT_EVENT (R305). Channel command that waits for a program event or its timeout. -/
  | waitEvent (sub : Fin 4096) (ans : ChAns)
  /-- CHANNEL_NOP (R297). Channel command that ends with DONE and does nothing. -/
  | channelNop (sub : Fin 4096) (ans : ChAns)
  /-- POLL_MATCH (R305). Channel command that reads repeatedly until data match or timeout. -/
  | pollMatch (sub : Fin 4096) (ans : ChAns)
  /-- POLL_INTERVAL_EXPIRY (R305). End of a POLL_MATCH wait that starts the next read. -/
  | pollIntervalExpiry (sub : Fin 4096) (ans : ChAns)
  /-- BACKOFF_RETRY (R319). End of a backoff wait that retries a refused transaction. -/
  | backoffRetry (sub : Fin 4096) (ans : ChAns)
  /-- COMMAND_TIMEOUT (R312). A command's TIMEOUT runs out and it ends with DEVICE_ERROR TIMEOUT. -/
  | commandTimeout (sub : Fin 4096)
  /-- AUTOMATIC_ADMISSION (R325). Standard routine that reads a tag and confirms a tile. -/
  | automaticAdmission (t : Fin 4032) (ans : Option TagAns)
  /-- LEDGER_ROUTINE (R326). Standard routine that writes ledger records to tile tags. -/
  | ledgerRoutine (t : Fin 4032) (ans : Option LedgerAns)
  /-- TAG_BUSY_RETRY (R326). Hourly retry of a ledger write for a tile with TAG_BUSY. -/
  | tagBusyRetry (t : Fin 4032) (ans : Option LedgerAns)
  /-- EIC_DOORBELL (R333). Write of a source number that raises an EIC source. -/
  | eicDoorbell (v : W32)
  /-- EVENT_TAKEN (R335). Sequencer takes the highest eligible pending source at a boundary. -/
  | eventTaken (k : Fin 8)
  /-- CMD_POP (R348). Read that removes a channel command entry for the sequencer. -/
  | cmdPop (k : Fin 8)
  /-- REPLY_POP (R348). Read that removes a management-reply entry. -/
  | replyPop (k : Fin 8)
  /-- TIMER_POP (R348). Read that removes a timer-expiry entry. -/
  | timerPop (k : Fin 8)
  /-- SUBCHANNEL_TIMER_EXPIRY (R344). Expiry of a subchannel timer that pushes TIMER_POP and raises source 32k + 2. -/
  | subchannelTimerExpiry (sub : Fin 4096)
  /-- NEXT (R341). Micro-word whose next address is UPC + 1. -/
  | uNext (k : Fin 8)
  /-- JUMP (R341). Micro-word that jumps to TARGET when its condition holds. -/
  | uJump (k : Fin 8)
  /-- CALL (R345). Micro-word that pushes a return address and goes to TARGET. -/
  | uCall (k : Fin 8)
  /-- RET (R345). Micro-word that pops a return address. -/
  | uRet (k : Fin 8)
  /-- DISPATCH (R341). Micro-word that branches to TARGET plus CMDCODE. -/
  | uDispatch (k : Fin 8)
  /-- BOUNDARY (R346). Micro-word at which events may be taken. -/
  | uBoundary (k : Fin 8)
  /-- CCB (R346). Channel-command boundary micro-word that takes pending bus faults then events. -/
  | uCcb (k : Fin 8)
  /-- IDLE (R341). Micro-word that waits for an eligible event or STOPREQ. -/
  | uIdle (k : Fin 8)
  /-- EOE_NORMAL (R337). Micro-word that ends a NORMAL handler. -/
  | eoeNormal (k : Fin 8)
  /-- EOE_FAST (R337). Micro-word that ends a FAST handler. -/
  | eoeFast (k : Fin 8)
  /-- HALT (R347). Micro-word that stops the sequencer on a stop request. -/
  | uHalt (k : Fin 8)
  /-- RRD (R343). Micro-access read of an engine register. -/
  | rrd (k : Fin 8)
  /-- RWR (R343). Micro-access write of an engine register. -/
  | rwr (k : Fin 8)
  /-- BRD (R343). Read from the transfer buffer. -/
  | brd (k : Fin 8) (ue : Bool)
  /-- BWR (R343). Write to the transfer buffer. -/
  | bwr (k : Fin 8)
  /-- HLOAD (R343). Load of host-memory bytes into the transfer buffer. -/
  | hload (k : Fin 8) (ok : Bool)
  /-- HSTORE (R343). Store of transfer-buffer bytes to host memory. -/
  | hstore (k : Fin 8) (ok : Bool)
  /-- FETCH (R343). Fetch of a channel command into registers through the prefetch. -/
  | uFetch (k : Fin 8) (ok : Bool)
  /-- CTX_LD (R343). Load of a subchannel context into W0-W15. -/
  | ctxLd (k : Fin 8)
  /-- CTX_ST (R343). Store of W0-W15 into the current subchannel context. -/
  | ctxSt (k : Fin 8)
  /-- DBELL (R343). Micro-operation that raises an EIC source. -/
  | dbell (k : Fin 8)
  /-- EVTAKE (R334). Micro-operation that returns and clears EVT_LATCH. -/
  | evtake (k : Fin 8)
  /-- I2C_START (R344). Path operation that sends START or repeated START. -/
  | i2cStart (k : Fin 8) (failed : Bool)
  /-- I2C_STOP (R344). Path operation that sends STOP. -/
  | i2cStop (k : Fin 8) (failed : Bool)
  /-- I2C_TX (R344). Path operation that sends a byte and latches ACK. -/
  | i2cTx (k : Fin 8) (failed : Bool) (ack : Bool)
  /-- I2C_RX (R344). Path operation that receives a byte and answers ACK or NACK. -/
  | i2cRx (k : Fin 8) (failed : Bool) (b : Byte)
  /-- I2C_PULSE (R344). Path operation that sends one SCL pulse and samples SDA. -/
  | i2cPulse (k : Fin 8) (failed : Bool) (sda : Bool)
  /-- LINE_SET (R344). Path operation that drives or releases the lines. -/
  | lineSet (k : Fin 8)
  /-- LINE_GET (R344). Path operation that samples the line levels. -/
  | lineGet (k : Fin 8) (scl : Bool) (sda : Bool)
  /-- SPEED (R344). Path operation that sets the bus speed. -/
  | i2cSpeed (k : Fin 8)
  /-- MGMT_SEND (R344). Path operation that queues a MGMT_DOWN cell. -/
  | mgmtSend (k : Fin 8)
  /-- MGMT_TAKE (R344). Path operation that takes a waiting reply for the subchannel. -/
  | mgmtTake (k : Fin 8)
  /-- BULK_SEND (R344). Path operation that queues a BULK cell. -/
  | bulkSend (k : Fin 8)
  /-- TIMER_SET (R344). Path operation that arms the subchannel timer. -/
  | timerSet (k : Fin 8)
  /-- TIMER_CLR (R344). Path operation that disarms the subchannel timer. -/
  | timerClr (k : Fin 8)
  /-- SENSE_GET (R344). Path operation that reads the SENSE voltage and state. -/
  | senseGet (k : Fin 8)
  /-- CS_UE (R351). Uncorrectable control-store word stops the fetching sequencer. -/
  | csUe (k : Fin 8)
  /-- CS_SCRUB (R351). 100 ms read of every control-store entry to correct errors. -/
  | csScrub (fixed : List (Fin 16384)) (bad : List (Fin 16384))
  /-- LOCK (R350). CS_CTL.LOCK write that makes the control store unwritable until power-on. -/
  | csLock
  /-- GO (R366). CH_CTL.GO that starts a Skidder channel at CH_DESC. -/
  | chGo (n : Fin 32)
  /-- RESUME (R366). CH_CTL.RESUME that restarts a channel in ERROR or HALTED. -/
  | chResume (n : Fin 32)
  /-- CHANNEL_ABORT (R366). CH_CTL.ABORT that ends a channel and discards parked data. -/
  | channelAbort (n : Fin 32)
  /-- DESCRIPTOR_FETCH (R359). Channel fetches and checks a descriptor. -/
  | descriptorFetch (n : Fin 32)
  /-- BURST (R363). Start of a Skidder burst by an eligible channel. -/
  | skdBurst (n : Fin 32) (inFlight : Bool)
  /-- DESCRIPTOR_DONE (R359). Last data write of a descriptor followed by write-back and IRQ. -/
  | descriptorDone (n : Fin 32)
  /-- REQUEST_ASSERTED (R364). A Jelek queue's request returns and a paced channel resumes. -/
  | requestAsserted (port : Fin 64)
  /-- REQUEST_WITHDRAWN (R365). A Jelek queue's request is withdrawn and in-flight data are parked. -/
  | requestWithdrawn (port : Fin 64)
  /-- TRANSFER_ERROR (R367). A failed Skidder access halts every channel. -/
  | transferError (n : Fin 32) (isDesc : Bool) (isRead : Bool) (space : Fin 4) (cause : Fin 5) (addr : W64)
  /-- DRAIN_COMPLETE (R367). Outstanding accesses end after a halt and channels become HALTED. -/
  | drainComplete
  /-- HALT_CLR (R368). Write that clears the Skidder halt. -/
  | haltClr
  /-- REFILL (R374). Refill of every Choker and ingress bucket every 1,024 CLK_FAB cycles. -/
  | refill
  /-- FRAME_ENQUEUE (R372). Entry of a frame into a network queue or its drop. -/
  | frameEnqueue
  /-- FRAME_TRANSMIT (R376). A MAC instance's scheduler chooses and starts the next frame. -/
  | frameTransmit (inst : Fin 8) (stamp : W64) (frac : BitVec 16)
  /-- JELEK_QUEUE_RELEASE (R381). A Jelek queue releases its oldest cell to the port. -/
  | jelekQueueRelease (port : Fin 64)
  /-- HTX_TAIL (R383). Write of a host transmit ring tail that makes descriptors available. -/
  | htxTail (r : Fin 4) (v : W32)
  /-- HTX_DESCRIPTOR (R384). Reading of a host transmit descriptor and copying of its frame. -/
  | htxDescriptor (r : Fin 4) (ok : Bool)
  /-- HTX_WRITEBACK (R384). Write-back of a descriptor after its frame left or was dropped. -/
  | htxWriteback (r : Fin 4)
  /-- SRAM_CE (R388). Correction of a single-bit SRAM error. -/
  | sramCe (lamp : Bool) (addr : Fin 67108864)
  /-- SRAM_UE (R389). Uncorrectable SRAM error handled by its data's owner. -/
  | sramUe (lamp : Bool) (addr : Fin 67108864) (use : YardUse)
  /-- YARD_SCRUB (R388). Once-a-second read of every yard word. -/
  | yardScrub (ce : List (Fin 67108864))
  /-- SRAM_INIT (R391). Power-on SRAM test and zero fill ending in INIT_DONE. -/
  | sramInit (rows : List (Fin 131072))
  /-- HBM_INIT (R393). Training, lane test and zero fill of a stack ending in INIT_DONE. -/
  | hbmInit (stack : Fin 2) (failed : Option (Fin 16)) (lanes : List (Fin 16 × Bool))
  /-- REFRESH (R397). Per-bank refresh at the required interval. -/
  | hbmRefresh (stack : Fin 2)
  /-- NEIGHBOUR_REFRESH (R398). Refresh of rows adjacent to an activated row. -/
  | neighbourRefresh (stack : NearRefresh)
  /-- SELF_REFRESH_ENTRY (R399). After IDLE µs without requests, a stack enters self-refresh. -/
  | selfRefreshEntry (stack : Fin 2)
  /-- SELF_REFRESH_EXIT (R399). A request or PWR_FAIL_N starts exit from self-refresh. -/
  | selfRefreshExit (stack : Fin 2)
  /-- HBM_CE (R400). Correction of an HBM read error. -/
  | hbmCe (addr : Fin 51539607552)
  /-- HBM_UE (R400). Uncorrectable HBM read returned poisoned to its requester. -/
  | hbmUe (addr : Fin 51539607552) (user : HbmUser)
  /-- HBM_SCRUB (R400). Periodic read of a whole stack to correct errors. -/
  | hbmScrub (stack : Fin 2) (ce : List (Fin 51539607552)) (ue : List (Fin 51539607552))
  /-- HBM_RETRAIN (R401). Periodic or temperature-driven retraining with lane repair. -/
  | hbmRetrain (stack : Fin 2) (lanes : List (Fin 16 × Bool))
  /-- PPR_GO (R402). PPR_CTL.GO that repairs a candidate row by post-package repair. -/
  | pprGo (stack : Fin 2) (entry : Fin 16)
  /-- BIST_GO (R403). BIST_CTL.GO that runs the memory self-test of a page. -/
  | bistGo (mem : Fin 3)
  /-- FLIT_RECEIVED (R409). Receipt of a Cororn flit, with replay on error. -/
  | flitReceived (link : Fin 4) (flit : List Byte) (ack : Option (BitVec 12)) (again : Option (BitVec 12))
  /-- REPLAY_FAIL (R409). Eight replays or 100 µs without acknowledgement take a link down. -/
  | replayFail (link : Fin 4)
  /-- DISCOVERY (R410). Lead candidate trains links, discovers and numbers the stand. -/
  | discovery (d : Discovered)
  /-- CS_COPY (R413). Parent copies its control store into a numbered member. -/
  | csCopy (child : Fin 64) (words : List W32) (check : W32) (checkEn : Bool)
  /-- REG_MESSAGE (R415). REG message carrying a register access or proxied host request. -/
  | regMessage (m : RegMsg)
  /-- TIME_EXCHANGE (R416). 100 µs exchange of TIME flits measuring link delay. -/
  | timeExchange (link : Fin 4) (t1 : W64) (t2 : W64) (t3 : W64) (t4 : W64)
  /-- TIME_CORRECTION (R416). 10 µs stand-time message that disciplines the child's counter. -/
  | timeCorrection (link : Fin 4) (parent : W64) (parentFrac : BitVec 16) (own : W64)
  /-- BEACON (R425). Lead broadcasts a BEACON at slot 0 of every wall frame. -/
  | beaconSend
  /-- BEACON_RX (R425). Member compares OP_SEQ and detects a missed operation. -/
  | beaconRx (frame : BitVec 48) (opSeq : W32) (epoch : W32) (exceeded : Bool)
  /-- RESYNC (R425). Application of a resynchronisation at its epoch on a member. -/
  | resync (mode : StandMode) (reset : Bool) (opSeq : W32)
  /-- PARENT_LINK_DOWN (R426). Loss of a parent link that re-forms the tree or isolates engines. -/
  | parentLinkDown (link : Fin 4) (path : Option (Fin 4)) (lost : W64)
  /-- BEACON_MISS (R426). Three wall frames without a BEACON isolate an engine. -/
  | beaconMiss
  /-- ISO_HOLD_EXPIRY (R426). End of ISO_HOLD that blanks an isolated engine. -/
  | isoHoldExpiry
  /-- REJOIN (R426). Isolated engine rejoins with its number and is treated as missed. -/
  | standRejoin (engine : Fin 64) (link : Fin 4)
  /-- FATAL_BROADCAST (R427). Receipt of a FATAL broadcast that enters DEVICE_FATAL. -/
  | fatalBroadcast (engine : Fin 64)
  /-- SNAPSHOT_LATCH (R423). Latch of register words at the snapshot stand time and writing to SNAP_BASE. -/
  | snapshotLatch (t : W64)
  /-- SHARE_SEND (R428). Source engine sends a READY picture as a SHARE stream. -/
  | shareSend (n : Fin 256) (slot : Option (Fin 64))
  /-- SHARE_RECEIVE (R429). Sink makes a picture READY once all its flits arrive. -/
  | shareReceive (n : Fin 256) (src : Fin 64) (pic : Option SharePic)
  /-- REFCLK_LOST (R435). Clock monitor declares REFCLK lost and the engine halts. -/
  | refclkLost
  /-- POWER_ON_RESET (R441). Release of reset that runs the power-on sequence. -/
  | powerOnReset (x : PowerOn)
  /-- BOOT_LOADER (R444). Boot loader reads the flash image and applies its entries. -/
  | bootLoader (flash : Option (List Byte))
  /-- WARM (R438). RST_CTL write with KEY and WARM that warm-resets the engine. -/
  | warmReset (v : W32)
  /-- FUNCTION_LEVEL_RESET (R438). PCIe FLR of the lead function that resets the engine and members. -/
  | functionLevelReset
  /-- PWR_FAIL_ASSERT (R440). Recognised PWR_FAIL_N assertion that blanks and folds the Tally. -/
  | pwrFailAssert
  /-- PWR_FAIL_RELEASE (R440). 10 ms of deasserted PWR_FAIL_N that releases BLACK. -/
  | pwrFailRelease
  /-- SRC_CFG_WRITE (R445). Write of the timing source selection. -/
  | srcCfgWrite (v : W32)
  /-- STEP (R448). 64-bit write of STEP that steps stand time and the grid. -/
  | stStep (v : W64)
  /-- ADJ_FREQ (R447). Write of the stand-time rate correction. -/
  | adjFreq (v : W32)
  /-- HOLD (R447). SRC_CTL.HOLD write that forces holdover. -/
  | srcHold (on : Bool)
  /-- SERVO_TIMEOUT (R447). SERVO_TO ms without a servo write enter holdover. -/
  | servoTimeout
  /-- REF_FS_PULSE (R449). Stamped REF_FS edge that disciplines the wall-frame grid. -/
  | refFsPulse (stamp : W64)
  /-- REF_FS_MISSING (R450). Expected pulse missing; flywheel or holdover. -/
  | refFsMissing
  /-- WALL_FRAME_BOUNDARY (R446). Start of a wall frame on the grid, advancing the counter. -/
  | wallFrameBoundary
  /-- HOLD_LIMIT_EXPIRY (R450). Holdover lasting HOLD_LIMIT s blanks every port. -/
  | holdLimitExpiry
  /-- PPS_IN (R451). Stamping of a PPS_IN rising edge. -/
  | ppsIn (stamp : W64)
  /-- ST_LO_READ (R453). Read of ST_LO that latches the high word and fraction. -/
  | stLoRead
  /-- TXTS_INFO_READ (R453). Read of TXTS_INFO that pops a transmit stamp. -/
  | txtsInfoRead
  /-- DEVICE_FATAL (R460). Entry into DEVICE_FATAL that blanks all ports and halts the engine. -/
  | deviceFatal (cause : Fin 6)
  /-- FATAL_FORCE (R459). Keyed write that forces DEVICE_FATAL. -/
  | fatalForce (v : W32)
  /-- FATAL_REC_CLEAR (R456). Write of 1 to FATAL_REC0 bit 31 that clears the fatal record. -/
  | fatalRecClear
  /-- RETIRE_REQ (R465). Host request to retire a core or lane in advance. -/
  | retireReq (v : W32) (badSpares : List Nat)
  /-- THERMAL_SAMPLE (R468). 100 µs sampling of temperatures that warns, alerts or trips. -/
  | thermalSample (sensor : BitVec 8) (junction : BitVec 8) (stack0 : BitVec 8) (stack1 : BitVec 8)
  /-- POWER_ON_RESET_ASSERTED (R471). Power-on reset asserts within 1 µs of a rail leaving its limits or of PERST_N going low, halting the engine and losing its state. -/
  | powerOnResetAsserted (supply : Bool)
  /-- L1_ENTRY (R84). The host link enters L1 under ASPM when idle, setting PM_STAT.L1. -/
  | l1Entry
  /-- TILE_UPSTREAM_CELL_RX (R262). A tile receives a non-IDLE cell on its OUT connector and forwards it unchanged to IN at constant latency FWD_UP. -/
  | tileUpstreamCellRx (port : Fin 64) (k : Fin 128) (cell : List Byte)
  /-- ENUM_ASSIGN_TIMEOUT (R278). 2 ms after the ASSIGNs a tile that has not reported ASSIGNED is left without a position and counted in STATUS_MISS. -/
  | enumAssignTimeout (port : Fin 64)
  /-- TILE_CONFIRM_DONE (R232). The engine finishes a TILE_CONFIRM write, within 1 ms per 65,536 lamp pixels, and clears TILE_STAT.BUSY. -/
  | tileConfirmDone
  /-- PPR_DONE (R402). A hard post-package repair finishes within 250 ms, zero-fills the new row, clears the entry and sets PPR_STAT DONE and INT_CAUSE.PPR_DONE. -/
  | pprDone (stack : Fin 2)
  /-- BIST_DONE (R403). A memory self-test ends after 30 ms (YRD) or 2 s (HBM), sets INIT_DONE, RESULT PASS or FAIL and INT_CAUSE.BIST_DONE. -/
  | bistDone (mem : Fin 3) (pass : Bool) (rows : List (BitVec 30))
deriving DecidableEq, Repr

end Sys2Proof
end

