-- ==== Sys2Proof/Decode.lean ====
section
/-! DEFINITION. The commands that words spell by the operation table's bits. -/
namespace Sys2Proof

/-- The command a word of the operation table spells: the table of this block gives no row any bits, so none does. -/
def decodeTableWord (_nbits _w : Nat) : Option Instr := none

end Sys2Proof
end

