-- ==== Sys2Proof/Machine/Fixed.lean ====
section
/-! DEFINITION. The transcendental functions that the formulas of the colour path, the filters and the wear model name,
computed on fixed-point numbers with 60 fraction bits (DESIGN CHOICE, log 5: far finer than any rounding the spec asks
for). -/
namespace Sys2Proof.Machine

/-- One in fixed point. -/
def fx1 : Nat := 2 ^ 60

/-- Bits of the base-2 logarithm of a number in [1, 2). -/
def log2Bits : Nat → Nat → Nat
  | 0, _ => 0
  | n + 1, y =>
    let z := y * y / fx1
    if 2 * fx1 ≤ z then 2 ^ n + log2Bits n (z / 2) else log2Bits n z

/-- Base-2 logarithm of a positive rational, 60 fraction bits. -/
def log2Fx (x : Rat) : Int :=
  let n := x.num.toNat
  let y := n * 2 ^ (60 + x.den.log2) / (x.den * 2 ^ n.log2)
  let e : Int := (n.log2 : Int) - x.den.log2
  if y < fx1 then (e - 1) * fx1 + log2Bits 60 (2 * y) else e * fx1 + log2Bits 60 y

/-- Product of the roots 2^(1/2), 2^(1/4), … that the bits of a fraction select, high bit first. -/
def exp2Bits (f : Nat) : Nat → Nat → Nat → Nat
  | 0, _, acc => acc
  | n + 1, root, acc =>
    let root := Nat.sqrt (root * fx1)
    exp2Bits f n root (if f.testBit n then acc * root / fx1 else acc)

/-- Two to a power with 60 fraction bits. -/
def exp2Fx (v : Int) : Rat :=
  let f := (v % (fx1 : Int)).toNat
  let m : Rat := (exp2Bits f 60 (2 * fx1) fx1 : Rat) / fx1
  let e := v / (fx1 : Int)
  if 0 ≤ e then m * 2 ^ e.toNat else m / 2 ^ (-e).toNat

/-- Power of a rational that is not negative. -/
def ratPow (x p : Rat) : Rat := if x ≤ 0 then 0 else exp2Fx ((log2Fx x : Rat) * p).floor

/-- Base-2 logarithm of a positive rational. -/
def ratLog2 (x : Rat) : Rat := (log2Fx x : Rat) / fx1

/-- The number π. -/
def ratPi : Rat := 3141592653589793238462643 / 1000000000000000000000000

/-- Terms of the sine series. -/
def sinSeries (x2 : Rat) : Nat → Rat → Nat → Rat
  | 0, _, _ => 0
  | n + 1, term, k => term + sinSeries x2 n (-(term * x2) / ((2 * k + 2) * (2 * k + 3) : Nat)) (k + 1)

/-- A rational cut to 60 fraction bits. -/
def cut60 (x : Rat) : Rat := ((x * fx1).floor : Rat) / fx1

/-- sin(πz). -/
def sinPi (z : Rat) : Rat :=
  let w := z - 2 * (z / 2).floor
  let r := if w ≤ 1 / 2 then w else if w ≤ 3 / 2 then 1 - w else w - 2
  let x := cut60 (r * ratPi)
  sinSeries (cut60 (x * x)) 14 x 0

/-- sinc(z) = sin(πz) / (πz), 1 at 0. -/
def sinc (z : Rat) : Rat := if z = 0 then 1 else sinPi z / (ratPi * z)

/-- Nearest integer, halves up. -/
def roundHalf (x : Rat) : Int := (x + 1 / 2).floor

/-- A rational held to an interval. -/
def ratClamp (lo hi x : Rat) : Rat := max lo (min hi x)

end Sys2Proof.Machine
end

