-- ==== Sys2Proof/Config.lean ====
section
/-! DEFINITION. What one implementation fixes and the spec leaves open: free values with no body. -/
namespace Sys2Proof.Config

/-- Free values, one for each number of the state's counter of free values taken. Nothing constrains them
(DESIGN CHOICE, safe: assumption log 3). -/
opaque freeValue : Nat → BitVec 64

/-- The unique die number in the fuses (Table 18.10, DIE_ID: reset "Fuses"). DESIGN CHOICE, safe: log 3. -/
opaque dieId : BitVec 64

/-- Deviation of an entry of an EOTF table from its formula, by colour, peak or white, and index, in LIN24; R212 bounds
it and the model keeps the bound. DESIGN CHOICE, safe: log 3. -/
opaque eotfError : Nat → Nat → Nat → Rat

/-- Deviation of a component of HLG's light from its formula, by the colour register, R′, G′, B′ and the component, in
LIN24; R212 bounds it and the model keeps the bound. DESIGN CHOICE, safe: log 3. -/
opaque hlgError : Nat → Rat → Rat → Rat → Nat → Rat

/-- Deviation of the computed -512 log2(η) from the exact one, by η in Q1.15; R240 bounds it and the model keeps the
bound. DESIGN CHOICE, safe: log 3. -/
opaque compError : Nat → Rat

/-- Quantiser step of an AV1 qindex, by bit depth (R171 names it; the codec's standard gives it). DESIGN CHOICE, safe:
log 3. -/
opaque av1Step : Bool → Nat → Nat

/-- λ of a motion search by codec and quantiser, and the bits of a vector in quarter pixels (R178 states neither). DESIGN
CHOICE, safe: log 3. -/
opaque motionLambda : Nat → Nat → Nat
opaque vectorBits : Nat → Int → Int → Nat

/-- A sample between whole pixels by codec, its quarter phases across and down, and the 8 × 8 samples around it; the
SATD of a block's differences (R178 states neither). DESIGN CHOICE, safe: log 3. -/
opaque subSample : Nat → Nat → Nat → List Int → Int
opaque satd : Nat → List Int → Nat

end Sys2Proof.Config
end

