-- ==== Sys2Proof/Machine/RegTable.lean ====
section
/-! DEFINITION. The page map (Table 2.2) and the register tables of every block: offsets, access codes,
writable bits and reset values, as the register summaries of the chapters give them (R6, R7, R28, R29). -/
namespace Sys2Proof.Machine

/-- The blocks of Table 2.2. -/
inductive Blk where
  | dev | clk | hif | wqm | eic | ycs | skd | chk | ysq | net | dbk | flm | hbm | yrd | tim | lnd | lmp
  | tly | std | crn | dec | enc | xsd | jlk
deriving DecidableEq, Repr

/-- First page of a block's range (Table 2.2). -/
def Blk.first : Blk → Nat
  | .dev => 0x000 | .clk => 0x001 | .hif => 0x002 | .wqm => 0x003 | .eic => 0x004 | .ycs => 0x005
  | .skd => 0x006 | .chk => 0x007 | .ysq => 0x008 | .net => 0x010 | .dbk => 0x012 | .flm => 0x013
  | .hbm => 0x014 | .yrd => 0x016 | .tim => 0x017 | .lnd => 0x018 | .lmp => 0x019 | .tly => 0x01A
  | .std => 0x01B | .crn => 0x01C | .dec => 0x020 | .enc => 0x048 | .xsd => 0x05C | .jlk => 0x080

/-! First pages of the blocks, as numbers (Table 2.2). -/
abbrev pDev : Nat := 0x000
abbrev pClk : Nat := 0x001
abbrev pHif : Nat := 0x002
abbrev pWqm : Nat := 0x003
abbrev pEic : Nat := 0x004
abbrev pYcs : Nat := 0x005
abbrev pSkd : Nat := 0x006
abbrev pChk : Nat := 0x007
abbrev pYsq : Nat := 0x008
abbrev pNet : Nat := 0x010
abbrev pDbk : Nat := 0x012
abbrev pFlm : Nat := 0x013
abbrev pHbm : Nat := 0x014
abbrev pYrd : Nat := 0x016
abbrev pTim : Nat := 0x017
abbrev pLnd : Nat := 0x018
abbrev pLmp : Nat := 0x019
abbrev pTly : Nat := 0x01A
abbrev pStd : Nat := 0x01B
abbrev pCrn : Nat := 0x01C
abbrev pDec : Nat := 0x020
abbrev pEnc : Nat := 0x048
abbrev pXsd : Nat := 0x05C
abbrev pJlk : Nat := 0x080

/-- Number of pages of a block (Table 2.2). -/
def Blk.count : Blk → Nat
  | .ysq => 8 | .net => 2 | .hbm => 2 | .crn => 4 | .dec => 36 | .enc => 18 | .xsd => 9 | .jlk => 64
  | _ => 1

/-- Block type that PAGE_ID.TYPE reports (Table 2.2). -/
def Blk.typeCode : Blk → Nat
  | .dev => 0x01 | .clk => 0x02 | .hif => 0x03 | .wqm => 0x04 | .eic => 0x05 | .ycs => 0x06 | .skd => 0x07
  | .chk => 0x08 | .ysq => 0x09 | .net => 0x0A | .dbk => 0x0B | .flm => 0x0C | .hbm => 0x0D | .yrd => 0x0E
  | .tim => 0x0F | .lnd => 0x10 | .lmp => 0x11 | .tly => 0x12 | .std => 0x13 | .crn => 0x14 | .dec => 0x15
  | .enc => 0x16 | .xsd => 0x17 | .jlk => 0x18

/-- Every block. -/
def Blk.all : List Blk :=
  [.dev, .clk, .hif, .wqm, .eic, .ycs, .skd, .chk, .ysq, .net, .dbk, .flm, .hbm, .yrd, .tim, .lnd, .lmp,
   .tly, .std, .crn, .dec, .enc, .xsd, .jlk]

/-- The page number of unit `i` of a block. -/
def Blk.page (b : Blk) (i : Nat := 0) : Nat := b.first + i

/-- The block a page belongs to; `none` for an unimplemented page and for WQP, which has no header (R27, R28). -/
def blkOf (p : Nat) : Option Blk := Blk.all.find? fun b => b.first ≤ p ∧ p < b.first + b.count

/-- Access codes (Table 0.4). -/
inductive Acc where | ro | rw | rl | pw | w1c | wo
deriving DecidableEq, Repr

/-- One row of a register summary: `count` words `stride` bytes apart from `off`, with the code and the mask of
their writable bits, the reset value, and whether the word is the low half of a 64-bit pair. -/
structure RegDesc where
  off : Nat
  stride : Nat
  count : Nat
  acc : Acc
  mask : Nat
  reset : Nat
  pairLo : Bool
deriving DecidableEq, Repr

abbrev O.PAGE_ID : Nat := 0x0000
abbrev O.PAGE_CTL : Nat := 0x0004
abbrev O.PAGE_STAT : Nat := 0x0008
abbrev O.INT_CAUSE : Nat := 0x0010
abbrev O.INT_MASK : Nat := 0x0014
abbrev O.INT_FORCE : Nat := 0x0018
abbrev O.INT_ROUTE : Nat := 0x001C
abbrev O.ERR_CAPTURE : Nat := 0x0020
abbrev O.ERR_INFO : Nat := 0x0024
abbrev O.ERR_ADDR_LO : Nat := 0x0028
abbrev O.ERR_ADDR_HI : Nat := 0x002C
abbrev O.IND_SEL : Nat := 0x0040
abbrev O.IND_DATA : Nat := 0x0044
abbrev O.IND_CTL : Nat := 0x0048
/-- Register words of the common page header (spec tables 2.3). -/
def regsCommon : List RegDesc := [
  ⟨O.PAGE_ID, 0x4, 1, .ro, 0x00000000, 0x00000000, false⟩,
  ⟨O.PAGE_CTL, 0x4, 1, .pw, 0x00000003, 0x00000000, false⟩,
  ⟨O.PAGE_STAT, 0x4, 1, .ro, 0x00000000, 0x00000000, false⟩,
  ⟨O.INT_CAUSE, 0x4, 1, .w1c, 0xFFFFFFFF, 0x00000000, false⟩,
  ⟨O.INT_MASK, 0x4, 1, .rw, 0xFFFFFFFF, 0x00000000, false⟩,
  ⟨O.INT_FORCE, 0x4, 1, .wo, 0xFFFFFFFF, 0x00000000, false⟩,
  ⟨O.INT_ROUTE, 0x4, 1, .rw, 0xC7FF03FF, 0x00000000, false⟩,
  ⟨O.ERR_CAPTURE, 0x4, 1, .ro, 0x00000000, 0x00000000, false⟩,
  ⟨O.ERR_INFO, 0x4, 1, .ro, 0x00000000, 0x00000000, false⟩,
  ⟨O.ERR_ADDR_LO, 0x4, 1, .ro, 0x00000000, 0x00000000, true⟩,
  ⟨O.ERR_ADDR_HI, 0x4, 1, .ro, 0x00000000, 0x00000000, false⟩,
  ⟨O.IND_SEL, 0x4, 1, .rw, 0xFFFFFFFF, 0x00000000, false⟩,
  ⟨O.IND_DATA, 0x4, 1, .rw, 0xFFFFFFFF, 0x00000000, false⟩,
  ⟨O.IND_CTL, 0x4, 1, .rw, 0x00000007, 0x00000000, false⟩]

abbrev O.DEV_FLAGS : Nat := 0x0100
abbrev O.DEV_CHIP_ID : Nat := 0x0800
abbrev O.DEV_DIE_ID_LO : Nat := 0x0804
abbrev O.DEV_DIE_ID_HI : Nat := 0x0808
abbrev O.DEV_TEMP : Nat := 0x0810
abbrev O.DEV_THERM_CFG : Nat := 0x0814
abbrev O.DEV_RETIRE_REQ : Nat := 0x0818
abbrev O.DEV_RETIRE_STAT : Nat := 0x081C
abbrev O.DEV_FLOG_HEAD : Nat := 0x0820
abbrev O.DEV_FLOG_COUNT : Nat := 0x0824
abbrev O.DEV_FATAL_FORCE : Nat := 0x0828
abbrev O.DEV_FATAL_REC : Nat := 0x0830
/-- Register words of block DEV (spec tables 18.10). -/
def regsDev : List RegDesc := [
  ⟨O.DEV_FLAGS, 0x4, 1, .ro, 0x00000000, 0x00000000, false⟩,
  ⟨O.DEV_CHIP_ID, 0x4, 1, .ro, 0x00000000, 0x644000A2, false⟩,
  ⟨O.DEV_DIE_ID_LO, 0x4, 1, .ro, 0x00000000, 0x00000000, true⟩,
  ⟨O.DEV_DIE_ID_HI, 0x4, 1, .ro, 0x00000000, 0x00000000, false⟩,
  ⟨O.DEV_TEMP, 0x4, 1, .ro, 0x00000000, 0x00000000, false⟩,
  ⟨O.DEV_THERM_CFG, 0x4, 1, .rw, 0x000000FF, 0x0000005F, false⟩,
  ⟨O.DEV_RETIRE_REQ, 0x4, 1, .wo, 0xFF0000FF, 0x00000000, false⟩,
  ⟨O.DEV_RETIRE_STAT, 0x4, 1, .ro, 0x00000000, 0x00000000, false⟩,
  ⟨O.DEV_FLOG_HEAD, 0x4, 1, .ro, 0x00000000, 0x00000000, false⟩,
  ⟨O.DEV_FLOG_COUNT, 0x4, 1, .ro, 0x00000000, 0x00000000, false⟩,
  ⟨O.DEV_FATAL_FORCE, 0x4, 1, .wo, 0xFFFF0001, 0x00000000, false⟩,
  ⟨O.DEV_FATAL_REC, 0x4, 4, .ro, 0x00000000, 0x00000000, false⟩]

abbrev O.CLK_FLAGS : Nat := 0x0100
abbrev O.CLK_RST_CTL : Nat := 0x0800
abbrev O.CLK_RST_CAUSE : Nat := 0x0804
abbrev O.CLK_BOOT_STAT : Nat := 0x0808
abbrev O.CLK_REFCLK_KHZ : Nat := 0x080C
abbrev O.CLK_CNT_PWR_FAIL : Nat := 0x0810
/-- Register words of block CLK (spec tables 17.12). -/
def regsClk : List RegDesc := [
  ⟨O.CLK_FLAGS, 0x4, 1, .ro, 0x00000000, 0x00000003, false⟩,
  ⟨O.CLK_RST_CTL, 0x4, 1, .wo, 0xFFFF0003, 0x00000000, false⟩,
  ⟨O.CLK_RST_CAUSE, 0x4, 1, .ro, 0x00000000, 0x00000001, false⟩,
  ⟨O.CLK_BOOT_STAT, 0x4, 1, .ro, 0x00000000, 0x00000000, false⟩,
  ⟨O.CLK_REFCLK_KHZ, 0x4, 1, .ro, 0x00000000, 0x00000000, false⟩,
  ⟨O.CLK_CNT_PWR_FAIL, 0x4, 1, .ro, 0x00000000, 0x00000000, false⟩]

abbrev O.HIF_PM_STAT : Nat := 0x0100
abbrev O.HIF_BUSERR_LOG : Nat := 0x0800
abbrev O.HIF_BUSERR_ADDR_LO : Nat := 0x0808
abbrev O.HIF_BUSERR_ADDR_HI : Nat := 0x080C
abbrev O.HIF_BUSERR_COUNT : Nat := 0x0810
abbrev O.HIF_LINK_STAT : Nat := 0x0820
abbrev O.HIF_LINK_RECOV : Nat := 0x0824
abbrev O.HIF_HELD_CQE : Nat := 0x0828
abbrev O.HIF_PBA : Nat := 0x7000
abbrev O.HIF_MSIX_ADDR_LO : Nat := 0x8000
abbrev O.HIF_MSIX_ADDR_HI : Nat := 0x8004
abbrev O.HIF_MSIX_DATA : Nat := 0x8008
abbrev O.HIF_MSIX_CTRL : Nat := 0x800C
/-- Register words of block HIF (spec tables 2.15, 3.2). -/
def regsHif : List RegDesc := [
  ⟨O.HIF_PM_STAT, 0x4, 1, .ro, 0x00000000, 0x00000000, false⟩,
  ⟨O.HIF_BUSERR_LOG, 0x4, 1, .w1c, 0x80000000, 0x00000000, false⟩,
  ⟨O.HIF_BUSERR_ADDR_LO, 0x4, 1, .ro, 0x00000000, 0x00000000, true⟩,
  ⟨O.HIF_BUSERR_ADDR_HI, 0x4, 1, .ro, 0x00000000, 0x00000000, false⟩,
  ⟨O.HIF_BUSERR_COUNT, 0x4, 1, .ro, 0x00000000, 0x00000000, false⟩,
  ⟨O.HIF_LINK_STAT, 0x4, 1, .ro, 0x00000000, 0x00000000, false⟩,
  ⟨O.HIF_LINK_RECOV, 0x4, 1, .ro, 0x00000000, 0x00000000, false⟩,
  ⟨O.HIF_HELD_CQE, 0x4, 1, .ro, 0x00000000, 0x00000000, false⟩,
  ⟨O.HIF_PBA, 0x4, 64, .ro, 0x00000000, 0x00000000, false⟩,
  ⟨O.HIF_MSIX_ADDR_LO, 0x10, 2048, .rw, 0xFFFFFFFC, 0x00000000, true⟩,
  ⟨O.HIF_MSIX_ADDR_HI, 0x10, 2048, .rw, 0xFFFFFFFF, 0x00000000, false⟩,
  ⟨O.HIF_MSIX_DATA, 0x10, 2048, .rw, 0xFFFFFFFF, 0x00000000, false⟩,
  ⟨O.HIF_MSIX_CTRL, 0x10, 2048, .rw, 0x00000001, 0x00000001, false⟩]

abbrev O.WQM_QERR_MAP : Nat := 0x0100
abbrev O.WQM_CNT_JOBS : Nat := 0x0800
abbrev O.WQM_CNT_PUSH_USED : Nat := 0x0804
abbrev O.WQM_CNT_PUSH_FALLBACK : Nat := 0x0808
abbrev O.WQM_CNT_MALFORMED : Nat := 0x080C
abbrev O.WQM_SQ_BASE_LO : Nat := 0x2000
abbrev O.WQM_SQ_BASE_HI : Nat := 0x2004
abbrev O.WQM_QCFG : Nat := 0x2008
abbrev O.WQM_QSTAT : Nat := 0x200C
abbrev O.WQM_QPTR : Nat := 0x2010
abbrev O.WQM_QERR : Nat := 0x2014
abbrev O.WQM_QJOBS : Nat := 0x2018
abbrev O.WQM_CQ_BASE_LO : Nat := 0x7000
abbrev O.WQM_CQ_BASE_HI : Nat := 0x7004
abbrev O.WQM_CQCFG : Nat := 0x7008
abbrev O.WQM_CQSTAT : Nat := 0x700C
abbrev O.WQM_CQMOD : Nat := 0x7010
abbrev O.WQM_CQHEAD : Nat := 0x7014
abbrev O.WQM_CQ_RESV : Nat := 0x7018
abbrev O.WQM_SQ_DB : Nat := 0xC000
abbrev O.WQM_CQ_DB : Nat := 0xD000
/-- Register words of block WQM (spec tables 3.5, 3.6, 3.7). -/
def regsWqm : List RegDesc := [
  ⟨O.WQM_QERR_MAP, 0x4, 17, .ro, 0x00000000, 0x00000000, false⟩,
  ⟨O.WQM_CNT_JOBS, 0x4, 1, .ro, 0x00000000, 0x00000000, false⟩,
  ⟨O.WQM_CNT_PUSH_USED, 0x4, 1, .ro, 0x00000000, 0x00000000, false⟩,
  ⟨O.WQM_CNT_PUSH_FALLBACK, 0x4, 1, .ro, 0x00000000, 0x00000000, false⟩,
  ⟨O.WQM_CNT_MALFORMED, 0x4, 1, .ro, 0x00000000, 0x00000000, false⟩,
  ⟨O.WQM_SQ_BASE_LO, 0x20, 528, .rw, 0xFFFFF000, 0x00000000, true⟩,
  ⟨O.WQM_SQ_BASE_HI, 0x20, 528, .rw, 0xFFFFFFFF, 0x00000000, false⟩,
  ⟨O.WQM_QCFG, 0x20, 528, .rw, 0xE0FF000F, 0x00000000, false⟩,
  ⟨O.WQM_QSTAT, 0x20, 528, .ro, 0x00000000, 0x00000000, false⟩,
  ⟨O.WQM_QPTR, 0x20, 528, .rw, 0x0000FFFF, 0x00000000, false⟩,
  ⟨O.WQM_QERR, 0x20, 528, .ro, 0x00000000, 0x00000000, false⟩,
  ⟨O.WQM_QJOBS, 0x20, 528, .ro, 0x00000000, 0x00000000, false⟩,
  ⟨O.WQM_CQ_BASE_LO, 0x20, 256, .rw, 0xFFFFF000, 0x00000000, true⟩,
  ⟨O.WQM_CQ_BASE_HI, 0x20, 256, .rw, 0xFFFFFFFF, 0x00000000, false⟩,
  ⟨O.WQM_CQCFG, 0x20, 256, .rw, 0xC7FF000F, 0x00000000, false⟩,
  ⟨O.WQM_CQSTAT, 0x20, 256, .ro, 0x00000000, 0x00000000, false⟩,
  ⟨O.WQM_CQMOD, 0x20, 256, .rw, 0xFFFFFFFF, 0x00000000, false⟩,
  ⟨O.WQM_CQHEAD, 0x20, 256, .ro, 0x00000000, 0x00000000, false⟩,
  ⟨O.WQM_CQ_RESV, 0x20, 256, .ro, 0x00000000, 0x00000000, false⟩,
  ⟨O.WQM_SQ_DB, 0x4, 528, .wo, 0x8000FFFF, 0x00000000, false⟩,
  ⟨O.WQM_CQ_DB, 0x4, 256, .wo, 0x0000FFFF, 0x00000000, false⟩]

abbrev O.EIC_PEND_MAP : Nat := 0x0100
abbrev O.EIC_DOORBELL : Nat := 0x0800
abbrev O.EIC_CNT_RAISES : Nat := 0x0804
abbrev O.EIC_CNT_COALESCED : Nat := 0x0808
abbrev O.EIC_CNT_DISABLED : Nat := 0x080C
abbrev O.EIC_CNT_PRESENTED : Nat := 0x0810
/-- Register words of block EIC (spec tables 12.15). -/
def regsEic : List RegDesc := [
  ⟨O.EIC_PEND_MAP, 0x4, 32, .ro, 0x00000000, 0x00000000, false⟩,
  ⟨O.EIC_DOORBELL, 0x4, 1, .wo, 0x000003FF, 0x00000000, false⟩,
  ⟨O.EIC_CNT_RAISES, 0x4, 1, .ro, 0x00000000, 0x00000000, false⟩,
  ⟨O.EIC_CNT_COALESCED, 0x4, 1, .ro, 0x00000000, 0x00000000, false⟩,
  ⟨O.EIC_CNT_DISABLED, 0x4, 1, .ro, 0x00000000, 0x00000000, false⟩,
  ⟨O.EIC_CNT_PRESENTED, 0x4, 1, .ro, 0x00000000, 0x00000000, false⟩]

abbrev O.YCS_STAT_BASE_LO : Nat := 0x0800
abbrev O.YCS_STAT_BASE_HI : Nat := 0x0804
abbrev O.YCS_ROUTINE_CFG : Nat := 0x0808
abbrev O.YCS_CNT_ADMIT_OK : Nat := 0x0810
abbrev O.YCS_CNT_ADMIT_FAIL : Nat := 0x0814
abbrev O.YCS_CNT_LEDGER_WRITES : Nat := 0x0818
abbrev O.YCS_CNT_LEDGER_FAIL : Nat := 0x081C
abbrev O.YCS_CS_CTL : Nat := 0x0900
abbrev O.YCS_CS_CHECK : Nat := 0x0904
abbrev O.YCS_CS_CRC : Nat := 0x0908
abbrev O.YCS_CS_SRC : Nat := 0x090C
abbrev O.YCS_CNT_CS_CORR : Nat := 0x0910
abbrev O.YCS_CS_UE_ADDR : Nat := 0x0914
/-- Register words of block YCS (spec tables 11.11, 12.14). -/
def regsYcs : List RegDesc := [
  ⟨O.YCS_STAT_BASE_LO, 0x4, 1, .rl, 0xFFFF0000, 0x00000000, true⟩,
  ⟨O.YCS_STAT_BASE_HI, 0x4, 1, .rl, 0xFFFFFFFF, 0x00000000, false⟩,
  ⟨O.YCS_ROUTINE_CFG, 0x4, 1, .rw, 0x000000FF, 0x00000008, false⟩,
  ⟨O.YCS_CNT_ADMIT_OK, 0x4, 1, .ro, 0x00000000, 0x00000000, false⟩,
  ⟨O.YCS_CNT_ADMIT_FAIL, 0x4, 1, .ro, 0x00000000, 0x00000000, false⟩,
  ⟨O.YCS_CNT_LEDGER_WRITES, 0x4, 1, .ro, 0x00000000, 0x00000000, false⟩,
  ⟨O.YCS_CNT_LEDGER_FAIL, 0x4, 1, .ro, 0x00000000, 0x00000000, false⟩,
  ⟨O.YCS_CS_CTL, 0x4, 1, .rw, 0x00000003, 0x00000000, false⟩,
  ⟨O.YCS_CS_CHECK, 0x4, 1, .rl, 0xFFFFFFFF, 0x00000000, false⟩,
  ⟨O.YCS_CS_CRC, 0x4, 1, .ro, 0x00000000, 0x00000000, false⟩,
  ⟨O.YCS_CS_SRC, 0x4, 1, .ro, 0x00000000, 0x00000000, false⟩,
  ⟨O.YCS_CNT_CS_CORR, 0x4, 1, .ro, 0x00000000, 0x00000000, false⟩,
  ⟨O.YCS_CS_UE_ADDR, 0x4, 1, .ro, 0x00000000, 0x00000000, false⟩]

abbrev O.SKD_CH_DONE_MAP : Nat := 0x0100
abbrev O.SKD_CH_ERR_MAP : Nat := 0x0104
abbrev O.SKD_CFG : Nat := 0x0800
abbrev O.SKD_STAT : Nat := 0x0804
abbrev O.SKD_HALT_CLR : Nat := 0x0808
abbrev O.SKD_CNT_HALTS : Nat := 0x0810
abbrev O.SKD_CNT_PARKS : Nat := 0x0814
abbrev O.SKD_CNT_DESC : Nat := 0x0818
abbrev O.SKD_CH_CTL : Nat := 0x1000
abbrev O.SKD_CH_CFG : Nat := 0x1004
abbrev O.SKD_CH_DESC_LO : Nat := 0x1008
abbrev O.SKD_CH_DESC_HI : Nat := 0x100C
abbrev O.SKD_CH_STAT : Nat := 0x1010
abbrev O.SKD_CH_CUR_LO : Nat := 0x1018
abbrev O.SKD_CH_CUR_HI : Nat := 0x101C
abbrev O.SKD_CH_DONE_BYTES : Nat := 0x1020
abbrev O.SKD_CH_BULK : Nat := 0x1024
abbrev O.SKD_CH_BULK_OFS : Nat := 0x1028
abbrev O.SKD_CH_BYTES_LO : Nat := 0x1030
abbrev O.SKD_CH_BYTES_HI : Nat := 0x1034
/-- Register words of block SKD (spec tables 13.8, 13.9). -/
def regsSkd : List RegDesc := [
  ⟨O.SKD_CH_DONE_MAP, 0x4, 1, .w1c, 0xFFFFFFFF, 0x00000000, false⟩,
  ⟨O.SKD_CH_ERR_MAP, 0x4, 1, .ro, 0x00000000, 0x00000000, false⟩,
  ⟨O.SKD_CFG, 0x4, 1, .rw, 0x0001FF03, 0x00004003, false⟩,
  ⟨O.SKD_STAT, 0x4, 1, .ro, 0x00000000, 0x00000000, false⟩,
  ⟨O.SKD_HALT_CLR, 0x4, 1, .wo, 0x00000001, 0x00000000, false⟩,
  ⟨O.SKD_CNT_HALTS, 0x4, 1, .ro, 0x00000000, 0x00000000, false⟩,
  ⟨O.SKD_CNT_PARKS, 0x4, 1, .ro, 0x00000000, 0x00000000, false⟩,
  ⟨O.SKD_CNT_DESC, 0x4, 1, .ro, 0x00000000, 0x00000000, false⟩,
  ⟨O.SKD_CH_CTL, 0x40, 32, .wo, 0xE0000000, 0x00000000, false⟩,
  ⟨O.SKD_CH_CFG, 0x40, 32, .rw, 0x000101FF, 0x00000100, false⟩,
  ⟨O.SKD_CH_DESC_LO, 0x40, 32, .rw, 0xFFFFFFE0, 0x00000000, true⟩,
  ⟨O.SKD_CH_DESC_HI, 0x40, 32, .rw, 0xFFFFFFFF, 0x00000000, false⟩,
  ⟨O.SKD_CH_STAT, 0x40, 32, .ro, 0x00000000, 0x00000000, false⟩,
  ⟨O.SKD_CH_CUR_LO, 0x40, 32, .ro, 0x00000000, 0x00000000, true⟩,
  ⟨O.SKD_CH_CUR_HI, 0x40, 32, .ro, 0x00000000, 0x00000000, false⟩,
  ⟨O.SKD_CH_DONE_BYTES, 0x40, 32, .ro, 0x00000000, 0x00000000, false⟩,
  ⟨O.SKD_CH_BULK, 0x40, 32, .rw, 0x00003FFF, 0x00000000, false⟩,
  ⟨O.SKD_CH_BULK_OFS, 0x40, 32, .rw, 0x000FFFFF, 0x00000000, false⟩,
  ⟨O.SKD_CH_BYTES_LO, 0x40, 32, .ro, 0x00000000, 0x00000000, true⟩,
  ⟨O.SKD_CH_BYTES_HI, 0x40, 32, .ro, 0x00000000, 0x00000000, false⟩]

abbrev O.CHK_DROP_MAP : Nat := 0x0100
abbrev O.CHK_BUF_USED : Nat := 0x0800
abbrev O.CHK_CNT_DOWN_DROP : Nat := 0x0804
abbrev O.CHK_CNT_BUF_DROP : Nat := 0x0808
abbrev O.CHK_CNT_POLICE_DROP : Nat := 0x080C
abbrev O.CHK_CNT_DISABLED_DROP : Nat := 0x0810
abbrev O.CHK_HTX_BASE_LO : Nat := 0x1000
abbrev O.CHK_HTX_BASE_HI : Nat := 0x1004
abbrev O.CHK_HTX_CFG : Nat := 0x1008
abbrev O.CHK_HTX_HEAD : Nat := 0x100C
abbrev O.CHK_HTX_TAIL : Nat := 0x1010
abbrev O.CHK_HTX_SENT : Nat := 0x1014
abbrev O.CHK_HTX_ERRS : Nat := 0x1018
abbrev O.CHK_QDEPTH : Nat := 0x2000
abbrev O.CHK_JQ_RATE : Nat := 0x3000
abbrev O.CHK_JQ_BURST : Nat := 0x3004
abbrev O.CHK_JQ_STAT : Nat := 0x3008
abbrev O.CHK_JQ_DROPS : Nat := 0x300C
/-- Register words of block CHK (spec tables 14.4, 14.5, 14.6). -/
def regsChk : List RegDesc := [
  ⟨O.CHK_DROP_MAP, 0x4, 17, .w1c, 0xFFFFFFFF, 0x00000000, false⟩,
  ⟨O.CHK_BUF_USED, 0x4, 1, .ro, 0x00000000, 0x00000000, false⟩,
  ⟨O.CHK_CNT_DOWN_DROP, 0x4, 1, .ro, 0x00000000, 0x00000000, false⟩,
  ⟨O.CHK_CNT_BUF_DROP, 0x4, 1, .ro, 0x00000000, 0x00000000, false⟩,
  ⟨O.CHK_CNT_POLICE_DROP, 0x4, 1, .ro, 0x00000000, 0x00000000, false⟩,
  ⟨O.CHK_CNT_DISABLED_DROP, 0x4, 1, .ro, 0x00000000, 0x00000000, false⟩,
  ⟨O.CHK_HTX_BASE_LO, 0x20, 4, .rw, 0xFFFFF000, 0x00000000, true⟩,
  ⟨O.CHK_HTX_BASE_HI, 0x20, 4, .rw, 0xFFFFFFFF, 0x00000000, false⟩,
  ⟨O.CHK_HTX_CFG, 0x20, 4, .rw, 0xC7FF000F, 0x00000000, false⟩,
  ⟨O.CHK_HTX_HEAD, 0x20, 4, .ro, 0x00000000, 0x00000000, false⟩,
  ⟨O.CHK_HTX_TAIL, 0x20, 4, .rw, 0x0000FFFF, 0x00000000, false⟩,
  ⟨O.CHK_HTX_SENT, 0x20, 4, .ro, 0x00000000, 0x00000000, false⟩,
  ⟨O.CHK_HTX_ERRS, 0x20, 4, .ro, 0x00000000, 0x00000000, false⟩,
  ⟨O.CHK_QDEPTH, 0x4, 516, .ro, 0x00000000, 0x00000000, false⟩,
  ⟨O.CHK_JQ_RATE, 0x10, 64, .rw, 0xFFFFFFFF, 0x00000000, false⟩,
  ⟨O.CHK_JQ_BURST, 0x10, 64, .rw, 0xFFFFFFFF, 0x00000800, false⟩,
  ⟨O.CHK_JQ_STAT, 0x10, 64, .ro, 0x00000000, 0x00000000, false⟩,
  ⟨O.CHK_JQ_DROPS, 0x10, 64, .ro, 0x00000000, 0x00000000, false⟩]

abbrev O.YSQ_STATUS_MAP : Nat := 0x0100
abbrev O.YSQ_SEQ_FLAGS : Nat := 0x0140
abbrev O.YSQ_EVT_LATCH : Nat := 0x0144
abbrev O.YSQ_PATH_STAT : Nat := 0x0800
abbrev O.YSQ_CNT_STARTS : Nat := 0x0840
abbrev O.YSQ_CNT_PROGRAM_ERROR : Nat := 0x0844
abbrev O.YSQ_CNT_DEVICE_ERROR : Nat := 0x0848
abbrev O.YSQ_CNT_BACKOFF : Nat := 0x084C
abbrev O.YSQ_CNT_BUS_CLEAR : Nat := 0x0850
abbrev O.YSQ_CNT_MGMT_TIMEOUT : Nat := 0x0854
abbrev O.YSQ_UPC : Nat := 0x0900
abbrev O.YSQ_START_VEC : Nat := 0x0904
abbrev O.YSQ_PSTK0 : Nat := 0x0908
abbrev O.YSQ_PSTK1 : Nat := 0x090C
abbrev O.YSQ_EOE_CAP : Nat := 0x0910
abbrev O.YSQ_USTK : Nat := 0x0918
abbrev O.YSQ_EV_SRC : Nat := 0x0930
abbrev O.YSQ_EV_COUNT : Nat := 0x0934
abbrev O.YSQ_CUR_SCH : Nat := 0x0938
abbrev O.YSQ_BF_ADDR : Nat := 0x093C
abbrev O.YSQ_CMD_POP : Nat := 0x0950
abbrev O.YSQ_CMD_ADDR_LO : Nat := 0x0954
abbrev O.YSQ_CMD_ADDR_HI : Nat := 0x0958
abbrev O.YSQ_REPLY_POP : Nat := 0x095C
abbrev O.YSQ_TIMER_POP : Nat := 0x0960
abbrev O.YSQ_CNT_EV_NORMAL : Nat := 0x0970
abbrev O.YSQ_CNT_EV_FAST : Nat := 0x0974
abbrev O.YSQ_W : Nat := 0x0A00
abbrev O.YSQ_F : Nat := 0x0A80
abbrev O.YSQ_SCH_STAT : Nat := 0x2000
/-- Register words of block YSQ (spec tables 11.12, 12.12). -/
def regsYsq : List RegDesc := [
  ⟨O.YSQ_STATUS_MAP, 0x4, 16, .w1c, 0xFFFFFFFF, 0x00000000, false⟩,
  ⟨O.YSQ_SEQ_FLAGS, 0x4, 1, .ro, 0x00000000, 0x00000000, false⟩,
  ⟨O.YSQ_EVT_LATCH, 0x4, 1, .ro, 0x00000000, 0x00000000, false⟩,
  ⟨O.YSQ_PATH_STAT, 0x4, 8, .ro, 0x00000000, 0x00000000, false⟩,
  ⟨O.YSQ_CNT_STARTS, 0x4, 1, .ro, 0x00000000, 0x00000000, false⟩,
  ⟨O.YSQ_CNT_PROGRAM_ERROR, 0x4, 1, .ro, 0x00000000, 0x00000000, false⟩,
  ⟨O.YSQ_CNT_DEVICE_ERROR, 0x4, 1, .ro, 0x00000000, 0x00000000, false⟩,
  ⟨O.YSQ_CNT_BACKOFF, 0x4, 1, .ro, 0x00000000, 0x00000000, false⟩,
  ⟨O.YSQ_CNT_BUS_CLEAR, 0x4, 1, .ro, 0x00000000, 0x00000000, false⟩,
  ⟨O.YSQ_CNT_MGMT_TIMEOUT, 0x4, 1, .ro, 0x00000000, 0x00000000, false⟩,
  ⟨O.YSQ_UPC, 0x4, 1, .ro, 0x00000000, 0x00000000, false⟩,
  ⟨O.YSQ_START_VEC, 0x4, 1, .rl, 0x00003FFF, 0x00000000, false⟩,
  ⟨O.YSQ_PSTK0, 0x4, 1, .ro, 0x00000000, 0x00000000, false⟩,
  ⟨O.YSQ_PSTK1, 0x4, 1, .ro, 0x00000000, 0x00000000, false⟩,
  ⟨O.YSQ_EOE_CAP, 0x4, 1, .ro, 0x00000000, 0x00000000, false⟩,
  ⟨O.YSQ_USTK, 0x4, 4, .ro, 0x00000000, 0x00000000, false⟩,
  ⟨O.YSQ_EV_SRC, 0x4, 1, .ro, 0x00000000, 0x00000000, false⟩,
  ⟨O.YSQ_EV_COUNT, 0x4, 1, .ro, 0x00000000, 0x00000000, false⟩,
  ⟨O.YSQ_CUR_SCH, 0x4, 1, .ro, 0x00000000, 0x00000000, false⟩,
  ⟨O.YSQ_BF_ADDR, 0x4, 1, .ro, 0x00000000, 0x00000000, false⟩,
  ⟨O.YSQ_CMD_POP, 0x4, 1, .ro, 0x00000000, 0x00000000, false⟩,
  ⟨O.YSQ_CMD_ADDR_LO, 0x4, 1, .ro, 0x00000000, 0x00000000, true⟩,
  ⟨O.YSQ_CMD_ADDR_HI, 0x4, 1, .ro, 0x00000000, 0x00000000, false⟩,
  ⟨O.YSQ_REPLY_POP, 0x4, 1, .ro, 0x00000000, 0x00000000, false⟩,
  ⟨O.YSQ_TIMER_POP, 0x4, 1, .ro, 0x00000000, 0x00000000, false⟩,
  ⟨O.YSQ_CNT_EV_NORMAL, 0x4, 1, .ro, 0x00000000, 0x00000000, false⟩,
  ⟨O.YSQ_CNT_EV_FAST, 0x4, 1, .ro, 0x00000000, 0x00000000, false⟩,
  ⟨O.YSQ_W, 0x4, 32, .rl, 0xFFFFFFFF, 0x00000000, false⟩,
  ⟨O.YSQ_F, 0x4, 16, .rl, 0xFFFFFFFF, 0x00000000, false⟩,
  ⟨O.YSQ_SCH_STAT, 0x4, 512, .ro, 0x00000000, 0x00000000, false⟩]

abbrev O.NET_LINK_FLAGS : Nat := 0x0100
abbrev O.NET_PORT_CFG : Nat := 0x0800
abbrev O.NET_RX_DBK_DROP : Nat := 0x0804
abbrev O.NET_MAC_ADDR_LO : Nat := 0x0900
abbrev O.NET_MAC_ADDR_HI : Nat := 0x0904
abbrev O.NET_MAC_CFG : Nat := 0x0908
abbrev O.NET_TS_ADJ_RX : Nat := 0x090C
abbrev O.NET_TS_ADJ_TX : Nat := 0x0910
abbrev O.NET_RX_FRAMES_LO : Nat := 0x0918
abbrev O.NET_RX_FRAMES_HI : Nat := 0x091C
abbrev O.NET_RX_BYTES_LO : Nat := 0x0920
abbrev O.NET_RX_BYTES_HI : Nat := 0x0924
abbrev O.NET_RX_FCS_ERR : Nat := 0x0928
abbrev O.NET_RX_SIZE_ERR : Nat := 0x092C
abbrev O.NET_RX_MAC_CTL : Nat := 0x0930
abbrev O.NET_RX_DA_DROP : Nat := 0x0934
abbrev O.NET_RX_OVF : Nat := 0x0938
abbrev O.NET_FEC_CORR : Nat := 0x093C
abbrev O.NET_FEC_UNCORR : Nat := 0x0940
abbrev O.NET_TX_FRAMES_LO : Nat := 0x0948
abbrev O.NET_TX_FRAMES_HI : Nat := 0x094C
/-- Register words of block NET (spec tables 4.2, 4.3). -/
def regsNet : List RegDesc := [
  ⟨O.NET_LINK_FLAGS, 0x4, 1, .ro, 0x00000000, 0x00000000, false⟩,
  ⟨O.NET_PORT_CFG, 0x4, 1, .rl, 0x00000FF3, 0x00000000, false⟩,
  ⟨O.NET_RX_DBK_DROP, 0x4, 1, .ro, 0x00000000, 0x00000000, false⟩,
  ⟨O.NET_MAC_ADDR_LO, 0x80, 4, .rw, 0xFFFFFFFF, 0x00000000, true⟩,
  ⟨O.NET_MAC_ADDR_HI, 0x80, 4, .rw, 0x0000FFFF, 0x00000000, false⟩,
  ⟨O.NET_MAC_CFG, 0x80, 4, .rw, 0xE0003FFF, 0x00002400, false⟩,
  ⟨O.NET_TS_ADJ_RX, 0x80, 4, .rw, 0xFFFFFFFF, 0x00000000, false⟩,
  ⟨O.NET_TS_ADJ_TX, 0x80, 4, .rw, 0xFFFFFFFF, 0x00000000, false⟩,
  ⟨O.NET_RX_FRAMES_LO, 0x80, 4, .ro, 0x00000000, 0x00000000, true⟩,
  ⟨O.NET_RX_FRAMES_HI, 0x80, 4, .ro, 0x00000000, 0x00000000, false⟩,
  ⟨O.NET_RX_BYTES_LO, 0x80, 4, .ro, 0x00000000, 0x00000000, true⟩,
  ⟨O.NET_RX_BYTES_HI, 0x80, 4, .ro, 0x00000000, 0x00000000, false⟩,
  ⟨O.NET_RX_FCS_ERR, 0x80, 4, .ro, 0x00000000, 0x00000000, false⟩,
  ⟨O.NET_RX_SIZE_ERR, 0x80, 4, .ro, 0x00000000, 0x00000000, false⟩,
  ⟨O.NET_RX_MAC_CTL, 0x80, 4, .ro, 0x00000000, 0x00000000, false⟩,
  ⟨O.NET_RX_DA_DROP, 0x80, 4, .ro, 0x00000000, 0x00000000, false⟩,
  ⟨O.NET_RX_OVF, 0x80, 4, .ro, 0x00000000, 0x00000000, false⟩,
  ⟨O.NET_FEC_CORR, 0x80, 4, .ro, 0x00000000, 0x00000000, false⟩,
  ⟨O.NET_FEC_UNCORR, 0x80, 4, .ro, 0x00000000, 0x00000000, false⟩,
  ⟨O.NET_TX_FRAMES_LO, 0x80, 4, .ro, 0x00000000, 0x00000000, true⟩,
  ⟨O.NET_TX_FRAMES_HI, 0x80, 4, .ro, 0x00000000, 0x00000000, false⟩]

abbrev O.DBK_KSEL : Nat := 0x0800
abbrev O.DBK_INST_CFG : Nat := 0x0810
abbrev O.DBK_YRX_CFG : Nat := 0x0840
abbrev O.DBK_YRX_POP : Nat := 0x0844
abbrev O.DBK_YRX_FREE : Nat := 0x0848
abbrev O.DBK_CNT_MISS_DROP : Nat := 0x0880
abbrev O.DBK_CNT_BAD_RULE : Nat := 0x0884
abbrev O.DBK_CNT_CTX_CLOSED : Nat := 0x0888
abbrev O.DBK_CNT_YRX_DROP : Nat := 0x088C
abbrev O.DBK_CNT_PLI : Nat := 0x0890
abbrev O.DBK_CNT_FIR : Nat := 0x0894
abbrev O.DBK_CNT_FB_IGNORED : Nat := 0x0898
abbrev O.DBK_SLOW_CNT : Nat := 0x0A00
abbrev O.DBK_MAL_CNT : Nat := 0x0C00
abbrev O.DBK_SPQ_BASE_LO : Nat := 0x1000
abbrev O.DBK_SPQ_BASE_HI : Nat := 0x1004
abbrev O.DBK_SPQ_CFG : Nat := 0x1008
abbrev O.DBK_SPQ_STAT : Nat := 0x100C
abbrev O.DBK_SPQ_HEAD : Nat := 0x1010
abbrev O.DBK_SPQ_DROP : Nat := 0x1014
abbrev O.DBK_SPQ_FRAMES : Nat := 0x1018
abbrev O.DBK_IM_CIR : Nat := 0x4000
abbrev O.DBK_IM_CBS : Nat := 0x4004
abbrev O.DBK_IM_PIR : Nat := 0x4008
abbrev O.DBK_IM_PBS : Nat := 0x400C
abbrev O.DBK_IM_CTL : Nat := 0x4010
abbrev O.DBK_DROP_RED : Nat := 0x4014
abbrev O.DBK_DROP_YEL : Nat := 0x4018
/-- Register words of block DBK (spec tables 4.12, 4.14, 4.16). -/
def regsDbk : List RegDesc := [
  ⟨O.DBK_KSEL, 0x4, 1, .rw, 0x001FFFFF, 0x00000000, false⟩,
  ⟨O.DBK_INST_CFG, 0x4, 8, .rw, 0x000F0173, 0x00000000, false⟩,
  ⟨O.DBK_YRX_CFG, 0x4, 1, .rw, 0x000003FF, 0x00000000, false⟩,
  ⟨O.DBK_YRX_POP, 0x4, 1, .ro, 0x00000000, 0x00000000, false⟩,
  ⟨O.DBK_YRX_FREE, 0x4, 1, .wo, 0x0000003F, 0x00000000, false⟩,
  ⟨O.DBK_CNT_MISS_DROP, 0x4, 1, .ro, 0x00000000, 0x00000000, false⟩,
  ⟨O.DBK_CNT_BAD_RULE, 0x4, 1, .ro, 0x00000000, 0x00000000, false⟩,
  ⟨O.DBK_CNT_CTX_CLOSED, 0x4, 1, .ro, 0x00000000, 0x00000000, false⟩,
  ⟨O.DBK_CNT_YRX_DROP, 0x4, 1, .ro, 0x00000000, 0x00000000, false⟩,
  ⟨O.DBK_CNT_PLI, 0x4, 1, .ro, 0x00000000, 0x00000000, false⟩,
  ⟨O.DBK_CNT_FIR, 0x4, 1, .ro, 0x00000000, 0x00000000, false⟩,
  ⟨O.DBK_CNT_FB_IGNORED, 0x4, 1, .ro, 0x00000000, 0x00000000, false⟩,
  ⟨O.DBK_SLOW_CNT, 0x4, 128, .ro, 0x00000000, 0x00000000, false⟩,
  ⟨O.DBK_MAL_CNT, 0x4, 128, .ro, 0x00000000, 0x00000000, false⟩,
  ⟨O.DBK_SPQ_BASE_LO, 0x20, 16, .rw, 0xFFFFF000, 0x00000000, true⟩,
  ⟨O.DBK_SPQ_BASE_HI, 0x20, 16, .rw, 0xFFFFFFFF, 0x00000000, false⟩,
  ⟨O.DBK_SPQ_CFG, 0x20, 16, .rw, 0xC7FF003F, 0x00000000, false⟩,
  ⟨O.DBK_SPQ_STAT, 0x20, 16, .ro, 0x00000000, 0x00000000, false⟩,
  ⟨O.DBK_SPQ_HEAD, 0x20, 16, .rw, 0x0000FFFF, 0x00000000, false⟩,
  ⟨O.DBK_SPQ_DROP, 0x20, 16, .ro, 0x00000000, 0x00000000, false⟩,
  ⟨O.DBK_SPQ_FRAMES, 0x20, 16, .ro, 0x00000000, 0x00000000, false⟩,
  ⟨O.DBK_IM_CIR, 0x20, 512, .rw, 0xFFFFFFFF, 0x00000000, false⟩,
  ⟨O.DBK_IM_CBS, 0x20, 512, .rw, 0xFFFFFFFF, 0x00000000, false⟩,
  ⟨O.DBK_IM_PIR, 0x20, 512, .rw, 0xFFFFFFFF, 0x00000000, false⟩,
  ⟨O.DBK_IM_PBS, 0x20, 512, .rw, 0xFFFFFFFF, 0x00000000, false⟩,
  ⟨O.DBK_IM_CTL, 0x20, 512, .rw, 0x800000FF, 0x00000000, false⟩,
  ⟨O.DBK_DROP_RED, 0x20, 512, .ro, 0x00000000, 0x00000000, false⟩,
  ⟨O.DBK_DROP_YEL, 0x20, 512, .ro, 0x00000000, 0x00000000, false⟩]

abbrev O.FLM_STALE_MAP : Nat := 0x0100
abbrev O.FLM_KERF_MAP : Nat := 0x0140
abbrev O.FLM_STALE_T : Nat := 0x0800
abbrev O.FLM_CNT_STOPPED_DROP : Nat := 0x0804
abbrev O.FLM_CNT_LATE : Nat := 0x0808
abbrev O.FLM_CNT_SEQ_GAP : Nat := 0x080C
abbrev O.FLM_CNT_SRC_DROP : Nat := 0x0810
abbrev O.FLM_CNT_KERF : Nat := 0x0814
abbrev O.FLM_WR : Nat := 0x2000
abbrev O.FLM_COMMIT : Nat := 0x2004
abbrev O.FLM_RD : Nat := 0x2008
abbrev O.FLM_BLAZE : Nat := 0x200C
abbrev O.FLM_REL : Nat := 0x2010
abbrev O.FLM_HWM : Nat := 0x2014
abbrev O.FLM_FSTAT : Nat := 0x2018
/-- Register words of block FLM (spec tables 5.2, 5.3). -/
def regsFlm : List RegDesc := [
  ⟨O.FLM_STALE_MAP, 0x4, 16, .w1c, 0xFFFFFFFF, 0x00000000, false⟩,
  ⟨O.FLM_KERF_MAP, 0x4, 16, .w1c, 0xFFFFFFFF, 0x00000000, false⟩,
  ⟨O.FLM_STALE_T, 0x4, 1, .rw, 0x000000FF, 0x00000002, false⟩,
  ⟨O.FLM_CNT_STOPPED_DROP, 0x4, 1, .ro, 0x00000000, 0x00000000, false⟩,
  ⟨O.FLM_CNT_LATE, 0x4, 1, .ro, 0x00000000, 0x00000000, false⟩,
  ⟨O.FLM_CNT_SEQ_GAP, 0x4, 1, .ro, 0x00000000, 0x00000000, false⟩,
  ⟨O.FLM_CNT_SRC_DROP, 0x4, 1, .ro, 0x00000000, 0x00000000, false⟩,
  ⟨O.FLM_CNT_KERF, 0x4, 1, .ro, 0x00000000, 0x00000000, false⟩,
  ⟨O.FLM_WR, 0x20, 512, .ro, 0x00000000, 0x00000000, false⟩,
  ⟨O.FLM_COMMIT, 0x20, 512, .ro, 0x00000000, 0x00000000, false⟩,
  ⟨O.FLM_RD, 0x20, 512, .ro, 0x00000000, 0x00000000, false⟩,
  ⟨O.FLM_BLAZE, 0x20, 512, .ro, 0x00000000, 0x00000000, false⟩,
  ⟨O.FLM_REL, 0x20, 512, .ro, 0x00000000, 0x00000000, false⟩,
  ⟨O.FLM_HWM, 0x20, 512, .ro, 0x00000000, 0x00000000, false⟩,
  ⟨O.FLM_FSTAT, 0x20, 512, .ro, 0x00000000, 0x00000000, false⟩]

abbrev O.HBM_MEM_STAT : Nat := 0x0100
abbrev O.HBM_MAP_MASK : Nat := 0x0800
abbrev O.HBM_MAP_MASK_HI : Nat := 0x0804
abbrev O.HBM_DIST_CFG : Nat := 0x0860
abbrev O.HBM_RETRAIN_CFG : Nat := 0x0864
abbrev O.HBM_SR_CFG : Nat := 0x0868
abbrev O.HBM_SCRUB_CFG : Nat := 0x086C
abbrev O.HBM_CNT_CE : Nat := 0x0870
abbrev O.HBM_CNT_UE : Nat := 0x0874
abbrev O.HBM_CNT_NREF : Nat := 0x0878
abbrev O.HBM_CNT_RETRAIN : Nat := 0x087C
abbrev O.HBM_CNT_LANE_REPAIR : Nat := 0x0880
abbrev O.HBM_CNT_SR_ENTRY : Nat := 0x0884
abbrev O.HBM_PPR_CTL : Nat := 0x0890
abbrev O.HBM_PPR_STAT : Nat := 0x0894
abbrev O.HBM_BIST_CTL : Nat := 0x0898
abbrev O.HBM_BIST_STAT : Nat := 0x089C
abbrev O.HBM_TEMP : Nat := 0x08A0
abbrev O.HBM_PPR_LIST : Nat := 0x0900
/-- Register words of block HBM (spec tables 15.7). -/
def regsHbm : List RegDesc := [
  ⟨O.HBM_MEM_STAT, 0x4, 1, .ro, 0x00000000, 0x00000000, false⟩,
  ⟨O.HBM_MAP_MASK, 0x8, 11, .rl, 0xFFFFFFFF, 0x00000000, true⟩,
  ⟨O.HBM_MAP_MASK_HI, 0x8, 11, .rl, 0x0000FFFF, 0x00000000, false⟩,
  ⟨O.HBM_DIST_CFG, 0x4, 1, .rl, 0x0000011F, 0x0000000B, false⟩,
  ⟨O.HBM_RETRAIN_CFG, 0x4, 1, .rw, 0x00FFFFFF, 0x000A03E8, false⟩,
  ⟨O.HBM_SR_CFG, 0x4, 1, .rw, 0x8000FFFF, 0x00000064, false⟩,
  ⟨O.HBM_SCRUB_CFG, 0x4, 1, .rw, 0x0000FFFF, 0x00000018, false⟩,
  ⟨O.HBM_CNT_CE, 0x4, 1, .ro, 0x00000000, 0x00000000, false⟩,
  ⟨O.HBM_CNT_UE, 0x4, 1, .ro, 0x00000000, 0x00000000, false⟩,
  ⟨O.HBM_CNT_NREF, 0x4, 1, .ro, 0x00000000, 0x00000000, false⟩,
  ⟨O.HBM_CNT_RETRAIN, 0x4, 1, .ro, 0x00000000, 0x00000000, false⟩,
  ⟨O.HBM_CNT_LANE_REPAIR, 0x4, 1, .ro, 0x00000000, 0x00000000, false⟩,
  ⟨O.HBM_CNT_SR_ENTRY, 0x4, 1, .ro, 0x00000000, 0x00000000, false⟩,
  ⟨O.HBM_PPR_CTL, 0x4, 1, .pw, 0x8000000F, 0x00000000, false⟩,
  ⟨O.HBM_PPR_STAT, 0x4, 1, .ro, 0x00000000, 0x00000000, false⟩,
  ⟨O.HBM_BIST_CTL, 0x4, 1, .pw, 0x00000001, 0x00000000, false⟩,
  ⟨O.HBM_BIST_STAT, 0x4, 1, .ro, 0x00000000, 0x00000000, false⟩,
  ⟨O.HBM_TEMP, 0x4, 1, .ro, 0x00000000, 0x00000000, false⟩,
  ⟨O.HBM_PPR_LIST, 0x4, 16, .ro, 0x00000000, 0x00000000, false⟩]

abbrev O.YRD_MEM_STAT : Nat := 0x0100
abbrev O.YRD_ECC_CFG : Nat := 0x0800
abbrev O.YRD_CNT_CE : Nat := 0x0804
abbrev O.YRD_CNT_UE : Nat := 0x0808
abbrev O.YRD_CNT_REPAIR : Nat := 0x080C
abbrev O.YRD_SPARE_LEFT : Nat := 0x0810
abbrev O.YRD_BIST_CTL : Nat := 0x0814
abbrev O.YRD_BIST_STAT : Nat := 0x0818
abbrev O.YRD_CE_ADDR : Nat := 0x0820
/-- Register words of block YRD (spec tables 15.5). -/
def regsYrd : List RegDesc := [
  ⟨O.YRD_MEM_STAT, 0x4, 1, .ro, 0x00000000, 0x00000000, false⟩,
  ⟨O.YRD_ECC_CFG, 0x4, 1, .rw, 0x0000FF01, 0x00000401, false⟩,
  ⟨O.YRD_CNT_CE, 0x4, 1, .ro, 0x00000000, 0x00000000, false⟩,
  ⟨O.YRD_CNT_UE, 0x4, 1, .ro, 0x00000000, 0x00000000, false⟩,
  ⟨O.YRD_CNT_REPAIR, 0x4, 1, .ro, 0x00000000, 0x00000000, false⟩,
  ⟨O.YRD_SPARE_LEFT, 0x4, 1, .ro, 0x00000000, 0x00001000, false⟩,
  ⟨O.YRD_BIST_CTL, 0x4, 1, .pw, 0x00000001, 0x00000000, false⟩,
  ⟨O.YRD_BIST_STAT, 0x4, 1, .ro, 0x00000000, 0x00000000, false⟩,
  ⟨O.YRD_CE_ADDR, 0x4, 1, .ro, 0x00000000, 0x00000000, false⟩]

abbrev O.TIM_FLAGS : Nat := 0x0100
abbrev O.TIM_SRC_CFG : Nat := 0x0800
abbrev O.TIM_SRC_CTL : Nat := 0x0804
abbrev O.TIM_SRC_STAT : Nat := 0x0808
abbrev O.TIM_ST_LO : Nat := 0x0810
abbrev O.TIM_ST_HI : Nat := 0x0814
abbrev O.TIM_ST_FRAC : Nat := 0x0818
abbrev O.TIM_STEP_LO : Nat := 0x0820
abbrev O.TIM_STEP_HI : Nat := 0x0824
abbrev O.TIM_ADJ_FREQ : Nat := 0x0828
abbrev O.TIM_SERVO_TO : Nat := 0x082C
abbrev O.TIM_HOLD_LIMIT : Nat := 0x0830
abbrev O.TIM_FRAME_OFS : Nat := 0x0834
abbrev O.TIM_REF_ADJ : Nat := 0x0838
abbrev O.TIM_PPS_ADJ : Nat := 0x083C
abbrev O.TIM_REF_STAMP_LO : Nat := 0x0840
abbrev O.TIM_REF_STAMP_HI : Nat := 0x0844
abbrev O.TIM_REF_PERIOD : Nat := 0x0848
abbrev O.TIM_PHASE_ERR : Nat := 0x084C
abbrev O.TIM_PPS_STAMP_LO : Nat := 0x0850
abbrev O.TIM_PPS_STAMP_HI : Nat := 0x0854
abbrev O.TIM_TXTS_INFO : Nat := 0x0858
abbrev O.TIM_TXTS_LO : Nat := 0x0860
abbrev O.TIM_TXTS_HI : Nat := 0x0864
abbrev O.TIM_CNT_REF_MISS : Nat := 0x0868
abbrev O.TIM_CNT_HOLDOVER : Nat := 0x086C
abbrev O.TIM_CNT_REALIGN : Nat := 0x0870
abbrev O.TIM_CS_CFG : Nat := 0x0C00
abbrev O.TIM_CS_OFS : Nat := 0x0C04
abbrev O.TIM_CS_WID : Nat := 0x0C08
/-- Register words of block TIM (spec tables 8.4, 17.13). -/
def regsTim : List RegDesc := [
  ⟨O.TIM_FLAGS, 0x4, 1, .ro, 0x00000000, 0x00000000, false⟩,
  ⟨O.TIM_SRC_CFG, 0x4, 1, .pw, 0x00000173, 0x00000010, false⟩,
  ⟨O.TIM_SRC_CTL, 0x4, 1, .rw, 0x00000001, 0x00000000, false⟩,
  ⟨O.TIM_SRC_STAT, 0x4, 1, .ro, 0x00000000, 0x00000000, false⟩,
  ⟨O.TIM_ST_LO, 0x4, 1, .ro, 0x00000000, 0x00000000, true⟩,
  ⟨O.TIM_ST_HI, 0x4, 1, .ro, 0x00000000, 0x00000000, false⟩,
  ⟨O.TIM_ST_FRAC, 0x4, 1, .ro, 0x00000000, 0x00000000, false⟩,
  ⟨O.TIM_STEP_LO, 0x4, 1, .pw, 0xFFFFFFFF, 0x00000000, true⟩,
  ⟨O.TIM_STEP_HI, 0x4, 1, .pw, 0xFFFFFFFF, 0x00000000, false⟩,
  ⟨O.TIM_ADJ_FREQ, 0x4, 1, .pw, 0xFFFFFFFF, 0x00000000, false⟩,
  ⟨O.TIM_SERVO_TO, 0x4, 1, .rw, 0x0000FFFF, 0x000007D0, false⟩,
  ⟨O.TIM_HOLD_LIMIT, 0x4, 1, .rw, 0x0000FFFF, 0x0000003C, false⟩,
  ⟨O.TIM_FRAME_OFS, 0x4, 1, .rw, 0xFFFFFFFF, 0x00000000, false⟩,
  ⟨O.TIM_REF_ADJ, 0x4, 1, .rw, 0xFFFFFFFF, 0x00000000, false⟩,
  ⟨O.TIM_PPS_ADJ, 0x4, 1, .rw, 0xFFFFFFFF, 0x00000000, false⟩,
  ⟨O.TIM_REF_STAMP_LO, 0x4, 1, .ro, 0x00000000, 0x00000000, true⟩,
  ⟨O.TIM_REF_STAMP_HI, 0x4, 1, .ro, 0x00000000, 0x00000000, false⟩,
  ⟨O.TIM_REF_PERIOD, 0x4, 1, .ro, 0x00000000, 0x00000000, false⟩,
  ⟨O.TIM_PHASE_ERR, 0x4, 1, .ro, 0x00000000, 0x00000000, false⟩,
  ⟨O.TIM_PPS_STAMP_LO, 0x4, 1, .ro, 0x00000000, 0x00000000, true⟩,
  ⟨O.TIM_PPS_STAMP_HI, 0x4, 1, .ro, 0x00000000, 0x00000000, false⟩,
  ⟨O.TIM_TXTS_INFO, 0x4, 1, .ro, 0x00000000, 0x00000000, false⟩,
  ⟨O.TIM_TXTS_LO, 0x4, 1, .ro, 0x00000000, 0x00000000, true⟩,
  ⟨O.TIM_TXTS_HI, 0x4, 1, .ro, 0x00000000, 0x00000000, false⟩,
  ⟨O.TIM_CNT_REF_MISS, 0x4, 1, .ro, 0x00000000, 0x00000000, false⟩,
  ⟨O.TIM_CNT_HOLDOVER, 0x4, 1, .ro, 0x00000000, 0x00000000, false⟩,
  ⟨O.TIM_CNT_REALIGN, 0x4, 1, .ro, 0x00000000, 0x00000000, false⟩,
  ⟨O.TIM_CS_CFG, 0x10, 8, .rw, 0xE00001FF, 0x00000000, false⟩,
  ⟨O.TIM_CS_OFS, 0x10, 8, .rw, 0xFFFFFFFF, 0x00000000, false⟩,
  ⟨O.TIM_CS_WID, 0x10, 8, .rw, 0x00FFFFFF, 0x00002710, false⟩]

abbrev O.LND_FLAGS : Nat := 0x0100
abbrev O.LND_SCENE_BASE : Nat := 0x0800
abbrev O.LND_LANES : Nat := 0x0804
abbrev O.LND_LANE_RETIRED : Nat := 0x0808
abbrev O.LND_MODE_CUR : Nat := 0x0820
abbrev O.LND_FRATE_NUM_CUR : Nat := 0x0824
abbrev O.LND_FRATE_DEN_CUR : Nat := 0x0828
abbrev O.LND_COLOUR_CUR : Nat := 0x082C
abbrev O.LND_WFRAME_LO : Nat := 0x0830
abbrev O.LND_WFRAME_HI : Nat := 0x0834
abbrev O.LND_MN_CFG : Nat := 0x0840
abbrev O.LND_MN_FRATE_NUM : Nat := 0x0844
abbrev O.LND_MN_FRATE_DEN : Nat := 0x0848
abbrev O.LND_MN_COLOUR : Nat := 0x084C
abbrev O.LND_MN_EPOCH : Nat := 0x0850
abbrev O.LND_MODE_CTL : Nat := 0x0854
abbrev O.LND_MODE_STAT : Nat := 0x0858
abbrev O.LND_MODE_LATE_LO : Nat := 0x0860
abbrev O.LND_MODE_LATE_HI : Nat := 0x0864
abbrev O.LND_MODE_BLACK_LO : Nat := 0x0868
abbrev O.LND_MODE_BLACK_HI : Nat := 0x086C
abbrev O.LND_UNDERRUN_PORTS_LO : Nat := 0x0870
abbrev O.LND_UNDERRUN_PORTS_HI : Nat := 0x0874
abbrev O.LND_FEED_COST : Nat := 0x0880
abbrev O.LND_UNDERRUN : Nat := 0x08A0
abbrev O.LND_SCENE_EPOCH : Nat := 0x08C0
abbrev O.LND_FG_TRIPS : Nat := 0x08E0
abbrev O.LND_FG_CFG : Nat := 0x0900
abbrev O.LND_FG_HOLD : Nat := 0x0904
abbrev O.LND_CNT_LANE_FAULT : Nat := 0x0910
abbrev O.LND_CNT_FALLBACK : Nat := 0x0914
abbrev O.LND_CNT_HOLD : Nat := 0x0918
abbrev O.LND_CNT_MISSED_CAPTURE : Nat := 0x091C
abbrev O.LND_TAP_COUNT : Nat := 0x0920
abbrev O.LND_SCENE_TAG : Nat := 0x0940
abbrev O.LND_SCENE_TAG_HI : Nat := 0x0944
/-- Register words of block LND (spec tables 8.10). -/
def regsLnd : List RegDesc := [
  ⟨O.LND_FLAGS, 0x4, 1, .ro, 0x00000000, 0x00000000, false⟩,
  ⟨O.LND_SCENE_BASE, 0x4, 1, .rl, 0x0000FFFF, 0x00000000, false⟩,
  ⟨O.LND_LANES, 0x4, 1, .ro, 0x00000000, 0x00080060, false⟩,
  ⟨O.LND_LANE_RETIRED, 0x4, 4, .ro, 0x00000000, 0x00000000, false⟩,
  ⟨O.LND_MODE_CUR, 0x4, 1, .ro, 0x00000000, 0x02000001, false⟩,
  ⟨O.LND_FRATE_NUM_CUR, 0x4, 1, .ro, 0x00000000, 0x0000EA60, false⟩,
  ⟨O.LND_FRATE_DEN_CUR, 0x4, 1, .ro, 0x00000000, 0x000003E8, false⟩,
  ⟨O.LND_COLOUR_CUR, 0x4, 1, .ro, 0x00000000, 0x00FA00CB, false⟩,
  ⟨O.LND_WFRAME_LO, 0x4, 1, .ro, 0x00000000, 0x00000000, true⟩,
  ⟨O.LND_WFRAME_HI, 0x4, 1, .ro, 0x00000000, 0x00000000, false⟩,
  ⟨O.LND_MN_CFG, 0x4, 1, .rw, 0x1F10000F, 0x02000001, false⟩,
  ⟨O.LND_MN_FRATE_NUM, 0x4, 1, .rw, 0xFFFFFFFF, 0x0000EA60, false⟩,
  ⟨O.LND_MN_FRATE_DEN, 0x4, 1, .rw, 0xFFFFFFFF, 0x000003E8, false⟩,
  ⟨O.LND_MN_COLOUR, 0x4, 1, .rw, 0x8FFF0FFF, 0x00FA00CB, false⟩,
  ⟨O.LND_MN_EPOCH, 0x4, 1, .rw, 0xFFFFFFFF, 0x00000000, false⟩,
  ⟨O.LND_MODE_CTL, 0x4, 1, .pw, 0x00000003, 0x00000000, false⟩,
  ⟨O.LND_MODE_STAT, 0x4, 1, .ro, 0x00000000, 0x00000000, false⟩,
  ⟨O.LND_MODE_LATE_LO, 0x4, 1, .ro, 0x00000000, 0x00000000, true⟩,
  ⟨O.LND_MODE_LATE_HI, 0x4, 1, .ro, 0x00000000, 0x00000000, false⟩,
  ⟨O.LND_MODE_BLACK_LO, 0x4, 1, .ro, 0x00000000, 0x00000000, true⟩,
  ⟨O.LND_MODE_BLACK_HI, 0x4, 1, .ro, 0x00000000, 0x00000000, false⟩,
  ⟨O.LND_UNDERRUN_PORTS_LO, 0x4, 1, .ro, 0x00000000, 0x00000000, true⟩,
  ⟨O.LND_UNDERRUN_PORTS_HI, 0x4, 1, .ro, 0x00000000, 0x00000000, false⟩,
  ⟨O.LND_FEED_COST, 0x4, 8, .ro, 0x00000000, 0x00000000, false⟩,
  ⟨O.LND_UNDERRUN, 0x4, 8, .ro, 0x00000000, 0x00000000, false⟩,
  ⟨O.LND_SCENE_EPOCH, 0x4, 8, .ro, 0x00000000, 0x00000000, false⟩,
  ⟨O.LND_FG_TRIPS, 0x4, 8, .ro, 0x00000000, 0x00000000, false⟩,
  ⟨O.LND_FG_CFG, 0x4, 1, .rw, 0x80FFFFFF, 0x00401450, false⟩,
  ⟨O.LND_FG_HOLD, 0x4, 1, .rw, 0x0000FFFF, 0x000003E8, false⟩,
  ⟨O.LND_CNT_LANE_FAULT, 0x4, 1, .ro, 0x00000000, 0x00000000, false⟩,
  ⟨O.LND_CNT_FALLBACK, 0x4, 1, .ro, 0x00000000, 0x00000000, false⟩,
  ⟨O.LND_CNT_HOLD, 0x4, 1, .ro, 0x00000000, 0x00000000, false⟩,
  ⟨O.LND_CNT_MISSED_CAPTURE, 0x4, 1, .ro, 0x00000000, 0x00000000, false⟩,
  ⟨O.LND_TAP_COUNT, 0x4, 1, .ro, 0x00000000, 0x00000000, false⟩,
  ⟨O.LND_SCENE_TAG, 0x8, 8, .ro, 0x00000000, 0x00000000, true⟩,
  ⟨O.LND_SCENE_TAG_HI, 0x8, 8, .ro, 0x00000000, 0x00000000, false⟩]

abbrev O.LMP_FLAGS : Nat := 0x0100
abbrev O.LMP_BRIGHTNESS : Nat := 0x0800
abbrev O.LMP_DITHER_CFG : Nat := 0x0804
abbrev O.LMP_TILE_CONFIRM : Nat := 0x0810
abbrev O.LMP_AUTO_EN_LO : Nat := 0x0818
abbrev O.LMP_AUTO_EN_HI : Nat := 0x081C
abbrev O.LMP_ADOPT_DOSE_R : Nat := 0x0820
abbrev O.LMP_ADOPT_DOSE_G : Nat := 0x0824
abbrev O.LMP_ADOPT_DOSE_B : Nat := 0x0828
abbrev O.LMP_CRUISE_CTL : Nat := 0x0830
abbrev O.LMP_CRUISE_STAT : Nat := 0x0834
abbrev O.LMP_CRUISE_PORTS_LO : Nat := 0x0838
abbrev O.LMP_CRUISE_PORTS_HI : Nat := 0x083C
abbrev O.LMP_CRUISE_BASE_LO : Nat := 0x0840
abbrev O.LMP_CRUISE_BASE_HI : Nat := 0x0844
abbrev O.LMP_CRUISE_T : Nat := 0x0848
abbrev O.LMP_CNT_CRUISE_OPEN : Nat := 0x0850
abbrev O.LMP_CNT_CRUISE_SHORT : Nat := 0x0854
abbrev O.LMP_CNT_LAMP_UE : Nat := 0x0858
abbrev O.LMP_CNT_MISMATCH : Nat := 0x085C
abbrev O.LMP_TILE_EXP : Nat := 0x4000
abbrev O.LMP_TILE_STAT : Nat := 0x8000
abbrev O.LMP_TILE_SEEN : Nat := 0xC000
/-- Register words of block LMP (spec tables 9.9). -/
def regsLmp : List RegDesc := [
  ⟨O.LMP_FLAGS, 0x4, 1, .ro, 0x00000000, 0x00000000, false⟩,
  ⟨O.LMP_BRIGHTNESS, 0x4, 1, .pw, 0x0000FFFF, 0x00008000, false⟩,
  ⟨O.LMP_DITHER_CFG, 0x4, 1, .rw, 0x00000001, 0x00000001, false⟩,
  ⟨O.LMP_TILE_CONFIRM, 0x4, 1, .wo, 0xE0000FFF, 0x00000000, false⟩,
  ⟨O.LMP_AUTO_EN_LO, 0x4, 1, .rw, 0xFFFFFFFF, 0x00000000, true⟩,
  ⟨O.LMP_AUTO_EN_HI, 0x4, 1, .rw, 0xFFFFFFFF, 0x00000000, false⟩,
  ⟨O.LMP_ADOPT_DOSE_R, 0x4, 1, .rw, 0xFFFFFFFF, 0x00000000, false⟩,
  ⟨O.LMP_ADOPT_DOSE_G, 0x4, 1, .rw, 0xFFFFFFFF, 0x00000000, false⟩,
  ⟨O.LMP_ADOPT_DOSE_B, 0x4, 1, .rw, 0xFFFFFFFF, 0x00000000, false⟩,
  ⟨O.LMP_CRUISE_CTL, 0x4, 1, .pw, 0xE0000000, 0x00000000, false⟩,
  ⟨O.LMP_CRUISE_STAT, 0x4, 1, .ro, 0x00000000, 0x00000000, false⟩,
  ⟨O.LMP_CRUISE_PORTS_LO, 0x4, 1, .rw, 0xFFFFFFFF, 0x00000000, true⟩,
  ⟨O.LMP_CRUISE_PORTS_HI, 0x4, 1, .rw, 0xFFFFFFFF, 0x00000000, false⟩,
  ⟨O.LMP_CRUISE_BASE_LO, 0x4, 1, .rw, 0xFFFFFFFF, 0x00000000, true⟩,
  ⟨O.LMP_CRUISE_BASE_HI, 0x4, 1, .rw, 0xFFFFFFFF, 0x00000000, false⟩,
  ⟨O.LMP_CRUISE_T, 0x4, 1, .rw, 0x0000FFFF, 0x0000003C, false⟩,
  ⟨O.LMP_CNT_CRUISE_OPEN, 0x4, 1, .ro, 0x00000000, 0x00000000, false⟩,
  ⟨O.LMP_CNT_CRUISE_SHORT, 0x4, 1, .ro, 0x00000000, 0x00000000, false⟩,
  ⟨O.LMP_CNT_LAMP_UE, 0x4, 1, .ro, 0x00000000, 0x00000000, false⟩,
  ⟨O.LMP_CNT_MISMATCH, 0x4, 1, .ro, 0x00000000, 0x00000000, false⟩,
  ⟨O.LMP_TILE_EXP, 0x4, 4032, .rw, 0xFFFFFFFF, 0x00000000, false⟩,
  ⟨O.LMP_TILE_STAT, 0x4, 4032, .ro, 0x00000000, 0x00000000, false⟩,
  ⟨O.LMP_TILE_SEEN, 0x4, 4032, .ro, 0x00000000, 0x00000000, false⟩]

abbrev O.TLY_FLAGS : Nat := 0x0100
abbrev O.TLY_DOSE_BASE_LO : Nat := 0x0800
abbrev O.TLY_DOSE_BASE_HI : Nat := 0x0804
abbrev O.TLY_CFG : Nat := 0x0808
abbrev O.TLY_INTERVAL : Nat := 0x080C
abbrev O.TLY_SWEEP_PERIOD : Nat := 0x0810
abbrev O.TLY_SWEEP_CTL : Nat := 0x0814
abbrev O.TLY_LEDGER_PERIOD : Nat := 0x0818
abbrev O.TLY_LEDGER_BASE_LO : Nat := 0x0820
abbrev O.TLY_LEDGER_BASE_HI : Nat := 0x0824
abbrev O.TLY_LEDGER_SEQ : Nat := 0x0828
abbrev O.TLY_CNT_SAMPLES : Nat := 0x0830
abbrev O.TLY_CNT_DEFERRED : Nat := 0x0834
abbrev O.TLY_CNT_SWEEPS : Nat := 0x0838
abbrev O.TLY_EXH_LAMPS : Nat := 0x083C
abbrev O.TLY_SNAG_LAMPS : Nat := 0x0840
abbrev O.TLY_CNT_DOSE_SAT : Nat := 0x0844
abbrev O.TLY_CNT_DOSE_UE : Nat := 0x0848
abbrev O.TLY_DERATE : Nat := 0x1000
/-- Register words of block TLY (spec tables 9.12). -/
def regsTly : List RegDesc := [
  ⟨O.TLY_FLAGS, 0x4, 1, .ro, 0x00000000, 0x00000000, false⟩,
  ⟨O.TLY_DOSE_BASE_LO, 0x4, 1, .rl, 0xFFFFFFFF, 0x00000000, true⟩,
  ⟨O.TLY_DOSE_BASE_HI, 0x4, 1, .rl, 0xFFFFFFFF, 0x00000000, false⟩,
  ⟨O.TLY_CFG, 0x4, 1, .rw, 0xC0FFFF00, 0x00401000, false⟩,
  ⟨O.TLY_INTERVAL, 0x4, 1, .rl, 0x0000FFFF, 0x00000040, false⟩,
  ⟨O.TLY_SWEEP_PERIOD, 0x4, 1, .rw, 0x0000FFFF, 0x00000258, false⟩,
  ⟨O.TLY_SWEEP_CTL, 0x4, 1, .pw, 0x00000003, 0x00000000, false⟩,
  ⟨O.TLY_LEDGER_PERIOD, 0x4, 1, .rw, 0x000000FF, 0x00000018, false⟩,
  ⟨O.TLY_LEDGER_BASE_LO, 0x4, 1, .rw, 0xFFFFFFFF, 0x00000000, true⟩,
  ⟨O.TLY_LEDGER_BASE_HI, 0x4, 1, .rw, 0xFFFFFFFF, 0x00000000, false⟩,
  ⟨O.TLY_LEDGER_SEQ, 0x4, 1, .rw, 0xFFFFFFFF, 0x00000000, false⟩,
  ⟨O.TLY_CNT_SAMPLES, 0x4, 1, .ro, 0x00000000, 0x00000000, false⟩,
  ⟨O.TLY_CNT_DEFERRED, 0x4, 1, .ro, 0x00000000, 0x00000000, false⟩,
  ⟨O.TLY_CNT_SWEEPS, 0x4, 1, .ro, 0x00000000, 0x00000000, false⟩,
  ⟨O.TLY_EXH_LAMPS, 0x4, 1, .ro, 0x00000000, 0x00000000, false⟩,
  ⟨O.TLY_SNAG_LAMPS, 0x4, 1, .ro, 0x00000000, 0x00000000, false⟩,
  ⟨O.TLY_CNT_DOSE_SAT, 0x4, 1, .ro, 0x00000000, 0x00000000, false⟩,
  ⟨O.TLY_CNT_DOSE_UE, 0x4, 1, .ro, 0x00000000, 0x00000000, false⟩,
  ⟨O.TLY_DERATE, 0x4, 4032, .ro, 0x00000000, 0x00000000, false⟩]

abbrev O.STD_FLAGS : Nat := 0x0100
abbrev O.STD_CFG : Nat := 0x0800
abbrev O.STD_STAT : Nat := 0x0804
abbrev O.STD_PRESENT_LO : Nat := 0x0810
abbrev O.STD_PRESENT_HI : Nat := 0x0814
abbrev O.STD_SNAP_BASE_LO : Nat := 0x0818
abbrev O.STD_SNAP_BASE_HI : Nat := 0x081C
abbrev O.STD_OP_SEQ : Nat := 0x0820
abbrev O.STD_TIME_ERR : Nat := 0x0824
abbrev O.STD_CNT_MISSED : Nat := 0x0828
abbrev O.STD_CNT_ISOLATED : Nat := 0x082C
abbrev O.STD_CNT_BEACON_MISS : Nat := 0x0830
abbrev O.STD_CNT_SH_LATE : Nat := 0x0834
abbrev O.STD_CNT_SH_DROP : Nat := 0x0838
abbrev O.STD_SH_CFG : Nat := 0x2000
abbrev O.STD_SH_RING : Nat := 0x2004
abbrev O.STD_SH_DEST_LO : Nat := 0x2008
abbrev O.STD_SH_DEST_HI : Nat := 0x200C
abbrev O.STD_SH_RING_HI : Nat := 0x2010
abbrev O.STD_SH_PICS : Nat := 0x2014
abbrev O.STD_SH_LATE : Nat := 0x2018
abbrev O.STD_SH_DROP : Nat := 0x201C
/-- Register words of block STD (spec table 16.9). -/
def regsStd : List RegDesc := [
  ⟨O.STD_FLAGS, 0x4, 1, .ro, 0x00000000, 0x00000000, false⟩,
  ⟨O.STD_CFG, 0x4, 1, .rl, 0xC000FFFF, 0xC000000A, false⟩,
  ⟨O.STD_STAT, 0x4, 1, .ro, 0x00000000, 0x00000000, false⟩,
  ⟨O.STD_PRESENT_LO, 0x4, 1, .ro, 0x00000000, 0x00000000, true⟩,
  ⟨O.STD_PRESENT_HI, 0x4, 1, .ro, 0x00000000, 0x00000000, false⟩,
  ⟨O.STD_SNAP_BASE_LO, 0x4, 1, .rw, 0xFFFFFFFF, 0x00000000, true⟩,
  ⟨O.STD_SNAP_BASE_HI, 0x4, 1, .rw, 0xFFFFFFFF, 0x00000000, false⟩,
  ⟨O.STD_OP_SEQ, 0x4, 1, .ro, 0x00000000, 0x00000000, false⟩,
  ⟨O.STD_TIME_ERR, 0x4, 1, .ro, 0x00000000, 0x00000000, false⟩,
  ⟨O.STD_CNT_MISSED, 0x4, 1, .ro, 0x00000000, 0x00000000, false⟩,
  ⟨O.STD_CNT_ISOLATED, 0x4, 1, .ro, 0x00000000, 0x00000000, false⟩,
  ⟨O.STD_CNT_BEACON_MISS, 0x4, 1, .ro, 0x00000000, 0x00000000, false⟩,
  ⟨O.STD_CNT_SH_LATE, 0x4, 1, .ro, 0x00000000, 0x00000000, false⟩,
  ⟨O.STD_CNT_SH_DROP, 0x4, 1, .ro, 0x00000000, 0x00000000, false⟩,
  ⟨O.STD_SH_CFG, 0x20, 256, .rw, 0xC03F01FF, 0x00000000, false⟩,
  ⟨O.STD_SH_RING, 0x20, 256, .rw, 0xFFFF00FF, 0x00000000, false⟩,
  ⟨O.STD_SH_DEST_LO, 0x20, 256, .rw, 0xFFFFFFFF, 0x00000000, true⟩,
  ⟨O.STD_SH_DEST_HI, 0x20, 256, .rw, 0xFFFFFFFF, 0x00000000, false⟩,
  ⟨O.STD_SH_RING_HI, 0x20, 256, .rw, 0x0000000F, 0x00000000, false⟩,
  ⟨O.STD_SH_PICS, 0x20, 256, .ro, 0x00000000, 0x00000000, false⟩,
  ⟨O.STD_SH_LATE, 0x20, 256, .ro, 0x00000000, 0x00000000, false⟩,
  ⟨O.STD_SH_DROP, 0x20, 256, .ro, 0x00000000, 0x00000000, false⟩]

abbrev O.CRN_LINK_FLAGS : Nat := 0x0100
abbrev O.CRN_LINK_CFG : Nat := 0x0800
abbrev O.CRN_LINK_STAT : Nat := 0x0804
abbrev O.CRN_DELAY_ADJ : Nat := 0x0808
abbrev O.CRN_LINK_DELAY : Nat := 0x080C
abbrev O.CRN_CNT_REPLAY : Nat := 0x0810
abbrev O.CRN_CNT_CRC : Nat := 0x0814
abbrev O.CRN_CNT_LOCK_LOSS : Nat := 0x0818
abbrev O.CRN_TX_FLITS_LO : Nat := 0x0820
abbrev O.CRN_TX_FLITS_HI : Nat := 0x0824
abbrev O.CRN_RX_FLITS_LO : Nat := 0x0828
abbrev O.CRN_RX_FLITS_HI : Nat := 0x082C
/-- Register words of block CRN (spec tables 16.7). -/
def regsCrn : List RegDesc := [
  ⟨O.CRN_LINK_FLAGS, 0x4, 1, .ro, 0x00000000, 0x00000000, false⟩,
  ⟨O.CRN_LINK_CFG, 0x4, 1, .rl, 0x800000FF, 0x80000000, false⟩,
  ⟨O.CRN_LINK_STAT, 0x4, 1, .ro, 0x00000000, 0x00000000, false⟩,
  ⟨O.CRN_DELAY_ADJ, 0x4, 1, .rw, 0xFFFFFFFF, 0x00000000, false⟩,
  ⟨O.CRN_LINK_DELAY, 0x4, 1, .ro, 0x00000000, 0x00000000, false⟩,
  ⟨O.CRN_CNT_REPLAY, 0x4, 1, .ro, 0x00000000, 0x00000000, false⟩,
  ⟨O.CRN_CNT_CRC, 0x4, 1, .ro, 0x00000000, 0x00000000, false⟩,
  ⟨O.CRN_CNT_LOCK_LOSS, 0x4, 1, .ro, 0x00000000, 0x00000000, false⟩,
  ⟨O.CRN_TX_FLITS_LO, 0x4, 1, .ro, 0x00000000, 0x00000000, true⟩,
  ⟨O.CRN_TX_FLITS_HI, 0x4, 1, .ro, 0x00000000, 0x00000000, false⟩,
  ⟨O.CRN_RX_FLITS_LO, 0x4, 1, .ro, 0x00000000, 0x00000000, true⟩,
  ⟨O.CRN_RX_FLITS_HI, 0x4, 1, .ro, 0x00000000, 0x00000000, false⟩]

abbrev O.DEC_CORE_FLAGS : Nat := 0x0100
abbrev O.DEC_CORE_STAT : Nat := 0x0800
abbrev O.DEC_CUR_CTX : Nat := 0x0804
abbrev O.DEC_HANG_T : Nat := 0x0808
abbrev O.DEC_PICS : Nat := 0x0810
abbrev O.DEC_LATE : Nat := 0x0814
abbrev O.DEC_SKIPPED : Nat := 0x0818
abbrev O.DEC_BITERR : Nat := 0x081C
abbrev O.DEC_ABORTS : Nat := 0x0820
abbrev O.DEC_MIGR_IN : Nat := 0x0824
abbrev O.DEC_MIGR_OUT : Nat := 0x0828
abbrev O.DEC_BUSY_LO : Nat := 0x0830
abbrev O.DEC_BUSY_HI : Nat := 0x0834
/-- Register words of block DEC (spec tables 6.8). -/
def regsDec : List RegDesc := [
  ⟨O.DEC_CORE_FLAGS, 0x4, 1, .ro, 0x00000000, 0x00000000, false⟩,
  ⟨O.DEC_CORE_STAT, 0x4, 1, .ro, 0x00000000, 0x00000000, false⟩,
  ⟨O.DEC_CUR_CTX, 0x4, 1, .ro, 0x00000000, 0x00000000, false⟩,
  ⟨O.DEC_HANG_T, 0x4, 1, .rw, 0x000000FF, 0x00000032, false⟩,
  ⟨O.DEC_PICS, 0x4, 1, .ro, 0x00000000, 0x00000000, false⟩,
  ⟨O.DEC_LATE, 0x4, 1, .ro, 0x00000000, 0x00000000, false⟩,
  ⟨O.DEC_SKIPPED, 0x4, 1, .ro, 0x00000000, 0x00000000, false⟩,
  ⟨O.DEC_BITERR, 0x4, 1, .ro, 0x00000000, 0x00000000, false⟩,
  ⟨O.DEC_ABORTS, 0x4, 1, .ro, 0x00000000, 0x00000000, false⟩,
  ⟨O.DEC_MIGR_IN, 0x4, 1, .ro, 0x00000000, 0x00000000, false⟩,
  ⟨O.DEC_MIGR_OUT, 0x4, 1, .ro, 0x00000000, 0x00000000, false⟩,
  ⟨O.DEC_BUSY_LO, 0x4, 1, .ro, 0x00000000, 0x00000000, true⟩,
  ⟨O.DEC_BUSY_HI, 0x4, 1, .ro, 0x00000000, 0x00000000, false⟩]

abbrev O.ENC_CORE_FLAGS : Nat := 0x0100
abbrev O.ENC_CORE_STAT : Nat := 0x0800
abbrev O.ENC_CUR_CTX : Nat := 0x0804
abbrev O.ENC_HANG_T : Nat := 0x0808
abbrev O.ENC_PICS : Nat := 0x0810
abbrev O.ENC_REENC : Nat := 0x0814
abbrev O.ENC_SKIPS : Nat := 0x0818
abbrev O.ENC_LATE_SKIP : Nat := 0x081C
abbrev O.ENC_ABORTS : Nat := 0x0820
abbrev O.ENC_MIGR_IN : Nat := 0x0824
abbrev O.ENC_MIGR_OUT : Nat := 0x0828
abbrev O.ENC_BUSY_LO : Nat := 0x0830
abbrev O.ENC_BUSY_HI : Nat := 0x0834
/-- Register words of block ENC (spec tables 7.10). -/
def regsEnc : List RegDesc := [
  ⟨O.ENC_CORE_FLAGS, 0x4, 1, .ro, 0x00000000, 0x00000000, false⟩,
  ⟨O.ENC_CORE_STAT, 0x4, 1, .ro, 0x00000000, 0x00000000, false⟩,
  ⟨O.ENC_CUR_CTX, 0x4, 1, .ro, 0x00000000, 0x00000000, false⟩,
  ⟨O.ENC_HANG_T, 0x4, 1, .rw, 0x000000FF, 0x00000032, false⟩,
  ⟨O.ENC_PICS, 0x4, 1, .ro, 0x00000000, 0x00000000, false⟩,
  ⟨O.ENC_REENC, 0x4, 1, .ro, 0x00000000, 0x00000000, false⟩,
  ⟨O.ENC_SKIPS, 0x4, 1, .ro, 0x00000000, 0x00000000, false⟩,
  ⟨O.ENC_LATE_SKIP, 0x4, 1, .ro, 0x00000000, 0x00000000, false⟩,
  ⟨O.ENC_ABORTS, 0x4, 1, .ro, 0x00000000, 0x00000000, false⟩,
  ⟨O.ENC_MIGR_IN, 0x4, 1, .ro, 0x00000000, 0x00000000, false⟩,
  ⟨O.ENC_MIGR_OUT, 0x4, 1, .ro, 0x00000000, 0x00000000, false⟩,
  ⟨O.ENC_BUSY_LO, 0x4, 1, .ro, 0x00000000, 0x00000000, true⟩,
  ⟨O.ENC_BUSY_HI, 0x4, 1, .ro, 0x00000000, 0x00000000, false⟩]

abbrev O.JLK_PORT_FLAGS : Nat := 0x0100
abbrev O.JLK_PORT_CTL : Nat := 0x0800
abbrev O.JLK_PORT_STAT : Nat := 0x0804
abbrev O.JLK_PORT_CMD : Nat := 0x0808
abbrev O.JLK_TX_EQ : Nat := 0x080C
abbrev O.JLK_SENSE_MV : Nat := 0x0810
abbrev O.JLK_CHAIN_INFO : Nat := 0x0814
abbrev O.JLK_TRACE_ADJ : Nat := 0x0818
abbrev O.JLK_CELLS_TX_LO : Nat := 0x0820
abbrev O.JLK_CELLS_TX_HI : Nat := 0x0824
abbrev O.JLK_FEC_CORR_UP : Nat := 0x0828
abbrev O.JLK_FEC_UNCORR_UP : Nat := 0x082C
abbrev O.JLK_CRC_ERR_UP : Nat := 0x0830
abbrev O.JLK_BAD_TYPE : Nat := 0x0834
abbrev O.JLK_SEQ_GAP_UP : Nat := 0x0838
abbrev O.JLK_BLACK_SLOTS : Nat := 0x083C
abbrev O.JLK_LOCK_LOSS : Nat := 0x0840
abbrev O.JLK_HI_ERR_EVENTS : Nat := 0x0844
abbrev O.JLK_STATUS_MISS : Nat := 0x0848
abbrev O.JLK_TRAIN_FAIL : Nat := 0x084C
abbrev O.JLK_ENUMS : Nat := 0x0850
abbrev O.JLK_T_SERIAL : Nat := 0x1000
abbrev O.JLK_T_GEOM : Nat := 0x1004
abbrev O.JLK_T_INFO : Nat := 0x1008
abbrev O.JLK_T_FW : Nat := 0x100C
abbrev O.JLK_T_DELAY : Nat := 0x1010
abbrev O.JLK_T_STAT : Nat := 0x1014
abbrev O.JLK_T_ERR : Nat := 0x1018
abbrev O.JLK_T_MODE : Nat := 0x101C
/-- Register words of block JLK (spec tables 10.17, 10.18). -/
def regsJlk : List RegDesc := [
  ⟨O.JLK_PORT_FLAGS, 0x4, 1, .ro, 0x00000000, 0x00000000, false⟩,
  ⟨O.JLK_PORT_CTL, 0x4, 1, .rl, 0x00FF0033, 0x00040013, false⟩,
  ⟨O.JLK_PORT_STAT, 0x4, 1, .ro, 0x00000000, 0x00000000, false⟩,
  ⟨O.JLK_PORT_CMD, 0x4, 1, .pw, 0x00000003, 0x00000000, false⟩,
  ⟨O.JLK_TX_EQ, 0x4, 1, .rl, 0x0000F0F0, 0x00004080, false⟩,
  ⟨O.JLK_SENSE_MV, 0x4, 1, .ro, 0x00000000, 0x00000000, false⟩,
  ⟨O.JLK_CHAIN_INFO, 0x4, 1, .ro, 0x00000000, 0x00000000, false⟩,
  ⟨O.JLK_TRACE_ADJ, 0x4, 1, .rw, 0x0000FFFF, 0x00000000, false⟩,
  ⟨O.JLK_CELLS_TX_LO, 0x4, 1, .ro, 0x00000000, 0x00000000, true⟩,
  ⟨O.JLK_CELLS_TX_HI, 0x4, 1, .ro, 0x00000000, 0x00000000, false⟩,
  ⟨O.JLK_FEC_CORR_UP, 0x4, 1, .ro, 0x00000000, 0x00000000, false⟩,
  ⟨O.JLK_FEC_UNCORR_UP, 0x4, 1, .ro, 0x00000000, 0x00000000, false⟩,
  ⟨O.JLK_CRC_ERR_UP, 0x4, 1, .ro, 0x00000000, 0x00000000, false⟩,
  ⟨O.JLK_BAD_TYPE, 0x4, 1, .ro, 0x00000000, 0x00000000, false⟩,
  ⟨O.JLK_SEQ_GAP_UP, 0x4, 1, .ro, 0x00000000, 0x00000000, false⟩,
  ⟨O.JLK_BLACK_SLOTS, 0x4, 1, .ro, 0x00000000, 0x00000000, false⟩,
  ⟨O.JLK_LOCK_LOSS, 0x4, 1, .ro, 0x00000000, 0x00000000, false⟩,
  ⟨O.JLK_HI_ERR_EVENTS, 0x4, 1, .ro, 0x00000000, 0x00000000, false⟩,
  ⟨O.JLK_STATUS_MISS, 0x4, 1, .ro, 0x00000000, 0x00000000, false⟩,
  ⟨O.JLK_TRAIN_FAIL, 0x4, 1, .ro, 0x00000000, 0x00000000, false⟩,
  ⟨O.JLK_ENUMS, 0x4, 1, .ro, 0x00000000, 0x00000000, false⟩,
  ⟨O.JLK_T_SERIAL, 0x20, 63, .ro, 0x00000000, 0x00000000, false⟩,
  ⟨O.JLK_T_GEOM, 0x20, 63, .ro, 0x00000000, 0x00000000, false⟩,
  ⟨O.JLK_T_INFO, 0x20, 63, .ro, 0x00000000, 0x00000000, false⟩,
  ⟨O.JLK_T_FW, 0x20, 63, .ro, 0x00000000, 0x00000000, false⟩,
  ⟨O.JLK_T_DELAY, 0x20, 63, .ro, 0x00000000, 0x00000000, false⟩,
  ⟨O.JLK_T_STAT, 0x20, 63, .ro, 0x00000000, 0x00000000, false⟩,
  ⟨O.JLK_T_ERR, 0x20, 63, .ro, 0x00000000, 0x00000000, false⟩,
  ⟨O.JLK_T_MODE, 0x20, 63, .ro, 0x00000000, 0x00000000, false⟩]
/-- Register words of a block, besides the common header. -/
def blkRegs : Blk → List RegDesc
  | .dev => regsDev | .clk => regsClk | .hif => regsHif | .wqm => regsWqm | .eic => regsEic | .ycs => regsYcs
  | .skd => regsSkd | .chk => regsChk | .ysq => regsYsq | .net => regsNet | .dbk => regsDbk | .flm => regsFlm
  | .hbm => regsHbm | .yrd => regsYrd | .tim => regsTim | .lnd => regsLnd | .lmp => regsLmp | .tly => regsTly
  | .std => regsStd | .crn => regsCrn | .dec => regsDec | .enc => regsEnc | .xsd => regsDec | .jlk => regsJlk

/-- Does a row name the word at `off`? -/
def RegDesc.covers (d : RegDesc) (off : Nat) : Bool :=
  decide (d.off ≤ off) && decide ((off - d.off) % d.stride = 0) && decide ((off - d.off) / d.stride < d.count)

/-- The row of the register at `off` of page `p`, or `none` for a reserved or unimplemented word (R27, R29).
MAP_MASK exists on HBM0 only (R405). -/
def regDesc? (p off : Nat) : Option RegDesc :=
  match blkOf p with
  | none => none
  | some b =>
    if off < 0x100 then regsCommon.find? (·.covers off)
    else if b = .hbm ∧ p ≠ Blk.hbm.first ∧ 0x800 ≤ off ∧ off < 0x858 then none
    else (blkRegs b).find? (·.covers off)

/-- Key of a register in the register store. -/
def regKey (p off : Nat) : Nat := p * 0x10000 + off

/-- Reset masks of the address map, MAP_MASK(0) to MAP_MASK(10) (Table 15.3). -/
def mapMaskReset : List Nat :=
  [0x000100200400, 0x000200400800, 0x000400801000, 0x000801002000, 0x000002004000, 0x000004008000,
   0x000008010000, 0x000010020000, 0x000020040000, 0x000040080000, 0x000080100000]

/-- Value of a register at power-on reset (R6): the Reset column, with PAGE_ID built under R30, PAGE_CTL and
PAGE_STAT of DEV, CLK and HIF running (Table 2.3), the address masks of Table 15.3, and the ROLE of the codec
cores when every core passed self-test (R158, R187). -/
def regReset (key : Nat) : W32 :=
  let p := key / 0x10000
  let off := key % 0x10000
  match blkOf p with
  | none => 0
  | some b =>
    if off = O.PAGE_ID then
      BitVec.ofNat 32 (b.typeCode * 0x1000000 + (p - b.first) * 0x10000 + 0x0102)
    else if off = O.PAGE_CTL ∧ (b = .dev ∨ b = .clk ∨ b = .hif) then 1
    else if off = O.PAGE_STAT ∧ (b = .dev ∨ b = .clk ∨ b = .hif) then 2
    else if b = .hbm ∧ 0x800 ≤ off ∧ off < 0x858 then
      if p = Blk.hbm.first then
        BitVec.ofNat 32 ((mapMaskReset.getD ((off - 0x800) / 8) 0) >>> (if (off - 0x800) % 8 = 0 then 0 else 32))
      else 0
    else if off = O.DEC_CORE_STAT ∧ (b = .dec ∧ 32 ≤ p - b.first ∨ b = .xsd ∧ 8 ≤ p - b.first
        ∨ b = .enc ∧ 16 ≤ p - b.first) then 0x40000000
    else
      match regDesc? p off with
      | some d => BitVec.ofNat 32 d.reset
      | none => 0

end Sys2Proof.Machine
end

