-- ==== Sys2Proof/Machine/State.lean ====
section
/-! DEFINITION. The state of the engine, as plain data, and the state right after power-on reset.
Registers live in `regs`, table words in `tables`; what the spec gives the machine beside them has a field here. -/
namespace Sys2Proof.Machine

/-- Why a step stops with a fault. No command of this block faults: every condition the spec describes has an
effect. The one constructor is raised by nothing (safe). -/
inductive Fault where
  /-- Raised by no meaning; safe. -/
  | none
deriving DecidableEq, Repr

/-- Why a step refuses a command. -/
inductive Refusal where
  /-- Raised by an arm of `exec` whose command has no meaning yet; safe. -/
  | notModelled (mnemonic : String)
deriving DecidableEq, Repr

/-- Phases of the indirect window with WIDE set (R44). -/
inductive WinPhase where | low | readHigh | writeHigh
deriving DecidableEq, Repr

/-- What a page's indirect window keeps besides IND_SEL and IND_CTL (R43, R44). -/
structure Window where
  phase : WinPhase := .low
  held : W32 := 0
  ended : Bool := false
deriving DecidableEq, Repr

/-- A posted write that is not yet applied (R40): offset, data, whether 64-bit, and the bit of an alias write. -/
structure Posted where
  off : Nat
  data : W64
  wide : Bool
  bit : Option Nat
deriving DecidableEq, Repr

/-- Status, RESULT and DETAIL a job completes with (R71). -/
structure JobOut where
  status : Nat
  result : Nat := 0
  detail : Nat := 0
deriving DecidableEq, Repr

/-- A fetched submission entry: ring index and sixteen words (R62). -/
structure Entry where
  idx : Nat
  dw : List W32
deriving DecidableEq, Repr

/-- A job (R62): ring index of its first entry, number of entries, opcode, CONTEXT, TAG, DW6-DW15, flags, the
pieces of its data, whether they still stand in a fragment table, and what has become of it. -/
structure Job where
  first : Nat
  count : Nat
  op : Nat
  ctx : Nat
  tag : Nat
  par : List W32
  urgent : Bool
  fence : Bool
  /-- WQM soft resets that its queue had met when it was fetched. -/
  gen : Nat := 0
  indirect : Bool
  pieces : List (Nat × Nat)
  /-- What is moved already: bytes of a FEED (R69) or a TALLY_SNAPSHOT, words of a TABLE_LOAD, lines of a FRAME_PUT. -/
  moved : Nat := 0
  /-- The epoch the job waits for, once its block has accepted it (R77). -/
  epoch : Option Nat := none
  /-- The job has been accepted by its block and waits there for an event. -/
  taken : Bool := false
  /-- Outcome, once the block has finished the job. -/
  out : Option JobOut := none
deriving DecidableEq, Repr

/-- Engine side of a submission queue, besides its registers (R57-R77). -/
structure Sq where
  fetch : Nat := 0
  /-- WQM soft resets met since power-on. -/
  gen : Nat := 0
  chain : List Entry := []
  ready : List Job := []
  started : List Job := []
  /-- Started jobs that a WQM soft reset has cut off from the queue (R61). -/
  ghosts : List Job := []
  finished : List (Nat × Nat) := []
  win : List (Nat × W32) := []
  pushes : List (Nat × Option (List W32)) := []
  /-- Entries fetched before this tail make jobs that end with this status (R69, R157). -/
  cut : Option (Nat × Nat) := none
  /-- A CTX_CLOSE has been accepted: entries under the doorbell at that time that are still to be fetched; jobs fetched
  after them end with BAD_STATE (R69). -/
  shut : Option Int := none
deriving DecidableEq, Repr

/-- Engine side of a completion queue: entries written since its last message, and whether T runs (R80). -/
structure Cq where
  n : Nat := 0
  timing : Bool := false
deriving DecidableEq, Repr

/-- A completion entry held in D3hot or with the link down (R85, R488). -/
structure HeldCqe where
  cq : Nat
  addr : Nat
  words : List W32
  urgent : Bool
deriving DecidableEq, Repr

/-- PCIe function state outside the register pages (R83, R85, R54). -/
structure Hif where
  funcMask : Bool := false
  pmeEn : Bool := false
  pmeStatus : Bool := false
  /-- The base address registers of BAR0, BAR2 and BAR4 (R26). -/
  bar0 : W64 := 0
  bar2 : W64 := 0
  bar4 : W64 := 0
  /-- Max_Read_Request_Size (R362). -/
  maxRead : Nat := 512
  held : List HeldCqe := []
deriving DecidableEq, Repr

/-- Whether the engine runs (R435, R460, R471): running, DEVICE_FATAL, stopped with its clocks (REFCLK lost or
thermal trip), or held in power-on reset. -/
inductive Life where | up | fatal | dead | held
deriving DecidableEq, Repr

/-- Port-wide conditions of Table 18.3 that are not read off a register of their own page. -/
inductive Cond where
  | fatal | reset | pwrFail | lnd | lmp | jlk | holdover | missed | isolated | mode | rate | allowance
  | hiErr | realign | link
deriving DecidableEq, Repr

/-- Port-wide BLACK: conditions on every port, conditions by port, and the ports that owe a NOW = 1 cell (R458). -/
structure BlackSt where
  glob : List Cond := []
  port : List (Nat × Cond) := []
  nowDue : List Nat := []
deriving DecidableEq, Repr

/-- A transmit timestamp waiting in the TXTS queue (R453). -/
structure Stamp where
  inst : Nat
  desc : Nat
  time : Nat
deriving DecidableEq, Repr

/-- Stand time, the wall-frame grid and the timing source (R445-R451). Times named `Fx` are in 2⁻¹⁶ ns. -/
structure Tim where
  /-- Stand time, ns. -/
  time : Nat := 0
  /-- Fraction of stand time, 2⁻¹⁶ ns. -/
  frac : Nat := 0
  /-- Rate-correction remainder, units of 2⁻³² × 10⁻⁹ ns. -/
  adjAcc : Int := 0
  /-- 48-bit wall-frame number. -/
  wframe : Nat := 0
  /-- Frame rate of the grid in force (R446): that of the mode last in force. -/
  num : Nat := 60000
  den : Nat := 1000
  /-- Start of the wall frame in progress. -/
  twFx : Int := 0
  /-- The grid in force is the grid of R446 on stand time. -/
  onGrid : Bool := true
  /-- Estimated wall-frame period P_est. -/
  pEstFx : Nat := 0
  /-- Amount the next boundary is moved by, beside the spacing P_est (R449). -/
  moveFx : Int := 0
  /-- Phase error of a valid pulse that came before the start it marks: the grid slews once that wall frame starts. -/
  slewDue : Option Int := none
  /-- The grid is to step at the next boundary to this start (R448, R450). -/
  stepTo : Option Int := none
  /-- At the next boundary the grid moves: onto the grid of R446, or onto one through a stamp (R445, R450). -/
  regrid : Option (Option Int) := none
  /-- Slots that fall due before the next boundary are BLACK (R448). -/
  hole : Bool := false
  /-- Valid pulses of the history, newest first, ns. -/
  hist : List Int := []
  /-- Length of the run of ACQUIRE. -/
  run : Nat := 0
  /-- Wall frame whose start the last valid pulse marked. -/
  refFrame : Nat := 0
  /-- Transmit stamps waiting. -/
  txts : List Stamp := []
  /-- STEP last applied. -/
  stepApplied : W64 := 0
  /-- High words of stamps that reads of their low words have latched, by offset (R453). -/
  his : List (Nat × Nat) := []
deriving DecidableEq, Repr

/-- Fault-handling state beside the DEV page (R435, R456, R460, R465, R468). -/
structure Flt where
  life : Life := .up
  /-- Code of Table 18.4 the engine is halted by. -/
  fatalCode : Nat := 0
  /-- The junction stood at or above THERM_CFG.WARN at the last sample. -/
  warm : Bool := false
  /-- THERM_ALERT_N is driven low. -/
  alertPin : Bool := false
  /-- A retirement by request still RUNNING: class and number of the unit. -/
  retiring : Option (Nat × Nat) := none
  /-- BOOT_MODE pins as sampled (R441). -/
  bootMode : Nat := 0
  /-- Coppice USED and LOST, by class (R463). -/
  cop : Store (Nat × Nat) := []
deriving DecidableEq, Repr


/-- A frame on its way out: network queue, MAC instance, bytes without FCS, and the host transmit ring and
descriptor it came from, if any (R371, R383). -/
structure NetFrame where
  queue : Nat
  inst : Nat
  bytes : List Byte
  src : Option (Nat × Nat) := none
  /-- Encode context that sent it (R183). -/
  ctx : Option Nat := none
deriving DecidableEq, Repr

/-- Round of a scheduler (R377): the pointer, and whether its visit has begun. -/
structure Round where
  ptr : Nat := 4
  visiting : Bool := false
deriving DecidableEq, Repr

/-- A host transmit descriptor that is not yet written back (R384): index, and once known the outcome: whether
it failed, and its stamp. -/
structure HtxEnt where
  idx : Nat
  word0 : Nat
  done : Bool := false
  err : Bool := false
  stamp : Nat := 0
  frac : Nat := 0
deriving DecidableEq, Repr

/-- A host transmit ring: the next descriptor to read, and those read and not written back. -/
structure Htx where
  next : Nat := 0
  ents : List HtxEnt := []
deriving DecidableEq, Repr

/-- A management or bulk cell for a Jelek port: MGMT_DOWN or BULK, TILE, and its 500 body bytes (R275, R276). -/
structure JCell where
  mgmt : Bool
  tile : Nat
  body : List Byte
  /-- Block index of a BULK cell. -/
  offset : Nat := 0
  /-- Subchannel that waits until the cell has been sent. -/
  sub : Option Nat := none
deriving DecidableEq, Repr

/-- The Choker (R371-R382) and the ingress meters (R103). Buckets are (committed, peak) in 2⁻¹⁶ byte. -/
structure Chk where
  /-- Frames handed over by their sources and not yet entered into a queue (Table 14.1). -/
  inbox : List NetFrame := []
  frames : List NetFrame := []
  bucket : Store (Int × Int) := []
  /-- Words 0-4 of a queue entry as the scheduler uses them (R379). -/
  live : Store (List Nat) := []
  deficit : Store Nat := []
  rounds : Store Round := []
  htx : Store Htx := []
  jq : Store (List JCell) := []
  jbucket : Store Int := []
  /-- JQ_RATE in force, by port. -/
  jrate : Store Nat := []
  meter : Store (Int × Int) := []
  /-- Meter registers in force: CIR, CBS, PIR, PBS, CTL. -/
  mlive : Store (List Nat) := []
deriving DecidableEq, Repr

/-- Counts of a Kerf (Table 5.7): CAUSE bits, FIRST_TS, PKTS, DGRAMS, BYTES, FIRST_SEQ. -/
structure Kerf where
  cause : Nat
  ts : Nat := 0
  pkts : Nat := 0
  dgrams : Nat := 0
  bytes : Nat := 0
  seq : Nat := 0
deriving DecidableEq, Repr

/-- A packet between COMMIT and WR (R114): the header fields known so far and the content. -/
structure OpenPkt where
  time : Nat := 0
  key : Bool := false
  pieced : Bool := true
  pts64 : Bool := false
  discont : Bool := false
  after : Bool := false
  content : List Byte := []
  dgrams : Nat := 0
  bytes : Nat := 0
  seq : Nat := 0
deriving DecidableEq, Repr

/-- A committed packet or Kerf still held: first stave, staves, and the stand time of its commit. -/
structure PktMark where
  start : Nat
  staves : Nat
  kerf : Bool
  time : Nat
deriving DecidableEq, Repr

/-- A consumer operation that waits for FLM to run again (R123, R128). -/
inductive FlumeOp where
  | read (k : Nat)
  | mark
  | rewind
  | release (p : Nat)
  | dropRem
deriving DecidableEq, Repr

/-- A Flume, besides the positions and status of its register block (R110-R129). -/
structure Flume where
  /-- The Flume is in use: words 0-3 were taken at CTX_OPEN. -/
  used : Bool := false
  host : Bool := false
  vpid : Nat := 0
  segs : Nat := 0
  base : Nat := 0
  pkt : Option OpenPkt := none
  /-- Sequence number expected next (R119). -/
  exp : Option Nat := none
  /-- Position up to which HBM has accepted the tail buffer's writes (R112), and the committed staves from there on, which
  the tail buffer still holds (R111). -/
  acc : Nat := 0
  tail : List Byte := []
  pks : List PktMark := []
  /-- The Kerf that is the last stave committed. -/
  kerf : Option Kerf := none
  /-- Counts held while KERF_PEND is set (R122). -/
  held : Option Kerf := none
  /-- RTP timestamp of the packet that DROPPING discards, and the cause of its loss. -/
  dropTs : Nat := 0
  dropCause : Nat := 0
  /-- Datagrams dropped while FLM was not RUNNING (R128). -/
  stopDrops : Nat := 0
  /-- RD has changed since the last check; wall frames without change; STALE raised in this episode (R127). -/
  moved : Bool := false
  still : Nat := 0
  raised : Bool := false
  /-- Consumer operations that wait for FLM (R128), in issue order. -/
  ops : List FlumeOp := []
deriving DecidableEq, Repr

/-- A datagram on its way into a Flume (R101): PFMT, RTP timestamp, sequence number and marker, flags, colour. -/
structure Dgram where
  pfmt : Nat
  ts : Nat := 0
  seq : Nat := 0
  marker : Bool := false
  flags : Nat := 0
  colour : Nat := 0
  payload : List Byte := []
  /-- Receive stamp: ns, and its fraction in 2^-16 ns. -/
  stamp : Nat := 0
  frac : Nat := 0
deriving DecidableEq, Repr

/-- A picture that a core has taken and the scheduler has not yet committed (R143, R152). -/
structure Flight where
  /-- Decode order within the context. -/
  serial : Nat
  core : Nat
  slot : Nat
  /-- First stave of the picture's packets, and the stave after them. -/
  start : Nat
  stop : Nat
  pts : Nat
  width : Nat
  height : Nat
  colour : Nat
  full : Bool
  key : Bool
  ref : Bool
  disc : Bool
  /-- Slots of its reference pictures, stand-ins among them (R149). -/
  refs : List Nat := []
  standin : Bool := false
  partialPic : Bool := false
  recovery : Bool := false
  done : Bool := false
  /-- CEPOCH under which it was committed (Table 6.4). -/
  cepoch : Nat := 0
  /-- The state that is saved when it is committed (R155): PTS of its unit, and the anchor (R141). -/
  prevPts : Option Int := none
  anchor : Option (Nat × Nat) := none
deriving DecidableEq, Repr

/-- Packets that are finished though earlier ones are not (R124, R143): their staves, and the state saved with them. -/
structure Gone where
  start : Nat
  stop : Nat
  prevPts : Option Int
  anchor : Option (Nat × Nat)
deriving DecidableEq, Repr

/-- A close that has been accepted: its job, DRAIN, and COMMIT as it then stood (R135). -/
structure Closing where
  ref : JobRef
  drain : Bool
  upto : Nat
deriving DecidableEq, Repr

/-- A change accepted by CTX_CONFIG for the next boundary: CLASS, DW7, DW8, DW9, descriptor (R134, R163). -/
structure NewCfg where
  cls : Nat
  width : Nat
  height : Nat
  fnum : Nat
  fden : Nat
  desc : List W32
deriving DecidableEq, Repr

/-- A normal migration under way: the cores it goes to, and the CTX_MIGRATE job that waits for it (R153). -/
structure Mig where
  cores : List Nat
  ref : Option JobRef
deriving DecidableEq, Repr

/-- Kinds of a coded picture (R160): IDR or key frame, CRA or I picture with a recovery point, P or inter frame, skip. -/
inductive PicKind where
  | idr
  | open_
  | inter
  | skip
deriving DecidableEq, Repr

/-- What is signalled of the buffer model: R in bit/s and B in bits, CBR, the initial removal delay and the time that the
buffer takes to fill, in 90 kHz ticks. -/
structure Hrd where
  rate : Nat
  size : Nat
  cbr : Bool
  delay : Nat
  full : Nat
deriving DecidableEq, Repr

/-- Continuity counters of PAT, PMT and video, and the stand times of the last PAT and PMT. -/
structure TsSt where
  cc : List Nat := [0, 0, 0]
  psi : Option Nat := none
deriving DecidableEq, Repr

/-- An access unit that is final (R160, R173): its number and kind, the number of the picture it predicts from, the rows
of its slices (first and count), what it signals of the buffer model, and its bytes of filler. -/
structure EncUnit where
  num : Nat
  kind : PicKind
  ref : Option Nat
  rows : List (Nat × Nat)
  hrd : Hrd
  filler : Nat
deriving DecidableEq, Repr

/-- A picture due or being encoded (R169-R172): its presentation time; its start time; its frame of the input ring, and the
source's ring slot it is still to be scaled from; whether its core has started it; its kind; its pass, 1-3, or 4 when it is
to be replaced by a skip picture (R186); the quantiser of its first pass; whether the Landing or the source asks for a key
picture at it; and whether it was captured under the change that CTX_CONFIG has left pending. -/
structure EncPic where
  pts : Nat
  start : Int := 0
  slot : Nat := 0
  src : Option Nat := none
  conf : Option NewCfg := none
  started : Bool := false
  key : Bool := false
  idr : Bool := false
  pass : Nat := 1
  qp : Nat := 0
  want : Bool := false
deriving DecidableEq, Repr

/-- Encoder side of a context (R159-R187). -/
structure Enc where
  /-- Pictures sent, skip pictures included: the number of the next one. -/
  num : Nat := 0
  /-- Number of the last picture sent. -/
  sent : Nat := 0
  lastKey : Nat := 0
  sinceKey : Nat := 0
  /-- The last access unit; the picture that P pictures predict from, with its number (R160). -/
  unit : Option EncUnit := none
  refNum : Option Nat := none
  recon : Plane × Plane × Plane := ([], [], [])
  /-- Whole-pixel and final vectors of the blocks of the last P picture, and of the first pass in progress; vectors of the
  partitions of the first pass (R178). -/
  mvs : List ((Int × Int) × (Int × Int)) := []
  mvNew : List ((Int × Int) × (Int × Int)) := []
  partMvs : List (Int × Int) := []
  /-- Transport stream (R182). -/
  ts : TsSt := {}
  /-- The source's colour or size has changed and no key picture has been started since (R167). -/
  want : Bool := false
  pic : Option EncPic := none
  /-- Delay headroom D and its initial value D0, s (R170). -/
  d : Rat := 0
  d0 : Rat := 0
  /-- Sixth powers of the complexity X of the last key and P pictures (R171). -/
  xKey : Nat := 0
  xP : Nat := 0
  /-- Pending key request, with IDR; and one held by KEY_HOLDOFF (R174). -/
  keyReq : Option Bool := none
  keyHeld : Option Bool := none
  holdoff : Bool := false
  /-- Change accepted by ENC_RECONFIG: BITRATE, CPB, VBR; and whether the picture before it has started (R177). -/
  reconf : Option (Nat × Nat × Bool) := none
  reconfNext : Bool := false
  /-- Index n of the next encode instant; TAP: first wall frame w_0, and the capture that is complete: its
  presentation time, and 0 captured, 1 missed, 2 feed absent (R165, R166). -/
  tapN : Nat := 0
  tapW0 : Nat := 0
  cap : Option (Nat × Nat) := none
  /-- Wall frame last captured, the scene of the capture before, and the captures made (R166, R179); the change of CTX_CONFIG
  that the capture made last is under, and the scene of the capture in progress. -/
  lastCap : Option Nat := none
  capConf : Option NewCfg := none
  capNow : Option Nat := none
  capScene : Option Nat := none
  capNum : Nat := 0
  /-- CONTEXT: t_0, PTS of the source's first READY picture. -/
  t0 : Option Nat := none
  srcColour : Option Nat := none
  /-- Skip pictures owed after the picture in progress (R169), with their presentation times. -/
  owed : List (Nat × EncOut) := []
  level : Nat := 0
  lastRtp : Nat := 0
  packets : Nat := 0
  /-- Datagrams sent (R180). -/
  dgrams : Nat := 0
  octets : Nat := 0
  keyFb : Nat := 0
  keyAll : Nat := 0
  skips : Nat := 0
  reenc : Nat := 0
  filler : Nat := 0
  outDrop : Nat := 0
  /-- Last FIR sequence number by sender SSRC (R105). -/
  fir : Store (Option Nat) := []
deriving DecidableEq, Repr

/-- A stream context (R132-R157, R162-R186). STATE codes are those of Tables 6.5 and 7.8. -/
structure Ctx where
  typ : Nat := 0
  st : Nat := 0
  cls : Nat := 0
  width : Nat := 0
  height : Nat := 0
  fnum : Nat := 0
  fden : Nat := 1
  desc : List W32 := []
  /-- Ring layout of CTX_OPEN (R134). -/
  pitch : Nat := 0
  slotBytes : Nat := 0
  cores : List Nat := []
  cepoch : Nat := 0
  csbSeq : Nat := 0
  events : Nat := 0
  /-- Event bits set since the last status block. -/
  evNew : Nat := 0
  /-- A status block is due, now or at the next 100 ms. -/
  csbDue : Bool := false
  csbDirty : Bool := false
  lastPts : Nat := 0
  pics : Nat := 0
  concPics : Nat := 0
  partPics : Nat := 0
  late : Nat := 0
  skipped : Nat := 0
  discarded : Nat := 0
  kerfs : Nat := 0
  biterr : Nat := 0
  overRate : Nat := 0
  migrations : Nat := 0
  ringWait : Nat := 0
  faultCode : Nat := 0
  serial : Nat := 0
  flight : List Flight := []
  /-- Committed pictures that wait for output. -/
  outq : List Flight := []
  /-- Anchor (C0, T0) of ARRIVAL; PTS of the last picture taken (R141). -/
  anchor : Option (Nat × Nat) := none
  prevPts : Option Int := none
  /-- The same as saved at the last commit in decode order (R155), and the finished packets after it. -/
  savedPts : Option Int := none
  savedAnchor : Option (Nat × Nat) := none
  gone : List Gone := []
  /-- The access unit of the last picture taken goes on (R134, R135, R153). -/
  midUnit : Bool := false
  /-- Turns of a gang (R145): pictures taken on the present cores. -/
  turn : Nat := 0
  /-- Access units in a row that do not match CODEC (Table 6.7). -/
  mismatch : Nat := 0
  /-- First stave of the picture that waits for a slot (R139). -/
  waiting : Option Nat := none
  /-- Reference pictures held: serial, slot, PTS; slot of the last picture committed (R149, R150). -/
  refs : List (Nat × Nat × Nat) := []
  lastSlot : Option Nat := none
  /-- Rate allowance, pixels × frame-rate denominator × 10⁹, and the stand time it stands at (R145). -/
  tokens : Nat := 0
  tokTime : Nat := 0
  /-- Pictures made READY in this episode of CONCEALING; CONCEAL_LONG set in it; the next READY picture ends it. -/
  concRun : Nat := 0
  concLong : Bool := false
  keyNext : Bool := false
  discNext : Bool := false
  closing : Option Closing := none
  newCfg : Option NewCfg := none
  mig : Option Mig := none
  enc : Enc := {}
deriving DecidableEq, Repr
/-- Yarder receive buffers of the Debarker (R108): the contents of the buffers in use, and the ring of buffer and
subchannel numbers. -/
structure Yrx where
  bufs : Store (List Byte) := []
  used : List Nat := []
  ring : List (Nat × Nat) := []
deriving DecidableEq, Repr

/-- A scene as it was read (Tables 8.5, 8.6): its words, its epoch, and a serial number of its own. -/
structure Scene where
  words : List W32
  epoch : Nat
  serial : Nat
deriving DecidableEq, Repr

/-- What a layer shows in a slot: 0 nothing, 1 BLACK, 2 a picture, 3 its slate, 4 a flat colour; the ring slot and the
matte's ring slot. -/
structure LaySel where
  kind : Nat
  slot : Nat := 0
  mat : Option Nat := none
deriving DecidableEq, Repr

/-- What a layer keeps between slots: the held picture (R209), and what the flash guard froze (R217). -/
structure LayRt where
  held : Option Nat := none
  froz : Option LaySel := none
deriving DecidableEq, Repr

/-- A cell of the flash guard (R216): direction of the last transition (0 none, 1 up, 2 down), the extremes of Y since
then, in cd/m², and the red state. -/
structure FgCell where
  dir : Nat
  lo : Rat
  hi : Rat
  red : Bool
deriving DecidableEq, Repr

/-- A feed of the Landing (R200-R217). -/
structure Feed where
  cur : Option Scene := none
  pend : List (Scene × JobRef) := []
  wait : List JobRef := []
  retained : Option Scene := none
  rt : List LayRt := []
  cells : Store (Option FgCell) := []
  /-- Wall frames of the luminance and red transitions counted. -/
  lum : List Nat := []
  red : List Nat := []
deriving DecidableEq, Repr

/-- A mode: MN_CFG, frame rate, MN_COLOUR layouts, its epoch, and whether STAND_OP brought it (R193, R423). -/
structure ModeNext where
  cfg : Nat
  num : Nat
  den : Nat
  colour : Nat
  epoch : Nat
  stand : Bool
deriving DecidableEq, Repr

/-- A pending epoch load of a table (R68): page, table, first word, words, epoch, job, words written so far. -/
structure TabLoad where
  page : Nat
  table : Nat
  first : Nat
  words : Nat
  epoch : Nat
  ref : JobRef
  written : Nat
  late : Bool := false
deriving DecidableEq, Repr

/-- The Landing (chapter 08). -/
structure Lnd where
  feeds : Store Feed := []
  serial : Nat := 0
  /-- Wall frames run: slots start at their SYNC stand times (R192). -/
  on : Bool := false
  /-- Slot in progress, and the next to start. -/
  slot : Option Nat := none
  next : Nat := 0
  /-- The operations of this wall frame's epoch have been applied (R22). -/
  applied : Bool := false
  /-- What each layer of the feed in progress shows (R191). -/
  sel : List LaySel := []
  /-- Ports that send BLACK for the rest of the slot in progress. -/
  dark : List Nat := []
  /-- Armed or announced mode, and the tiles that have acknowledged one: MODE_ID × 4,096 + tile (R195). -/
  armed : Option ModeNext := none
  ann : Option ModeNext := none
  acks : List Nat := []
  /-- MODE_ID of the mode in force; 0 is kept for none (R269, R274). -/
  modeId : Nat := 1
  /-- STATE that LND, LMP and the running JLK pages show while the stop, change and restart of a mode is on its way (R196). -/
  passing : Option Nat := none
  /-- End of the pulse of each CAM_SYNC output that is active. -/
  cam : Store (Option Nat) := []
  loads : List TabLoad := []
deriving DecidableEq, Repr

/-- The sweep in progress (R241-R243): next entry to look at, the settings it started with, the derates it has found
(packed as DERATE packs them), and its counts. -/
structure SweepSt where
  next : Nat := 0
  derate : Bool
  dmax : Nat
  feather : Nat
  found : Store Nat := []
  exhNew : Bool := false
  exh : Nat := 0
  snag : Nat := 0
deriving DecidableEq, Repr

/-- The Tally (R235-R247). -/
structure Tly where
  /-- Staged increments of the sample being folded: Lamp map index, red, green, blue. -/
  fold : Option (List (Nat × Nat × Nat × Nat)) := none
  /-- Increments of that sample that are not staged yet (R238). -/
  rest : List (Nat × Nat × Nat × Nat) := []
  /-- The slot that the sample is of is still in progress (R237). -/
  live : Bool := false
  /-- Samples taken; samples deferred since the last; wall frame last sampled or deferred. -/
  n : Nat := 0
  deferred : Nat := 0
  last : Option Nat := none
  sweep : Option SweepSt := none
deriving DecidableEq, Repr

/-- The Lamp map beside its tables, and Cruise (R228-R232, R248). -/
structure Lmp where
  /-- Brightness in force. -/
  br : Nat := 0x8000
  /-- Lamp pixels whose entry holds an uncorrectable error. -/
  ue : List Nat := []
  /-- Tile whose TILE_CONFIRM is in progress. -/
  busy : Option Nat := none
  /-- Cruise run, APPLY, ports, and the tiles that have not yet reported. -/
  run : Nat := 0
  apply : Bool := false
  ports : Nat := 0
  asked : List Nat := []
deriving DecidableEq, Repr

/-- A Jelek cell: the header fields of Table 10.3 and the 500 bytes of its body. -/
structure Cell where
  typ : Nat
  feed : Nat := 0
  tile : Nat := 63
  offset : Nat := 0
  seq : Nat := 0
  body : List Byte := []
deriving DecidableEq, Repr

/-- A tile's DESC as the engine keeps it while it enumerates (R278, R279); times in 2⁻⁴ ns and ns. -/
structure DescIn where
  pos : Nat
  rtt : Nat
  turn : Nat
  dn : Nat
  up : Nat
deriving DecidableEq, Repr

/-- Engine side of a Jelek port, besides its page (chapter 10). -/
structure JPort where
  /-- SYNC that waits for the next cell slot; whether it is a Cruise SYNC of R270, and whether a repeat. -/
  sync : Option (Cell × Bool × Bool) := none
  /-- SYNC last sent. -/
  last : Option Cell := none
  black : List Cell := []
  hello : List Cell := []
  /-- PIXEL cells of the slot not yet sent: tile and first lamp pixel. -/
  pix : List (Nat × Nat) := []
  seq : Nat := 0
  /-- SEQ expected from each originating position. -/
  exp : Store (Option Nat) := []
  /-- Enumeration: 0 none, 1 collecting, 2 waiting for ASSIGNED; the answers; positions not yet ASSIGNED. -/
  phase : Nat := 0
  descs : List DescIn := []
  wait : List Nat := []
  /-- Positions that reported FMT36, and OUT_LOCK as each position last reported it. -/
  fmt36 : List Nat := []
  outLock : Store (Option Bool) := []
  /-- States of the SENSE samples that agree, newest state and how many. -/
  sense : Nat × Nat := (0, 0)
  /-- TRAIN attempts since TRAIN was entered afresh; clean checks of the pair; the pair's transmitter is in fault. -/
  tries : Nat := 0
  clean : Nat := 0
  /-- Errors in the 10 ms interval, and intervals without one in HI_ERR. -/
  errs : Nat := 0
  quiet : Nat := 0
deriving DecidableEq, Repr

/-- What a tile keeps of a SYNC cell (Table 10.6), with its arrival in the tile's own time. -/
structure TSync where
  frame : Nat
  slot : Nat
  feed : Nat
  maint : Bool
  cruise : Bool
  modeId : Nat
  tsync : Nat
  disp : Nat
  mode : Nat
  period : Nat
  run : Nat
  mask : Nat
  pend : Bool
  pendId : Nat
  pendMode : Nat
  arr : Nat
deriving DecidableEq, Repr

/-- A slot that a tile holds: its SYNC, whether a BLACK cell names it, and the pixels received. -/
structure TSlot where
  sync : TSync
  black : Bool := false
  pix : Store (Option (Nat × Nat × Nat)) := []
deriving DecidableEq, Repr

/-- A tile of a chain (R260-R283). -/
structure TileSt where
  props : TileProps := {}
  /-- Whether the receivers of IN and of OUT are locked. -/
  inLock : Bool := false
  outLock : Bool := false
  /-- ENUM_ID and position taken; and once an ASSIGN is held, its ENUM_ID and its DELAY in 2⁻⁴ ns. -/
  enumId : Option Nat := none
  pos : Option Nat := none
  asg : Option (Nat × Nat) := none
  /-- SYNC last received, and the local time at which the watchdog was last fed. -/
  last : Option TSync := none
  fed : Nat := 0
  held : List TSlot := []
  /-- Drive of each lamp pixel now; an unlisted one is dark. -/
  lamps : Store (Nat × Nat × Nat) := []
  /-- SYNC of the last slot presented. -/
  cur : Option TSync := none
  presenting : Bool := false
  /-- IN has been locked, so that the tile transmits (R260); its own cells that wait for an IDLE cell's place, and the upstream
  cell slots since it last sent one of its own, up to 64 (R262). -/
  tx : Bool := false
  own : List Cell := []
  gap : Nat := 64
  /-- Local time of a watchdog blanking that is in force. -/
  wd : Option Nat := none
  /-- Local time of a BLACK cell with NOW = 1 whose darkness is in force. -/
  dark : Option Nat := none
  /-- Cruise: survey run, next lamp pixel, and whether a survey is in progress. -/
  run : Option Nat := none
  next : Nat := 0
  busy : Bool := false
  crcErr : Nat := 0
  seqGap : Nat := 0
  badType : Nat := 0
  exp : Option Nat := none
  seq : Nat := 0
  /-- BULK data placed, by stream × 2²⁰ + block. -/
  bulk : Store (List Byte) := []
deriving DecidableEq, Repr

/-- A channel command as fetched (Table 11.3): its address, word 0, ADDRESS, and word 3. -/
structure ChCmd where
  addr : Nat
  w0 : Nat
  data : Nat
  w3 : Nat
deriving DecidableEq, Repr

/-- The operation a subchannel carries out: its commands (a span), data areas, bytes in all, bytes moved, commands whose
NOTE is due no more, what it waits for, refusals and BUSY answers met, TID and length of the request outstanding, and
for BULK the cells handed over and not yet sent. -/
structure ChOp where
  cmds : List ChCmd
  areas : List (Nat × Nat) := []
  total : Nat := 0
  moved : Nat := 0
  noted : Nat := 0
  /-- 0 nothing, 1 reply, 2 backoff, 3 poll interval, 4 program event, 5 frame, 6 room in the Jelek queue, 7 BULK cells
  not yet sent, 8 the 1 ms after a BUSY. -/
  wait : Nat := 0
  retries : Nat := 0
  busy : Nat := 0
  tid : Nat := 0
  len : Nat := 0
  cells : Nat := 0
deriving DecidableEq, Repr

/-- A subchannel, besides SCH_STAT (R293-R314). -/
structure Sub where
  /-- Address of the next command, whether a GOTO led there, and whether its PAUSE is to be passed over. -/
  pc : Nat := 0
  goto_ : Bool := false
  skip : Bool := false
  /-- Address of the last command executed. -/
  last : Nat := 0
  /-- Device address (R313). -/
  target : Nat := 0
  dev : Nat := 0
  alen : Nat := 0
  speed : Nat := 0
  addr : Nat := 0
  tid : Nat := 0
  op : Option ChOp := none
  /-- Outcome of the last command: END, REASON, bytes not moved, retries, whether NOTE was set. -/
  endc : Nat := 0
  reason : Nat := 0
  resid : Nat := 0
  retries : Nat := 0
  noted : Bool := false
  /-- REASON of the last DEVICE_ERROR. -/
  devErr : Nat := 0
deriving DecidableEq, Repr

/-- A status posting that waits for host memory (R310, R488): subchannel, KIND, NEXT_ADDR, what the record says of the last
command, and the state that the subchannel takes once the record is written, if it takes one. -/
structure Post where
  sub : Nat
  kind : Nat
  next : Nat
  endc : Nat
  reason : Nat
  resid : Nat
  retries : Nat
  noted : Bool
  after : Option Nat
deriving DecidableEq, Repr

/-- A sequencer, besides the registers of its page (Table 12.1, R344, R348). -/
structure Seq where
  cmdCode : Nat := 0
  /-- Latches of the conditions ACK, SDA and SCL. -/
  ack : Bool := false
  sda : Bool := true
  scl : Bool := true
  /-- LINE_SET bits in force, by port of the sequencer; bus held after a START; speed set. -/
  lines : Store Nat := []
  held : List Nat := []
  speed : Store Nat := []
  buf : Store Byte := []
  ctxs : Store W32 := []
  /-- Queues of R348: commands (kind, subchannel, address), replies (subchannel, TID), timer expiries. -/
  cmds : List (Nat × Nat × Nat) := []
  reps : List (Nat × Nat) := []
  tims : List Nat := []
  /-- Bodies of the replies that wait for MGMT_TAKE, by subchannel. -/
  bodies : List (Nat × List Byte) := []
  /-- Timers: armed to so many µs, and those expired and not armed again. -/
  timers : Store (Option Nat) := []
  expired : List Nat := []
deriving DecidableEq, Repr

/-- A Skidder channel, besides its registers (R356-R370): words of the descriptor in progress, the data of a burst whose
read has started and whose cell is not queued, parked data, and the job it carries. -/
structure SkCh where
  desc : Option (List Nat) := none
  flight : Option (List Byte) := none
  parked : List Byte := []
  job : Option JobRef := none
deriving DecidableEq, Repr

/-- The memories beside their pages (chapter 15). Rows of SRAM are numbered by 1 KiB; those of the Lamp map from 2¹⁶. -/
structure Mem where
  /-- Rows with corrected errors and their counts, last hit first (R390). -/
  rows : List (Nat × Nat) := []
  /-- Groups whose spare row is used. -/
  groups : List Nat := []
  /-- Bucking entries and tile types in use with an uncorrectable error (Table 15.2). -/
  badTiles : List Nat := []
  badTypes : List Nat := []
  /-- Rule hash entries with one: table and entry. -/
  badRules : List (Nat × Nat) := []
  /-- Words of the other tables whose entry holds one, by the key of `tabKey` (R47, R351). -/
  poor : List Nat := []
  /-- Corrected errors of HBM rows, by stack × 2³⁰ + the row packed as PPR_LIST packs it (R400). -/
  hbmCe : Store Nat := []
  /-- HBM banks whose spare row is used: stack × 2¹⁰ + bank (R402). -/
  banks : List Nat := []
  /-- Spare lanes used: (stack × 16 + channel) × 2, plus 1 for command-address (R401). -/
  lanesUsed : Store Nat := []
  /-- Neighbour refreshes scheduled, oldest first, by stack × 32 + pseudo-channel: the activated row with its stack ID and
  bank (R398). -/
  nref : Store (List Nat) := []
  /-- Entry of PPR_LIST under repair, by stack. -/
  ppr : Store (Option Nat) := []
  /-- Select masks in force; the last that HBM0 ran with (R395, R396). -/
  masks : List Nat := mapMaskReset
deriving DecidableEq, Repr

/-- A Cororn link, besides its page (R407-R409, R416): SEQ expected and SEQ to send, flits sent and not yet acknowledged,
and the last delays measured, newest first, in 2⁻⁸ ns. -/
structure CrnSt where
  rx : Nat := 0
  tx : Nat := 0
  held : List (Nat × List Byte) := []
  /-- Flits that wait for room among the 1,024 held, in the order of R408, each with whether its CRC is bad. -/
  wait : List (List Byte × Bool) := []
  /-- SEQ that the peer last asked a replay from, and how often in a row (R409). -/
  tries : Nat × Nat := (0, 0)
  delays : List Int := []
deriving DecidableEq, Repr

/-- A committed MODE or STAND_RESET that waits for its epoch: the job on the lead, and the engines that missed it. -/
structure StandPend where
  reset : Bool
  epoch : Nat
  ref : Option JobRef := none
  missed : Nat := 0
deriving DecidableEq, Repr

/-- A BARRIER on the lead: the earlier jobs it waits for, and whether it has been broadcast (R422). -/
structure Barrier where
  ref : JobRef
  jobs : List JobRef
  sent : Bool := false
deriving DecidableEq, Repr

/-- The stand as this engine knows it (chapter 16). -/
structure Stand where
  links : Store CrnSt := []
  /-- Link of the tree by which an engine is reached. -/
  routes : List (Nat × Nat) := []
  pend : Option StandPend := none
  /-- MODE and STAND_RESET operations committed since discovery, and the epoch of the latest (R425). -/
  committed : Nat := 0
  lastEpoch : Nat := 0
  /-- REDISCOVER that runs, and the BARRIERs. -/
  redisc : Option JobRef := none
  barriers : List Barrier := []
  /-- On a member, the administrative jobs that its reply to a BARRIER waits for (R422). -/
  barrierIn : Option (List JobRef) := none
  /-- The parent link of this engine has gone down, and no other path is taken yet (R426). -/
  lostParent : Option Nat := none
  /-- Wall frames without a BEACON in a row. -/
  noBeacon : Nat := 0
  /-- The counter has been stepped to the parent's since this engine joined; measurements still due on a new path. -/
  joined : Bool := false
  measures : Nat := 0
  /-- The parent's control store has been copied (R413). -/
  csDone : Bool := false
deriving DecidableEq, Repr

/-- What the engine puts out: the model's own log, newest first (DESIGN CHOICE, safe: log 2). -/
inductive Output where
  /-- Data a read returned. -/
  | readData (v : W64)
  /-- A read ended with Completer Abort. -/
  | readAbort
  /-- An MSI-X message: vector, address, data. -/
  | msix (vector : Nat) (addr : Nat) (data : W32)
  /-- PM_PME. -/
  | pme
  /-- A neighbour refresh (R398): stack, pseudo-channel, bank with its stack ID, rows. -/
  | rowRefresh (stack pc bank : Nat) (rows : List Nat)
  /-- An AER report: correctable or uncorrectable, with the offset concerned. -/
  | aer (uncorr : Bool) (addr : Nat)
  /-- Staves a consumer read returned: context, first position, bytes. -/
  | staves (ctx : Nat) (pos : Nat) (data : List Byte)
  /-- A CAM_SYNC output changes level (R199). -/
  | camSync (k : Nat) (high : Bool)
  /-- A Jelek cell sent: port; 0 for the engine or 1 + the tile's place; whether towards the engine; the 512 bytes. -/
  | cell (port src : Nat) (up : Bool) (bytes : List Byte)
  /-- A tile's light changes: port, place. -/
  | light (port place : Nat)
  /-- A transaction on a port's two-wire bus: port, device, address bytes and data written. -/
  | i2c (port dev : Nat) (isRead : Bool) (bytes : List Byte)
  /-- A START (repeated or not) or a STOP on the bus of a port. -/
  | busEdge (port : Nat) (start again : Bool)
  /-- The lines of a port's bus are driven: bit 0 SDA low, bit 1 SCL low, bit 2 pins exchanged. -/
  | lines (port bits : Nat)
  /-- A record written to a tile's tag: bucking entry, tag address, bytes. -/
  | tag (t addr : Nat) (bytes : List Byte)
  /-- A frame leaves MAC instance `inst` (without FCS). -/
  | frame (inst : Nat) (bytes : List Byte)
  /-- A flit leaves a Cororn link. -/
  | flit (link : Nat) (bytes : List Byte)
  /-- A replay is requested on a link, from a SEQ (R409). -/
  | replay (link seq : Nat)
  /-- A BEACON: wall frame, OP_SEQ, epoch of the latest operation, and whether the holdover is exceeded (R425, R450). -/
  | beacon (frame opSeq epoch : Nat) (exceeded : Bool)
  /-- A member reports to the lead that it has missed the stand's state (R425). -/
  | missedReport (engine : Nat)
  /-- A round of a stand operation is broadcast: 1 prepare, 2 commit, 3 abort; code of Table 16.5; argument words. -/
  | standRound (round op : Nat) (args : List Nat)
  /-- A control store is copied into a child, with CS_CHECK and CHECK_EN (R413). -/
  | csCopy (child : Nat) (words : List Nat) (check : Nat) (checkEn : Bool)
  /-- A shared picture is sent: share, destination engines, header words, lines; and the CLOSE of a share (R428, R429). -/
  | share (n dest : Nat) (head : List Nat) (lines : List (List Byte))
  | shareClose (n : Nat)
  /-- Answer to a REG message: data, or the cause of a bus error (R414, R415). -/
  | regData (l : List Byte)
  | regError (cause : Nat)
  /-- A member's reply to a stand operation: code, and the reason of a refusal (R421, R422). -/
  | standReply (engine code reason : Nat)
  /-- A member has cause for PM_PME, which the lead sends (R415). -/
  | pmeReport
  /-- This engine's snapshot is written (R423). -/
  | snapReply (engine : Nat)
  /-- A stand-window access leaves for another engine (R414): engine, BAR2 image, read, offset, bytes, data. -/
  | regForward (engine : Nat) (bar2 isRead : Bool) (off size data : Nat)
  /-- Every SerDes transmitter goes to electrical idle, with the clocks stopped (R435, R468). -/
  | serdesIdle
  /-- A thermal trip: management and GPIO outputs go to high impedance, the cores are powered down (Table 18.9). -/
  | outputsOff
  /-- THERM_ALERT_N driven low (true) or released (R468). -/
  | thermAlert (low : Bool)
  /-- A FATAL broadcast to the stand, with the number of the failing engine (R427). -/
  | fatalBroadcast (engine : Nat)
  /-- A warm reset or FLR is broadcast to the members (R436). -/
  | resetBroadcast (flr : Bool)
deriving DecidableEq, Repr

/-- The state of the engine, with the queue of waiting commands. -/
structure State where
  /-- Commands waiting, first in, first out. -/
  pending : List Instr := []
  /-- Registers of every page, keyed page × 0x10000 + offset; an unlisted one holds its reset value. -/
  regs : Store W32 := []
  /-- Words of the tables behind the windows; an unlisted one is 0. -/
  tables : Store W32 := []
  /-- Host memory as the engine has read and written it; an unlisted byte is 0. -/
  host : Store Byte := []
  /-- HBM by engine address; an unlisted byte is 0 (zero-filled, R393). -/
  hbm : Store Byte := []
  /-- Posted writes not yet applied, by page. -/
  posted : Store (Option Posted) := []
  /-- Indirect windows, by page. -/
  windows : Store Window := []
  /-- Submission queues, by number. -/
  sq : Store Sq := []
  /-- Completion queues, by number. -/
  cq : Store Cq := []
  /-- Position of the fetch arbiter in its round (R73). -/
  arb : Nat := 0
  hif : Hif := {}
  black : BlackSt := { glob := [.lnd, .lmp] }
  tim : Tim := {}
  flt : Flt := {}
  /-- Active copies of the double-buffered tables LMP 0x00 (bit 0) and 0x01 (bit 1). -/
  lmpActive : Nat := 0
  /-- Yarder receive buffers. -/
  yrx : Yrx := {}
  /-- Flumes, by context. -/
  flumes : Store Flume := []
  /-- Stream contexts, by number. -/
  ctxs : Store Ctx := []
  /-- Readers of ring pictures (R139): 0-7 Landing feed, 8 + c encode context c, 600 + n share stream; context, slot. -/
  holds : List (Nat × Nat × Nat) := []
  /-- Number, within the wall frame in progress, of the slot being composed or sent (R188). -/
  slotIdx : Nat := 0
  /-- LATE counts of a core since the last rebalancing, by page (R154). -/
  lateRecent : Store Nat := []
  /-- The Landing. -/
  lnd : Lnd := {}
  /-- Sink rings of the shares, as the contexts they show (R429). -/
  shares : Store Ctx := []
  /-- The Lamp map, tile identity and Cruise. -/
  lmp : Lmp := {}
  /-- The Tally. -/
  tly : Tly := {}
  /-- Engine side of the Jelek ports. -/
  jports : Store JPort := []
  /-- The tiles, by port × 128 + place in the chain. -/
  tilesOf : Store TileSt := []
  /-- Subchannels of the Yarder, by number. -/
  subs : Store Sub := []
  /-- Status postings that wait for host memory, oldest first. -/
  posts : List Post := []
  /-- Sequencers, by number. -/
  seqs : Store Seq := []
  /-- Pending sources of the EIC whose saturation has been reported (R333). -/
  eicSat : List Nat := []
  /-- Ports whose management bus has been cleared since the YSQ page started (R320). -/
  cleared : List Nat := []
  /-- Requests that have been sent and not answered: subchannel, TID. -/
  mgmt : List (Nat × Nat) := []
  /-- Skidder channels. -/
  skch : Store SkCh := []
  /-- Host staging area of the yard (Table 13.1). -/
  yard : Store Byte := []
  chk : Chk := {}
  /-- MGMT_DOWN and BULK cells released to a port and not yet sent, oldest first, with the slots each has waited. -/
  jout : Store (List (JCell × Nat)) := []
  /-- The memories. -/
  mem : Mem := {}
  /-- The stand. -/
  stand : Stand := {}
  /-- Free values taken so far. -/
  freeCtr : Nat := 0
  /-- What the engine has put out, newest first. -/
  out : List Output := []
deriving DecidableEq, Repr

/-- The engine right after power-on reset (R6): every register at its reset value, every memory zero-filled, no
command waiting. -/
def State.reset : State := {}

end Sys2Proof.Machine
end

