-- ==== Sys2Proof/Machine/Store.lean ====
section
/-! DEFINITION. The one canonical form of sparse data and its read and write. -/
namespace Sys2Proof.Machine

/-- Value at a key; an unlisted key reads as `d key`. -/
def sget {α : Type} (d : Nat → α) : Store α → Nat → α
  | [], k => d k
  | (k', v) :: r, k => if k = k' then v else sget d r k

/-- Enter a value at a key, keys strictly rising. -/
def sins {α : Type} : Store α → Nat → α → Store α
  | [], k, v => [(k, v)]
  | (k', v') :: r, k, v =>
    if k < k' then (k, v) :: (k', v') :: r
    else if k = k' then (k, v) :: r
    else (k', v') :: sins r k v

/-- Write at a key, keeping keys strictly rising and listing no value an unlisted key reads as. -/
def sset {α : Type} [DecidableEq α] (d : Nat → α) (m : Store α) (k : Nat) (v : α) : Store α :=
  if v = d k then m.filter (fun e => decide (e.1 ≠ k)) else sins m k v

/-- The canonical form: keys strictly rising and above `lo`, no entry equal to its default. -/
def swfFrom {α : Type} [DecidableEq α] (d : Nat → α) : Nat → Store α → Bool
  | _, [] => true
  | lo, (k, v) :: r => decide (lo ≤ k) && decide (v ≠ d k) && swfFrom d (k + 1) r

/-- The canonical form of a whole store. -/
def swf {α : Type} [DecidableEq α] (d : Nat → α) (m : Store α) : Bool := swfFrom d 0 m

/-- Keep only the keys that satisfy `p`: every other key reads as its default again. -/
def skeep {α : Type} (p : Nat → Bool) (m : Store α) : Store α := m.filter fun e => p e.1

/-- Change every listed value; one that becomes its default is listed no more. -/
def smap {α : Type} [DecidableEq α] (d : Nat → α) (f : α → α) (m : Store α) : Store α :=
  (m.map fun e => (e.1, f e.2)).filter fun e => e.2 ≠ d e.1

/-- Set a run of consecutive keys to the elements of a list. -/
def ssetList {α : Type} [DecidableEq α] (d : Nat → α) : Store α → Nat → List α → Store α
  | m, _, [] => m
  | m, k, v :: r => ssetList d (sset d m k v) (k + 1) r

/-- Read a run of `n` consecutive keys. -/
def sgetList {α : Type} (d : Nat → α) (m : Store α) (k n : Nat) : List α :=
  (List.range n).map fun i => sget d m (k + i)

end Sys2Proof.Machine
end

