-- ==== Sys2Proof/Machine/Ops.lean ====
section
/-! DEFINITION. The named operations over registers, tables and memories, and what every block shares: error
capture, interrupt requests and messages, EIC raises, page states, port-wide BLACK and the fault log. -/
namespace Sys2Proof.Machine

/-- The outcome type of a command. -/
abbrev Out := Host.Outcome State Fault Refusal

/-! ## Bit fields -/

/-- Field of `n` bits from bit `lo`. -/
def bitsOf (w lo n : Nat) : Nat := (w >>> lo) % 2 ^ n

/-- Bit `b` of a number. -/
def bitOf (w b : Nat) : Bool := w.testBit b

/-- A Bool as a bit. -/
def b2n (b : Bool) : Nat := if b then 1 else 0

/-- Replace the field of `n` bits from bit `lo`. -/
def putBits (w lo n v : Nat) : Nat :=
  w - (bitsOf w lo n) * 2 ^ lo + (v % 2 ^ n) * 2 ^ lo

/-- Set every bit of a mask. -/
def setMask (w m : Nat) : Nat := w ||| m

/-- Clear every bit of a mask (32-bit words). -/
def clrMask (w m : Nat) : Nat := w &&& ((2 ^ 32 - 1) ^^^ (m % 2 ^ 32))

/-- Two's-complement value of an `n`-bit number. -/
def signed (n w : Nat) : Int :=
  let v := w % 2 ^ n
  if v < 2 ^ (n - 1) then (v : Int) else (v : Int) - (2 ^ n : Nat)

/-- An integer as an `n`-bit two's-complement number. -/
def toBits (n : Nat) (v : Int) : Nat := (v % ((2 ^ n : Nat) : Int)).toNat

/-- Little-endian value of a byte list. -/
def leNat : List Byte → Nat
  | [] => 0
  | b :: r => b.toNat + 256 * leNat r

/-- Little-endian bytes of a number. -/
def leBytes : Nat → Nat → List Byte
  | 0, _ => []
  | n + 1, v => BitVec.ofNat 8 v :: leBytes n (v / 256)

/-- Big-endian value of a byte list (network headers). -/
def beNat (l : List Byte) : Nat := l.foldl (fun a b => a * 256 + b.toNat) 0

/-- A little-endian 32-bit word of a byte list, by byte offset. -/
def leWord (l : List Byte) (off : Nat) : Nat := leNat ((l.drop off).take 4)

/-- Ceiling of a quotient. -/
def cdiv (a b : Nat) : Nat := (a + b - 1) / b

/-- One bit step of a CRC of `n` bits, most significant bit first. -/
def crcStep (n poly r : Nat) (b : Bool) : Nat :=
  let r2 := (2 * r) % 2 ^ n
  if r.testBit (n - 1) != b then r2 ^^^ poly else r2

/-- A CRC of `n` bits over bytes, most significant bit first. -/
def crcMsb (n poly init : Nat) (l : List Byte) : Nat :=
  l.foldl (fun r b => (List.range 8).foldl (fun r i => crcStep n poly r (b.toNat.testBit (7 - i))) r) init

/-- Rounded quotient of integers, halves up; the divisor is positive. -/
def rdiv (a b : Int) : Int := (2 * a + b) / (2 * b)

/-- Bit positions set in a number, lowest first, up to `n`. -/
def setBitsOf (w n : Nat) : List Nat := (List.range n).filter w.testBit

namespace State

/-! ## Registers -/

/-- Register as held. -/
def rd (s : State) (p off : Nat) : Nat := (sget regReset s.regs (regKey p off)).toNat

/-- Store a register word, whatever its access code. -/
def wr (s : State) (p off v : Nat) : State :=
  { s with regs := sset regReset s.regs (regKey p off) (BitVec.ofNat 32 v) }

/-- A 64-bit pair, low word at the lower address (R49). -/
def rd64 (s : State) (p off : Nat) : Nat := s.rd p off + s.rd p (off + 4) * 2 ^ 32

/-- Store a 64-bit pair. -/
def wr64 (s : State) (p off v : Nat) : State := (s.wr p off v).wr p (off + 4) (v / 2 ^ 32)

/-- A field of a register. -/
def fld (s : State) (p off lo n : Nat) : Nat := bitsOf (s.rd p off) lo n

/-- A bit of a register. -/
def bit (s : State) (p off b : Nat) : Bool := bitOf (s.rd p off) b

/-- Replace a field of a register. -/
def setFld (s : State) (p off lo n v : Nat) : State := s.wr p off (putBits (s.rd p off) lo n v)

/-- Set or clear one bit of a register. -/
def setBit (s : State) (p off b : Nat) (v : Bool) : State := s.setFld p off b 1 (b2n v)

/-- Add to a counter that wraps. -/
def addReg (s : State) (p off n : Nat) : State := s.wr p off (s.rd p off + n)

/-- Count one in a counter that wraps. -/
def incr (s : State) (p off : Nat) : State := s.addReg p off 1

/-- Count one in a counter that saturates at 0xFFFF_FFFF. -/
def incrSat (s : State) (p off : Nat) : State := if s.rd p off = 0xFFFFFFFF then s else s.incr p off

/-- Add to a 64-bit counter pair that wraps. -/
def addReg64 (s : State) (p off n : Nat) : State := s.wr64 p off (s.rd64 p off + n)

/-! ## Tables -/

/-- Key of a table word: page, table, copy, word index. -/
def tabKey (p t copy i : Nat) : Nat := ((p * 256 + t) * 2 + copy) * 2 ^ 24 + i

/-- Word of one copy of a table. -/
def tabAt (s : State) (p t copy i : Nat) : Nat := (sget (fun _ => 0) s.tables (tabKey p t copy i)).toNat

/-- Write a word of one copy of a table. -/
def setTabAt (s : State) (p t copy i v : Nat) : State :=
  { s with tables := sset (fun _ => 0) s.tables (tabKey p t copy i) (BitVec.ofNat 32 v) }

/-- Is the table double-buffered (Table 2.14, Standby)? -/
def isStandby (p t : Nat) : Bool := p = pLmp ∧ t < 2

/-- Copy of a table the block uses. -/
def activeCopy (s : State) (p t : Nat) : Nat := if isStandby p t then b2n (bitOf s.lmpActive t) else 0

/-- Copy that table writes go to (R48). -/
def writeCopy (s : State) (p t : Nat) : Nat := if isStandby p t then 1 - s.activeCopy p t else 0

/-- Word of the table in use. -/
def tab (s : State) (p t i : Nat) : Nat := s.tabAt p t (s.activeCopy p t) i

/-- Write a word of a table that has one copy. -/
def setTab (s : State) (p t i v : Nat) : State := s.setTabAt p t 0 i v

/-! ## Memories -/

/-- Bytes of host memory. -/
def hostBytes (s : State) (a n : Nat) : List Byte := sgetList (fun _ => 0) s.host a n

/-- Bytes of HBM. -/
def hbmBytes (s : State) (a n : Nat) : List Byte := sgetList (fun _ => 0) s.hbm a n

/-- Write bytes of HBM. -/
def setHbm (s : State) (a : Nat) (l : List Byte) : State := { s with hbm := ssetList (fun _ => 0) s.hbm a l }

/-- Put out one item. -/
def emit (s : State) (o : Output) : State := { s with out := o :: s.out }

/-- Take a free value (AN OPEN VALUE of the spec: nothing constrains it). -/
def freeVal (s : State) : BitVec 64 := Config.freeValue s.freeCtr

/-- Count a free value as taken. -/
def freeTaken (s : State) : State := { s with freeCtr := s.freeCtr + 1 }

/-! ## The host link (R84, R85, R488) -/

/-- Does the engine follow a lead (R410), and so ignore its own timing source (R445) and PCIe interface (R415)? -/
def isMember (s : State) : Bool := s.flt.bootMode = 2 || s.fld pStd O.STD_STAT 16 6 ≠ 0

/-- May the engine issue host-memory requests: link up and the function not in D3hot? A member's go by the lead, while the
member is part of a formed stand; its D3hot is that of the lead's function (R415). -/
def hostReady (s : State) : Bool :=
  (if s.isMember then s.fld pStd O.STD_STAT 30 2 = 2 else s.bit pHif O.HIF_PM_STAT 0) && !s.bit pHif O.HIF_PM_STAT 2

/-- A host-memory request falls due: in L1 the engine leaves L1 at once (R84). -/
def wakeLink (s : State) : State := s.setBit pHif O.HIF_PM_STAT 1 false

/-- Write bytes of host memory: a posted request, done once issued (R75). -/
def setHost (s : State) (a : Nat) (l : List Byte) : State :=
  { s.wakeLink with host := ssetList (fun _ => 0) s.host a l }

/-- Mark a vector pending in the PBA. -/
def setPba (s : State) (v : Nat) (b : Bool) : State := s.setBit pHif (O.HIF_PBA + 4 * (v / 32)) (v % 32) b

/-- Is a vector masked, by its own Mask bit or the Function Mask (R83)? -/
def vecMasked (s : State) (v : Nat) : Bool := s.hif.funcMask || s.bit pHif (O.HIF_MSIX_CTRL + 16 * v) 0

/-- The MSI-X message of a vector leaves for the host (R81). -/
def issueMsix (s : State) (v : Nat) : State :=
  s.wakeLink.emit (.msix v (s.rd64 pHif (O.HIF_MSIX_ADDR_LO + 16 * v))
    (BitVec.ofNat 32 (s.rd pHif (O.HIF_MSIX_DATA + 16 * v))))

/-- PM_PME once while PME_PENDING is clear, if PME_En is set (R85). -/
def pmeSend (s : State) : State :=
  if s.isMember then s.emit .pmeReport
  else if s.hif.pmeEn && !s.bit pHif O.HIF_PM_STAT 3 then
    { (s.setBit pHif O.HIF_PM_STAT 3 true).emit .pme with hif := { s.hif with pmeStatus := true } }
  else s

/-- A message falls due (R83, R85, R488): sent, or left in the PBA while masked, in D3hot or with the link down. -/
def sendVector (s : State) (v : Nat) : State :=
  if s.bit pHif O.HIF_PM_STAT 2 then (s.setPba v true).pmeSend
  else if !s.hostReady || s.vecMasked v then s.setPba v true
  else s.issueMsix v

/-! ## Interrupt requests and EIC raises (R35, R36, R333) -/

/-- The page's interrupt request. -/
def request (s : State) (p : Nat) : Bool := s.rd p O.INT_CAUSE &&& s.rd p O.INT_MASK != 0

/-- Raise the targets that INT_ROUTE selects, with `raise` for the EIC source (R36). -/
def raiseTargetsWith (raise : State → Nat → State) (s : State) (p : Nat) : State :=
  let r := s.rd p O.INT_ROUTE
  let s := if bitOf r 30 then raise s (bitsOf r 0 10) else s
  if bitOf r 31 then s.sendVector (bitsOf r 16 11) else s

/-- Set causes; the targets are raised when the request goes from 0 to 1 (R35). -/
def setCauseWith (raise : State → Nat → State) (s : State) (p mask : Nat) : State :=
  let t := s.wr p O.INT_CAUSE (s.rd p O.INT_CAUSE ||| mask)
  if !s.request p && t.request p then raiseTargetsWith raise t p else t

/-- Is a source a program event (Table 12.2)? -/
def isProgEvent (src : Nat) : Bool := src < 256 && 16 ≤ src % 32

/-- The raise of an EIC source (R333, R334), with the depth of interrupt requests of the EIC page itself. -/
def eicRaiseF : Nat → State → Nat → State
  | 0, s, _ => s
  | fuel + 1, s, src =>
    let e := pEic
    let s := s.incr e O.EIC_CNT_RAISES
    if isProgEvent src then
      let y := pYsq + src / 32
      s.wr y O.YSQ_EVT_LATCH (s.rd y O.YSQ_EVT_LATCH ||| 2 ^ (src % 32 - 16))
    else
      let w0 := s.tab e 0 (2 * src)
      let w1 := s.tab e 0 (2 * src + 1)
      if !bitOf w0 31 then setCauseWith (eicRaiseF fuel) (s.incr e O.EIC_CNT_DISABLED) e 2
      else if !bitOf w1 31 then { s.setTab e 0 (2 * src + 1) (2 ^ 31 + 1) with eicSat := s.eicSat.filter (· ≠ src) }
      else
        let s := s.incr e O.EIC_CNT_COALESCED
        if bitsOf w1 0 16 = 0xFFFF then
          (if src ∈ s.eicSat then s else setCauseWith (eicRaiseF fuel) { s with eicSat := src :: s.eicSat } e 1)
        else s.setTab e 0 (2 * src + 1) (w1 + 1)

/-- Raise an EIC source. A raise of the EIC page's own request can raise at most one more source. -/
def eicRaise (s : State) (src : Nat) : State := eicRaiseF 3 s src

/-- Set causes of a page. -/
def setCause (s : State) (p mask : Nat) : State := setCauseWith eicRaise s p mask

/-- Raise the page's targets if its request stands at 1, as after a write (R35). -/
def reRaise (s : State) (p : Nat) : State := if s.request p then raiseTargetsWith eicRaise s p else s

/-- Latch the first error since capture was re-armed, or set MORE (R37); ERR is cause bit 31. -/
def errCapture (s : State) (p code info addr : Nat) : State :=
  if s.bit p O.ERR_CAPTURE 31 then s.setBit p O.ERR_CAPTURE 30 true
  else
    let s := s.wr p O.ERR_CAPTURE (2 ^ 31 + code)
    let s := (s.wr p O.ERR_INFO info).wr64 p O.ERR_ADDR_LO addr
    s.setCause p (2 ^ 31)

/-! ## The fault log (R455) -/

/-- Write a fault-log record: class, SPARE, NO_SPARE, page, code, info, stamped with stand time. -/
def faultLog (s : State) (cls : Nat) (spare noSpare : Bool) (page code info : Nat) : State :=
  let d := pDev
  let h := s.fld d O.DEV_FLOG_HEAD 0 8
  let w0 := cls * 2 ^ 30 + b2n spare * 2 ^ 29 + b2n noSpare * 2 ^ 28 + page * 2 ^ 16 + code
  let s := (s.setTab d 1 (4 * h) w0).setTab d 1 (4 * h + 1) info
  let s := (s.setTab d 1 (4 * h + 2) s.tim.time).setTab d 1 (4 * h + 3) (s.tim.time / 2 ^ 32)
  let s := (s.wr d O.DEV_FLOG_HEAD ((h + 1) % 256)).incr d O.DEV_FLOG_COUNT
  s.setCause d 1

/-- A contained fault: error capture and a fault-log record (Table 18.1). -/
def containedFault (s : State) (p code info addr : Nat) : State :=
  (s.errCapture p code info addr).faultLog 1 false false p code info

/-! ## Page states (R33) -/

/-- PAGE_STAT.STATE. -/
def pstate (s : State) (p : Nat) : Nat := s.fld p O.PAGE_STAT 0 3

/-- Is the page RUNNING? -/
def running (s : State) (p : Nat) : Bool := s.pstate p = 2

/-- Is the page STOPPED? -/
def stopped (s : State) (p : Nat) : Bool := s.pstate p = 0

/-- Enter a page state; a change sets STATE_CHG. -/
def setPstate (s : State) (p st : Nat) : State :=
  if s.pstate p = st then s else (s.setFld p O.PAGE_STAT 0 3 st).setCause p (2 ^ 28)

/-- A discarded RL write, or a table write during a pending swap (R32). -/
def lockedWrite (s : State) (p : Nat) : State := (s.setBit p O.PAGE_STAT 10 true).setCause p (2 ^ 30)

/-- A PW write discarded because POST_BUSY was set (R32). -/
def postLost (s : State) (p : Nat) : State := (s.setBit p O.PAGE_STAT 9 true).setCause p (2 ^ 29)

/-- POST_BUSY. -/
def postBusy (s : State) (p : Nat) : Bool := s.bit p O.PAGE_STAT 8

/-- A PW write that is applied as it arrives: discarded with POST_LOST while POST_BUSY is set (R40). -/
def pwWrite (s : State) (p : Nat) (f : State → State) : State := if s.postBusy p then s.postLost p else f s

/-! ## Port-wide BLACK (R457, R458) -/

/-- A condition on every port starts: each port owes a BLACK cell with NOW = 1. -/
def startGlob (s : State) (c : Cond) : State :=
  if c ∈ s.black.glob then s
  else { s with black := { s.black with glob := c :: s.black.glob, nowDue := List.range 64 } }

/-- A condition on every port is released. -/
def endGlob (s : State) (c : Cond) : State :=
  { s with black := { s.black with glob := s.black.glob.filter (· ≠ c) } }

/-- A condition on one port starts. -/
def startPort (s : State) (p : Nat) (c : Cond) : State :=
  if (p, c) ∈ s.black.port then s
  else { s with black := { s.black with
    port := (p, c) :: s.black.port, nowDue := p :: s.black.nowDue.filter (· ≠ p) } }

/-- A condition on one port is released. -/
def endPort (s : State) (p : Nat) (c : Cond) : State :=
  { s with black := { s.black with port := s.black.port.filter (· ≠ (p, c)) } }

/-- Is a port BLACK port-wide? -/
def portBlack (s : State) (p : Nat) : Bool := !s.black.glob.isEmpty || s.black.port.any (fun e => e.1 = p)

/-! ## Whether the engine acts at all (R435, R460) -/

/-- Pages that keep working in DEVICE_FATAL (R460). -/
def keepsInFatal : Blk → Bool
  | .dev | .clk | .hif | .hbm | .yrd | .std | .tim | .crn => true
  | _ => false

/-- Does a block act: the engine runs, or stands in DEVICE_FATAL and the block is one that keeps working? -/
def alive (s : State) (b : Blk) : Bool :=
  match s.flt.life with
  | .up => true
  | .fatal => keepsInFatal b
  | .dead | .held => false

/-- Do host accesses reach the registers? -/
def hostAlive (s : State) : Bool := s.alive .dev

end State

/-- The state after a command's effect: the queue of waiting commands is the step's alone. -/
def doing (s t : State) : Out := .next { t with pending := s.pending }

/-- An event of a block: it takes effect while the block acts, and is no event otherwise (log 4). -/
def act (b : Blk) (f : State → State) (s : State) : Out := doing s (if s.alive b then f s else s)

/-- A contained fault of a page: while DEVICE_FATAL holds it is logged and has no further effect (R460). -/
def actFault (b : Blk) (p code info : Nat) (f : State → State) (s : State) : Out :=
  doing s (if s.alive b then f s else if s.flt.life = .fatal then s.faultLog 1 false false p code info else s)

/-- An access of the host: it takes effect while registers answer. -/
def access (f : State → State) (s : State) : Out := doing s (if s.hostAlive then f s else s)

/-- An event outside the engine: always. -/
def outside (f : State → State) (s : State) : Out := doing s (f s)

/-- Take the effect if the condition of the event holds; otherwise nothing happens (log 4). -/
def when (c : Bool) (f : State → State) (s : State) : State := if c then f s else s

end Sys2Proof.Machine
end

