-- ==== Sys2Proof/Machine/Registers.lean ====
section
/-! DEFINITION. The register model of chapter 02: bus errors, access codes, interrupt-cause writes, the tables
behind the windows and the window itself. What a write to one register sets off is in the blocks' own files. -/
namespace Sys2Proof.Machine

/-- Causes of BUSERR_LOG.CAUSE (Table 2.15). -/
inductive BusCause where | align | size | reserved | alias2 | absent | path | table | phase
deriving DecidableEq, Repr

/-- Code of a cause. -/
def BusCause.code : BusCause → Nat
  | .align => 1 | .size => 2 | .reserved => 3 | .alias2 => 4 | .absent => 5 | .path => 6 | .table => 7 | .phase => 8

/-- Write conditions of the tables (Table 2.13). -/
inductive TabCond where | rl | live | standby | ro
deriving DecidableEq, Repr

/-- Size in 32-bit words and write condition of a table; `none` for a table the page lacks (Table 2.14). -/
def tabInfo (p t : Nat) : Option (Nat × TabCond) :=
  match blkOf p, t with
  | some .dev, 0 => some (64, .ro)
  | some .dev, 1 => some (1024, .ro)
  | some .eic, 0 => some (2048, .live)
  | some .ycs, 0 => some (65536, .rl)
  | some .chk, 0 => some (4128, .live)
  | some .dbk, 0 => some (524288, .live)
  | some .dbk, 1 => some (524288, .live)
  | some .dbk, 2 => some (768, .rl)
  | some .flm, 0 => some (4096, .live)
  | some .lmp, 0 => some (16128, .standby)
  | some .lmp, 1 => some (1024, .standby)
  | some .lmp, 0x20 => some (16777216, .live)
  | some .lmp, 0x21 => some (16777216, .live)
  | some .lmp, 0x22 => some (16777216, .live)
  | some .lmp, 0x23 => some (16777216, .live)
  | some .tly, 0 => some (2048, .rl)
  | _, _ => none

/-- INT_CAUSE bits a block implements: the four common ones and its own. -/
def causeBits (b : Blk) : Nat :=
  0xF0000000 + match b with
    | .dev => 0x3F | .clk => 0x1 | .hif => 0x1F | .wqm => 0xF | .eic => 0x3 | .ycs => 0x3 | .skd => 0xF
    | .chk => 0x7 | .ysq => 0xFF | .net => 0xF10 | .dbk => 0x3F | .flm => 0x3 | .hbm => 0x1F | .yrd => 0xF
    | .tim => 0x1F | .lnd => 0xFF | .lmp => 0x7F | .tly => 0x1F | .std => 0xFF | .crn => 0xF | .dec => 0x7
    | .enc => 0x7 | .xsd => 0x7 | .jlk => 0x3FF

/-- Spares built of each Coppice class (Table 18.5). -/
def coppiceTotal (c : Nat) : Nat :=
  [0, 4, 1, 2, 8, 2048, 2048, 32, 16, 32, 16, 1024, 1024].getD c 0

namespace State

/-! ## Bus errors (R50, R51) -/

/-- A host bus error: logged in HIF, answered with Completer Abort or discarded, reported through AER with the address of
the request's header (R26, R50). -/
def busError (s : State) (write : Bool) (c : BusCause) (bar addr : Nat) (req : BitVec 16) (engine : Nat := 0) : State :=
  let h := pHif
  let s := s.incrSat h O.HIF_BUSERR_COUNT
  let s :=
    if s.bit h O.HIF_BUSERR_LOG 31 then s.setBit h O.HIF_BUSERR_LOG 30 true
    else
      let w := 2 ^ 31 + b2n (!write) * 2 ^ 29 + c.code * 2 ^ 24 + bar * 2 ^ 22 + engine * 2 ^ 16 + req.toNat
      (s.wr h O.HIF_BUSERR_LOG w).wr64 h O.HIF_BUSERR_ADDR_LO addr
  let host := (if bar = 2 then s.hif.bar4 else if bar = 1 then s.hif.bar2 else s.hif.bar0).toNat + addr
  if write then (s.emit (.aer true host)).setCause h 0x11
  else ((s.emit .readAbort).emit (.aer false host)).setCause h 0x8

/-- Writing 1 to BUSERR_LOG.VALID clears VALID, MORE and BUSERR_COUNT (R51). -/
def clearBusLog (s : State) : State :=
  let h := pHif
  (s.setFld h O.HIF_BUSERR_LOG 30 2 0).wr h O.HIF_BUSERR_COUNT 0

/-! ## Writes under the access codes (R7, R40, R41) -/

/-- The writable bits of a word take the data's value. -/
def maskedWrite (s : State) (p off mask v : Nat) : State :=
  s.wr p off (clrMask (s.rd p off) mask ||| (v &&& mask))

/-- Hold a posted write and set POST_BUSY, or discard it with POST_LOST (R40). -/
def post (s : State) (p : Nat) (w : Posted) : State :=
  if s.postBusy p then s.postLost p
  else { s.setBit p O.PAGE_STAT 8 true with
         posted := sset (fun _ => none) s.posted p (some w) }

/-- A 32-bit write to a register, under its access code alone. -/
def codeWrite (s : State) (p off v : Nat) (d : RegDesc) : State :=
  match d.acc with
  | .ro => s
  | .rw => s.maskedWrite p off d.mask v
  | .rl => if s.stopped p then s.maskedWrite p off d.mask v else s.lockedWrite p
  | .pw => s.post p ⟨off, BitVec.ofNat 64 v, false, none⟩
  | .w1c => s.wr p off (clrMask (s.rd p off) (v &&& d.mask))
  | .wo => s

/-! ## Interrupt causes (R32, R35) -/

/-- Re-arm error capture. -/
def rearmCapture (s : State) (p : Nat) : State :=
  ((s.wr p O.ERR_CAPTURE 0).wr p O.ERR_INFO 0).wr64 p O.ERR_ADDR_LO 0

/-- A W1C write of INT_CAUSE: the causes clear with what belongs to them; a request left at 1 is raised again. -/
def clearCauses (s : State) (p v : Nat) : State :=
  let s := s.wr p O.INT_CAUSE (clrMask (s.rd p O.INT_CAUSE) v)
  let s := if bitOf v 31 then s.rearmCapture p else s
  let s := if bitOf v 30 then s.setBit p O.PAGE_STAT 10 false else s
  let s := if bitOf v 29 then s.setBit p O.PAGE_STAT 9 false else s
  s.reRaise p

/-- A write of INT_FORCE sets causes as the hardware would, and nothing else. -/
def forceCauses (s : State) (p v : Nat) : State :=
  match blkOf p with
  | none => s
  | some b => (s.wr p O.INT_CAUSE (s.rd p O.INT_CAUSE ||| (v &&& causeBits b))).reRaise p

/-- A write of INT_MASK; a request left at 1 is raised again. -/
def writeMask (s : State) (p v : Nat) : State :=
  match blkOf p with
  | none => s
  | some b => (s.wr p O.INT_MASK (v &&& causeBits b)).reRaise p

/-! ## The indirect window (R43-R48) -/

/-- What a page's window keeps. -/
def window (s : State) (p : Nat) : Window := sget (fun _ => {}) s.windows p

/-- Set what a page's window keeps. -/
def setWindow (s : State) (p : Nat) (w : Window) : State :=
  { s with windows := sset (fun _ => {}) s.windows p w }

/-- A write to IND_SEL or IND_CTL: phase LOW, END left (R43, R44). -/
def selWrite (s : State) (p off v : Nat) : State :=
  (s.wr p off (if off = O.IND_CTL then v % 8 else v)).setWindow p {}

/-- Advance INDEX after a complete access with AINC (R43). -/
def advance (s : State) (p : Nat) : State :=
  if !s.bit p O.IND_CTL 0 then s
  else
    let i := s.fld p O.IND_SEL 0 24
    if i = 0xFFFFFF then s.setWindow p { s.window p with ended := true }
    else s.setFld p O.IND_SEL 0 24 (i + 1)

/-- Spares taken of a class. -/
def copUsed (s : State) (c : Nat) : Nat := (sget (fun _ => (0, 0)) s.flt.cop c).1

/-- Retirements of a class with no spare. -/
def copLost (s : State) (c : Nat) : Nat := (sget (fun _ => (0, 0)) s.flt.cop c).2

/-- The word of a table as a window read returns it, the Coppice inventory included (R463). -/
def readTab (s : State) (p t copy i : Nat) : Nat :=
  if p = pDev ∧ t = 0 then
    let c := i / 2
    let used := s.copUsed c
    if c = 0 ∨ 12 < c then 0
    else if i % 2 = 0 then c * 2 ^ 24 + s.copLost c * 2 ^ 16 + coppiceTotal c
    else used * 2 ^ 16 + (coppiceTotal c - used)
  else s.tabAt p t copy i

/-- Copy that a window read goes to (R48). -/
def windowCopy (s : State) (p t : Nat) : Nat :=
  if s.bit p O.IND_CTL 2 then s.activeCopy p t else s.writeCopy p t

/-- Word addressed by the window, in 32-bit words, and whether it lies in the table. -/
def windowIndex (s : State) (p : Nat) : Nat × Nat :=
  (s.fld p O.IND_SEL 24 8, s.fld p O.IND_SEL 0 24 * (if s.bit p O.IND_CTL 1 then 2 else 1))

end State
end Sys2Proof.Machine
end

