-- ==== Sys2Proof/Machine/HostQueues.lean ====
section
/-! DEFINITION. Work queues, completions, push windows, moderation and link power of chapter 03: the fetch of
entries, the start and completion of jobs, doorbells, and what the host link's states do to them. -/
namespace Sys2Proof.Machine

/-- Completion status codes (Table 3.16). -/
def stSuccess : Nat := 0x00
def stNoCapacity : Nat := 0x01
def stPixelRate : Nat := 0x02
def stLateEpoch : Nat := 0x03
def stSceneInvalid : Nat := 0x04
def stSuperseded : Nat := 0x05
def stCapacityLost : Nat := 0x06
def stCancelled : Nat := 0x07
def stBadState : Nat := 0x08
def stBadParam : Nat := 0x09
def stBadTable : Nat := 0x0A
def stTableBusy : Nat := 0x0B
def stHostAccess : Nat := 0x0C
def stSubchannelBusy : Nat := 0x0D
def stUnsupported : Nat := 0x0E

/-- Queues an opcode is taken on, whether it names a context, its data forms, and the masks of DW6-DW15
(Tables 3.13 and 3.14). -/
structure OpInfo where
  adm : Bool
  own : Bool
  ctx : Option Bool
  noData : Bool
  allForms : Bool
  needData : Bool
  masks : List Nat

/-- Rows of Table 3.13; `none` for an opcode the table lacks. -/
def opInfo (op : Nat) : Option OpInfo :=
  let all := 0xFFFFFFFF
  match op with
  | 0x01 => some ⟨true, false, some true, false, false, true, [0x30F, all, all, all]⟩
  | 0x02 => some ⟨true, true, some true, false, false, true, [0x30F, all, all, all]⟩
  | 0x03 => some ⟨true, false, some true, true, false, false, [0x1]⟩
  | 0x04 => some ⟨true, false, some true, true, false, false, [0xFF]⟩
  | 0x10 => some ⟨false, true, some true, false, true, true, [0x7, all, all]⟩
  | 0x11 => some ⟨false, true, some true, false, true, true, [all, all, 0xF, all, all]⟩
  | 0x20 => some ⟨true, false, some false, false, true, true, [0x7, all]⟩
  | 0x21 => some ⟨true, true, some true, true, false, false, [0x1]⟩
  | 0x22 => some ⟨false, true, some true, true, false, false, [all, all, 0x1]⟩
  | 0x30 => some ⟨true, false, some false, true, false, false, [0xFFF, all, all]⟩
  | 0x31 => some ⟨true, false, some false, true, false, false, [0xFFF]⟩
  | 0x32 => some ⟨true, false, some false, true, false, false, [0xFFF]⟩
  | 0x40 => some ⟨true, false, some false, false, true, true, [0x01FF00FF, all, all, 0x1]⟩
  | 0x41 => some ⟨true, false, some false, false, true, true, [all, all]⟩
  | 0x50 => some ⟨true, false, some false, false, false, false, [0xFF, all]⟩
  | 0x7F => some ⟨true, true, some false, true, false, false, []⟩
  | _ => none

/-- Word `n` of an entry. -/
def Entry.w (e : Entry) (n : Nat) : Nat := (e.dw.getD n 0).toNat
/-- OPCODE. -/
def Entry.op (e : Entry) : Nat := bitsOf (e.w 0) 24 8
/-- FORM. -/
def Entry.form (e : Entry) : Nat := bitsOf (e.w 0) 20 4
/-- TAG. -/
def Entry.tag (e : Entry) : Nat := bitsOf (e.w 0) 0 16
/-- CONTEXT. -/
def Entry.ctx (e : Entry) : Nat := bitsOf (e.w 1) 16 16
/-- ADDRESS. -/
def Entry.addr (e : Entry) : Nat := e.w 2 + e.w 3 * 2 ^ 32
/-- LENGTH. -/
def Entry.len (e : Entry) : Nat := e.w 4

/-- Opcode word `n` (6 to 15) of a job. -/
def Job.dw (j : Job) (n : Nat) : Nat := (j.par.getD (n - 6) 0).toNat

/-- Total length of a job's data. -/
def Job.length (j : Job) : Nat := (j.pieces.map (·.2)).sum

/-- Does a word of DW6-DW15 set a bit outside its mask? -/
def maskBroken (e : Entry) (masks : List Nat) : Bool :=
  (List.range 10).any fun i => e.w (6 + i) &&& (0xFFFFFFFF ^^^ masks.getD i 0) != 0

/-- The lowest malformed-entry code (Table 3.12) that an entry meets on queue `q` with JOBFORM `ind` and the open
chain `chain`; 0 when it meets none (R62-R64, R66, R70). -/
def entryCode (q : Nat) (ind : Bool) (chain : List Entry) (e : Entry) : Nat :=
  match opInfo e.op with
  | none => 1
  | some oi =>
    let f := e.form
    let inner := f = 2 ∨ f = 3
    let own := decide (q < 512)
    let first := chain.headD e
    if 5 ≤ f ∨ (f = 4 ∧ !ind) ∨ ((f = 1 ∨ inner) ∧ ind) ∨ (inner ∧ chain = []) ∨ (¬inner ∧ chain ≠ [])
        ∨ (f ≠ 0 ∧ !oi.allForms) then 2
    else if (512 ≤ e.ctx ∧ e.ctx ≠ 0xFFFF)
        ∨ (own ∧ oi.ctx = some true ∧ e.ctx ≠ q)
        ∨ (oi.ctx = some true ∧ e.ctx = 0xFFFF) ∨ (oi.ctx = some false ∧ e.ctx ≠ 0xFFFF) then 3
    else if (own ∧ !oi.own) ∨ (!own ∧ !oi.adm) then 4
    else if bitsOf (e.w 0) 16 4 ≠ 0 ∨ bitsOf (e.w 1) 8 8 ≠ 0 ∨ bitsOf (e.w 5) 2 30 ≠ 0
        ∨ (oi.noData ∧ (e.addr ≠ 0 ∨ e.len ≠ 0))
        ∨ (inner ∧ (e.w 5 ≠ 0 ∨ maskBroken e [])) ∨ (¬inner ∧ maskBroken e oi.masks) then 5
    else if (f = 4 ∧ (e.len % 16 ≠ 0 ∨ e.len = 0 ∨ 4096 < e.len)) ∨ (oi.needData ∧ e.len = 0) then 6
    else if inner ∧ (e.op ≠ first.op ∨ e.ctx ≠ first.ctx ∨ e.tag ≠ first.tag) then 7
    else if (f = 2 ∧ 255 ≤ chain.length) ∨ (f = 3 ∧ 256 ≤ chain.length) then 8
    else 0

/-- The job that a complete chain (or a single entry) makes. -/
def jobOf (es : List Entry) : Option Job :=
  match es with
  | [] => none
  | e :: _ => some
    { first := e.idx, count := es.length, op := e.op, ctx := e.ctx, tag := e.tag, par := e.dw.drop 6,
      urgent := bitOf (e.w 5) 1, fence := bitOf (e.w 5) 0, indirect := e.form = 4,
      pieces := es.map fun x => (x.addr, x.len) }

/-- The fragments of an INDIRECT job's table, or the lowest malformed code among them (R64). -/
def fragments (tbl : List Byte) : Nat → Sum Nat (List (Nat × Nat))
  | 0 => .inr []
  | n + 1 =>
    let len := leWord tbl 8
    let code := if leWord tbl 12 ≠ 0 then 5 else if len = 0 ∨ 16777216 < len then 6 else 0
    match fragments (tbl.drop 16) n with
    | .inl c => .inl (if code = 0 then c else min code c)
    | .inr r => if code = 0 then .inr ((leNat (tbl.take 8), len) :: r) else .inl code

namespace State

/-! ## Queue registers -/

/-- Engine side of a submission queue. -/
def sqOf (s : State) (q : Nat) : Sq := sget (fun _ => {}) s.sq q
/-- Set the engine side of a submission queue. -/
def setSq (s : State) (q : Nat) (v : Sq) : State := { s with sq := sset (fun _ => {}) s.sq q v }
/-- Engine side of a completion queue. -/
def cqOf (s : State) (c : Nat) : Cq := sget (fun _ => {}) s.cq c
/-- Set the engine side of a completion queue. -/
def setCq (s : State) (c : Nat) (v : Cq) : State := { s with cq := sset (fun _ => {}) s.cq c v }
/-- A register of SQ block q. -/
def sqr (off q : Nat) : Nat := off + 0x20 * q
/-- QSTAT.STATE: 0 DISABLED, 1 ACTIVE, 2 DRAINING, 3 ERROR. -/
def qState (s : State) (q : Nat) : Nat := s.fld pWqm (sqr O.WQM_QSTAT q) 30 2
/-- Set QSTAT.STATE. -/
def setQState (s : State) (q st : Nat) : State := s.setFld pWqm (sqr O.WQM_QSTAT q) 30 2 st
/-- Published head. -/
def qHead (s : State) (q : Nat) : Nat := s.fld pWqm (sqr O.WQM_QSTAT q) 0 16
/-- Tail of the last accepted doorbell. -/
def qTail (s : State) (q : Nat) : Nat := s.fld pWqm (sqr O.WQM_QPTR q) 16 16
/-- Entries the ring holds. -/
def qSize (s : State) (q : Nat) : Nat := 2 ^ s.fld pWqm (sqr O.WQM_QCFG q) 0 4
/-- Completion queue of a submission queue. -/
def qCq (s : State) (q : Nat) : Nat := s.fld pWqm (sqr O.WQM_QCFG q) 16 8
/-- Is the completion queue active? -/
def cActive (s : State) (c : Nat) : Bool := s.bit pWqm (sqr O.WQM_CQSTAT c) 30
/-- Index the next completion is written to. -/
def cTail (s : State) (c : Nat) : Nat := s.fld pWqm (sqr O.WQM_CQSTAT c) 0 16
/-- Entries of a completion ring. -/
def cSize (s : State) (c : Nat) : Nat := 2 ^ s.fld pWqm (sqr O.WQM_CQCFG c) 0 4
/-- Set the queue's bit of QERR_MAP. -/
def setQerrMap (s : State) (q : Nat) (b : Bool) : State := s.setBit pWqm (O.WQM_QERR_MAP + 4 * (q / 32)) (q % 32) b

/-- Put a queue in ERROR with a record of QERR (R61, R70). -/
def queueError (s : State) (q code idx : Nat) : State :=
  let s := s.wr pWqm (sqr O.WQM_QERR q) (2 ^ 31 + code * 2 ^ 16 + idx % 2 ^ 16)
  let s := (s.setQState q 3).setQerrMap q true
  let s := if 1 ≤ code ∧ code ≤ 9 then s.incrSat pWqm O.WQM_CNT_MALFORMED else s
  s.setCause pWqm 1

/-! ## Fetch (R73) -/

/-- Has the queue an entry to fetch now? A pushed copy needs no host read. -/
def fetchable (s : State) (q : Nat) : Bool :=
  let v := s.sqOf q
  s.qState q = 1 && v.fetch != s.qTail q &&
    (s.hostReady || v.pushes.any fun e => e.1 = v.fetch ∧ e.2.isSome)

/-- Queue at a position of the arbiter's round: the administrative queues first (R73). -/
def arbQueue (k : Nat) : Nat := if k < 16 then 512 + k else k - 16

/-- The queue the arbiter takes next, with its position. -/
def arbPick (s : State) : Option Nat :=
  (((List.range 528).map fun i => (s.arb + i) % 528).find? fun k => s.fetchable (arbQueue k))

/-- A malformed entry stops the queue: nothing from its job onwards starts (R70). -/
def malformed (s : State) (q code idx : Nat) : State :=
  (s.setSq q { s.sqOf q with chain := [] }).queueError q code idx

/-- Take one entry into the queue: check it, and add it to the open chain or to the jobs that may start. -/
def takeEntry (s : State) (q : Nat) (e : Entry) : State :=
  let v := s.sqOf q
  let code := entryCode q (s.bit pWqm (sqr O.WQM_QCFG q) 30) v.chain e
  if code ≠ 0 then s.malformed q code e.idx
  else
    let es := v.chain ++ [e]
    let nf := (v.fetch + 1) % s.qSize q
    if e.form = 1 ∨ e.form = 2 then
      s.setSq q { v with chain := es, fetch := nf, shut := v.shut.map (· - 1) }
    else match jobOf es with
      | none => s
      | some j =>
        let j := match v.cut, v.shut with
          | some c, _ => { j with out := some { status := c.2 }, gen := v.gen }
          | none, some n => { j with
              out := if n + es.length ≤ 1 then some { status := stBadState } else none, gen := v.gen }
          | none, none => { j with gen := v.gen }
        s.setSq q { v with
          shut := v.shut.map (· - 1)
          chain := [], ready := v.ready ++ [j], fetch := nf, cut := v.cut.filter fun c => c.1 ≠ nf }

/-- Read the next entry of a queue, from its pushed copy or from the ring (R76), and check it. -/
def fetchOne (s : State) (q : Nat) (ok : Bool) : State :=
  let v := s.sqOf q
  let i := v.fetch
  let hit := (v.pushes.find? fun e => e.1 = i).map (·.2)
  let s := s.setSq q { v with pushes := v.pushes.filter fun e => e.1 ≠ i }
  let ring (s : State) : State :=
    let b := s.hostBytes (s.rd64 pWqm (sqr O.WQM_SQ_BASE_LO q) + 64 * i) 64
    if !ok then s.wakeLink.malformed q 9 i
    else s.wakeLink.takeEntry q ⟨i, (List.range 16).map fun k => BitVec.ofNat 32 (leWord b (4 * k))⟩
  match hit with
  | some (some dw) => (s.incr pWqm O.WQM_CNT_PUSH_USED).takeEntry q ⟨i, dw⟩
  | some none => ring (s.incr pWqm O.WQM_CNT_PUSH_FALLBACK)
  | none => ring s

/-- One fetch of the arbiter. -/
def entryFetch (s : State) (ok : Bool) : State :=
  match s.arbPick with
  | none => s
  | some k => { s with arb := (k + 1) % 528 }.fetchOne (arbQueue k) ok

/-! ## Jobs -/

/-- Room for one more completion (R74). -/
def cqRoom (s : State) (c : Nat) : Bool :=
  let size := s.cSize c
  let unread := (s.cTail c + size - s.fld pWqm (sqr O.WQM_CQHEAD c) 0 16) % size
  unread + s.fld pWqm (sqr O.WQM_CQ_RESV c) 0 17 < size - 1

/-- Move the first ready job to the started ones (R74). -/
def beginJob (s : State) (q : Nat) (j : Job) : State :=
  let v := s.sqOf q
  let s := s.setSq q { v with ready := v.ready.drop 1, started := v.started ++ [j] }
  s.addReg pWqm (sqr O.WQM_CQ_RESV (s.qCq q)) 1

/-- A malformed fragment table stops the queue at this job, replacing a later record (R70). -/
def badTable (s : State) (q code idx : Nat) : State :=
  (s.setSq q { s.sqOf q with ready := [], chain := [] }).queueError q code idx

/-- Does the Skidder move data: running and not halted (R367, R370)? -/
def skdMoves (s : State) : Bool := s.running pSkd && !s.bit pSkd O.SKD_STAT 31

/-- Do both HBM stacks serve requests? Until then they stall (R393, R394). -/
def hbmReady (s : State) : Bool := s.running pHbm && s.running (pHbm + 1)

/-- Does the SRAM serve requests (R391, R394)? -/
def sramReady (s : State) : Bool := s.running pYrd

/-- Work that needs HBM waits until it serves requests (R393). -/
def withHbm (s : State) (f : State → State) : State := if s.hbmReady then f s else s

/-- The job channel that carries a job's data. -/
def jobChannel (s : State) (r : JobRef) : Option Nat :=
  (List.range 4).find? fun n => (sget (fun _ => {}) s.skch n).job = some r

/-- A job's channel has written bytes: CH_BYTES counts them (Table 13.9). -/
def jobBytes (s : State) (r : JobRef) (k : Nat) : State :=
  match s.jobChannel r with
  | some n => s.addReg64 pSkd (O.SKD_CH_BYTES_LO + 0x40 * n) k
  | none => s

/-- Does a job take a data channel: FEED, FRAME_PUT, TABLE_LOAD and TALLY_SNAPSHOT, with data (R356)? -/
def takesChannel (j : Job) : Bool :=
  [0x10, 0x11, 0x40, 0x41].contains j.op && j.out.isNone && j.pieces.any fun e => e.2 ≠ 0

/-- Can the first ready job of a queue start: fence, room, and a data channel if it takes one (R73, R74)? -/
def canStart (s : State) (q : Nat) (channel : Bool) : Bool :=
  let v := s.sqOf q
  match v.ready with
  | [] => false
  | j :: _ => s.running pWqm && (!j.fence || v.started.isEmpty) && s.cqRoom (s.qCq q)
      && (!takesChannel j || channel) && (!j.indirect || s.hostReady)

/-- Start the first ready job of a queue (R63, R64, R70, R73, R74). -/
def startJob (s : State) (q : Nat) (ok channel : Bool) : State :=
  if !s.canStart q channel then s
  else match (s.sqOf q).ready with
    | [] => s
    | j :: _ =>
      if !j.indirect then s.beginJob q j
      else
        let a := (j.pieces.headD (0, 0)).1
        let len := (j.pieces.headD (0, 0)).2
        let s := s.wakeLink
        if !ok then s.badTable q 9 j.first
        else match fragments (s.hostBytes a len) (len / 16) with
          | .inl c => s.badTable q c j.first
          | .inr l => s.beginJob q { j with pieces := l }

/-- Is a job the one that a reference names? -/
def isJob (r : JobRef) (j : Job) : Bool := j.first = r.idx && j.gen = r.gen

/-- A started job, or one a WQM soft reset has cut off. -/
def findJob (s : State) (r : JobRef) : Option Job :=
  let v := s.sqOf r.q
  match v.started.find? (isJob r) with
  | some j => some j
  | none => v.ghosts.find? (isJob r)

/-- Replace a job in place. -/
def setJob (s : State) (r : JobRef) (f : Job → Job) : State :=
  let v := s.sqOf r.q
  let g := fun j : Job => if isJob r j then f j else j
  if v.started.any (isJob r) then s.setSq r.q { v with started := v.started.map g }
  else s.setSq r.q { v with ghosts := v.ghosts.map g }

/-- The block finishes a job: its outcome is fixed, and JOB_COMPLETE writes it. -/
def finish (s : State) (r : JobRef) (o : JobOut) : State :=
  s.setJob r fun j => if j.out.isNone then { j with out := some o, taken := true } else j

/-- Finish with a status alone. -/
def finishSt (s : State) (r : JobRef) (st : Nat) : State := s.finish r { status := st }

/-- Finish with a status and a detail. -/
def finishDet (s : State) (r : JobRef) (st det : Nat) : State := s.finish r { status := st, detail := det }

/-- Is the job still open (started, with no outcome)? -/
def jobOpen (s : State) (r : JobRef) : Bool := (s.findJob r).any fun j => j.out.isNone

/-- The block accepts a job and keeps it waiting, for an epoch if one is given. -/
def takeJob (s : State) (r : JobRef) (epoch : Option Nat := none) : State :=
  s.setJob r fun j => { j with taken := true, epoch := epoch }

/-- Carry out a started job of opcode `op` that its block has not taken yet. -/
def withJob (s : State) (r : JobRef) (op : Nat) (f : Job → State → State) : State :=
  match s.findJob r with
  | some j => if j.op = op ∧ j.out = none ∧ !j.taken then f j s else s
  | none => s

/-- Work that reads or writes host memory: it waits while no request may be issued, and takes the link out of L1 (R84,
R85, R488). -/
def withHost (s : State) (f : State → State) : State := if s.hostReady then f s.wakeLink else s

/-- Bytes of a job's data in host memory. -/
def jobData (s : State) (j : Job) : List Byte := (j.pieces.map fun e => s.hostBytes e.1 e.2).flatten

/-- Data areas from a byte on. -/
def areasFrom : Nat → List (Nat × Nat) → List (Nat × Nat)
  | _, [] => []
  | k, (a, n) :: r => if k < n then (a + k, n - k) :: r else areasFrom (k - n) r

/-- Write bytes to a job's data areas in host memory, piece after piece. -/
def putJobData (s : State) : List (Nat × Nat) → List Byte → State
  | [], _ => s
  | (a, n) :: r, l => if l.isEmpty then s else (s.setHost a (l.take n)).putJobData r (l.drop n)

/-! ## Completions (R71-R75, R80-R82) -/

/-- Published head after the jobs in `fin` have completed (R72). -/
def advanceHead (size : Nat) : Nat → Nat → List (Nat × Nat) → Nat × List (Nat × Nat)
  | 0, h, fin => (h, fin)
  | fuel + 1, h, fin =>
    match fin.find? fun e => e.1 = h with
    | none => (h, fin)
    | some e => advanceHead size fuel ((h + e.2) % size) (fin.filter fun x => x.1 ≠ h)

/-- Write one completion entry, or hold it while the link or the function cannot take it (R75, R85, R488). -/
def writeCqe (s : State) (c : Nat) (ws : List W32) (urgent : Bool) : State :=
  let a := s.rd64 pWqm (sqr O.WQM_CQ_BASE_LO c) + 16 * s.cTail c
  let bytes := (ws.map fun w => leBytes 4 w.toNat).flatten
  let s := if s.hostReady then s.setHost a bytes
    else { s.incr pHif O.HIF_HELD_CQE with hif := { s.hif with held := s.hif.held ++ [⟨c, a, ws, urgent⟩] } }
  let t := (s.cTail c + 1) % s.cSize c
  let s := s.setFld pWqm (sqr O.WQM_CQSTAT c) 0 16 t
  if t = 0 then s.setBit pWqm (sqr O.WQM_CQSTAT c) 29 (!s.bit pWqm (sqr O.WQM_CQSTAT c) 29) else s

/-- Send the queue's message and start its count again (R80). -/
def cqMessage (s : State) (c : Nat) : State :=
  (s.setCq c {}).sendVector (s.fld pWqm (sqr O.WQM_CQCFG c) 16 11)

/-- A change of the moderation settings or of IEN: a queue whose count or time they let pass sends its message now
(R80). -/
def remoderate (s : State) (c : Nat) : State :=
  let n := (s.cqOf c).n
  let count := s.fld pWqm (sqr O.WQM_CQMOD c) 16 16
  if n ≠ 0 ∧ s.cActive c ∧ s.bit pWqm (sqr O.WQM_CQCFG c) 30
      ∧ ((count ≠ 0 ∧ count ≤ n) ∨ s.fld pWqm (sqr O.WQM_CQMOD c) 0 16 = 0) then s.cqMessage c else s

/-- Moderation after an entry: the message now, or a count and a running time (R80-R82). -/
def moderate (s : State) (c : Nat) (now : Bool) : State :=
  if !s.bit pWqm (sqr O.WQM_CQCFG c) 30 then s
  else
    let n := (s.cqOf c).n + 1
    let count := s.fld pWqm (sqr O.WQM_CQMOD c) 16 16
    let time := s.fld pWqm (sqr O.WQM_CQMOD c) 0 16
    if now || (count ≠ 0 ∧ count ≤ n) || time = 0 then s.cqMessage c
    else s.setCq c { n := n, timing := true }

/-- May the job complete now: it has an outcome, and FEED and FRAME_PUT jobs keep ring order (R73)? -/
def mayComplete (s : State) (q : Nat) (j : Job) : Bool :=
  j.out.isSome &&
    (!(j.op = 0x10 || j.op = 0x11) ||
      ((s.sqOf q).started.takeWhile fun x => x.first ≠ j.first).all fun x => x.op ≠ 0x10 ∧ x.op ≠ 0x11)

/-- Write a job's completion (R71, R72, R75). A job that a WQM soft reset cut off ends without an entry. -/
def completeJob (s : State) (r : JobRef) : State :=
  let q := r.q.val
  let v := s.sqOf q
  match v.started.find? (isJob r) with
  | none => s.setSq q { v with ghosts := v.ghosts.filter fun j => !(isJob r j && j.out.isSome) }
  | some j =>
    match j.out with
    | none => s
    | some o =>
      if !s.mayComplete q j then s
      else
        let c := s.qCq q
        let hf := advanceHead (s.qSize q) 65536 (s.qHead q) ((j.first, j.count) :: v.finished)
        let s := s.setSq q { v with started := v.started.filter (fun x => x.first ≠ j.first), finished := hf.2 }
        let s := s.setFld pWqm (sqr O.WQM_QSTAT q) 0 16 hf.1
        let ph := b2n (s.bit pWqm (sqr O.WQM_CQSTAT c) 29)
        let det := if o.status = 0 then 0 else o.detail % 2 ^ 16
        let ws := [BitVec.ofNat 32 (q * 2 ^ 16 + j.tag), BitVec.ofNat 32 (hf.1 * 2 ^ 16 + o.status),
          BitVec.ofNat 32 o.result, BitVec.ofNat 32 (ph * 2 ^ 31 + det)]
        let urgent := j.urgent || o.status ≠ 0
        let s := s.writeCqe c ws urgent
        let s := s.setFld pWqm (sqr O.WQM_CQ_RESV c) 0 17 (s.fld pWqm (sqr O.WQM_CQ_RESV c) 0 17 - 1)
        let s := (s.incr pWqm (sqr O.WQM_QJOBS q)).incr pWqm O.WQM_CNT_JOBS
        s.moderate c urgent

/-! ## Doorbells and push windows (R65, R76, R79) -/

/-- The pushed copy of entry i, if all sixteen words arrived since the last doorbell and PV fits. -/
def pushedCopy (s : State) (q i : Nat) : Option (List W32) :=
  let w := (s.sqOf q).win
  let dws := (List.range 16).map fun k => (w.find? fun e => e.1 = 16 * (i % 2) + k).map (·.2)
  if dws.all Option.isSome ∧ s.bit pWqm (sqr O.WQM_QCFG q) 29 then
    let l := dws.map fun o => o.getD 0
    if bitsOf (l.getD 1 0).toNat 0 8 = i % 256 then some l else none
  else none

/-- A submission doorbell (R65, R76). -/
def sqDoorbell (s : State) (q v : Nat) : State :=
  let size := s.qSize q
  let old := s.qTail q
  let tail := v % 2 ^ 16
  let adv := (tail + size - old % size) % size
  let used := (old + size - s.qHead q % size) % size
  let idxs := if bitOf v 31 ∧ q < 512 ∧ adv ≤ 2 then (List.range adv).map fun k => (old + k) % size else []
  let copies := idxs.map fun i => (i, s.pushedCopy q i)
  let s := s.setSq q { s.sqOf q with win := [] }
  if s.qState q ≠ 1 then s.setCause pWqm 4
  else if tail < size ∧ adv ≤ size - 1 - used then
    (s.setFld pWqm (sqr O.WQM_QPTR q) 16 16 tail).setSq q { s.sqOf q with pushes := (s.sqOf q).pushes ++ copies }
  else s.queueError q 0x0A old

/-- A completion doorbell (R79). -/
def cqDoorbell (s : State) (c v : Nat) : State :=
  let size := s.cSize c
  let head := v % 2 ^ 16
  let old := s.fld pWqm (sqr O.WQM_CQHEAD c) 0 16
  if s.cActive c ∧ head < size ∧ (head + size - old) % size ≤ (s.cTail c + size - old) % size then
    s.setFld pWqm (sqr O.WQM_CQHEAD c) 0 16 head
  else s.setCause pWqm 8

/-- A write into a push window: aligned words inside one window (R49, R76). -/
def pushWrite (s : State) (q dw : Nat) (data : List W32) : State :=
  let v := s.sqOf q
  if data.isEmpty ∨ 32 < dw + data.length then
    s.busError true (if data.isEmpty then .size else .align) 0 (0x1000000 + q * 0x80 + 4 * dw) 0
  else
    let new := data.zipIdx.map fun e => (dw + e.2, e.1)
    s.setSq q { v with win := new ++ v.win.filter fun e => !new.any fun n => n.1 = e.1 }

/-! ## Queue registers (R58-R60) -/

/-- QCFG_LOCKED. -/
def qcfgLocked (s : State) : State := s.setCause pWqm 2

/-- Is LOG2SIZE in range (R59)? -/
def sizeOk (w : Nat) : Bool := 4 ≤ bitsOf w 0 4

/-- Is every submission queue that names completion queue c DISABLED? -/
def cqUnused (s : State) (c : Nat) : Bool :=
  (List.range 528).all fun q => s.qCq q ≠ c || s.qState q = 0

/-- A write of CQCFG (R58-R60). -/
def cqcfgWrite (s : State) (c v : Nat) : State :=
  let off := sqr O.WQM_CQCFG c
  let old := s.rd pWqm off
  let act := s.cActive c
  let lock := act && bitsOf v 0 4 ≠ bitsOf old 0 4
  let w := putBits (putBits old 30 1 (bitsOf v 30 1)) 16 11 (bitsOf v 16 11)
  let w := if act then w else putBits w 0 4 (bitsOf v 0 4)
  let s := s.wr pWqm off w
  let s := if lock then s.qcfgLocked else s
  match bitOf v 31, act with
  | true, false =>
    if sizeOk w then
      let s := s.setBit pWqm off 31 true
      let s := s.wr pWqm (sqr O.WQM_CQSTAT c) (2 ^ 30 + 2 ^ 29)
      (s.wr pWqm (sqr O.WQM_CQHEAD c) 0).setCq c {}
    else s.qcfgLocked
  | false, true =>
    if s.cqUnused c then ((s.setBit pWqm off 31 false).setBit pWqm (sqr O.WQM_CQSTAT c) 30 false).setCq c {}
    else s.qcfgLocked
  | _, _ => s.remoderate c

/-- Enable a DISABLED queue: ACTIVE, with no record of an error; head, fetch index and tail have the value last set
through START (R60, R61; DEDUCED for a queue enabled again with no new START: log 116). -/
def queueEnable (s : State) (q : Nat) : State :=
  let st := s.fld pWqm (sqr O.WQM_QPTR q) 0 16
  let s := (s.setFld pWqm (sqr O.WQM_QPTR q) 16 16 st).setFld pWqm (sqr O.WQM_QSTAT q) 0 16 st
  let s := s.setSq q { s.sqOf q with fetch := st, finished := [], shut := (s.sqOf q).shut.map fun _ => 0 }
  let s := (s.setBit pWqm (sqr O.WQM_QCFG q) 31 true).setQState q 1
  (s.wr pWqm (sqr O.WQM_QERR q) 0).setQerrMap q false

/-- EN written to 0: DRAINING, and what is fetched but not started is discarded (R77). -/
def queueDrain (s : State) (q : Nat) : State :=
  let s := (s.setBit pWqm (sqr O.WQM_QCFG q) 31 false).setQState q 2
  let v := s.sqOf q
  s.setSq q { v with chain := [], ready := [], pushes := [], cut := none }

/-- A write of QCFG (R58-R61); `drain` is what becomes of the queue's waiting jobs when it starts to drain. -/
def qcfgWrite (drain : State → Nat → State) (s : State) (q v : Nat) : State :=
  let off := sqr O.WQM_QCFG q
  let old := s.rd pWqm off
  let st := s.qState q
  let fieldMask := 0x60FF000F
  let s := if st = 0 then s.wr pWqm off (clrMask old fieldMask ||| (v &&& fieldMask))
    else if v &&& fieldMask ≠ old &&& fieldMask then s.qcfgLocked else s
  match bitOf v 31, st with
  | true, 0 => if s.cActive (s.qCq q) ∧ sizeOk (s.rd pWqm off) then s.queueEnable q else s.qcfgLocked
  | true, 2 => s.qcfgLocked
  | true, _ => s
  | false, 1 => drain (s.queueDrain q) q
  | false, 3 => drain (s.queueDrain q) q
  | false, _ => s

/-- A write of QPTR: START sets head, fetch index and tail while DISABLED (R58). -/
def qptrWrite (s : State) (q v : Nat) : State :=
  let st := v % 2 ^ 16
  if s.qState q = 0 then
    let s := s.wr pWqm (sqr O.WQM_QPTR q) (st * 2 ^ 16 + st)
    let s := s.setFld pWqm (sqr O.WQM_QSTAT q) 0 16 st
    s.setSq q { s.sqOf q with fetch := st, finished := [] }
  else if st ≠ s.fld pWqm (sqr O.WQM_QPTR q) 0 16 then s.qcfgLocked else s

/-- A write of a ring base: only while the queue is DISABLED, or inactive (R58). -/
def baseWrite (s : State) (off mask v : Nat) (free : Bool) : State :=
  if free then s.maskedWrite pWqm off mask v
  else if v &&& mask ≠ s.rd pWqm off then s.qcfgLocked else s

/-! ## Link and power states (R83-R85, R488) -/

/-- Send every pending message whose vector may go (R83, R85). -/
def sendPending (s : State) : State :=
  (List.range 2048).foldl (fun s v =>
    if s.bit pHif (O.HIF_PBA + 4 * (v / 32)) (v % 32) && !s.vecMasked v then (s.setPba v false).issueMsix v else s) s

/-- Write every held completion in order (R85). -/
def writeHeld (s : State) : State :=
  let s' := s.hif.held.foldl (fun s h => s.setHost h.addr ((h.words.map fun w => leBytes 4 w.toNat).flatten)) s
  { s'.wr pHif O.HIF_HELD_CQE 0 with hif := { s'.hif with held := [] } }

/-- The base address registers take a value: the address bits below the size of a window are fixed at 0 (Table 2.1). -/
def setBars (s : State) (b : W64 × W64 × W64) : State :=
  { s with hif := { s.hif with bar0 := b.1 >>> 25 <<< 25, bar2 := b.2.1 >>> 25 <<< 25, bar4 := b.2.2 >>> 32 <<< 32 } }

/-- Host requests may be issued again: held completions first, then pending messages (R85, R488). -/
def hostReturns (s : State) : State := if s.hostReady then s.writeHeld.sendPending else s

/-- Unmask a vector, or clear the Function Mask: a pending message goes out (R83). -/
def unmaskOne (s : State) (v : Nat) : State :=
  let s := s.setBit pHif (O.HIF_MSIX_CTRL + 16 * v) 0 false
  if s.bit pHif (O.HIF_PBA + 4 * (v / 32)) (v % 32) && !s.vecMasked v && s.hostReady then
    (s.setPba v false).issueMsix v
  else s

end State

/-! ## The commands -/

/-- ENTRY_FETCH (R73): one fetch of the arbiter while WQM is RUNNING. -/
def execEntryFetch (ok : Bool) : State → Out := act .wqm fun s => when (s.running pWqm) (·.entryFetch ok) s

/-- JOB_COMPLETE (R75). -/
def execJobComplete (j : JobRef) : State → Out := act .wqm fun s => s.completeJob j

/-- QUEUE_DRAINED (R77): a DRAINING queue with no started job outstanding becomes DISABLED. -/
def execQueueDrained (q : Fin 528) : State → Out := act .wqm fun s =>
  when (s.qState q = 2 ∧ (s.sqOf q).started = []) (·.setQState q 0) s

/-- SQ_DB (R65, R76). -/
def execSqDb (q : Fin 528) (v : W32) : State → Out := act .wqm fun s => s.sqDoorbell q v.toNat

/-- CQ_DB (R79). -/
def execCqDb (c : Fin 256) (v : W32) : State → Out := act .wqm fun s => s.cqDoorbell c v.toNat

/-- PUSH_WINDOW_WRITE (R76). -/
def execPushWindowWrite (q : Fin 512) (dw : Fin 32) (data : List W32) : State → Out :=
  act .wqm fun s => s.pushWrite q dw data

/-- CQCFG_EN_WRITE (R58-R60). -/
def execCqcfgEnWrite (c : Fin 256) (v : W32) : State → Out := act .wqm fun s => s.cqcfgWrite c v.toNat

/-- MODERATION_TIMER (R80): T reaches TIME with entries counted. -/
def execModerationTimer (c : Fin 256) : State → Out := act .wqm fun s =>
  when ((s.cqOf c).timing && s.cActive c && s.bit pWqm (State.sqr O.WQM_CQCFG c) 30) (·.cqMessage c) s

/-- VECTOR_UNMASK (R83): of one vector's Mask bit, or of the Function Mask, as configuration software does (log 14). -/
def execVectorUnmask (v : VectorMask) : State → Out := access fun s =>
  match v.vec, v.mask with
  | some v, true => s.setBit pHif (O.HIF_MSIX_CTRL + 16 * v) 0 true
  | some v, false => s.unmaskOne v
  | none, true => { s with hif := { s.hif with funcMask := true } }
  | none, false =>
    let s := { s with hif := { s.hif with funcMask := false } }
    if s.hostReady then s.sendPending else s

/-- L1_EXIT (R84): a request that falls due takes the link out of L1. -/
def execL1Exit : State → Out := act .hif fun s => s.wakeLink

/-- L1_ENTRY (R84): the idle link enters L1 under ASPM. -/
def execL1Entry : State → Out := act .hif fun s =>
  when (s.bit pHif O.HIF_PM_STAT 0) (·.setBit pHif O.HIF_PM_STAT 1 true) s

/-- D3HOT_ENTRY (R85); `pmeEn` is PME_En as configuration software left it. -/
def execD3hotEntry (pmeEn : Bool) : State → Out := act .hif fun s =>
  { s.setBit pHif O.HIF_PM_STAT 2 true with hif := { s.hif with pmeEn := pmeEn } }

/-- LINK_DOWN (R488). -/
def execLinkDown : State → Out := act .hif fun s =>
  when (s.bit pHif O.HIF_PM_STAT 0 && !s.isMember) (fun s => (s.setFld pHif O.HIF_PM_STAT 0 2 0).setCause pHif 2) s

/-- LINK_DEGRADED (R55): the link trains narrower than x4, or below the highest speed both ends advertise; a link that is
up does so through Recovery, which LINK_RECOV counts. -/
def execLinkDegraded (width : Fin 64) (speed : Fin 16) : State → Out := act .hif fun s =>
  let s := if s.bit pHif O.HIF_PM_STAT 0 then s.incrSat pHif O.HIF_LINK_RECOV else s
  (s.wr pHif O.HIF_LINK_STAT (width * 16 + speed)).setCause pHif 4

/-- NOP (R66): completes at once. -/
def execNop (j : JobRef) : State → Out := act .wqm fun s =>
  s.withJob j 0x7F fun _ s => s.finishSt j stSuccess

end Sys2Proof.Machine
end

