-- ==== Sys2Proof/Machine/ClockTime.lean ====
section
/-! DEFINITION. Stand time, the timing source and the wall-frame grid of chapter 17 (R445-R453), and the slot
periods of R188 that the grid carries. -/
namespace Sys2Proof.Machine

/-- One ns in units of 2⁻¹⁶ ns. -/
def fxNs : Int := 65536

namespace State

/-! ## The mode in force, as far as timing needs it (R188) -/

/-- FRATE_NUM of the mode in force; a 0 acts as 1, so that no division meets it. The grid keeps it where a reset takes
the Landing's registers back to their reset values (R437). -/
def frateNum (s : State) : Nat := max 1 s.tim.num
/-- FRATE_DEN of the mode in force. -/
def frateDen (s : State) : Nat := max 1 s.tim.den
/-- Feeds of the mode in force. -/
def feeds (s : State) : Nat := s.fld pLnd O.LND_MODE_CUR 0 4
/-- MAINT_EN of the mode in force. -/
def maintEn (s : State) : Bool := s.bit pLnd O.LND_MODE_CUR 28
/-- L_DISP of the mode in force. -/
def lDisp (s : State) : Nat := s.fld pLnd O.LND_MODE_CUR 24 4
/-- Q, slots per wall frame. -/
def slotsPerFrame (s : State) : Nat := max 1 (s.feeds + b2n s.maintEn)
/-- Nominal wall-frame period, 2⁻¹⁶ ns. -/
def nominalFx (s : State) : Int := rdiv (s.frateDen * 1000000000 * 65536 : Nat) (s.frateNum : Nat)
/-- The spacing of boundaries in force: P_est off the grid of R446, the nominal period on it. -/
def periodFx (s : State) : Int := if s.tim.onGrid ∨ s.tim.pEstFx = 0 then s.nominalFx else s.tim.pEstFx
/-- Slot period, 2⁻¹⁶ ns (R188). -/
def slotFx (s : State) : Int :=
  rdiv (s.frateDen * 1000000000 * 65536 : Nat) (s.frateNum * s.slotsPerFrame : Nat)
/-- SYNC stand time of slot k of a wall frame that starts at `twFx`, ns (R188). -/
def slotTime (s : State) (twFx : Int) (k : Nat) : Int :=
  rdiv (twFx * (s.frateNum * s.slotsPerFrame : Nat) + (k * s.frateDen * 1000000000 * 65536 : Nat))
    (65536 * s.frateNum * s.slotsPerFrame : Nat)
/-- SYNC stand time of slot k of the wall frame in progress, ns (R188). -/
def syncTime (s : State) (k : Nat) : Int := s.slotTime s.tim.twFx k

/-! ## The grid (R446, R448) -/

/-- Boundary T_n of the grid of R446, ns. -/
def gridAt (s : State) (num den : Nat) (n : Int) : Int :=
  signed 32 (s.rd pTim O.TIM_FRAME_OFS) + rdiv (n * (den * 1000000000 : Nat)) (num : Nat)

/-- First boundary of the grid of R446 at or after `t` ns, for a rate of num/den. -/
def gridFirst (s : State) (num den : Nat) (t : Int) : Int :=
  let n := ((t - signed 32 (s.rd pTim O.TIM_FRAME_OFS)) * num) / ((den * 1000000000 : Nat) : Int) - 1
  ((([0, 1, 2, 3] : List Int).map fun k => s.gridAt num den (n + k)).find? fun b => t ≤ b).getD (s.gridAt num den (n + 4))

/-- First boundary of the grid in force at or after `tFx`, in 2⁻¹⁶ ns. -/
def gridAfter (s : State) (tFx : Int) : Int :=
  if s.tim.onGrid then s.gridFirst s.frateNum s.frateDen (-((-tFx) / fxNs)) * fxNs
  else
    let p := max 1 s.periodFx
    s.tim.twFx + (-((s.tim.twFx - tFx) / p)) * p

/-- Start of the next wall frame. -/
def nextBoundary (s : State) : Int :=
  match s.tim.stepTo with
  | some t => t
  | none => if s.tim.onGrid then s.gridAfter (s.tim.twFx + fxNs) else s.tim.twFx + s.periodFx + s.tim.moveFx

/-- Start of the wall frame `n` after the one in progress. -/
def frameAt (s : State) (n : Int) : Int :=
  if n ≤ 0 then s.tim.twFx + n * s.periodFx else s.nextBoundary + (n - 1) * s.periodFx

/-- Stand time with its fraction, 2⁻¹⁶ ns. -/
def nowFx (s : State) : Int := s.tim.time * 65536 + s.tim.frac

/-- Set stand time. -/
def setTime (s : State) (t : Nat) : State := { s with tim := { s.tim with time := t % 2 ^ 64 } }

/-- Stand time reaches `t` ns, if it has not passed it. -/
def reachTime (s : State) (t : Int) : State := if s.tim.time < t.toNat then s.setTime t.toNat else s

/-- The grid steps at a boundary: slots that fall due before it are BLACK (R448); `atLeast` is the least start. -/
def gridStep (s : State) (atLeast : Int) : State :=
  { s with tim := { s.tim with stepTo := some (s.gridAfter atLeast), hole := s.running pLnd, moveFx := 0, slewDue := none } }

/-- One CLK_CTL cycle, 2.5 ns with the rate correction of ADJ_FREQ (R446, R447). -/
def tick (s : State) : State :=
  let unit : Int := 65536 * 1000000000
  let acc := s.tim.adjAcc + 163840 * signed 32 (s.rd pTim O.TIM_ADJ_FREQ)
  let f := (s.tim.frac : Int) + 163840 + acc / unit
  { s with tim := { s.tim with
      adjAcc := acc % unit, frac := (f % 65536).toNat, time := (s.tim.time + (f / 65536).toNat) % 2 ^ 64 } }

/-! ## The timing source (R445, R447, R449, R450) -/

/-- SRC_STAT.STATE: 0 FREE, 1 ACQUIRE, 2 LOCKED, 3 FLYWHEEL, 4 HOLDOVER. -/
def srcState (s : State) : Nat := s.fld pTim O.TIM_SRC_STAT 28 4
/-- SRC_CFG.SRC: 0 FREE, 1 PTP, 2 REF_FS. -/
def src (s : State) : Nat := s.fld pTim O.TIM_SRC_CFG 0 2
/-- REF_DIV, 0 meaning 1. -/
def refDiv (s : State) : Nat := let d := s.fld pTim O.TIM_SRC_CFG 4 3; if d = 0 then 1 else d
/-- SRC_CTL.HOLD. -/
def holdSet (s : State) : Bool := s.bit pTim O.TIM_SRC_CTL 0

/-- The holdover-exceeded condition ends (R450); content returns at the next wall frame. -/
def endExceeded (s : State) : State := s.setBit pTim O.TIM_FLAGS 3 false

/-- Holdover is exceeded (R450): BLACK at once on every port, and in every slot after that. -/
def holdExceeded (s : State) : State :=
  ((s.setBit pTim O.TIM_FLAGS 3 true).setCause pTim 8).startGlob .holdover

/-- Enter a state of Table 17.10 with its count of missing pulses. -/
def setSrc (s : State) (st missing : Nat) : State :=
  let old := s.srcState
  let s := s.wr pTim O.TIM_SRC_STAT (st * 2 ^ 28 + missing)
  let s := s.setFld pTim O.TIM_FLAGS 0 3 (b2n (st = 4) * 4 + b2n (st = 2) * 2 + b2n (st = 3))
  let s := s.setBit pStd O.STD_FLAGS 2 (st = 4)
  let s := if st = 4 ∧ old ≠ 4 then (s.incr pTim O.TIM_CNT_HOLDOVER).setCause pTim 4 else s
  let s := if st = 2 ∧ old ≠ 2 then s.setCause pTim 2 else s
  if st = 2 ∨ st = 0 then s.endExceeded else s

/-- Empty the pulse history. -/
def emptyHist (s : State) : State := { s with tim := { s.tim with hist := [], run := 0, slewDue := none } }

/-- Enter ACQUIRE, whose entry empties the history (R449). -/
def acquire (s : State) : State := s.emptyHist.setSrc 1 0

/-- The grid in force moves onto the grid of R446 at the next boundary, counted where the two differ (R445). -/
def toFormula (s : State) : State :=
  if s.tim.onGrid then s
  else
    let free := { s with tim := { s.tim with onGrid := true } }
    let t := { s with tim := { s.tim with regrid := some none } }
    if s.nextBoundary ≠ free.gridAfter s.nextBoundary then t.incr pTim O.TIM_CNT_REALIGN else t

/-- A write of ADJ_FREQ or STEP as the PTP servo sees it (R447, R450). -/
def servoWrite (s : State) : State :=
  if s.src = 1 ∧ !s.holdSet ∧ !s.isMember then (s.setSrc 2 0).toFormula else s

/-- SRC_CFG takes a new value (R445, R450). -/
def applySrcCfg (s : State) (v : Nat) : State :=
  let old := s.rd pTim O.TIM_SRC_CFG
  let bad := bitsOf v 0 2 = 3
  let v := if bad then putBits v 0 2 (bitsOf old 0 2) else v
  let s := s.wr pTim O.TIM_SRC_CFG (v &&& 0x173)
  let s := if bad then s.errCapture pTim 0x0100 3 0 else s
  let so := bitsOf old 0 2
  let sn := bitsOf v 0 2
  let s := if bitsOf old 4 3 ≠ bitsOf v 4 3 ∨ so ≠ sn then s.emptyHist else s
  if so = sn ∨ s.isMember then s
  else if sn = 0 then (s.setSrc 0 0).toFormula
  else if sn = 2 then
    let s := { s with tim := { s.tim with pEstFx := s.periodFx.toNat, onGrid := false, regrid := none
                                          stepTo := some (s.tim.stepTo.getD s.nextBoundary) } }
    s.acquire
  else s.acquire

/-- Nominal pulse period Π, ns times FRATE_NUM, so that the tests are exact (R449). -/
def pulseNum (s : State) : Int := (s.refDiv * 1000000000 * s.frateDen : Nat)

/-- Is `span` within 0.1% of `k` nominal pulse periods? -/
def withinTenth (s : State) (span : Int) (k : Int) : Bool :=
  let d := span * s.frateNum - k * s.pulseNum
  decide (d.natAbs * 1000 ≤ (k * s.pulseNum).natAbs)

/-- Slew: the boundary after the start a pulse marks lies P_est from it and is moved by e/4; P_est then grows by
e/(16 REF_DIV), within 0.1% of nominal (R449, Table 17.11). -/
def slew (s : State) (e : Int) : State :=
  let nom := s.nominalFx
  let p := s.periodFx + (e * 65536) / (16 * s.refDiv : Nat)
  let p := max (nom - nom / 1000) (min (nom + nom / 1000) p)
  { s with tim := { s.tim with
      pEstFx := p.toNat, moveFx := e * 65536 / 4 + (s.periodFx - p), onGrid := false, slewDue := none } }

/-- Slew for a pulse that marks the start of the wall frame `k` after the one in progress. -/
def slewAt (s : State) (k e : Int) : State :=
  if k ≤ 0 then s.slew e else { s with tim := { s.tim with slewDue := some e } }

/-- Number of wall frames from the one in progress to the boundary nearest `tFx`, among those a whole multiple of
`step` from the frame `ref` (R449). -/
def nearestFrame (s : State) (tFx : Int) (step ref : Nat) : Int :=
  let off : Int := (ref : Int) - s.tim.wframe
  let p := max 1 s.periodFx
  let k := rdiv (tFx - s.tim.twFx - off * p) (p * step)
  off + k * step

/-- The mean pulse period over the history, which the span and the number of nominal periods it covers give (R449). -/
def meanPeriod (s : State) (span n : Int) : State :=
  if n = 0 then s else s.wr pTim O.TIM_REF_PERIOD (toBits 32 (rdiv span n.toNat))

/-- ACQUIRE ends on a pulse at `p`: the four pulses of its run form the history; slew, or step the grid (R450). -/
def endAcquire (s : State) (p : Int) : State :=
  let s := s.meanPeriod (p - s.tim.hist.getLastD p) 3
  let k := s.nearestFrame (p * fxNs) 1 s.tim.wframe
  let e := p - rdiv (s.frameAt k) fxNs
  let s := (s.setSrc 2 0).wr pTim O.TIM_PHASE_ERR (toBits 32 e)
  let s := { s with tim := { s.tim with refFrame := ((s.tim.wframe + k) % 2 ^ 48).toNat } }
  if e.natAbs ≤ 50000 then s.slewAt k e
  else
    { (s.incr pTim O.TIM_CNT_REALIGN) with tim := { s.tim with onGrid := false, regrid := some (some p) } }

/-- A stamped edge of REF_FS (R449). -/
def refPulse (s : State) (stamp : Nat) : State :=
  let p : Int := (stamp : Int) + signed 32 (s.rd pTim O.TIM_REF_ADJ)
  if s.src ≠ 2 ∨ s.isMember then s
  else
    let s := s.wr64 pTim O.TIM_REF_STAMP_LO (toBits 64 p)
    let s := if s.srcState = 4 then s.acquire else s
    if s.srcState = 1 then
      match s.tim.hist with
      | [] => { s with tim := { s.tim with hist := [p], run := 1 } }
      | prev :: _ =>
        if s.withinTenth (p - prev) 1 then
          let s := { s with tim := { s.tim with hist := p :: s.tim.hist, run := s.tim.run + 1 } }
          if s.tim.run = 4 then s.endAcquire p else s
        else { s with tim := { s.tim with hist := [p], run := 1 } }.setCause pTim 1
    else
      let k := s.nearestFrame (p * fxNs) s.refDiv s.tim.refFrame
      let e := p - rdiv (s.frameAt k) fxNs
      let f := ((s.tim.wframe + k) % 2 ^ 48).toNat
      let s := s.wr pTim O.TIM_PHASE_ERR (toBits 32 e)
      let h := (p :: s.tim.hist).take 8
      let span := p - h.getLastD p
      let n := rdiv (span * s.frateNum) s.pulseNum
      if 50000 < e.natAbs ∨ (s.tim.hist ≠ [] ∧ f = s.tim.refFrame) then s
      else if h.length ≤ 1 ∨ s.withinTenth span n then
        let s := s.setSrc 2 0
        let s := { s with tim := { s.tim with hist := h, refFrame := f } }
        (s.slewAt k e).meanPeriod span n
      else s.setCause pTim 1

/-- An expected pulse is missing (R450): up to eight are flown over, the ninth enters HOLDOVER, which counts on. -/
def refMissing (s : State) : State :=
  if s.src ≠ 2 ∨ s.isMember then s
  else if s.srcState = 2 then (s.incr pTim O.TIM_CNT_REF_MISS).setSrc 3 1
  else if s.srcState = 3 then
    let n := s.fld pTim O.TIM_SRC_STAT 0 8 + 1
    (s.incr pTim O.TIM_CNT_REF_MISS).setSrc (if 9 ≤ n then 4 else 3) n
  else if s.srcState = 4 then
    (s.incr pTim O.TIM_CNT_REF_MISS).setSrc 4 (min 255 (s.fld pTim O.TIM_SRC_STAT 0 8 + 1))
  else s

/-- A move of the grid takes place at the boundary `b` that starts a wall frame: that frame ends at the first boundary of
the new grid at least one slot period later, and slots that fall due before it are BLACK (R445, R448, R450). -/
def regridAt (s : State) (b : Int) : State :=
  match s.tim.regrid with
  | none => s
  | some g =>
    let s := { s with tim := { s.tim with regrid := none, onGrid := g.isNone } }
    let q := match g with
      | none => s
      | some p => { s with tim := { s.tim with twFx := p * fxNs } }
    let nxt := q.gridAfter (b + s.slotFx)
    if g = none ∧ s.gridAfter (b - fxNs / 2) < b + fxNs / 2 then s
    else { s with tim := { s.tim with stepTo := some nxt, hole := s.running pLnd, moveFx := 0, slewDue := none } }

/-- Start of the next wall frame: the counter advances, and what lasts until it ends (R446, R448, R450). -/
def frameBoundary (s : State) : State :=
  let b := s.nextBoundary
  let s := s.reachTime (rdiv b fxNs)
  let s := { s with tim := { s.tim with
    twFx := b, wframe := (s.tim.wframe + 1) % 2 ^ 48, stepTo := none, moveFx := 0, hole := false } }
  let s := match s.tim.slewDue with
    | some e => s.slew e
    | none => s
  let s := s.regridAt b
  if s.bit pTim O.TIM_FLAGS 3 then s else s.endGlob .holdover

/-- A STEP of stand time (R447, R448). -/
def applyStep (s : State) (v : W64) : State :=
  let t := (s.tim.time : Int) + signed 64 v.toNat
  let lock : Bool := s.src = 1 && !s.holdSet && !s.isMember
  let s := if lock && !s.tim.onGrid then { s.toFormula with tim := { s.tim with onGrid := true } } else s
  let s := { s with tim := { s.tim with time := toBits 64 t, stepApplied := v } }
  let s := if s.running pLnd then (s.gridStep (s.nowFx + s.slotFx)).incr pTim O.TIM_CNT_REALIGN
    else s.gridStep s.nowFx
  s.servoWrite

/-- ADJ_FREQ takes a new value (R447). The limit of 500 ppm is no limit here: a 32-bit value in 2⁻¹⁶ ppb stays below 33 ppm. -/
def applyAdj (s : State) (v : Nat) : State := (s.wr pTim O.TIM_ADJ_FREQ v).servoWrite

/-- SRC_CTL.HOLD is written (R447). -/
def applyHold (s : State) (on : Bool) : State :=
  let s := s.setBit pTim O.TIM_SRC_CTL 0 on
  if on ∧ s.src = 1 ∧ !s.isMember then s.setSrc 4 0 else s

/-- Keep a transmit stamp for TXTS; a 65th is dropped (R453). -/
def pushStamp (s : State) (t : Stamp) : State :=
  if s.tim.txts.length < 64 then { s with tim := { s.tim with txts := s.tim.txts ++ [t] } } else s

/-- High words of the 64-bit pairs that a pulse, an edge or a popped stamp replaces. -/
def pairHis : List Nat := [O.TIM_REF_STAMP_LO + 4, O.TIM_PPS_STAMP_LO + 4, O.TIM_TXTS_LO + 4]

/-- A high word as it reads: as the last read of its low word latched it, if there was one (R453). -/
def pairHi (s : State) (off : Nat) : Nat := ((s.tim.his.find? fun e => e.1 = off).map (·.2)).getD (s.rd pTim off)

/-- A read of the low word of a pair latches its high word (R453). -/
def latchHi (s : State) (off : Nat) : State :=
  if off + 4 ∈ pairHis then
    { s with tim := { s.tim with his := (off + 4, s.rd pTim (off + 4)) :: s.tim.his.filter fun e => e.1 ≠ off + 4 } }
  else s

/-- A read of ST_LO latches the high word and the fraction (R453). -/
def latchTime (s : State) : State :=
  (s.wr pTim O.TIM_ST_HI (s.tim.time / 2 ^ 32)).wr pTim O.TIM_ST_FRAC s.tim.frac

/-- Value a read of TXTS_INFO returns. -/
def txtsInfo (s : State) : Nat :=
  match s.tim.txts with
  | [] => 0
  | t :: _ => 2 ^ 31 + t.inst * 2 ^ 24 + t.desc % 2 ^ 16

/-- A read of TXTS_INFO pops the oldest stamp (R453). -/
def popStamp (s : State) : State :=
  match s.tim.txts with
  | [] => s
  | t :: r => ({ s with tim := { s.tim with txts := r } }).wr64 pTim O.TIM_TXTS_LO t.time

end State

/-! ## The commands -/

/-- SRC_CFG_WRITE (R445), a PW write applied as it arrives. -/
def execSrcCfgWrite (v : W32) : State → Out := act .tim fun s => s.pwWrite pTim (·.applySrcCfg v.toNat)

/-- STEP (R448), a 64-bit PW write. -/
def execStStep (v : W64) : State → Out := act .tim fun s => s.pwWrite pTim (·.applyStep v)

/-- ADJ_FREQ (R447). -/
def execAdjFreq (v : W32) : State → Out := act .tim fun s => s.pwWrite pTim (·.applyAdj v.toNat)

/-- HOLD (R447). -/
def execSrcHold (on : Bool) : State → Out := act .tim fun s => s.applyHold on

/-- SERVO_TIMEOUT (R447): SERVO_TO ms without a servo write. -/
def execServoTimeout : State → Out := act .tim fun s =>
  when (s.src = 1 ∧ !s.isMember ∧ s.fld pTim O.TIM_SERVO_TO 0 16 ≠ 0 ∧ s.srcState = 2) (·.setSrc 4 0) s

/-- REF_FS_PULSE (R449); `stamp` is the stand time of the active edge. -/
def execRefFsPulse (stamp : W64) : State → Out := act .tim fun s => (s.reachTime stamp.toNat).refPulse stamp.toNat

/-- REF_FS_MISSING (R450). -/
def execRefFsMissing : State → Out := act .tim (·.refMissing)

/-- HOLD_LIMIT_EXPIRY (R450): holdover has lasted HOLD_LIMIT s. -/
def execHoldLimitExpiry : State → Out := act .tim fun s =>
  when (s.srcState = 4 ∧ s.fld pTim O.TIM_HOLD_LIMIT 0 16 ≠ 0)
    (·.holdExceeded) s

/-- PPS_IN (R451); a member ignores the input (R445). -/
def execPpsIn (stamp : W64) : State → Out := act .tim fun s =>
  when (!s.isMember) (fun s => ((s.reachTime stamp.toNat).wr64 pTim O.TIM_PPS_STAMP_LO
    (toBits 64 ((stamp.toNat : Int) + signed 32 (s.rd pTim O.TIM_PPS_ADJ)))).setCause pTim 0x10) s

/-- ST_LO_READ (R453). -/
def execStLoRead : State → Out := access fun s =>
  s.latchTime.emit (.readData (BitVec.ofNat 64 (s.tim.time % 2 ^ 32)))

/-- TXTS_INFO_READ (R453). -/
def execTxtsInfoRead : State → Out := access fun s =>
  s.popStamp.emit (.readData (BitVec.ofNat 64 s.txtsInfo))

end Sys2Proof.Machine
end

