-- ==== Sys2Proof/Machine/FaultCoppice.lean ====
section
/-! DEFINITION. DEVICE_FATAL, the fatal record, the Coppice inventory and the thermal limits of chapter 18. -/
namespace Sys2Proof.Machine
namespace State

/-! ## The Coppice inventory (R463) -/

/-- Set USED and LOST of a class. -/
def setCop (s : State) (c used lost : Nat) : State :=
  { s with flt := { s.flt with cop := sset (fun _ => (0, 0)) s.flt.cop c (used, lost) } }

/-- Spares left of a class. -/
def copLeft (s : State) (c : Nat) : Nat := coppiceTotal c - s.copUsed c

/-- LEFT of a class becomes 0. -/
def coppiceOut (s : State) : State := (s.setBit pDev O.DEV_FLAGS 1 true).setCause pDev 4

/-- Take a spare of a class; the last one raises COPPICE_OUT. -/
def copTake (s : State) (c : Nat) : State :=
  if s.copLeft c = 0 then s
  else
    let s := s.setCop c (s.copUsed c + 1) (s.copLost c)
    if s.copLeft c = 0 then s.coppiceOut else s

/-- A unit is lost with no spare for it; LOST saturates at 255. -/
def copLose (s : State) (c : Nat) : State := s.setCop c (s.copUsed c) (min 255 (s.copLost c + 1))

/-! ## DEVICE_FATAL (R459-R461) -/

/-- Copy the record of a fatal fault into FATAL_REC, if none is held (R456). -/
def fatalRecord (s : State) (cls code info : Nat) : State :=
  if s.bit pDev O.DEV_FATAL_REC 31 then s
  else
    let s := s.wr pDev O.DEV_FATAL_REC (cls * 2 ^ 30 + code)
    let s := s.wr pDev (O.DEV_FATAL_REC + 4) info
    let s := s.wr pDev (O.DEV_FATAL_REC + 8) s.tim.time
    s.wr pDev (O.DEV_FATAL_REC + 12) (s.tim.time / 2 ^ 32)

/-- Own engine number (R431). -/
def ownEngine (s : State) : Nat := s.fld pStd O.STD_STAT 16 6

/-- Frames queued in the Choker are discarded and the transmitters stop (R460 step 3). -/
def discardFrames (s : State) : State := { s with chk := { s.chk with inbox := [], frames := [] } }

/-- The halt under REFCLK_LOST or THERMAL: FATAL_REC alone, then every transmitter idle and the clocks stopped. -/
def enterDead (s : State) (code : Nat) : State :=
  let s := s.fatalRecord 2 code 0
  let s := if code = 0x0102 then s.emit .outputsOff else s
  { s.emit .serdesIdle with flt := { s.flt with life := .dead, fatalCode := code } }

/-- Enter DEVICE_FATAL (R460); a fault detected while it holds is logged and has no further effect. -/
def enterFatal (s : State) (cls code info : Nat) : State :=
  match s.flt.life with
  | .up =>
    let s := (s.errCapture pDev code info 0).faultLog cls false false pDev code info
    let s := (s.fatalRecord cls code info).setBit pDev O.DEV_FLAGS 0 true
    let s := (s.startGlob .fatal).discardFrames
    let s := if s.isMember then s else ((s.setCause pDev 0x20).emit (.aer true 0)).setCause pHif 0x10
    let s := if cls = 2 ∧ s.bit pStd O.STD_CFG 31 ∧ 1 < s.fld pStd O.STD_STAT 8 7 then
        s.emit (.fatalBroadcast s.ownEngine) else s
    { s with flt := { s.flt with life := .fatal, fatalCode := code } }
  | _ => s.faultLog cls false false pDev code info

/-- Enter the halt that a cause of Table 18.4 leads to. -/
def fatal (s : State) (code info : Nat) : State :=
  if code = 0x0101 ∨ code = 0x0102 then
    (if s.flt.life = .dead ∨ s.flt.life = .held then s else s.enterDead code)
  else s.enterFatal (if code = 0x0104 then 3 else 2) code info

/-- REFCLK is declared lost (R435); CLK_FLAGS records it. -/
def refclkLost (s : State) : State :=
  (s.wr pClk O.CLK_FLAGS ((s.rd pClk O.CLK_FLAGS &&& 8) ||| 4)).fatal 0x0101 0

/-- A sample of the on-die sensors and the stacks (R468); temperatures in °C. -/
def thermal (s : State) (sensor : Nat) (j t0 t1 : Int) : State :=
  let s := s.wr pDev O.DEV_TEMP (sensor % 256 * 256 + toBits 8 j)
  let s := s.setFld pHbm O.HBM_TEMP 0 8 (toBits 8 t0)
  let s := s.setFld (pHbm + 1) O.HBM_TEMP 0 8 (toBits 8 t1)
  let warm := decide ((s.fld pDev O.DEV_THERM_CFG 0 8 : Int) ≤ j)
  let s := if warm && !s.flt.warm then s.setCause pDev 8 else s
  let s := { s with flt := { s.flt with warm := warm } }
  let stack := max t0 t1
  let s :=
    if 100 ≤ j ∨ 95 ≤ stack then
      if s.flt.alertPin then s
      else { ((s.setBit pDev O.DEV_FLAGS 2 true).setCause pDev 0x10).emit (.thermAlert true) with
        flt := { s.flt with alertPin := true } }
    else if j < 95 ∧ stack < 90 ∧ s.flt.alertPin then
      { (s.setBit pDev O.DEV_FLAGS 2 false).emit (.thermAlert false) with flt := { s.flt with alertPin := false } }
    else s
  if 110 ≤ j ∨ 105 ≤ stack then s.fatal 0x0102 0 else s

end State

/-! ## The commands -/

/-- DEVICE_FATAL (R460): entry with the cause of Table 18.4 of that position. -/
def execDeviceFatal (cause : Fin 6) : State → Out := act .dev fun s => s.fatal (0x0100 + cause) 0

/-- FATAL_FORCE (R459): a write with the key enters DEVICE_FATAL FORCED; other keys are ignored. -/
def execFatalForce (v : W32) : State → Out := act .dev fun s =>
  when (bitsOf v.toNat 16 16 = 0x4654 ∧ bitOf v.toNat 0) (·.fatal 0x0105 0) s

/-- FATAL_REC_CLEAR (R456): all four words clear. -/
def execFatalRecClear : State → Out := act .dev fun s =>
  (s.wr64 pDev O.DEV_FATAL_REC 0).wr64 pDev (O.DEV_FATAL_REC + 8) 0

/-- THERMAL_SAMPLE (R468). -/
def execThermalSample (sensor junction stack0 stack1 : BitVec 8) : State → Out := act .dev fun s =>
  s.thermal sensor.toNat junction.toInt stack0.toInt stack1.toInt

/-- REFCLK_LOST (R435). -/
def execRefclkLost : State → Out := act .clk (·.refclkLost)

end Sys2Proof.Machine
end

