-- ==== Sys2Proof/Machine/Choker.lean ====
section
/-! DEFINITION. The Choker of chapter 14: buckets, network queues and their schedulers, host transmit rings and
Jelek queues, and the ingress meters that share the bucket arithmetic (R103). -/
namespace Sys2Proof.Machine

/-- Increment of a rate in kbit/s over one refill, 2⁻¹⁶ byte (R374). -/
def rateInc (kbps : Nat) : Int := rdiv (kbps * 1048576 : Nat) 100000

/-- A burst in bytes, 2⁻¹⁶ byte. -/
def burstOf (bytes : Nat) : Int := (bytes * 65536 : Nat)

/-- Length L of a frame: with its FCS (R373). -/
def NetFrame.len (f : NetFrame) : Nat := f.bytes.length + 4

/-- RFC 2698 marking of a frame of `len` bytes that arrives with colour `c` (0 green, 1 yellow, 2 red), and the
buckets after it (R378). -/
def markFrame (b : Int × Int) (len c : Nat) : Nat × (Int × Int) :=
  let l := burstOf len
  if 2 ≤ c ∨ b.2 < l then (2, b)
  else if c = 1 ∨ b.1 < l then (1, (b.1, b.2 - l))
  else (0, (b.1 - l, b.2 - l))

/-- Refill of a bucket with a burst. -/
def refillTo (b inc burst : Int) : Int := min (b + inc) burst

/-- Maximum rate of a Jelek queue for a lane rate code (Table 14.1 of R382). -/
def jelekCap (rate : Nat) : Nat := if rate = 0 then 737280 else if rate = 1 then 368640 else 178893

namespace State

/-! ## The NET ports as the Choker and the Debarker see them (R86, R380) -/

/-- Page of a global MAC instance. -/
def netPage (inst : Nat) : Nat := pNet + inst / 4
/-- A register of an instance block. -/
def netReg (off inst : Nat) : Nat := off + 0x80 * (inst % 4)
/-- Does the instance exist in its port's mode? -/
def instExists (s : State) (inst : Nat) : Bool :=
  match s.fld (netPage inst) O.NET_PORT_CFG 0 2 with
  | 0 => inst % 4 = 0
  | 1 => inst % 4 < 2
  | 2 => true
  | _ => false
/-- Is the instance up: it exists, is enabled, and its link is up? -/
def instUp (s : State) (inst : Nat) : Bool :=
  s.instExists inst && s.bit (netPage inst) (netReg O.NET_MAC_CFG inst) 31
    && s.bit (netPage inst) O.NET_LINK_FLAGS (inst % 4)
/-- MAC_CFG.MAX_FRAME. -/
def maxFrame (s : State) (inst : Nat) : Nat := s.fld (netPage inst) (netReg O.NET_MAC_CFG inst) 0 14

/-! ## Queues -/

/-- Words 0-4 of a queue's entry in force. -/
def qLive (s : State) (q : Nat) : List Nat := sget (fun _ => [0, 0, 0, 0, 0]) s.chk.live q
/-- A word of the entry in force. -/
def qw (s : State) (q i : Nat) : Nat := (s.qLive q).getD i 0
/-- EN in force; an ignored entry counts as disabled. -/
def qEn (s : State) (q : Nat) : Bool := bitOf (s.qw q 0) 31
/-- POLICE in force. -/
def qPolice (s : State) (q : Nat) : Bool := bitOf (s.qw q 0) 30
/-- Buckets of a queue. -/
def qBucket (s : State) (q : Nat) : Int × Int := sget (fun _ => (0, 0)) s.chk.bucket q
/-- Set the buckets of a queue. -/
def setQBucket (s : State) (q : Nat) (b : Int × Int) : State :=
  { s with chk := { s.chk with bucket := sset (fun _ => (0, 0)) s.chk.bucket q b } }
/-- Bytes queued in a queue. -/
def qDepth (s : State) (q : Nat) : Nat := ((s.chk.frames.filter fun f => f.queue = q).map NetFrame.len).sum
/-- Bytes in the transmit buffer. -/
def bufUsed (s : State) : Nat := (s.chk.frames.map NetFrame.len).sum
/-- Frames of a queue for an instance, in order. -/
def qFrames (s : State) (q inst : Nat) : List NetFrame := s.chk.frames.filter fun f => f.queue = q ∧ f.inst = inst

/-- Add to a counter word of a queue entry; the engine's counting and the host's writing share the word (R379). -/
def addTab (s : State) (p t i n : Nat) : State := s.setTab p t i (s.tab p t i + n)

/-- Add to a 64-bit counter in two table words. -/
def addTab64 (s : State) (p t i n : Nat) : State :=
  let v := s.tab p t i + s.tab p t (i + 1) * 2 ^ 32 + n
  (s.setTab p t i v).setTab p t (i + 1) (v / 2 ^ 32)

/-! ## Host transmit rings (R383, R384) -/

/-- A register of HTX block r. -/
def htxr (off r : Nat) : Nat := off + 0x20 * r
/-- Engine side of a host transmit ring. -/
def htxOf (s : State) (r : Nat) : Htx := sget (fun _ => {}) s.chk.htx r
/-- Set the engine side of a host transmit ring. -/
def setHtx (s : State) (r : Nat) (h : Htx) : State :=
  { s with chk := { s.chk with htx := sset (fun _ => {}) s.chk.htx r h } }
/-- Descriptors the ring holds. -/
def htxSize (s : State) (r : Nat) : Nat := 2 ^ s.fld pChk (htxr O.CHK_HTX_CFG r) 0 4
/-- Host address of a descriptor. -/
def htxAddr (s : State) (r i : Nat) : Nat := s.rd64 pChk (htxr O.CHK_HTX_BASE_LO r) + 32 * i

/-- A ring is enabled: it is empty, and frames that it handed over before have no descriptor any more (log 129). -/
def htxEnabled (s : State) (r : Nat) : State :=
  let cut (f : NetFrame) : NetFrame := if f.src.any fun e => e.1 = r then { f with src := none } else f
  let s := { s with chk := { s.chk with frames := s.chk.frames.map cut, inbox := s.chk.inbox.map cut } }
  ((s.wr pChk (htxr O.CHK_HTX_HEAD r) 0).wr pChk (htxr O.CHK_HTX_TAIL r) 0).setHtx r {}

/-- The outcome of a descriptor's frame becomes known. -/
def htxDone (s : State) (src : Option (Nat × Nat)) (err : Bool) (stamp frac : Nat) : State :=
  match src with
  | none => s
  | some (r, i) =>
    let h := s.htxOf r
    s.setHtx r { h with ents := h.ents.map fun e =>
      if e.idx = i ∧ !e.done then { e with done := true, err := err, stamp := stamp, frac := frac } else e }

/-- Read the next descriptor of a ring and take its frame (R383, R384); `ok` is false when the frame cannot be
read from host memory. -/
def htxRead (s : State) (r : Nat) (ok : Bool) : State :=
  let h := s.htxOf r
  if !(s.running pChk && s.bit pChk (htxr O.CHK_HTX_CFG r) 31 && s.hostReady
      && h.next ≠ s.fld pChk (htxr O.CHK_HTX_TAIL r) 0 16) then s
  else
    let s := s.wakeLink
    let b := s.hostBytes (s.htxAddr r h.next) 32
    let w0 := leWord b 0
    let w1 := leWord b 4
    let inst := bitsOf w0 24 3
    let len := bitsOf w0 0 14
    let queue := w1 % 2 ^ 10
    let bad := bitsOf w0 27 2 ≠ 0 ∨ bitsOf w0 14 9 ≠ 0 ∨ leWord b 28 ≠ 0 ∨ bitsOf w1 10 22 ≠ 0 ∨ leWord b 24 % 2 ^ 16 ≠ 0 ∨ len < 60
      ∨ s.maxFrame inst < len + 4 ∨ 515 < queue
    let e : HtxEnt := { idx := h.next, word0 := w0 }
    let nx := (h.next + 1) % s.htxSize r
    if bad ∨ !ok then
      (s.setHtx r { next := nx, ents := h.ents ++ [{ e with done := true, err := true }] }).setCause pChk 4
    else
      let f : NetFrame := ⟨queue, inst, s.hostBytes (leNat ((b.drop 8).take 8)) len, some (r, h.next), none⟩
      let s := s.setHtx r { next := nx, ents := h.ents ++ [e] }
      { s with chk := { s.chk with inbox := s.chk.inbox ++ [f] } }

/-- Write the oldest descriptor of a ring back, once its frame has left or has been dropped (R384). -/
def htxWriteBack (s : State) (r : Nat) : State :=
  let h := s.htxOf r
  match h.ents with
  | [] => s
  | e :: rest =>
    if !e.done ∨ !s.hostReady then s
    else
      let a := s.htxAddr r e.idx
      let w0 := putBits (e.word0 ||| 2 ^ 31) 29 1 (b2n e.err)
      let s := if bitOf e.word0 30 ∧ !e.err then
          s.setHost (a + 16) (leBytes 8 e.stamp ++ leBytes 4 (e.frac * 65536)) else s
      let s := (s.setHost a (leBytes 4 w0)).setHtx r { h with ents := rest }
      let s := s.wr pChk (htxr O.CHK_HTX_HEAD r) ((e.idx + 1) % s.htxSize r)
      let s := s.incr pChk (htxr (if e.err then O.CHK_HTX_ERRS else O.CHK_HTX_SENT) r)
      if s.bit pChk (htxr O.CHK_HTX_CFG r) 30 then s.sendVector (s.fld pChk (htxr O.CHK_HTX_CFG r) 16 11) else s

/-! ## Entry of frames (R372, R378) -/

/-- A frame dropped at entry: DROP_MAP and QDROP. -/
def queueDrop (s : State) (f : NetFrame) : State :=
  let s := s.setBit pChk (O.CHK_DROP_MAP + 4 * (f.queue / 32)) (f.queue % 32) true
  (s.setCause pChk 1).htxDone f.src true 0 0

/-- A frame enters its queue, or is dropped under the first case of R372 that applies. -/
def enqueue (s : State) (f : NetFrame) : State :=
  let q := f.queue
  let limit := let l := bitsOf (s.qw q 0) 16 8; if l = 0 then 4194304 else l * 16384
  let drops (s : State) : State := s.addTab pChk 0 (8 * q + 5) 1
  if !s.qEn q then (s.incr pChk O.CHK_CNT_DISABLED_DROP).queueDrop f
  else if limit < s.qDepth q + f.len then (drops s).queueDrop f
  else if 4194304 < s.bufUsed + f.len then ((drops s).incr pChk O.CHK_CNT_BUF_DROP).queueDrop f
  else
    let put (s : State) : State := { s with chk := { s.chk with frames := s.chk.frames ++ [f] } }
    if s.qPolice q then
      let m := markFrame (s.qBucket q) f.len 0
      if m.1 = 2 then ((drops s).incr pChk O.CHK_CNT_POLICE_DROP).queueDrop f
      else put (s.setQBucket q m.2)
    else put s

/-- The oldest frame handed over enters its queue. -/
def enqueueNext (s : State) : State :=
  match s.chk.inbox with
  | [] => s
  | f :: r => { s with chk := { s.chk with inbox := r } }.enqueue f

/-- Hand a frame over to the Choker. -/
def handOver (s : State) (f : NetFrame) : State := { s with chk := { s.chk with inbox := s.chk.inbox ++ [f] } }

/-! ## Refill (R374, R375, R379) -/

/-- Is an enabled entry one that the Choker ignores (R379)? -/
def badEntry (q w0 : Nat) : Bool :=
  bitsOf w0 24 6 ≠ 0 || (4 ≤ q && bitsOf w0 0 16 < 64) || (q < 4 && bitOf w0 30)

/-- Refill of one queue, with the changes of its entry since the last one. -/
def refillQueue (s : State) (q : Nat) : State :=
  let new := (List.range 5).map fun i => s.tab pChk 0 (8 * q + i)
  let w0 := new.getD 0 0
  let bad := bitOf w0 31 ∧ badEntry q w0
  let use := if bad then [0, 0, 0, 0, 0] else new
  let old := s.qLive q
  let was := bitOf (old.getD 0 0) 31
  let on := bitOf (use.getD 0 0) 31
  let changed := old ≠ use
  let iC := rateInc (use.getD 1 0)
  let iP := rateInc (use.getD 3 0)
  let cbs := burstOf (use.getD 2 0)
  let pbs := burstOf (use.getD 4 0)
  let b := s.qBucket q
  let b' : Int × Int :=
    if !on then b
    else if !was then (cbs, if q < 4 then iP else pbs)
    else if q < 4 then (b.1, min b.2 0 + iP)
    else (refillTo b.1 iC cbs, refillTo b.2 iP pbs)
  let s := if changed then { s with chk := { s.chk with
      live := sset (fun _ => [0, 0, 0, 0, 0]) s.chk.live q use } } else s
  let s := if on ∧ !was then { s with chk := { s.chk with
      deficit := skeep (fun k => k / 8 ≠ q) s.chk.deficit } } else s
  s.setQBucket q b'

/-- Report an entry that is newly found bad; an entry already in error is reported once (R379). -/
def reportBad (s : State) (q : Nat) : State :=
  let w0 := s.tab pChk 0 (8 * q)
  if bitOf w0 31 ∧ badEntry q w0 ∧ s.qLive q ≠ [2 ^ 30, 0, 0, 0, 0] then s.errCapture pChk 0x0100 q 0 else s

/-- Mark the entry in force as reported. -/
def markBad (s : State) (q : Nat) : State :=
  let w0 := s.tab pChk 0 (8 * q)
  if bitOf w0 31 ∧ badEntry q w0 then { s with chk := { s.chk with
      live := sset (fun _ => [0, 0, 0, 0, 0]) s.chk.live q [2 ^ 30, 0, 0, 0, 0] } } else s

/-- Refill of one ingress meter (R103): rates max(CIR, PIR) and CIR, changes applied now, full when enabled. -/
def refillMeter (s : State) (m : Nat) : State :=
  let r (o : Nat) : Nat := s.rd pDbk (o + 0x20 * m)
  let use := [r O.DBK_IM_CIR, r O.DBK_IM_CBS, r O.DBK_IM_PIR, r O.DBK_IM_PBS, r O.DBK_IM_CTL]
  let old := sget (fun _ => [0, 0, 0, 0, 0]) s.chk.mlive m
  let was := bitOf (old.getD 4 0) 31
  let on := bitOf (use.getD 4 0) 31
  let b := sget (fun _ => (0, 0)) s.chk.meter m
  let cbs := burstOf (use.getD 1 0)
  let pbs := burstOf (use.getD 3 0)
  let b' : Int × Int :=
    if !on then b
    else if !was then (cbs, pbs)
    else (refillTo b.1 (rateInc (use.getD 0 0)) cbs,
      refillTo b.2 (rateInc (max (use.getD 0 0) (use.getD 2 0))) pbs)
  { s with chk := { s.chk with
      mlive := sset (fun _ => [0, 0, 0, 0, 0]) s.chk.mlive m use
      meter := sset (fun _ => (0, 0)) s.chk.meter m b' } }

/-- A register of Jelek queue block p. -/
def jqr (off p : Nat) : Nat := off + 0x10 * p

/-- Refill of one Jelek queue's bucket (R381, R382). -/
def refillJelek (s : State) (p : Nat) : State :=
  let rate := s.rd pChk (jqr O.CHK_JQ_RATE p)
  let eff := min rate (jelekCap (s.fld (pJlk + p) O.JLK_PORT_STAT 24 2))
  let b := sget (fun _ => 0) s.chk.jbucket p
  { s with chk := { s.chk with
      jrate := sset (fun _ => 0) s.chk.jrate p rate
      jbucket := sset (fun _ => 0) s.chk.jbucket p (refillTo b (rateInc eff) (burstOf (s.rd pChk (jqr O.CHK_JQ_BURST p)))) } }

/-- One refill of every bucket; while CHK is not RUNNING, only the ingress meters refill (R374, R385). -/
def refillAll (s : State) : State :=
  let s := (List.range 512).foldl refillMeter s
  if !s.running pChk then s
  else
    let s := (List.range 516).foldl (fun s q => ((s.reportBad q).refillQueue q).markBad q) s
    (List.range 64).foldl refillJelek s

/-! ## Service (R376, R377, R380) -/

/-- May a queue send to an instance in the excess round: enabled, PIR not 0, a frame, and a peak bucket above 0? -/
def excessOk (s : State) (q inst : Nat) : Bool :=
  s.qEn q && s.qw q 3 ≠ 0 && !(s.qFrames q inst).isEmpty && (s.qPolice q || decide (0 < (s.qBucket q).2))

/-- The same in the committed round: also a committed bucket above 0. -/
def committedOk (s : State) (q inst : Nat) : Bool :=
  s.excessOk q inst && (s.qPolice q || decide (0 < (s.qBucket q).1))

/-- Key of a deficit counter. -/
def defKey (q inst : Nat) : Nat := 8 * q + inst
/-- Deficit of a queue on an instance. -/
def deficit (s : State) (q inst : Nat) : Nat := sget (fun _ => 0) s.chk.deficit (defKey q inst)
/-- Set a deficit. -/
def setDeficit (s : State) (q inst v : Nat) : State :=
  { s with chk := { s.chk with deficit := sset (fun _ => 0) s.chk.deficit (defKey q inst) v } }
/-- Round `rnd` (0 committed, 1 excess) of an instance. -/
def roundOf (s : State) (inst rnd : Nat) : Round := sget (fun _ => {}) s.chk.rounds (2 * inst + rnd)
/-- Set a round. -/
def setRound (s : State) (inst rnd : Nat) (r : Round) : State :=
  { s with chk := { s.chk with rounds := sset (fun _ => {}) s.chk.rounds (2 * inst + rnd) r } }

/-- The queue after `q` in a round. -/
def nextQueue (q : Nat) : Nat := if q = 515 then 4 else q + 1

/-- A round's pointer moves on from a queue that is not eligible any more (R377). -/
def settleRound (s : State) (inst rnd : Nat) : State :=
  let r := s.roundOf inst rnd
  if !r.visiting ∨ (if rnd = 0 then s.committedOk r.ptr inst else s.excessOk r.ptr inst) then s
  else s.setRound inst rnd ⟨nextQueue r.ptr, false⟩

/-- Both rounds of an instance. -/
def settleRounds (s : State) (inst : Nat) : State := (s.settleRound inst 0).settleRound inst 1

/-- Deficit round robin over the eligible queues `el` (ascending): the queue to serve, with the deficits grown on
the way (R377). -/
def drr (inst rnd : Nat) (el : List Nat) : Nat → State → Option Nat × State
  | 0, s => (none, s)
  | fuel + 1, s =>
    let r := s.roundOf inst rnd
    match (el.find? fun q => r.ptr ≤ q).orElse fun _ => el.head? with
    | none => (none, s)
    | some q =>
      let fresh := !(r.visiting && r.ptr = q)
      let s := if fresh then s.setDeficit q inst (s.deficit q inst + bitsOf (s.qw q 0) 0 16) else s
      let s := s.setRound inst rnd ⟨q, true⟩
      match s.qFrames q inst with
      | f :: _ =>
        if f.len ≤ s.deficit q inst then (some q, s)
        else drr inst rnd el fuel (s.setRound inst rnd ⟨nextQueue q, false⟩)
      | [] => (none, s)

/-- Laps that any frame fits in after: QUANTUM is at least 64 and a frame at most 16,387 bytes. -/
def drrFuel (el : List Nat) : Nat := 300 * (el.length + 1)

/-- Charge a queue for a frame that starts (R375). -/
def charge (s : State) (q len : Nat) : State :=
  let l := burstOf len
  let b := s.qBucket q
  if s.qPolice q then s
  else if q < 4 then s.setQBucket q (b.1, b.2 - l)
  else s.setQBucket q (max (b.1 - l) (-(burstOf (s.qw q 2))), b.2 - l)

/-- Stand time at the transmit balls, corrected by TS_ADJ_TX (R91): ns and 2⁻¹⁶ ns. -/
def txStamp (s : State) (inst stamp frac : Nat) : Nat × Nat :=
  let v : Int := stamp * 65536 + frac + signed 32 (s.rd (netPage inst) (netReg O.NET_TS_ADJ_TX inst)) * 256
  (toBits 64 (v / 65536), (v % 65536).toNat)

/-- Start the oldest frame of a queue for an instance: charge, count, put out, and stamp if asked. -/
def startFrame (s : State) (q inst stamp frac : Nat) : State :=
  match s.qFrames q inst with
  | [] => s
  | f :: rest =>
    let s := s.charge q f.len
    let s := { s with chk := { s.chk with frames := s.chk.frames.erase f } }
    let s := s.addTab64 pChk 0 (8 * q + 6) f.len
    let s := s.addReg64 (netPage inst) (netReg O.NET_TX_FRAMES_LO inst) 1
    let s := if q < 4 then s
      else s.setDeficit q inst (if rest.isEmpty then 0 else s.deficit q inst - f.len)
    let s := s.emit (.frame inst f.bytes)
    match f.src with
    | none => s
    | some (r, i) =>
      let t := s.txStamp inst stamp frac
      let req := ((s.htxOf r).ents.find? fun e => e.idx = i ∧ !e.done).any fun e => bitOf e.word0 30
      let s := s.htxDone f.src false t.1 t.2
      if req then s.pushStamp ⟨inst, i, t.1⟩ else s

/-- Frames of an instance that is down are dropped at the head of their queues (R380). -/
def dropDown (s : State) (inst : Nat) : State :=
  let gone := s.chk.frames.filter fun f => f.inst = inst
  let s := { s with chk := { s.chk with frames := s.chk.frames.filter fun f => f.inst ≠ inst
                                        deficit := skeep (fun k => k % 8 ≠ inst) s.chk.deficit } }
  let s := gone.foldl (fun s f => (s.incr pChk O.CHK_CNT_DOWN_DROP).htxDone f.src true 0 0) s
  if gone.isEmpty then s else s.setCause pChk 2

/-- A MAC instance's scheduler chooses and starts its next frame (R376). -/
def transmit (s : State) (inst stamp frac : Nat) : State :=
  if !s.running pChk then s
  else if !s.instUp inst then s.dropDown inst
  else
    let s := s.settleRounds inst
    match (List.range 4).find? fun q => s.excessOk q inst with
    | some q => s.startFrame q inst stamp frac
    | none =>
      let weighted := (List.range 512).map (· + 4)
      let c := weighted.filter fun q => s.committedOk q inst
      let rnd := if c.isEmpty then 1 else 0
      let el := if c.isEmpty then weighted.filter fun q => s.excessOk q inst else c
      match drr inst rnd el (drrFuel el) s with
      | (some q, s) => (s.startFrame q inst stamp frac).settleRounds inst
      | (none, s) => s

/-! ## Jelek queues (R381) -/

/-- Cells in a Jelek queue. -/
def jcells (s : State) (p : Nat) : List JCell := sget (fun _ => []) s.chk.jq p
/-- Set the cells of a Jelek queue. -/
def setJcells (s : State) (p : Nat) (l : List JCell) : State :=
  { s with chk := { s.chk with jq := sset (fun _ => []) s.chk.jq p l } }
/-- Can the queue accept a cell of the kind? -/
def jaccept (s : State) (p : Nat) (mgmt : Bool) : Bool := (s.jcells p).length < (if mgmt then 8 else 7)
/-- Queue a cell, if the queue can accept it. -/
def jput (s : State) (p : Nat) (c : JCell) : State :=
  if s.jaccept p c.mgmt then s.setJcells p (s.jcells p ++ [c]) else s

/-- LSTATE of a Jelek port. -/
def lstate (s : State) (p : Nat) : Nat := s.fld (pJlk + p) O.JLK_PORT_STAT 28 4

/-- The oldest MGMT_DOWN cell, or else the oldest BULK cell. -/
def jhead (s : State) (p : Nat) : Option JCell :=
  match (s.jcells p).find? (·.mgmt) with
  | some c => some c
  | none => (s.jcells p).head?

/-- Release of the oldest cell to the port, or discard while the port is neither READY nor ENUM (R381). -/
def jrelease (s : State) (p : Nat) : State :=
  match s.jhead p with
  | none => s
  | some c =>
    let gone (s : State) : State := s.setJcells p ((s.jcells p).erase c)
    if s.lstate p ≠ 3 ∧ s.lstate p ≠ 4 then (gone s).incr pChk (jqr O.CHK_JQ_DROPS p)
    else
      let b := sget (fun _ => 0) s.chk.jbucket p
      if s.running pChk ∧ 0 < b ∧ sget (fun _ => 0) s.chk.jrate p ≠ 0 then
        let s := gone { s with chk := { s.chk with jbucket := sset (fun _ => 0) s.chk.jbucket p (b - burstOf 512) } }
        { s with jout := sset (fun _ => []) s.jout p (sget (fun _ => []) s.jout p ++ [(c, 0)]) }
      else s

/-! ## Soft reset (R385) -/

/-- Every queued frame and cell, and every frame handed over to a queue, is discarded and counted, and every bucket is set
full. -/
def chokerReset (s : State) : State :=
  let gone := s.chk.frames ++ s.chk.inbox
  let s := { s with chk := { s.chk with frames := [], inbox := [] } }
  let s := gone.foldl (fun s f => (s.addTab pChk 0 (8 * f.queue + 5) 1).htxDone f.src true 0 0) s
  let s := (List.range 64).foldl (fun s p =>
    if (s.jcells p).isEmpty then s else (s.addReg pChk (jqr O.CHK_JQ_DROPS p) (s.jcells p).length).setJcells p []) s
  let s := (List.range 516).foldl (fun s q =>
    if !s.qEn q then s
    else s.setQBucket q (burstOf (s.qw q 2), if q < 4 then rateInc (s.qw q 3) else burstOf (s.qw q 4))) s
  let s := (List.range 64).foldl (fun s p => { s with chk := { s.chk with
    jbucket := sset (fun _ => 0) s.chk.jbucket p (burstOf (s.rd pChk (jqr O.CHK_JQ_BURST p))) } }) s
  { s with chk := { s.chk with deficit := [], rounds := [] } }

end State

/-! ## The commands -/

/-- REFILL (R374): every queue, meter and Jelek bucket in the same cycle. -/
def execRefill : State → Out := act .chk (·.refillAll)

/-- FRAME_ENQUEUE (R372): the oldest frame handed over. -/
def execFrameEnqueue : State → Out := act .chk (·.enqueueNext)

/-- FRAME_TRANSMIT (R376); the stamp is stand time at the transmit balls, before TS_ADJ_TX (R91). -/
def execFrameTransmit (inst : Fin 8) (stamp : W64) (frac : BitVec 16) : State → Out := act .chk fun s =>
  s.transmit inst stamp.toNat frac.toNat

/-- HTX_TAIL (R383). -/
def execHtxTail (r : Fin 4) (v : W32) : State → Out := access fun s =>
  s.wr pChk (State.htxr O.CHK_HTX_TAIL r) (bitsOf v.toNat 0 16)

/-- HTX_DESCRIPTOR (R384). -/
def execHtxDescriptor (r : Fin 4) (ok : Bool) : State → Out := act .chk fun s => s.htxRead r ok

/-- HTX_WRITEBACK (R384). -/
def execHtxWriteback (r : Fin 4) : State → Out := act .chk fun s => s.htxWriteBack r

end Sys2Proof.Machine
end

