-- ==== Sys2Proof/Machine/Flume.lean ====
section
/-! DEFINITION. Flumes (chapter 05): positions, packets, losses and Kerfs, the consumer operations and the stale
timeout. What a refused consumer operation does to its context is in DecodeCtx. -/
namespace Sys2Proof.Machine

/-- Distance from position `b` to position `a`, modulo 2³² (R113). -/
def dist (a b : Nat) : Nat := (a + 2 ^ 32 - b % 2 ^ 32) % 2 ^ 32

/-- Loss causes (Table 5.7). -/
def cFull : Nat := 1
def cPoliced : Nat := 2
def cMalformed : Nat := 4
def cSeqGap : Nat := 8
def cStopped : Nat := 16
def cReset : Nat := 32

/-- Staves of a packet with `n` content bytes (R114). -/
def pktStaves (n : Nat) : Nat := cdiv (8 + n) 32

/-- Zero-pad to whole staves. -/
def padStave (l : List Byte) : List Byte := l ++ List.replicate ((32 - l.length % 32) % 32) 0

/-- The header slot of a packet (Table 5.4). -/
def pktHeader (p : OpenPkt) (cont noMark : Bool) : List Byte :=
  leBytes 8 (p.time * 2 ^ 32 + b2n p.key * 2 ^ 29 + b2n p.pieced * 2 ^ 28 + b2n p.pts64 * 2 ^ 27
    + b2n p.discont * 2 ^ 26 + b2n cont * 2 ^ 25 + b2n p.after * 2 ^ 24 + b2n noMark * 2 ^ 23
    + p.content.length % 2 ^ 23)

/-- The piece of a datagram (Table 5.5). -/
def pieceOf (d : Dgram) : List Byte :=
  leBytes 2 d.seq ++ leBytes 2 d.payload.length ++ leBytes 1 d.flags
    ++ leBytes 1 (b2n d.marker * 128 + d.colour * 32) ++ leBytes 2 0 ++ d.payload

/-- The stave of a Kerf (Table 5.7). -/
def kerfStave (k : Kerf) : List Byte :=
  leBytes 4 (2 ^ 30 + k.cause * 2 ^ 24 + 24) ++ leBytes 4 k.ts ++ leBytes 4 (min k.pkts 0xFFFFFFFF)
    ++ leBytes 4 (min k.dgrams 0xFFFFFFFF) ++ leBytes 8 (min k.bytes (2 ^ 64 - 1)) ++ leBytes 2 k.seq ++ leBytes 6 0

/-- Coalesce a later loss into a Kerf (R121). -/
def Kerf.add (k n : Kerf) : Kerf :=
  { k with cause := k.cause ||| n.cause, pkts := k.pkts + n.pkts, bytes := k.bytes + n.bytes
           dgrams := if k.dgrams = 0xFFFFFFFF then k.dgrams else min (k.dgrams + n.dgrams) 0xFFFFFFFF }

/-- Does the payload carry a TS packet with PUSI = 1 and the given PID? -/
def tsStarts (vpid : Nat) : Nat → List Byte → Bool
  | 0, _ => false
  | n + 1, l =>
    let h := beNat ((l.take 3).drop 1)
    (bitOf h 14 && decide (h % 2 ^ 13 = vpid)) || tsStarts vpid n (l.drop 188)

/-- Formats whose packets are access units by RTP timestamp (Table 5.6). -/
def pfmtUnit (p : Nat) : Bool := 1 ≤ p && p ≤ 4
/-- Transport-stream formats. -/
def pfmtTs (p : Nat) : Bool := p = 6 || p = 7
/-- RTP formats, whose sequence numbers are checked (R119). -/
def pfmtRtp (p : Nat) : Bool := 1 ≤ p && p ≤ 6

/-- Does a datagram open a new packet while one of RTP timestamp `ts` is open (Table 5.6)? -/
def opensNew (f : Flume) (d : Dgram) (ts : Nat) : Bool :=
  if pfmtUnit d.pfmt then d.ts ≠ ts
  else if pfmtTs d.pfmt then f.vpid = 0x1FFF || tsStarts f.vpid (d.payload.length / 188) d.payload
  else true

/-- Does a datagram close the packet it is in? -/
def closesPkt (f : Flume) (d : Dgram) : Bool :=
  if pfmtUnit d.pfmt then d.marker else if pfmtTs d.pfmt then f.vpid = 0x1FFF else true

namespace State

/-- Flume of a context. -/
def flm (s : State) (c : Nat) : Flume := sget (fun _ => {}) s.flumes c
/-- Set a Flume. -/
def setFlm (s : State) (c : Nat) (f : Flume) : State := { s with flumes := sset (fun _ => {}) s.flumes c f }
/-- A register of Flume block c. -/
def flr (off c : Nat) : Nat := off + 0x20 * c
/-- A position of Flume c. -/
def fpos (s : State) (off c : Nat) : Nat := s.rd pFlm (flr off c)
/-- Set a position of Flume c. -/
def setFpos (s : State) (off c v : Nat) : State := s.wr pFlm (flr off c) v
/-- A bit of FSTAT: 31 OPEN, 30 BLAZE_VALID, 29 KERF_PEND, 28 ASSEMBLING, 27 DROPPING. -/
def fstat (s : State) (c b : Nat) : Bool := s.bit pFlm (flr O.FLM_FSTAT c) b
/-- Set a bit of FSTAT. -/
def setFstat (s : State) (c b : Nat) (v : Bool) : State := s.setBit pFlm (flr O.FLM_FSTAT c) b v

/-- N, the staves a Flume holds (R111). -/
def fsize (s : State) (c : Nat) : Nat := (s.flm c).segs * 2048
/-- PKT_MAX (R117). -/
def pktMax (s : State) (c : Nat) : Nat := min ((s.flm c).segs * 16384) 8388576
/-- FSTAT.FILL. -/
def fill (s : State) (c : Nat) : Nat :=
  if s.fsize c = 0 then 0 else min 255 (256 * dist (s.fpos O.FLM_WR c) (s.fpos O.FLM_REL c) / s.fsize c)

/-- Write whole staves to HBM from a position on (R111). -/
def putStaves (s : State) (c : Nat) : Nat → Nat → List Byte → State
  | 0, _, _ => s
  | n + 1, pos, l =>
    let f := s.flm c
    (s.setHbm (f.base + pos % (f.segs * 2048) * 32) (l.take 32)).putStaves c n ((pos + 1) % 2 ^ 32) (l.drop 32)

/-- Staves of the tail buffer that are whole and that HBM has not accepted: committed ones, and those of the open packet
(R111, R112). -/
def owed (s : State) (c : Nat) : Nat :=
  let f := s.flm c
  let whole := (s.fpos O.FLM_COMMIT c + (f.pkt.map fun p => (8 + p.content.length) / 32).getD 0) % 2 ^ 32
  if dist whole f.acc < 2 ^ 31 then dist whole f.acc else 0

/-- Read one committed stave, from the tail buffer while it is still there (R111). -/
def getStave (s : State) (c pos : Nat) : List Byte :=
  let f := s.flm c
  if dist pos f.acc < f.tail.length / 32 then (f.tail.drop (32 * dist pos f.acc)).take 32
  else s.hbmBytes (f.base + pos % (f.segs * 2048) * 32) 32

/-- HBM accepts up to `n` whole staves of the tail buffer, oldest first; the header slot of a packet still open stays
reserved, so that its 8 bytes are not written (R111, R114). -/
def spill (s : State) (c n : Nat) : State :=
  let f := s.flm c
  let k := min n (f.tail.length / 32)
  let s := s.putStaves c k f.acc f.tail
  let acc := (f.acc + k) % 2 ^ 32
  let s := s.setFlm c { f with acc := acc, tail := f.tail.drop (32 * k) }
  match f.pkt with
  | none => s
  | some p =>
    let at0 := dist acc (s.fpos O.FLM_COMMIT c)
    let m := min (n - k) ((8 + p.content.length) / 32 - at0)
    if m = 0 ∨ 2 ^ 31 ≤ at0 then s
    else
      let raw := (leBytes 8 0 ++ p.content).drop (32 * at0)
      let s := if at0 = 0 then
          (s.setHbm (f.base + acc % (f.segs * 2048) * 32 + 8) ((raw.take 32).drop 8)).putStaves c (m - 1)
            ((acc + 1) % 2 ^ 32) (raw.drop 32)
        else s.putStaves c m acc raw
      s.setFlm c { s.flm c with acc := (acc + m) % 2 ^ 32 }

/-- The tail buffer holds 128 staves: what one write brings beyond them goes to HBM as it comes (R111). -/
def trimTail (s : State) (c : Nat) : State := if 128 < s.owed c then s.spill c (s.owed c - 128) else s

/-- Would a write position `wr` fit: in the Flume (R113), and in the tail buffer, unless HBM has accepted every earlier
write, when the staves pass through (R112)? -/
def fitsWr (s : State) (c wr : Nat) : Bool :=
  dist wr (s.fpos O.FLM_REL c) ≤ s.fsize c && (s.owed c = 0 || dist wr (s.flm c).acc ≤ 128)

/-- Add committed staves at position `start`, of which HBM may have the first ones already but for the header slot. -/
def addStaves (s : State) (c start : Nat) (l : List Byte) : State :=
  let f := s.flm c
  let k := dist f.acc start
  if 2 ^ 31 ≤ k ∨ k = 0 then s.setFlm c { f with tail := f.tail ++ l }
  else
    (s.setHbm (f.base + start % (f.segs * 2048) * 32) (l.take 8)).setFlm c { f with tail := l.drop (32 * k) }

/-! ## Packets (R114-R117) -/

/-- Commit the open packet (R114). -/
def commitPkt (s : State) (c : Nat) (cont noMark : Bool) : State :=
  let f := s.flm c
  match f.pkt with
  | none => s
  | some p =>
    let start := s.fpos O.FLM_COMMIT c
    let n := pktStaves p.content.length
    let s := s.addStaves c start (padStave (pktHeader p cont noMark ++ p.content))
    let e := (start + n) % 2 ^ 32
    let s := s.setFlm c { s.flm c with pkt := none, kerf := none, pks := f.pks ++ [⟨start, n, false, s.tim.time⟩] }
    let s := ((s.setFpos O.FLM_WR c e).setFpos O.FLM_COMMIT c e).setFstat c 28 false
    (s.trimTail c).addTab pFlm 0 (8 * c + 4) 1

/-- Hold the open packet `p` with its staves counted in WR. -/
def setPkt (s : State) (c : Nat) (p : OpenPkt) : State :=
  let s := s.setFlm c { s.flm c with pkt := some p }
  ((s.setFpos O.FLM_WR c ((s.fpos O.FLM_COMMIT c + pktStaves p.content.length) % 2 ^ 32)).setFstat c 28 true).trimTail c

/-- Would the open packet fit with `n` content bytes? -/
def fitsPkt (s : State) (c n : Nat) : Bool :=
  s.fitsWr c ((s.fpos O.FLM_COMMIT c + pktStaves n) % 2 ^ 32)

/-! ## Losses and Kerfs (R119-R122) -/

/-- Abandon the open packet: WR returns to its first stave. The counts it adds to the Kerf. -/
def abandon (s : State) (c : Nat) : State × Option OpenPkt :=
  let f := s.flm c
  match f.pkt with
  | none => (s, none)
  | some p =>
    let w := s.fpos O.FLM_COMMIT c
    let acc := if dist f.acc w < 2 ^ 31 then w else f.acc
    (((s.setFlm c { f with pkt := none, acc := acc }).setFpos O.FLM_WR c w).setFstat c 28 false, some p)

/-- Count what a Kerf records in the Flume table (Table 5.1). -/
def countKerf (s : State) (c : Nat) (k : Kerf) : State :=
  (s.addTab pFlm 0 (8 * c + 5) k.pkts).addTab64 pFlm 0 (8 * c + 6) k.bytes

/-- Write a new Kerf stave and commit it (R120, R122). -/
def newKerf (s : State) (c : Nat) (k : Kerf) : State :=
  let f := s.flm c
  let w := s.fpos O.FLM_WR c
  let e := (w + 1) % 2 ^ 32
  let s := s.addStaves c w (kerfStave k)
  let s := s.setFlm c { s.flm c with kerf := some k, held := none, pks := f.pks ++ [⟨w, 1, true, s.tim.time⟩] }
  let s := ((s.setFpos O.FLM_WR c e).setFpos O.FLM_COMMIT c e).setFstat c 29 false
  let s := (s.incr pFlm O.FLM_CNT_KERF).setBit pFlm (O.FLM_KERF_MAP + 4 * (c / 32)) (c % 32) true
  ((s.countKerf c k).setCause pFlm 2).trimTail c

/-- Change the last committed stave where it stands, in the tail buffer or in HBM (R121). -/
def changeLast (s : State) (c : Nat) (l : List Byte) : State :=
  let f := s.flm c
  if f.tail = [] then s.putStaves c 1 (dist (s.fpos O.FLM_COMMIT c) 1) l
  else s.setFlm c { f with tail := f.tail.take (f.tail.length - 32) ++ l }

/-- Record a loss: held while KERF_PEND, coalesced into an unread last Kerf, or in a Kerf of its own. -/
def recordLoss (s : State) (c : Nat) (k : Kerf) : State :=
  let f := s.flm c
  match f.held with
  | some h => s.setFlm c { f with held := some (h.add k) }
  | none =>
    let w := s.fpos O.FLM_WR c
    match f.kerf with
    | some k0 =>
      if dist (dist w 1) (s.fpos O.FLM_HWM c) < 2 ^ 31 then
        let k1 := k0.add k
        let s := s.changeLast c (kerfStave k1)
        (s.setFlm c { s.flm c with kerf := some k1 }).countKerf c k
      else if dist w (s.fpos O.FLM_REL c) < s.fsize c then s.newKerf c k
      else (s.setFlm c { f with held := some k }).setFstat c 29 true
    | none =>
      if dist w (s.fpos O.FLM_REL c) < s.fsize c then s.newKerf c k
      else (s.setFlm c { f with held := some k }).setFstat c 29 true

/-- A datagram is lost: the open packet goes with it, and the rest of its packet will be dropped (R119). `d` is
what is known of it, a datagram of the open packet or of one of its own; `bytes` its payload. -/
def loseDgram (s : State) (c cause bytes : Nat) (d : Option Dgram) : State :=
  let f := s.flm c
  let a := s.abandon c
  let s := a.1
  let ts := match a.2, d with | some p, _ => p.time | none, some d => d.ts | none, none => 0
  let seq := match a.2, d with | some p, _ => p.seq | none, some d => d.seq | none, none => 0
  let own := match a.2, d with | some p, some d => opensNew f d p.time | none, some _ => true | _, none => false
  let s := s.recordLoss c
    { cause := cause, ts := ts, seq := seq, pkts := b2n a.2.isSome + b2n own
      dgrams := 1 + (a.2.map (·.dgrams)).getD 0, bytes := bytes + (a.2.map (·.bytes)).getD 0 }
  if (a.2.isSome || own) && !(d.any (closesPkt f)) then
    (s.setFstat c 27 true).setFlm c { s.flm c with
      dropTs := if own then (d.map (·.ts)).getD ts else ts, dropCause := cause }
  else s

/-- Check a sequence number (R119): late datagrams are dropped; a gap is a loss. The Boolean says whether the
datagram goes on, the second whether it follows a gap. -/
def seqCheck (s : State) (c : Nat) (d : Dgram) : State × Bool × Bool :=
  if !pfmtRtp d.pfmt then (s, true, false)
  else
    let f := s.flm c
    let next := (d.seq + 1) % 2 ^ 16
    match f.exp with
    | none => (s.setFlm c { f with exp := some next }, true, false)
    | some e =>
      let g := (d.seq + 2 ^ 16 - e) % 2 ^ 16
      if 2 ^ 15 ≤ g then (s.incr pFlm O.FLM_CNT_LATE, false, false)
      else
        let s := s.setFlm c { f with exp := some next }
        if g = 0 then (s, true, false)
        else
          let s := s.incr pFlm O.FLM_CNT_SEQ_GAP
          let a := s.abandon c
          let s := a.1
          let s := s.recordLoss c
            { cause := cSeqGap, ts := (a.2.map (·.time)).getD 0, seq := e, pkts := b2n a.2.isSome
              dgrams := g + (a.2.map (·.dgrams)).getD 0, bytes := (a.2.map (·.bytes)).getD 0 }
          let s := match a.2 with
            | some p => if opensNew f d p.time then s
                else (s.setFstat c 27 true).setFlm c { s.flm c with dropTs := p.time, dropCause := cSeqGap }
            | none => s
          (s, true, true)

/-- Append a datagram's piece, opening and closing packets (R115-R117). -/
def appendDgram (s : State) (c : Nat) (d : Dgram) (afterGap : Bool) : State :=
  let f := s.flm c
  let piece := pieceOf d
  let fresh : OpenPkt := { time := if d.pfmt = 7 ∨ d.pfmt = 0 then 0 else d.ts, after := afterGap, seq := d.seq }
  let p := f.pkt.getD fresh
  let tooLong := f.pkt.isSome && s.pktMax c < p.content.length + piece.length
  let s := if tooLong then s.commitPkt c true false else s
  let p := if tooLong then { fresh with time := p.time, after := false } else p
  let content := p.content ++ piece
  if !s.fitsPkt c content.length then s.loseDgram c cFull d.payload.length (some d)
  else
    let s := s.setPkt c { p with
      content := content, key := p.key || bitOf d.flags 0, dgrams := p.dgrams + 1
      bytes := p.bytes + d.payload.length }
    if closesPkt f d then s.commitPkt c false false else s

/-- A datagram for a running NET Flume, either to be written or reported lost with a cause (R119). -/
def dgramArrives (s : State) (c : Nat) (d : Dgram) (lost : Option Nat) : State :=
  let (s, go, gap) := s.seqCheck c d
  let f := s.flm c
  let n := d.payload.length
  if !go then s
  else if s.fstat c 27 && !opensNew f d f.dropTs then
    let s := s.recordLoss c { cause := lost.getD f.dropCause, ts := d.ts, seq := d.seq, dgrams := 1, bytes := n }
    if closesPkt f d then s.setFstat c 27 false else s
  else
    let s := s.setFstat c 27 false
    match lost with
    | some cause => s.loseDgram c cause n (some d)
    | none =>
      let s := match f.pkt with
        | some p => if opensNew f d p.time then s.commitPkt c false (pfmtUnit d.pfmt) else s
        | none => s
      if (s.flm c).pkt.isNone && pfmtTs d.pfmt && !opensNew f d 0 then s
      else if (s.flm c).pkt.isNone && s.fstat c 29 then s.loseDgram c cFull n (some d)
      else s.appendDgram c d gap

/-- A datagram, or the report of a lost one, reaches the Flume manager (R118, R119, R128). -/
def toFlume (s : State) (c : Nat) (d : Option Dgram) (bytes : Nat) (lost : Option Nat) : State :=
  let f := s.flm c
  if !f.used then s
  else if !s.running pFlm then
    let s := if lost.isNone then s.incr pFlm O.FLM_CNT_STOPPED_DROP else s
    if f.host then s else s.setFlm c { f with stopDrops := f.stopDrops + 1 }
  else if f.host then s.incr pFlm O.FLM_CNT_SRC_DROP
  else match d with
    | some d => s.dgramArrives c d lost
    | none => s.loseDgram c (lost.getD 0) bytes none

/-! ## Opening, closing and emptying (R110, R128, R129) -/

/-- Is the Flume table entry of a context usable (R110)? -/
def flumeEntryOk (s : State) (c : Nat) : Bool :=
  let w (i : Nat) : Nat := s.tab pFlm 0 (8 * c + i)
  let segs := bitsOf (w 1) 0 15
  let base := bitsOf (w 2) 16 16 * 65536 + bitsOf (w 3) 0 4 * 2 ^ 32
  bitOf (w 0) 31 && 16 ≤ segs && segs ≤ 16384 && base + segs * 65536 ≤ 51539607552

/-- SRC of a Flume table entry: fed by FEED jobs. -/
def flumeEntryHost (s : State) (c : Nat) : Bool := bitOf (s.tab pFlm 0 (8 * c)) 30

/-- Set every position of a Flume to 0 and clear its status but OPEN. -/
def zeroFlume (s : State) (c : Nat) : State :=
  let s := [O.FLM_WR, O.FLM_COMMIT, O.FLM_RD, O.FLM_BLAZE, O.FLM_REL, O.FLM_HWM].foldl (fun s o => s.setFpos o c 0) s
  s.wr pFlm (flr O.FLM_FSTAT c) (b2n (s.fstat c 31) * 2 ^ 31)

/-- The Flume of a context that opens; an ENC context leaves it unused. -/
def openFlume (s : State) (c : Nat) (uses : Bool) : State :=
  let w (i : Nat) : Nat := s.tab pFlm 0 (8 * c + i)
  let f : Flume := if uses then
      { used := true, host := bitOf (w 0) 30, vpid := bitsOf (w 0) 0 13, segs := bitsOf (w 1) 0 15
        base := bitsOf (w 2) 16 16 * 65536 + bitsOf (w 3) 0 4 * 2 ^ 32 }
    else {}
  ((s.setFlm c { f with moved := true }).zeroFlume c).setFstat c 31 true

/-- CTX_CLOSE discards the contents and clears OPEN. -/
def closeFlume (s : State) (c : Nat) : State := ((s.setFlm c {}).zeroFlume c).setFstat c 31 false

/-- Empty one Flume, and leave the RESET Kerf in it while its context is open (R129); the sequence number expected next is
no part of what R129 lists. -/
def emptyFlume (s : State) (c : Nat) : State :=
  let f := s.flm c
  let s := (s.setFlm c { used := f.used, host := f.host, vpid := f.vpid, segs := f.segs, base := f.base, exp := f.exp,
                          ops := f.ops, moved := true }).zeroFlume c
  if f.used then s.newKerf c { cause := cReset, dgrams := 0xFFFFFFFF } else s

/-- Every Flume is emptied: an FLM soft reset, and the resets that invalidate Flumes. -/
def emptyFlumes (s : State) : State :=
  let s := (List.range 512).foldl emptyFlume s
  { s with ctxs := smap (fun _ => {}) (fun x => { x with
    gone := [], flight := x.flight.map fun f => { f with start := 0, stop := 0 } }) s.ctxs }

/-- FLM returns to RUNNING: Kerfs with cause STOPPED (R128). -/
def flumesResume (s : State) : State :=
  (List.range 512).foldl (fun s c =>
    let f := s.flm c
    if f.stopDrops = 0 then s
    else
      let a := s.abandon c
      let s := a.1.setFlm c { a.1.flm c with stopDrops := 0 }
      let s := s.recordLoss c { cause := cStopped, dgrams := f.stopDrops, pkts := b2n a.2.isSome }
      match a.2 with
      | some p => (s.setFstat c 27 true).setFlm c { s.flm c with dropTs := p.time, dropCause := cStopped }
      | none => s) s

/-! ## FEED (R117, R118, R69) -/

/-- A context's Flume takes FEED bytes. -/
def feedOk (s : State) (c : Nat) : Bool := (s.flm c).used && (s.flm c).host

/-- Content bytes the open packet may hold in all, by the space of the Flume and of the tail buffer. -/
def roomBytes (s : State) (c : Nat) : Nat :=
  let w := s.fpos O.FLM_COMMIT c
  let free := s.fsize c - dist w (s.fpos O.FLM_REL c)
  let f := s.flm c
  let tail := if s.owed c = 0 ∨ 2 ^ 31 ≤ dist w f.acc then 128 + dist f.acc w else 128 - dist w f.acc
  let n := min free tail
  if n = 0 then 0 else 32 * n - 8

/-- Write as many of a FEED job's bytes as fit: the state, and how many were written. `open0` says whether the job
has written nothing yet, so that the packet it opens may take its presentation time. -/
def feedBytes (s : State) (c : Nat) (pts : Option Nat) (disc : Bool) : Nat → List Byte → Nat → State × Nat
  | 0, _, done => (s, done)
  | fuel + 1, l, done =>
    let f := s.flm c
    let room := s.roomBytes c
    let start : OpenPkt := { pieced := false, pts64 := pts.isSome, content := (pts.map (leBytes 8)).getD [] }
    let p := f.pkt.getD start
    let p := { p with discont := p.discont || disc }
    if room < p.content.length + (if l.isEmpty then 0 else 1) then (s, done)
    else
      let cap := min room (s.pktMax c) - p.content.length
      let put := l.take cap
      let rest := l.drop cap
      let s := s.setPkt c { p with content := p.content ++ put, bytes := p.bytes + put.length }
      if rest.isEmpty then (s, done + put.length)
      else if p.content.length + put.length = s.pktMax c then
        (s.commitPkt c true false).feedBytes c none disc fuel rest (done + put.length)
      else (s, done + put.length)

/-- Go on with a FEED job; true when its last byte is written. -/
def feedStep (s : State) (c : Nat) (j : Job) : State × Nat :=
  let l := (s.jobData j).drop j.moved
  let flags := j.dw 6
  let pts := if bitOf flags 2 ∧ j.moved = 0 then some (j.dw 7 + j.dw 8 * 2 ^ 32) else none
  let r := s.feedBytes c pts (bitOf flags 1) (l.length + 1) l 0
  if j.moved + r.2 = j.length ∧ bitOf flags 0 then (r.1.commitPkt c false false, j.moved + r.2)
  else (r.1, j.moved + r.2)

/-! ## Consumer operations (R123-R126); `none` means refused -/

/-- RD takes a value; HWM follows it. -/
def moveRd (s : State) (c rd : Nat) : State :=
  let old := s.fpos O.FLM_RD c
  let s := s.setFpos O.FLM_RD c rd
  let s := if dist rd (s.fpos O.FLM_HWM c) < 2 ^ 31 then s.setFpos O.FLM_HWM c rd else s
  if rd = old then s else s.setFlm c { s.flm c with moved := true }

/-- READ k. -/
def flumeRead (s : State) (c k : Nat) : Option State :=
  let rd := s.fpos O.FLM_RD c
  if dist (s.fpos O.FLM_COMMIT c) rd < k then none
  else
    let data := ((List.range k).map fun i => s.getStave c ((rd + i) % 2 ^ 32)).flatten
    some ((s.moveRd c ((rd + k) % 2 ^ 32)).emit (.staves c rd data))

/-- MARK. -/
def flumeMark (s : State) (c : Nat) : State :=
  (s.setFpos O.FLM_BLAZE c (s.fpos O.FLM_RD c)).setFstat c 30 true

/-- REWIND; a rewind counts as a change of RD (R127). -/
def flumeRewind (s : State) (c : Nat) : Option State :=
  if s.fstat c 30 then
    let s := s.moveRd c (s.fpos O.FLM_BLAZE c)
    some (s.setFlm c { s.flm c with moved := true })
  else none

/-- RELEASE p: staves before p are free, and a held Kerf is written first (R122). -/
def flumeRelease (s : State) (c p : Nat) : Option State :=
  let rel := s.fpos O.FLM_REL c
  if dist (s.fpos O.FLM_RD c) rel < dist p rel then none
  else
    let s := if dist (s.fpos O.FLM_BLAZE c) rel < dist p rel then s.setFstat c 30 false else s
    let f := s.flm c
    let s := (s.setFpos O.FLM_REL c p).setFlm c { f with
      pks := f.pks.filter fun m => dist p rel < dist (m.start + m.staves) rel }
    match f.held with
    | some k => some (if p = rel then s else s.newKerf c k)
    | none => some s

/-- DROP_REM. -/
def flumeDropRem (s : State) (c : Nat) : State :=
  let rd := s.fpos O.FLM_RD c
  match (s.flm c).pks.find? fun m => dist (dist rd 1) m.start < m.staves with
  | none => s
  | some m =>
    let e := (m.start + m.staves) % 2 ^ 32
    if e = rd then s else s.moveRd c e

/-- A consumer operation; `none` where it is refused. -/
def flumeOp (s : State) (c : Nat) : FlumeOp → Option State
  | .read k => s.flumeRead c k
  | .mark => some (s.flumeMark c)
  | .rewind => s.flumeRewind c
  | .release p => s.flumeRelease c p
  | .dropRem => some (s.flumeDropRem c)

/-! ## Stale timeout (R127) -/

/-- The check of one Flume at the first SYNC stand time of a wall frame. -/
def staleFlume (s : State) (c : Nat) : State :=
  let f := s.flm c
  let t := s.fld pFlm O.FLM_STALE_T 0 8
  if !f.used then s
  else
    let f := if f.moved then { f with moved := false, still := 0, raised := false } else { f with still := f.still + 1 }
    let due := t ≠ 0 ∧ t ≤ f.still ∧ !f.raised ∧ s.fpos O.FLM_COMMIT c ≠ s.fpos O.FLM_RD c
    if due then
      let s := s.setFlm c { f with raised := true }
      (s.setBit pFlm (O.FLM_STALE_MAP + 4 * (c / 32)) (c % 32) true).setCause pFlm 1
    else s.setFlm c f

end State

/-! ## The commands that touch no context -/

/-- SPILL_WRITE_DONE (R112): HBM accepts a burst of up to 2 KiB of the tail buffer. -/
def execSpillWriteDone (c : Fin 512) (n : Fin 65) : State → Out := act .flm fun s =>
  s.spill c n

/-- STALE_CHECK (R127). -/
def execStaleCheck : State → Out := act .flm fun s => when (s.running pFlm) ((List.range 512).foldl State.staleFlume) s

end Sys2Proof.Machine
end

