-- ==== Sys2Proof/Machine/Ctx.lean ====
section
/-! DEFINITION. What every stream context shares: codec admission (R17-R20), status blocks (R148, R185), states,
migration (R152-R155, R186) and the retirement of codec cores (R157, R464). -/
namespace Sys2Proof.Machine

/-- Signed 64-bit value of two descriptor words. -/
def pairAt (l : List W32) (i : Nat) : Nat := (l.getD i 0).toNat + (l.getD (i + 1) 0).toNat * 2 ^ 32

namespace Ctx

/-- A word of the descriptor. -/
def w (x : Ctx) (i : Nat) : Nat := (x.desc.getD i 0).toNat
/-- Is the context open? -/
def isOpen (x : Ctx) : Bool := x.st ≠ 0
/-- Does the context decode or encode: open, and neither LOST nor FAULT? -/
def works (x : Ctx) : Bool := 1 ≤ x.st && x.st ≤ 3
/-- Declared pixel rate (R17). -/
def rate (x : Ctx) : Rat := (x.width * x.height * x.fnum : Nat) / (max 1 x.fden : Nat)
/-- Is the context ganged (R18)? -/
def ganged (x : Ctx) : Bool := 1 < x.cores.length
/-- PIN of a decode context; an encode context has none. -/
def pinned (x : Ctx) : Bool := x.typ ≠ 3 && bitOf (x.w 0) 5
/-- MSI-X vector for context events. -/
def vector (x : Ctx) : Nat := if x.typ = 3 then x.w 18 % 2 ^ 11 else x.w 7 % 2 ^ 11
/-- EVT_MASK. -/
def evtMask (x : Ctx) : Nat := if x.typ = 3 then x.w 19 else x.w 8
/-- Host address of the status block. -/
def blockAddr (x : Ctx) : Nat := if x.typ = 3 then pairAt x.desc 20 else pairAt x.desc 10
/-- Set an event bit of the status block. -/
def event (x : Ctx) (b : Nat) : Ctx :=
  { x with events := x.events ||| 2 ^ b, evNew := x.evNew ||| 2 ^ b, csbDue := true }
/-- Enter a state of Table 6.5 or 7.8. -/
def goto (x : Ctx) (st : Nat) : Ctx := if x.st = st then x else { x with st := st }.event 0
/-- A counter of the status block has changed. -/
def counted (x : Ctx) : Ctx := { x with csbDirty := true }

end Ctx

/-- Capacity of one core of a kind, pixels per second (R17). -/
def coreCap (typ : Nat) : Rat := if typ = 0 then 1066666667 else if typ = 1 then 2000000000 else 500000000
/-- Cores of a kind. -/
def coreCount (typ : Nat) : Nat := if typ = 0 then 36 else if typ = 1 then 9 else if typ = 3 then 18 else 0
/-- Page of a core. -/
def corePage (typ k : Nat) : Nat := (if typ = 0 then pDec else if typ = 1 then pXsd else pEnc) + k
/-- Block of a core. -/
def coreBlk (typ : Nat) : Blk := if typ = 0 then .dec else if typ = 1 then .xsd else .enc
/-- Coppice class of a core (Table 18.5). -/
def coreClass (typ : Nat) : Nat := if typ = 0 then 1 else if typ = 1 then 2 else 3

namespace State

/-- A context. -/
def ctx (s : State) (c : Nat) : Ctx := sget (fun _ => {}) s.ctxs c
/-- Set a context. -/
def setCtx (s : State) (c : Nat) (x : Ctx) : State := { s with ctxs := sset (fun _ => {}) s.ctxs c x }
/-- Change a context. -/
def modCtx (s : State) (c : Nat) (f : Ctx → Ctx) : State := s.setCtx c (f (s.ctx c))

/-! ## Cores and admission (R17-R20) -/

/-- CORE_STAT.ROLE: 0 SERVICE, 1 SPARE, 2 RETIRED. -/
def role (s : State) (typ k : Nat) : Nat := s.fld (corePage typ k) O.DEC_CORE_STAT 30 2
/-- Set ROLE. -/
def setRole (s : State) (typ k r : Nat) : State := s.setFld (corePage typ k) O.DEC_CORE_STAT 30 2 r
/-- Is a core in service: role SERVICE, its page RUNNING, and not being retired by request (R465)? -/
def inService (s : State) (typ k : Nat) : Bool :=
  s.role typ k = 0 && s.running (corePage typ k) && s.flt.retiring ≠ some (coreClass typ, k)
/-- Contexts on a core, in order of number. -/
def onCore (s : State) (typ k : Nat) : List Nat :=
  (s.ctxs.filter fun e => e.2.typ = typ ∧ e.2.isOpen ∧ k ∈ e.2.cores).map (·.1)
/-- Contexts that hold capacity of a core: those on it, and those that have been given it and still move there (R19). -/
def claimants (s : State) (typ k : Nat) : List Nat :=
  (s.ctxs.filter fun e => e.2.typ = typ ∧ e.2.isOpen ∧ (k ∈ e.2.cores ∨ e.2.mig.any fun m => k ∈ m.cores)).map (·.1)
/-- Capacity a context holds of a core: its pixel rate, or a raised one already granted; of a gang, the core whole (R18). -/
def claimOf (x : Ctx) (k : Nat) : Rat :=
  if (k ∈ x.cores ∧ 1 < x.cores.length) ∨ (x.mig.any fun m => decide (k ∈ m.cores ∧ 1 < m.cores.length)) then coreCap x.typ
  else match x.newCfg with
    | some n => max x.rate ((n.width * n.height * n.fnum : Nat) / (max 1 n.fden : Nat))
    | none => x.rate
/-- Admitted pixel rate of a core, leaving a context out. -/
def coreLoad (s : State) (typ k : Nat) (skip : Option Nat) : Rat :=
  ((s.claimants typ k).filter fun c => some c ≠ skip).foldl (fun a c => a + claimOf (s.ctx c) k) 0
/-- Does a core carry no load? -/
def unloaded (s : State) (typ k : Nat) (skip : Option Nat) : Bool :=
  ((s.claimants typ k).filter fun c => some c ≠ skip).isEmpty
/-- Does a context of the given rate fit on a core? -/
def fitsCore (s : State) (typ k : Nat) (rate : Rat) (skip : Option Nat) : Bool :=
  s.inService typ k && decide (s.coreLoad typ k skip + rate ≤ coreCap typ)

/-- Cores that R18 asks for. -/
def gangSize (typ : Nat) (rate : Rat) : Nat := if rate ≤ coreCap typ then 1 else (rate / coreCap typ).ceil.toNat

/-- Placement under R19, leaving out cores `no` and the load of context `skip`; `none` where there is none. -/
def place (s : State) (typ : Nat) (rate : Rat) (skip : Option Nat) (no : List Nat) : Option (List Nat) :=
  if typ = 2 then some []
  else
    let n := gangSize typ rate
    let ks := (List.range (coreCount typ)).filter fun k => k ∉ no
    if n = 1 then (ks.find? fun k => s.fitsCore typ k rate skip).map fun k => [k]
    else
      let free := ks.filter fun k => s.inService typ k && s.unloaded typ k skip
      if typ = 3 ∨ 4 < n ∨ free.length < n then none else some (free.take n)

/-- RESULT of CTX_OPEN and CTX_CONFIG: first core instance and cores used (Table 3.14). -/
def coresResult (typ : Nat) (l : List Nat) : Nat :=
  if typ = 2 then 0xFF else l.foldl min (l.headD 0) + l.length * 256

/-! ## Status blocks (R148, R185) -/

/-- FIRST_CORE and CORES of a status block. -/
def csbWord1 (x : Ctx) : Nat :=
  x.events % 256 * 2 ^ 24 + x.cores.length % 16 * 256
    + (if x.cores.isEmpty then 0xFF else x.cores.foldl min (x.cores.headD 0)) % 256

/-- Words of a context status block (Table 6.6). -/
def csbWords (x : Ctx) (seq : Nat) : List Nat :=
  [x.st * 2 ^ 28 + x.cepoch * 2 ^ 24 + seq, csbWord1 x, x.lastPts, x.lastPts / 2 ^ 32, x.pics, x.concPics, x.partPics,
   x.late, x.skipped, x.discarded, x.kerfs, x.biterr, x.overRate,
   x.migrations % 2 ^ 16 * 2 ^ 16 + min x.ringWait 0xFFFF, if x.st = 5 then x.faultCode else 0, 0]

/-- Words of an encode status block (Table 7.9). -/
def esbWords (x : Ctx) (seq : Nat) : List Nat :=
  let e := x.enc
  [x.st * 2 ^ 28 + x.cepoch * 2 ^ 24 + seq, x.events % 256 * 2 ^ 24 + e.level % 256 * 256 + x.cores.headD 0xFF,
   e.sent, e.lastKey, x.lastPts, x.lastPts / 2 ^ 32, e.lastRtp, e.packets, e.octets, e.octets / 2 ^ 32,
   e.keyFb % 2 ^ 16 * 2 ^ 16 + e.keyAll % 2 ^ 16, e.skips % 2 ^ 16 * 2 ^ 16 + e.reenc % 2 ^ 16, e.filler, e.outDrop,
   (e.d * 1000000).floor.toNat, if x.st = 5 then x.faultCode else 0]

/-- Write a context's status block: words 1-15, then word 0; then EVT_VECTOR if a new event bit is enabled. -/
def writeBlock (s : State) (c : Nat) : State :=
  let x := s.ctx c
  let seq := (x.csbSeq + 1) % 2 ^ 16
  let ws := if x.typ = 3 then esbWords x seq else csbWords x seq
  let bytes := (ws.map (leBytes 4)).flatten
  let s := (s.setHost (x.blockAddr + 4) (bytes.drop 4)).setHost x.blockAddr (bytes.take 4)
  let s := s.setCtx c { x with csbSeq := seq, csbDue := false, csbDirty := false, evNew := 0 }
  if x.evNew &&& x.evtMask % 256 ≠ 0 then s.sendVector x.vector else s

/-- A status block falls due: one is written if a change, an event or a counter asks for it. -/
def blockDue (s : State) (c : Nat) : State :=
  let x := s.ctx c
  if (x.csbDue || x.csbDirty) && !x.desc.isEmpty && s.hostReady then s.writeBlock c else s

/-! ## Rings (R136, R139) -/

/-- RING_BASE of a decode context. -/
def ringBase (x : Ctx) : Nat := bitsOf (x.w 1) 16 16 * 65536 + bitsOf (x.w 2) 0 4 * 2 ^ 32
/-- RING_SLOTS. -/
def ringSlots (x : Ctx) : Nat := bitsOf (x.w 1) 0 8
/-- Address of a slot entry. -/
def entAddr (x : Ctx) (slot : Nat) : Nat := ringBase x + 0x100 + slot * 32
/-- Address of a slot's picture. -/
def picAddr (x : Ctx) (slot : Nat) : Nat := ringBase x + 0x10000 + slot * x.slotBytes
/-- Ring FORMAT. -/
def ringFormat (x : Ctx) : Nat := bitsOf (x.w 0) 24 2

/-- Word of a slot entry (Table 6.4). -/
def entW (s : State) (x : Ctx) (slot i : Nat) : Nat := leNat (s.hbmBytes (entAddr x slot + 4 * i) 4)
/-- Write a word of a slot entry. -/
def setEntW (s : State) (x : Ctx) (slot i v : Nat) : State := s.setHbm (entAddr x slot + 4 * i) (leBytes 4 v)
/-- SSTATE: 0 FREE, 1 BUSY, 2 READY. -/
def sstate (s : State) (x : Ctx) (slot : Nat) : Nat := bitsOf (s.entW x slot 0) 30 2
/-- Set SSTATE. -/
def setSstate (s : State) (x : Ctx) (slot st : Nat) : State := s.setEntW x slot 0 (putBits (s.entW x slot 0) 30 2 st)
/-- PTS of a slot. -/
def slotPts (s : State) (x : Ctx) (slot : Nat) : Nat := s.entW x slot 2 + s.entW x slot 3 * 2 ^ 32
/-- WRITTEN: the ring is not EMPTY (R138). -/
def ringWritten (s : State) (x : Ctx) : Bool := bitOf (leNat (s.hbmBytes (ringBase x) 4)) 31

/-- Write the ring header's word 0 (Table 6.3). -/
def ringWord0 (s : State) (x : Ctx) (written isOpen : Bool) : State :=
  s.setHbm (ringBase x) (leBytes 4 (b2n written * 2 ^ 31 + b2n isOpen * 2 ^ 30 + x.cepoch))

/-- The newest READY picture of a ring whose PTS is at or before `t`; the ring must have been written (R138). -/
def newestReady (s : State) (x : Ctx) (t : Int) : Option Nat :=
  if !s.ringWritten x then none
  else (List.range (ringSlots x)).foldl (fun best k =>
    if s.sstate x k = 2 ∧ (s.slotPts x k : Int) ≤ t then
      match best with
      | some b => if s.slotPts x b < s.slotPts x k then some k else best
      | none => some k
    else best) none

/-! ## Migration and loss (R152-R157, R186) -/

/-- Abort the pictures of a context in flight: their slots return to FREE (R152). -/
def abortFlights (s : State) (c : Nat) : State :=
  let x := s.ctx c
  let s := x.flight.foldl (fun s f =>
    let s := s.setSstate x f.slot 0
    if x.typ < 2 ∧ !f.done then s.incr (corePage x.typ f.core) O.DEC_ABORTS else s) s
  let s := match x.enc.pic, x.cores with
    | some p, k :: _ => if p.started then s.incr (corePage 3 k) O.ENC_ABORTS else s
    | _, _ => s
  s.setCtx c { x with flight := [] }

/-- Count a context off one core and onto another. -/
def countMove (s : State) (typ : Nat) (off on : List Nat) : State :=
  let s := (off.filter (· ∉ on)).foldl (fun s k => s.incr (corePage typ k) O.DEC_MIGR_OUT) s
  (on.filter (· ∉ off)).foldl (fun s k => s.incr (corePage typ k) O.DEC_MIGR_IN) s

/-- The context runs on new cores: MIGRATED. -/
def moved (s : State) (c : Nat) (cores : List Nat) : State :=
  let x := s.ctx c
  (s.countMove x.typ x.cores cores).setCtx c
    ({ x with cores := cores, migrations := x.migrations + 1 }.event (if x.typ = 3 then 6 else 5)).counted

/-- A fault migration (R155, R186): CEPOCH advances, work in flight is aborted, a decode context rewinds to its
Blaze (when FLM runs, R128), and the context goes on from the state saved at its last commit on its new cores. -/
def faultMig (s : State) (c : Nat) (cores : List Nat) : State :=
  let s := s.abortFlights c
  let s := s.modCtx c fun x => { x with
    cepoch := (x.cepoch + 1) % 16
    enc := { x.enc with pic := x.enc.pic.map fun p => if p.started then { p with pass := 4 } else p } }
  let x := s.ctx c
  let s := if x.typ = 3 then s else s.ringWord0 x (s.ringWritten x) true
  let s := if x.typ = 3 then s
    else if s.running pFlm then (s.flumeRewind c).getD s
    else s.setFlm c { s.flm c with ops := (s.flm c).ops ++ [.rewind] }
  let s := s.modCtx c fun x => { x with
    mig := none, prevPts := x.savedPts, anchor := x.savedAnchor, midUnit := false, turn := 0, waiting := none }
  let s := match x.mig.bind (·.ref) with | some r => s.finish r { status := stSuccess, result := coresResult x.typ cores % 256 } | none => s
  s.moved c cores

/-- Every job of queue `q` that has not started completes with a status (R69, R157). -/
def endWaiting (s : State) (q st : Nat) : State :=
  let v := s.sqOf q
  s.setSq q { v with ready := v.ready.map (fun j => { j with out := some { status := st } })
                     cut := if v.fetch = s.qTail q then none else some (s.qTail q, st) }

/-- FAULT and LOST: every packet is released as it commits (R148), or once FLM runs again (R128). -/
def drainDead (s : State) (c : Nat) : State :=
  if !s.running pFlm then s else
  let s := s.modCtx c fun x => { x with gone := [] }
  let s := s.moveRd c (s.fpos O.FLM_COMMIT c)
  (s.flumeRelease c (s.fpos O.FLM_COMMIT c)).getD s

/-- A context loses its capacity (R157): LOST, its waiting jobs end with CAPACITY_LOST; FAULT is left only by CTX_CLOSE
(R148), so that a context in FAULT only leaves its cores. -/
def loseCtx (s : State) (c : Nat) : State :=
  let s := s.abortFlights c
  let x := s.ctx c
  let s := s.countMove x.typ x.cores []
  let s := match x.mig.bind (·.ref) with | some r => s.finishSt r stCapacityLost | none => s
  let y := { x with cores := [], mig := none, newCfg := none, enc := { x.enc with pic := none } }
  if x.st = 5 then s.setCtx c y
  else
    let s := s.setCtx c (y.goto 4)
    let s := if x.typ = 3 then s else s.drainDead c
    s.endWaiting c stCapacityLost

/-- A contained context fault (R148, R184). -/
def faultCtx (s : State) (c code : Nat) : State :=
  if !(s.ctx c).isOpen ∨ (s.ctx c).st = 5 then s
  else
    let s := s.abortFlights c
    let x := s.ctx c
    let s := s.setCtx c ({ x with faultCode := code, enc := { x.enc with pic := none } }.goto 5)
    let s := if x.typ = 3 then s else s.drainDead c
    match x.cores with
    | k :: _ => s.containedFault (corePage x.typ k) 0x0103 c 0
    | [] => s

/-- Contexts that a LIVE context may push off a core: lower classes, MONITOR first, highest number first (R157). -/
def victims (s : State) (typ k : Nat) : List Nat :=
  let on := (s.claimants typ k).reverse
  (on.filter fun c => (s.ctx c).cls = 2) ++ on.filter fun c => (s.ctx c).cls = 1

/-- Stop contexts of the list, one at a time, until a LIVE context fits on the core. -/
def makeRoom (s : State) (typ k : Nat) (rate : Rat) (whole : Bool) (skip : Option Nat) : List Nat → State
  | [] => s
  | v :: r =>
    if if whole then s.unloaded typ k skip else s.fitsCore typ k rate skip then s
    else (s.loseCtx v).makeRoom typ k rate whole skip r

/-- The lowest-numbered core on which stopping lower-class contexts makes room, with the room made (R157). -/
def pushPlace (s : State) (typ : Nat) (rate : Rat) (whole : Bool) (skip : Option Nat) (no : List Nat) :
    Option (State × Nat) :=
  ((List.range (coreCount typ)).filter fun k => k ∉ no ∧ s.inService typ k).findSome? fun k =>
    let t := s.makeRoom typ k rate whole skip (s.victims typ k)
    if if whole then t.unloaded typ k skip else t.fitsCore typ k rate skip then some (t, k) else none

/-- A context that must leave core `k` finds its place, or is stopped, by class (R156, R157); `go` moves it. -/
def rehome (go : State → Nat → List Nat → State) (s : State) (typ k : Nat) (c : Nat) : State :=
  let x := s.ctx c
  let whole := x.ganged
  let keep := x.cores.filter (· ≠ k)
  let spot :=
    if whole then ((List.range (coreCount typ)).find? fun j => j ≠ k && s.inService typ j && s.unloaded typ j none)
    else (List.range (coreCount typ)).find? fun j => j ≠ k && s.fitsCore typ j x.rate (some c)
  match spot with
  | some j => go s c (keep ++ [j])
  | none =>
    if x.cls ≠ 0 then s.loseCtx c
    else match s.pushPlace typ x.rate whole (some c) [k] with
      | some (t, j) => go t c (keep ++ [j])
      | none => s.loseCtx c

/-- Contexts of a core in the order of R157: LIVE, then STORED, then MONITOR, by number within a class. -/
def byClass (s : State) (typ k : Nat) : List Nat :=
  let on := s.onCore typ k
  (on.filter fun c => (s.ctx c).cls = 0) ++ (on.filter fun c => (s.ctx c).cls = 1)
    ++ on.filter fun c => 2 ≤ (s.ctx c).cls

/-- Every context of a core finds another place or stops; `stay` leaves those that are on their way to cores in service. -/
def rehomeAll (go : State → Nat → List Nat → State) (stay : Bool) (s : State) (typ k : Nat) : State :=
  (s.byClass typ k).foldl (fun s c =>
    let x := s.ctx c
    let leaves := stay && x.mig.any fun m => m.cores.all fun j => s.inService typ j
    if k ∈ x.cores ∧ !leaves then s.rehome go typ k c else s) s

/-- Show a core RETIRED, with the record of its retirement. -/
def retireCore (s : State) (typ k code info : Nat) (spare noSpare : Bool) : State :=
  let p := corePage typ k
  let s := (s.setRole typ k 2).setPstate p 5
  (((s.errCapture p code info 0).setCause p 4).setCause pDev 2).faultLog 1 spare noSpare p code info

/-- The lowest-numbered spare of a kind; spares in `bad` fail the self-test and are retired with BIST_FAIL (R464). -/
def promote (s : State) (typ : Nat) (bad : List Nat) : Nat → State × Option Nat
  | 0 => (s, none)
  | fuel + 1 =>
    match (List.range (coreCount typ)).find? fun k => s.role typ k = 1 with
    | none => (s, none)
    | some k =>
      let s := s.copTake (coreClass typ)
      if k ∈ bad then (s.retireCore typ k 0x0102 0 true false).promote typ bad fuel
      else
        let p := corePage typ k
        let s := ((s.setRole typ k 0).setBit p O.PAGE_CTL 0 true).setPstate p 2
        (s.faultLog 0 true false p 0 k, some k)

/-- A codec core fails (R157, R186, R464): retired; a spare takes its contexts, or they are placed by class. One that is
being retired by request has its spare already. -/
def coreFail (s : State) (typ k code : Nat) (bad : List Nat) : State :=
  if s.role typ k = 2 then s
  else if s.role typ k = 1 then (s.copTake (coreClass typ)).retireCore typ k code 0 true false
  else if s.flt.retiring = some (coreClass typ, k) then
    let s := (s.setPstate (corePage typ k) 4).retireCore typ k code 0 false false
    let s := { s.wr pDev O.DEV_RETIRE_STAT (2 * 2 ^ 28) with flt := { s.flt with retiring := none } }
    (s.onCore typ k).foldl (fun s c => match (s.ctx c).mig with
      | some m => s.faultMig c m.cores
      | none => s.rehome faultMig typ k c) s
  else
    let any := (List.range (coreCount typ)).any fun j => s.role typ j = 1 ∧ j ∉ bad
    let s := (s.setPstate (corePage typ k) 4).retireCore typ k code 0 any (!any)
    match s.promote typ bad 37 with
    | (s, some j) => (s.onCore typ k).foldl (fun s c =>
        s.faultMig c ((s.ctx c).cores.map fun i => if i = k then j else i)) s
    | (s, none) => (s.copLose (coreClass typ)).rehomeAll faultMig false typ k

/-- Begin a normal migration (R153): the context takes no new picture on its old cores. A CTX_MIGRATE that is pending
stays so when other cores take the place of its own. -/
def startMig (s : State) (c : Nat) (cores : List Nat) (r : Option JobRef) : State :=
  s.modCtx c fun x => { x with mig := some ⟨cores, r.or (x.mig.bind (·.ref))⟩ }

/-- Without a job: the form `rehome` calls. -/
def startMigFor (s : State) (c : Nat) (cores : List Nat) : State := s.startMig c cores none

/-- Is an access unit of the context in progress: a picture taken, with more of its unit to come (R134, R135, R153)? -/
def inUnit (x : Ctx) : Bool := x.works && x.midUnit

/-- Cores a migration ends on: those it goes to, or where one has gone out of service, its present ones, or others that
R19 gives. -/
def migCores (s : State) (c : Nat) (m : Mig) : Option (List Nat) :=
  let x := s.ctx c
  if m.cores.all fun k => s.inService x.typ k then some m.cores
  else if x.cores.all fun k => s.inService x.typ k then some x.cores
  else s.place x.typ x.rate (some c) []

/-- A normal migration ends at an access-unit boundary, once no picture of the context is in flight (R153). -/
def endMig (s : State) (c : Nat) : State :=
  let x := s.ctx c
  match x.mig with
  | none => s
  | some m =>
    if x.flight ≠ [] ∨ (x.enc.pic.any fun p => p.started) ∨ inUnit x then s
    else match s.migCores c m with
      | none => s.loseCtx c
      | some l =>
        let stays := decide (l = x.cores ∧ m.cores ≠ l)
        let s := s.modCtx c fun x => { x with mig := none, turn := 0 }
        let s := if stays then s else s.moved c l
        match m.ref with
        | some r => if stays then s.finishSt r stNoCapacity
            else s.finish r { status := stSuccess, result := l.foldl min (l.headD 0) }
        | none => s

/-- Cases of R154 for CTX_MIGRATE: a status at once, or the cores to go to. -/
def migTarget (s : State) (c target : Nat) : Sum JobOut (List Nat) :=
  let x := s.ctx c
  let first := x.cores.foldl min (x.cores.headD 0)
  if x.typ = 2 ∨ x.mig.isSome ∨ !x.isOpen ∨ x.cores = [] then .inl { status := stBadState }
  else if target = 0xFF then
    if x.ganged then
      let free := (List.range (coreCount x.typ)).filter fun k =>
        k ∉ x.cores ∧ s.inService x.typ k ∧ s.unloaded x.typ k none
      if free.length < x.cores.length then .inl { status := stNoCapacity } else .inr (free.take x.cores.length)
    else match s.place x.typ x.rate none x.cores with
      | some l => .inr l
      | none => .inl { status := stNoCapacity }
  else if x.ganged then .inl { status := stBadParam }
  else if x.cores = [target] then .inl { status := stSuccess, result := first }
  else if coreCount x.typ ≤ target ∨ !s.inService x.typ target then .inl { status := stBadParam }
  else if s.fitsCore x.typ target x.rate none then .inr [target]
  else .inl { status := stNoCapacity }

/-- One rebalancing pass (R154): one context off each core that counted a LATE picture in the last second. -/
def rebalanceCore (s : State) (typ k : Nat) : State :=
  let lateOn (j : Nat) : Bool := sget (fun _ => 0) s.lateRecent (corePage typ j) ≠ 0
  if !lateOn k then s
  else
    let cs := (s.onCore typ k).filter fun c =>
      let x := s.ctx c
      x.cls ≠ 0 ∧ !x.pinned ∧ !x.ganged ∧ x.works ∧ x.mig.isNone
    match cs.findSome? fun c =>
      ((List.range (coreCount typ)).find? fun j => j ≠ k && !lateOn j && s.fitsCore typ j (s.ctx c).rate none).map
        fun j => (c, j) with
    | some (c, j) => s.startMig c [j] none
    | none => s

/-- Rebalancing, once a second. -/
def rebalance (s : State) : State :=
  let s := [0, 1, 3].foldl (fun s t => (List.range (coreCount t)).foldl (fun s k => s.rebalanceCore t k) s) s
  { s with lateRecent := [] }

/-- Count a LATE picture against a core for rebalancing. -/
def countLate (s : State) (p : Nat) : State :=
  { s with lateRecent := sset (fun _ => 0) s.lateRecent p (sget (fun _ => 0) s.lateRecent p + 1) }

/-! ## Closing (R135, R184) -/

/-- A close completes at an access-unit boundary, once no picture of the context is in flight, and with DRAIN everything committed before it has
been decoded and no other job of its queue is outstanding (R135, R69); its last status block needs host memory, so it waits
while no request may be issued (R85, R488). -/
def tryClose (s : State) (c : Nat) : State :=
  let x := s.ctx c
  match x.closing with
  | none => s
  | some k =>
    let v := s.sqOf c
    let drained := !k.drain || (v.started.all (fun j => j.out.isSome) && v.ready.all (fun j => j.out.isSome)
      && (s.qState c ≠ 1 || v.shut.all fun (n : Int) => decide (n + (v.chain.length : Int) ≤ 0))
      && (x.typ = 3 || !x.works || k.upto = s.fpos O.FLM_REL c || 2 ^ 31 ≤ dist k.upto (s.fpos O.FLM_REL c)))
    if x.flight ≠ [] ∨ x.enc.pic.isSome ∨ inUnit x ∨ !drained ∨ !s.hostReady then s
    else
      let s := s.countMove x.typ x.cores []
      let s := if x.typ = 3 then s else
        ((List.range (ringSlots x)).foldl (fun s k => s.setSstate x k 0) s).ringWord0 x false false
      let s := s.closeFlume c
      let s := match x.mig.bind (·.ref) with | some r => s.finishSt r stBadState | none => s
      let s := { s.setCtx c ({ x with st := 0, cores := [] }.event 0) with
        holds := s.holds.filter fun h => h.2.1 ≠ c ∧ h.1 ≠ 8 + c }
      let s := s.writeBlock c
      ((s.setCtx c {}).setSq c { s.sqOf c with shut := none }).finishSt k.ref stSuccess

end State
end Sys2Proof.Machine
end

