-- ==== Sys2Proof/Machine/DecodeCtx.lean ====
section
/-! DEFINITION. Decoding (chapter 06): descriptors of DEC, XSD and RAW contexts, frame rings, presentation times,
scheduling and commit, concealment states, FEED, FRAME_PUT and the Flume's consumer operations. -/
namespace Sys2Proof.Machine

/-! ## Conversion into the frame format (R131, R137) -/

/-- Element of a line with edge samples repeated. -/
def edgeAt (l : List Nat) (i : Nat) : Nat := l.getD (min i (l.length - 1)) 0

/-- 4:2:0 chroma interpolated to one line for each luma line (R131). -/
def upsample (p : Plane) : Plane :=
  (List.range p.length).flatMap fun j =>
    let c := p.getD j []
    let up := p.getD (j - 1) []
    let dn := p.getD (min (j + 1) (p.length - 1)) []
    [c.zipWith (fun a b => (3 * a + b + 2) / 4) up, c.zipWith (fun a b => (3 * a + b + 2) / 4) dn]

/-- A sample of a given depth in 10 bits. -/
def to10 (depth x : Nat) : Nat :=
  if depth = 8 then x * 4 else if depth = 12 then min 1023 ((x + 2) / 4) else x

/-- Pairs of a line averaged, rounded. -/
def pairAvg : List Nat → List Nat
  | a :: b :: r => (a + b + 1) / 2 :: pairAvg r
  | [a] => [a]
  | [] => []

/-- Each sample of a line twice. -/
def doubled (l : List Nat) : List Nat := l.flatMap fun a => [a, a]

/-- Chroma of a picture of `width` luma samples as the ring format wants it: halved or full lines. -/
def chromaFor (fmt chroma width : Nat) (p : Plane) : Plane :=
  let p := if chroma = 0 then upsample p else p
  if fmt = 0 ∧ chroma = 2 then p.map pairAvg
  else if fmt = 1 ∧ chroma ≠ 2 then p.map fun l => (doubled l).take width
  else p

/-- The 10-bit planes of a picture in a ring format. -/
def ringPlanes (fmt : Nat) (p : SrcPic) : Plane × Plane × Plane :=
  let f := fun q : Plane => q.map fun l => l.map (to10 p.depth)
  let w := (p.y.headD []).length
  (f p.y, f (chromaFor fmt p.chroma w p.cb), f (chromaFor fmt p.chroma w p.cr))

/-- Two fields woven, the top field on even lines. -/
def weave (a b : Plane) : Plane := (a.zip b).flatMap fun e => [e.1, e.2]

/-- One line of packed 10-bit 4:2:2: each pair of pixels in 5 bytes (R137). -/
def pack422 : Nat → List Nat → List Nat → List Nat → List Byte
  | 0, _, _, _ => []
  | n + 1, y, cb, cr =>
    leBytes 5 (cb.headD 0 % 1024 + y.headD 0 % 1024 * 2 ^ 10 + cr.headD 0 % 1024 * 2 ^ 20 + (y.getD 1 0) % 1024 * 2 ^ 30)
      ++ pack422 n (y.drop 2) (cb.drop 1) (cr.drop 1)

/-- One line of packed 10-bit 4:4:4: each group of four pixels in 15 bytes (R137). -/
def pack444 : Nat → List Nat → List Nat → List Nat → List Byte
  | 0, _, _, _ => []
  | n + 1, y, cb, cr =>
    let v := (List.range 4).foldl (fun a i =>
      a + (cb.getD i 0 % 1024 + y.getD i 0 % 1024 * 2 ^ 10 + cr.getD i 0 % 1024 * 2 ^ 20) * 2 ^ (30 * i)) 0
    leBytes 15 v ++ pack444 n (y.drop 4) (cb.drop 4) (cr.drop 4)

/-- Bytes of one line of `width` pixels (R140). -/
def lineBytes (fmt width : Nat) : Nat := if fmt = 0 then cdiv width 2 * 5 else cdiv width 4 * 15

/-- A packed line. -/
def packLine (fmt width : Nat) (y cb cr : List Nat) : List Byte :=
  if fmt = 0 then pack422 (cdiv width 2) y cb cr else pack444 (cdiv width 4) y cb cr

/-- The planes of a picture in a ring format, woven with its second field if it has one. -/
def framePlanes (fmt : Nat) (p : SrcPic) (second : Option SrcPic) : Plane × Plane × Plane :=
  let a := ringPlanes fmt p
  match second with
  | none => a
  | some q => let b := ringPlanes fmt q; (weave a.1 b.1, weave a.2.1 b.2.1, weave a.2.2 b.2.2)

/-- The lines of a picture in a ring format. -/
def packedLines (fmt width : Nat) (r : Plane × Plane × Plane) : List (List Byte) :=
  (List.range r.1.length).map fun i => packLine fmt width (r.1.getD i []) (r.2.1.getD i []) (r.2.2.getD i [])

/-- PITCH of a size in a format (R136): 2.5 or 3.75 bytes a pixel, in whole 256 bytes. -/
def pitchOf (fmt width : Nat) : Nat := cdiv (width * (if fmt = 0 then 10 else 15)) 1024 * 256
/-- SLOT_BYTES (R136). -/
def slotBytesOf (pitch height : Nat) : Nat := cdiv (pitch * height) 65536 * 65536

/-- Highest level of Table 6.1 by codec. -/
def levelLimit (codec : Nat) : Nat := [186, 62, 19].getD codec 0

/-- Reserved fields and ranges of a decode descriptor (Table 6.2). -/
def decFieldsOk (d : List W32) : Bool :=
  let w (i : Nat) : Nat := (d.getD i 0).toNat
  bitsOf (w 0) 0 5 = 0 && bitsOf (w 0) 26 2 < 2 && bitsOf (w 0) 24 2 < 2 && bitsOf (w 0) 12 4 < 5
    && bitsOf (w 0) 8 2 < 3 && bitsOf (w 0) 28 4 < 6 && bitsOf (w 1) 8 8 = 0 && 4 ≤ bitsOf (w 1) 0 8
    && bitsOf (w 1) 0 8 ≤ 64 && bitsOf (w 2) 4 28 = 0 && w 4 ≤ 1000000 && bitsOf (w 7) 11 5 = 0
    && bitsOf (w 8) 8 24 = 0 && w 9 = 0 && w 10 % 64 = 0 && ([12, 13, 14, 15].all fun i => w i = 0)

/-- BAD_PARAM conditions of R133 for a context of a type, size and Flume source. -/
def decBad (typ width height : Nat) (host : Bool) (d : List W32) : Bool :=
  let w0 := (d.getD 0 0).toNat
  let codec := bitsOf w0 28 4
  let ts := bitsOf w0 26 2 = 1
  let mode := bitsOf w0 8 2
  let fmt := bitsOf w0 24 2
  let base := bitsOf (d.getD 1 0).toNat 16 16 * 65536 + bitsOf (d.getD 2 0).toNat 0 4 * 2 ^ 32
  let slots := bitsOf (d.getD 1 0).toNat 0 8
  !decFieldsOk d
    || !((typ = 0 ∧ codec ≤ 2) ∨ (typ = 1 ∧ codec = 3) ∨ (typ = 2 ∧ (codec = 4 ∨ codec = 5)))
    || (ts ∧ 2 ≤ codec)
    || (mode = 0 ∧ ts ∧ codec ≠ 5)
    || (codec = 5 ∧ !host) || (codec = 4 ∧ host)
    || (codec ≤ 3 ∧ !ts ∧ mode ≠ 2 ∧ host)
    || (mode = 2 ∧ codec ≤ 4 ∧ !host)
    || width < 64 || 8192 < width || height < 64 || 4352 < height || (width % 2 = 1 ∧ fmt = 0)
    || 51539607552 < base + 65536 + slots * slotBytesOf (pitchOf fmt width) height
    || (bitsOf w0 16 8 ≠ 0 ∧ 3 ≤ codec)

/-- Fields that CTX_CONFIG may not change (R134): masks over words 0-3. -/
def decFixed (d : List W32) : List Nat :=
  let w (i : Nat) : Nat := (d.getD i 0).toNat
  [w 0 &&& 0xFFFF0780, w 1, w 2, w 3]

namespace State

/-- Words of a descriptor in host memory. -/
def readDesc (s : State) (j : Job) (n : Nat) : List W32 :=
  let b := s.jobData j
  (List.range n).map fun i => BitVec.ofNat 32 (leWord b (4 * i))

/-- The slot-to-slot time and L_DISP: display delay of the mode in force, ns (R142). -/
def displayDelay (s : State) : Int :=
  rdiv (s.lDisp * s.frateDen * 1000000000 : Nat) (s.frateNum * s.slotsPerFrame : Nat)
/-- Deadline of a picture (R142). -/
def deadline (s : State) (pts : Nat) : Int := pts - s.displayDelay
/-- Display instant of the next slot. -/
def nextDisplay (s : State) : Int := s.syncTime (s.slotIdx + 1) + s.displayDelay
/-- Frame period of a context, ns. -/
def framePeriod (x : Ctx) : Nat := 1000000000 * x.fden / max 1 x.fnum

/-! ## CTX_OPEN and CTX_CONFIG of DEC, XSD and RAW contexts (R132-R134) -/

/-- State a context takes when it opens, or leaves LOST (Table 6.5). -/
def openState (typ : Nat) (d : List W32) : Nat :=
  if typ ≠ 0 then 2 else if bitOf (d.getD 0 0).toNat 7 then 3 else 1

/-- CTX_OPEN of a decode context, its queue-word checks done. -/
def openDec (s : State) (r : JobRef) (j : Job) (typ cls width height fnum fden : Nat) : State :=
  let c := j.ctx
  let d := s.readDesc j 16
  let codec := bitsOf (d.getD 0 0).toNat 28 4
  if j.length ≠ 64 ∨ !s.flumeEntryOk c ∨ decBad typ width height (s.flumeEntryHost c) d then s.finishSt r stBadParam
  else if codec ≤ 2 ∧ levelLimit codec < bitsOf (d.getD 0 0).toNat 16 8 then s.finishSt r stUnsupported
  else
    let fmt := bitsOf (d.getD 0 0).toNat 24 2
    let pitch := pitchOf fmt width
    let x : Ctx := { typ := typ, cls := cls, width := width, height := height, fnum := fnum, fden := fden, desc := d
                     pitch := pitch, slotBytes := slotBytesOf pitch height
                     tokens := 4 * width * height * fden * 1000000000, tokTime := s.tim.time }
    match s.place typ x.rate none [] with
    | none => s.finishSt r stNoCapacity
    | some cores =>
      let x := { x with cores := cores }.goto (openState typ d)
      let s := (s.setCtx c x).openFlume c true
      let s := s.setHbm (ringBase x) (leBytes 4 (2 ^ 30) ++ leBytes 4 (ringSlots x) ++ leBytes 4 pitch
        ++ leBytes 4 (width * 65536 + height) ++ List.replicate 48 0)
      let s := (List.range (ringSlots x)).foldl (fun s k => s.setHbm (entAddr x k) (List.replicate 32 0)) s
      s.finish r { status := stSuccess, result := coresResult typ cores }

/-- A change accepted by CTX_CONFIG takes effect at the access-unit boundary: between the units in decode order (R134). -/
def applyNewCfg (s : State) (c : Nat) : State :=
  let x := s.ctx c
  match x.newCfg with
  | none => s
  | some n =>
    if inUnit x then s
    else s.setCtx c { x with cls := n.cls, width := n.width, height := n.height, fnum := n.fnum, fden := n.fden
                             desc := n.desc, newCfg := none
                             tokens := min x.tokens (4 * n.width * n.height * n.fden * 1000000000) }

/-- CTX_CONFIG of a decode context. -/
def configDec (s : State) (r : JobRef) (j : Job) (cls width height fnum fden : Nat) : State :=
  let c := j.ctx
  let x := s.ctx c
  let d := s.readDesc j 16
  let fmt := ringFormat x
  let n : Ctx := { x with width := width, height := height, fnum := fnum, fden := fden }
  if j.length ≠ 64 ∨ decBad x.typ width height (s.flm c).host d ∨ decFixed d ≠ decFixed x.desc
      ∨ x.pitch < pitchOf fmt width ∨ x.slotBytes < slotBytesOf (pitchOf fmt width) height then s.finishSt r stBadParam
  else
    let ask := x.rate < n.rate ∨ x.st = 4
    let spot := if ask then s.place x.typ n.rate (some c) [] else some x.cores
    match spot with
    | none => s.finishSt r stNoCapacity
    | some cores =>
      let cfg : NewCfg := ⟨cls, width, height, fnum, fden, d⟩
      let x' := { x with newCfg := some cfg, events := 0, evNew := 0 }
      let s :=
        if x.st = 4 then
          (s.setCtx c ({ x' with cores := cores }.goto (if x.typ = 0 then 1 else 2))).applyNewCfg c
        else
          let s := s.setCtx c x'
          let s := if cores ≠ x.cores then s.startMig c cores none else s
          s.applyNewCfg c
      s.finish r { status := stSuccess, result := coresResult x.typ cores }

/-! ## Presentation times (R141) -/

/-- The time `t` nearest to `C` whose media-clock tick is T modulo 2³². -/
def mediaTime (rate T : Nat) (C : Nat) : Int :=
  let tick := C * rate / 1000000000
  let n0 : Int := (tick : Int) - ((tick + 2 ^ 32 - T % 2 ^ 32) % 2 ^ 32 : Nat)
  let near (n : Int) : Int :=
    let lo := -((-(n * 1000000000)) / (rate : Int))
    let hi := -((-((n + 1) * 1000000000)) / (rate : Int)) - 1
    max lo (min hi C)
  let a := near n0
  let b := near (n0 + 2 ^ 32)
  if (a - C).natAbs ≤ (b - C).natAbs then a else b

/-! ### What a picture's packets say (Tables 5.4 to 5.7) -/

/-- The first data packet that ends after a position. -/
def packetAt (s : State) (c pos : Nat) : Option PktMark :=
  let rel := s.fpos O.FLM_REL c
  (s.flm c).pks.find? fun m => !m.kerf && dist pos rel < dist m.start rel + m.staves

/-- Header slot of a packet. -/
def pktHead (s : State) (c : Nat) (m : PktMark) : Nat := leNat ((s.getStave c m.start).take 8)

/-- Content of a packet. -/
def pktContent (s : State) (c : Nat) (m : PktMark) : List Byte :=
  (((List.range m.staves).flatMap fun i => s.getStave c ((m.start + i) % 2 ^ 32)).drop 8).take (s.pktHead c m % 2 ^ 23)

/-- Payload bytes of a series of pieces (Table 5.5). -/
def unpiece : Nat → List Byte → List Byte
  | 0, _ => []
  | n + 1, l =>
    if l.length < 8 then []
    else let k := leNat ((l.drop 2).take 2); (l.drop 8).take k ++ unpiece n (l.drop (8 + k))

/-- PTS of the first PES header of a PID in transport packets (ISO/IEC 13818-1, PRESUMED). -/
def pesPts (pid : Nat) : Nat → List Byte → Option Nat
  | 0, _ => none
  | n + 1, l =>
    let h := beNat (l.take 4)
    let skip := 4 + if bitOf h 5 then 1 + ((l.getD 4 0).toNat) else 0
    let p := (l.take 188).drop skip
    let pts := beNat ((p.drop 9).take 5)
    if l.length < 188 then none
    else if bitOf h 22 ∧ bitsOf h 8 13 = pid ∧ bitOf h 4 ∧ beNat (p.take 3) = 1 ∧ bitOf (p.getD 7 0).toNat 7 then
      some (bitsOf pts 33 3 * 2 ^ 30 + bitsOf pts 17 15 * 2 ^ 15 + bitsOf pts 1 15)
    else pesPts pid n (l.drop 188)

/-- Media time T of a picture: TIME of its packet's header slot, or the PTS of its PES; a PES without one has no T that
the spec states, and leaves a free value. -/
def mediaOf (s : State) (c : Nat) (ts : Bool) (t : PicTake) : Nat :=
  match s.packetAt c t.start.toNat with
  | none => s.freeVal.toNat
  | some m =>
    if ts then
      let b := s.pktContent c m
      let b := if bitOf (s.pktHead c m) 28 then unpiece b.length b else b.drop (if bitOf (s.pktHead c m) 27 then 8 else 0)
      (pesPts t.pid b.length b).getD (s.freeVal.toNat % 2 ^ 33)
    else s.pktHead c m / 2 ^ 32

/-- PTS64 of a picture's packet. -/
def hostPts (s : State) (c : Nat) (t : PicTake) : Option Nat :=
  (s.packetAt c t.start.toNat).bind fun m =>
    if bitOf (s.pktHead c m) 27 then some (leNat ((s.pktContent c m).take 8)) else none

/-- Stand time at which the Flume committed the picture's packet. -/
def commitTime (s : State) (c pos : Nat) : Nat := ((s.packetAt c pos).map (·.time)).getD s.tim.time

/-- PTS of a picture taken, and the context with its anchor, its last PTS and REANCHOR. -/
def ptsOf (s : State) (x : Ctx) (t : PicTake) : Int × Ctx :=
  let c := t.ctx.val
  let rate := if x.w 3 = 0 then 90000 else x.w 3
  let off := signed 64 (pairAt x.desc 5)
  let dj : Int := (x.w 4 * 1000 : Nat)
  let mode := bitsOf (x.w 0) 8 2
  let ts := decide (bitsOf (x.w 0) 26 2 = 1)
  let bits := if ts then 33 else 32
  let commit := s.commitTime c t.start.toNat
  match t.newUnit, x.prevPts with
  | false, some p => (p, x)
  | _, _ =>
    if mode = 0 then
      let p := mediaTime rate (s.mediaOf c ts t) commit + off
      (p, { x with prevPts := some p })
    else if mode = 1 then
      let time := s.mediaOf c ts t
      let a := x.anchor.getD (commit, time)
      let at_ (a : Nat × Nat) : Int :=
        a.1 + dj + rdiv (signed bits ((time + 2 ^ bits - a.2 % 2 ^ bits) % 2 ^ bits) * 1000000000) (rate : Int)
      if dj < ((at_ a - (commit + dj)).natAbs : Int) then
        let p := commit + dj + off
        (p, { x with anchor := some (commit, time), prevPts := some p }.event 6)
      else (at_ a + off, { x with anchor := some a, prevPts := some (at_ a + off) })
    else
      let p := match s.hostPts c t, x.prevPts with
        | some v, _ => signed 64 v + off
        | none, some q => q + framePeriod x
        | none, none => commit + dj + off
      (p, { x with prevPts := some p })

/-! ## Slots (R139) -/

/-- May the slot's picture be replaced: not BUSY, not REF, not waiting for output, not protected? -/
def reusable (s : State) (c slot : Nat) : Bool :=
  let x := s.ctx c
  s.sstate x slot ≠ 1 && !bitOf (s.entW x slot 0) 29 && !(x.outq.any fun f => f.slot = slot)
    && !(x.flight.any fun f => f.slot = slot) && !(s.holds.any fun h => h.2.1 = c ∧ h.2.2 = slot)
    && !(s.sstate x slot = 2 && s.newestReady x s.nextDisplay = some slot)

/-- The slot a new picture takes: the lowest FREE one, or the reusable one with the oldest PTS (R139, R140). -/
def findSlot (s : State) (c : Nat) : Option Nat :=
  let x := s.ctx c
  let ks := (List.range (ringSlots x)).filter fun k => s.reusable c k
  match ks.find? fun k => s.sstate x k = 0 with
  | some k => some k
  | none => ks.foldl (fun b k => match b with
      | none => some k
      | some i => if s.slotPts x k < s.slotPts x i then some k else b) none

/-- Write the lines of a picture into a slot. -/
def putLines (s : State) (x : Ctx) (slot : Nat) (ls : List (List Byte)) (top : Nat := 0) : State :=
  (ls.zipIdx top).foldl (fun s e => s.setHbm (picAddr x slot + e.2 * x.pitch) e.1) s

/-- Fill a slot entry and make it READY (Table 6.4). -/
def makeReady (s : State) (c : Nat) (f : Flight) (flags : Nat) : State :=
  let x := s.ctx c
  let slot := f.slot
  let w0 := 2 * 2 ^ 30 + b2n (bitOf (s.entW x slot 0) 29) * 2 ^ 29 + flags + f.cepoch * 2 ^ 20
    + b2n (bitOf (x.w 0) 10) * 2 ^ 14 + ringFormat x * 2 ^ 12
  let s := ((s.setEntW x slot 1 x.pics).setEntW x slot 2 f.pts).setEntW x slot 3 (f.pts / 2 ^ 32)
  let s := ((s.setEntW x slot 4 (f.width * 65536 + f.height)).setHbm (entAddr x slot + 20) (List.replicate 12 0))
  let s := (s.setEntW x slot 0 w0).ringWord0 x true true
  s.setCtx c ({ x with pics := (x.pics + 1) % 2 ^ 32, lastPts := f.pts }.counted)

/-! ## Losses and context states (R146-R151) -/

/-- A loss or an error met by a context (R149, R151). -/
def ctxLoss (x : Ctx) : Ctx :=
  if x.typ = 0 then
    if x.st ≠ 2 ∧ x.st ≠ 3 then x
    else if bitOf (x.w 0) 6 then
      if x.st = 3 then ({ x with concRun := 0 }.event 2).goto 1 else x.goto 1
    else if x.st = 2 then ({ x with concRun := 0, concLong := false }.event 1).goto 3 else x
  else if x.st = 2 then (x.event 1).goto 3 else x

/-- A key picture is committed, or a recovery point reached, which ends CONCEALING only (Table 6.5, R150). -/
def ctxRecover (x : Ctx) (key : Bool) : Ctx :=
  if x.st = 3 then ({ x with keyNext := true, concRun := 0, concLong := false }.event 2).goto 2
  else if x.st = 1 && key then x.goto 2 else x

/-- DISCONT, or a Kerf with cause RESET (Table 6.5): the anchor is set anew (R141), the next picture carries DISCONT. -/
def ctxRestart (x : Ctx) : Ctx :=
  if x.works then { x with anchor := none, discNext := true, midUnit := false }.goto (if x.typ = 0 then 1 else 2) else x

/-! ## Reading and releasing packets (R123, R124) -/

/-- Follow finished packets, and the Kerfs read between them, from a position on: the first stave that is not finished. -/
def follow (s : State) (c : Nat) (done : List (Nat × Nat)) : Nat → Nat → Nat
  | 0, p => p
  | fuel + 1, p =>
    let d (q : Nat) : Nat := dist q (s.fpos O.FLM_REL c)
    match done.find? fun r => d r.1 ≤ d p ∧ d p < d r.2 with
    | some r => s.follow c done fuel r.2
    | none =>
      if d p < d (s.fpos O.FLM_RD c) ∧ ((s.flm c).pks.any fun m => m.kerf ∧ m.start = p) then
        s.follow c done fuel ((p + 1) % 2 ^ 32)
      else p

/-- Staves of the finished packets of a context. -/
def goneOf (x : Ctx) : List (Nat × Nat) := x.gone.map fun g => (g.start, g.stop)

/-- First stave of a context that is not finished; `more` are ranges to count as finished. -/
def unfinished (s : State) (c : Nat) (more : List (Nat × Nat)) : Nat :=
  let l := goneOf (s.ctx c) ++ more
  s.follow c l (l.length + (s.flm c).pks.length + 1) (s.fpos O.FLM_REL c)

/-- Keep the Blaze and REL at the first packet that is not finished (R124), with the state saved there (R155); nothing
moves while FLM does not run (R128). -/
def settle (s : State) (c : Nat) : State :=
  let rel := s.fpos O.FLM_REL c
  let p := s.unfinished c []
  if !s.running pFlm then s
  else if dist p rel ≤ dist (s.fpos O.FLM_RD c) rel then
    let s := s.modCtx c fun x =>
      let past := x.gone.filter fun g => dist g.stop rel ≤ dist p rel
      let last := past.foldl (fun (b : Option Gone) g => match b with
        | some h => if dist h.stop rel ≤ dist g.stop rel then some g else b
        | none => some g) none
      let x := { x with gone := x.gone.filter fun g => dist p rel < dist g.stop rel }
      match last with
      | some g => { x with savedPts := g.prevPts, savedAnchor := g.anchor }
      | none => x
    let s := (s.flumeRelease c p).getD s
    (s.setFpos O.FLM_BLAZE c p).setFstat c 30 true
  else s

/-- What a context does as its consumer reads a Kerf, counted when it is read first, or a data packet's header (R149,
R151, Table 6.5). -/
def readMark (s : State) (c : Nat) (m : PktMark) (x : Ctx) : Ctx :=
  let h := s.pktHead c m
  if m.kerf then
    let x := if dist m.start (s.fpos O.FLM_HWM c) < 2 ^ 31 then { x with kerfs := x.kerfs + 1 }.counted else x
    let x := ctxLoss { x with midUnit := false }
    if bitOf h 29 then ctxRestart x else x
  else
    let x := if bitOf h 26 then ctxRestart x else x
    if bitOf h 24 ∧ x.typ = 0 then ctxLoss x else x

/-- The consumer reads up to a position: RD reaches it. -/
def readTo (s : State) (c pos : Nat) : State :=
  let rel := s.fpos O.FLM_REL c
  let rd := s.fpos O.FLM_RD c
  if s.running pFlm ∧ dist rd rel < dist pos rel ∧ dist pos rel ≤ dist (s.fpos O.FLM_COMMIT c) rel then
    let ms := (s.flm c).pks.filter fun m => dist rd rel ≤ dist m.start rel ∧ dist m.start rel < dist pos rel
    let x := ms.foldl (fun x m => s.readMark c m x) (s.ctx c)
    (s.setCtx c x).moveRd c pos
  else s

/-- An idle consumer reads the Kerfs that stand next in its Flume. -/
def readKerfs (s : State) (c : Nat) : State :=
  let rel := s.fpos O.FLM_REL c
  let e := (s.flm c).pks.foldl (fun p m => if m.kerf ∧ m.start = p then (p + 1) % 2 ^ 32 else p) (s.fpos O.FLM_RD c)
  if (s.ctx c).works ∧ (s.ctx c).typ ≠ 3 ∧ dist (s.fpos O.FLM_RD c) rel < dist e rel then (s.readTo c e).settle c else s

/-- Is KEY set in the header slot of a committed packet? -/
def pktKey (s : State) (c : Nat) (m : PktMark) : Bool := !m.kerf && bitOf (s.pktHead c m) 29

/-- WAIT_KEY with more than one KEY packet held: everything before the newest is released unparsed (R147). -/
def skipToKey (s : State) (c : Nat) : State :=
  let x := s.ctx c
  let keys := (s.flm c).pks.filter fun m => s.pktKey c m
  let rel := s.fpos O.FLM_REL c
  if x.typ = 0 ∧ x.st = 1 ∧ x.flight = [] ∧ 2 ≤ keys.length ∧ s.running pFlm then
    match keys.getLast? with
    | some m =>
      let s := if dist (s.fpos O.FLM_RD c) rel < dist m.start rel then s.moveRd c m.start else s
      (s.setCtx c { x with gone := x.gone ++ [⟨rel, m.start, x.prevPts, x.anchor⟩] }).settle c
    | none => s
  else s

/-! ## Commit and output (R142, R143) -/

/-- Does a picture output now carry CONCEALED (R147, R149)? -/
def shownConcealed (x : Ctx) (f : Flight) : Bool := x.typ = 0 && (x.st = 3 || f.standin) && !x.keyNext

/-- Flag bits of the slot entry of a picture output now (Table 6.4). -/
def readyFlags (x : Ctx) (f : Flight) (late : Bool) : Nat :=
  b2n (shownConcealed x f) * 2 ^ 28 + b2n f.partialPic * 2 ^ 27 + b2n (f.key || f.recovery || x.keyNext || x.typ ≠ 0) * 2 ^ 26
    + b2n late * 2 ^ 25 + b2n f.disc * 2 ^ 24 + f.colour * 2 ^ 16 + b2n f.full * 2 ^ 15

/-- CONCEALING has outlasted CONCEAL_MAX pictures: CONCEAL_LONG once an episode (R150). -/
def concealRun (x : Ctx) : Ctx :=
  let mx := bitsOf (x.w 7) 16 16
  if x.typ = 0 && x.st = 3 then
    let x := { x with concRun := x.concRun + 1 }
    if mx ≠ 0 && mx < x.concRun && !x.concLong then { x with concLong := true }.event 3 else x
  else x

/-- XSD and RAW contexts enter and leave CONCEALING as their pictures become READY (R151). -/
def partialStep (x : Ctx) (isPartial : Bool) : Ctx :=
  if x.typ = 0 then x
  else if isPartial then ctxLoss x
  else if x.st = 3 then (x.event 2).goto 2 else x

/-- What a context counts as a picture of its becomes READY. -/
def countReady (x : Ctx) (f : Flight) (conc late : Bool) : Ctx :=
  let y := { x with keyNext := false, outq := x.outq.filter (fun g => g.serial ≠ f.serial)
                    concPics := x.concPics + b2n conc, partPics := x.partPics + b2n f.partialPic
                    late := x.late + b2n late }
  partialStep (concealRun (if late then y.event 4 else y)) f.partialPic

/-- A committed picture becomes READY. -/
def outputPic (s : State) (c : Nat) (f : Flight) : State :=
  let x := s.ctx c
  let late := decide (s.deadline f.pts < s.tim.time)
  let s := s.makeReady c f (readyFlags x f late)
  let s := s.modCtx c fun y => countReady y f (shownConcealed x f) late
  if late && x.typ < 2 then
    let p := corePage x.typ f.core
    ((s.incr p O.DEC_LATE).countLate p).setCause p 1
  else s

/-- Packets are finished: their staves, with the state saved there. -/
def finished (x : Ctx) (start stop : Nat) (pts : Option Int) (anchor : Option (Nat × Nat)) : Ctx :=
  { x with gone := x.gone ++ [⟨start, stop, pts, anchor⟩] }

/-- Commit the pictures that are done, in decode order: each once every packet before its own is finished (R143). -/
def commitDone (s : State) (c : Nat) : Nat → State
  | 0 => s
  | fuel + 1 =>
    match (s.ctx c).flight with
    | f :: rest =>
      let rel := s.fpos O.FLM_REL c
      if !f.done ∨ dist (s.unfinished c []) rel < dist f.start rel then s
      else
        let s := s.modCtx c fun x =>
          let x := { x with flight := rest, outq := x.outq ++ [{ f with cepoch := x.cepoch }], lastSlot := some f.slot
                            refs := if f.ref then x.refs ++ [(f.serial, f.slot, f.pts)] else x.refs }
          let x := finished x f.start f.stop f.prevPts f.anchor
          if x.typ = 0 ∧ (f.key ∨ f.recovery) then ctxRecover x f.key else x
        let x := s.ctx c
        let s := if f.ref then s.setEntW x f.slot 0 (s.entW x f.slot 0 ||| 2 ^ 29) else s
        s.commitDone c fuel
    | [] => s

/-! ## Concealment (R150, R151) -/

/-- The samples (Y, Cb, Cr) of a ring slot at a luma position. -/
def ringPix (s : State) (x : Ctx) (slot col line : Nat) : Nat × Nat × Nat :=
  let a := picAddr x slot + line * x.pitch
  if ringFormat x = 0 then
    let v := leNat (s.hbmBytes (a + col / 2 * 5) 5)
    (bitsOf v (if col % 2 = 0 then 10 else 30) 10, bitsOf v 0 10, bitsOf v 20 10)
  else
    let v := leNat (s.hbmBytes (a + col / 4 * 15) 15) / 2 ^ (30 * (col % 4))
    (bitsOf v 10 10, bitsOf v 0 10, bitsOf v 20 10)

/-- Component-wise median of three vectors. -/
def medianVec (a b c : Int × Int) : Int × Int :=
  let m (p q r : Int) : Int := max (min p q) (min (max p q) r)
  (m a.1 b.1 c.1, m a.2 b.2 c.2)

/-- Vector of a block that cannot be decoded, from those of its left, upper and upper-right neighbours (R150). With two
of them the rule states none: `free`. -/
def blockVec (free : Int × Int) (across b : Nat) (vs : List (Nat × Int × Int)) : Int × Int :=
  let at_ (n : Nat) : Option (Int × Int) := (vs.find? fun e => e.1 = n).map (·.2)
  let left := if b % across = 0 then none else at_ (b - 1)
  let up := if b < across then none else at_ (b - across)
  let upRight := if b < across ∨ b % across = across - 1 then none else at_ (b - across + 1)
  match [left, up, upRight].filterMap id with
  | [] => (0, 0)
  | [v] => v
  | [u, v, w] => medianVec u v w
  | _ => free

/-- Vectors of the blocks to fill, in raster order; a filled block has a vector for those after it. -/
def fillVecs (free : Int × Int) (across : Nat) : List Nat → List (Nat × Int × Int) → List (Nat × Int × Int)
  | [], _ => []
  | b :: r, vs => let v := blockVec free across b vs; (b, v) :: fillVecs free across r ((b, v) :: vs)

/-- PTS of a slot that a picture in flight refers to. -/
def refPts (x : Ctx) (slot : Nat) : Nat :=
  (((x.flight.find? fun f => f.slot = slot).map (·.pts)).or ((x.refs.find? fun e => e.2.1 = slot).map (·.2.2))).getD 0

/-- The reference of a picture that is nearest to it in output order. -/
def nearestRef (x : Ctx) (f : Flight) : Option Nat :=
  f.refs.foldl (fun b k => match b with
    | none => some k
    | some j => if ((refPts x k : Int) - f.pts).natAbs < ((refPts x j : Int) - f.pts).natAbs then some k else b) none

/-- A displaced position, kept in a picture of `n` samples. -/
def clampPos (p : Int) (n : Nat) : Nat := min (max p 0).toNat (n - 1)

/-- The planes of a picture with the blocks of `fill` taken from the reference, or black where there is none (R150). -/
def concealed (s : State) (x : Ctx) (f : Flight) (fill : List (Nat × Int × Int)) (r : Plane × Plane × Plane) :
    Plane × Plane × Plane :=
  let across := cdiv f.width 16
  let src := nearestRef x f
  let half := ringFormat x = 0
  let black : Nat × Nat × Nat := if f.full then (0, 0, 0) else (64, 512, 512)
  let pick (i col : Nat) : Option (Nat × Nat × Nat) :=
    (fill.find? fun e => e.1 = i / 16 * across + col / 16).map fun e => match src with
      | none => black
      | some k =>
        let size := (x.flight ++ x.outq).find? fun g => g.slot = k
        let w := (size.map (·.width)).getD (s.entW x k 4 / 65536)
        let h := (size.map (·.height)).getD (s.entW x k 4 % 65536)
        s.ringPix x k (clampPos (col + e.2.1) w) (clampPos (i + e.2.2) h)
  let each (p : Plane) (wide : Bool) (g : Nat × Nat × Nat → Nat) : Plane :=
    p.zipIdx.map fun l => l.1.zipIdx.map fun v =>
      ((pick l.2 (if wide then v.2 else 2 * v.2)).map g).getD v.1
  (each r.1 true (·.1), each r.2.1 (!half) (·.2.1), each r.2.2 (!half) (·.2.2))

/-- Slot of the last picture made READY, while it is still in the ring. -/
def lastReady (s : State) (x : Ctx) : Option Nat :=
  (List.range (ringSlots x)).find? fun k =>
    s.sstate x k = 2 && x.pics ≠ 0 && s.entW x k 1 = (x.pics + 2 ^ 32 - 1) % 2 ^ 32

/-- A black line in a ring format. -/
def blackLine (x : Ctx) (f : Flight) : List Byte :=
  let n := f.width + 4
  let v := if f.full then (0, 0) else (64, 512)
  packLine (ringFormat x) f.width (List.replicate f.width v.1 ++ List.replicate 4 0)
    (List.replicate (if ringFormat x = 0 then n else f.width) v.2) (List.replicate (if ringFormat x = 0 then n else f.width) v.2)

/-- The packed lines of a picture with the missing ones taken from the previous READY picture, or black (R151). -/
def mendLines (s : State) (x : Ctx) (f : Flight) (bad : List Nat) (ls : List (List Byte)) : List (List Byte) :=
  ls.zipIdx.map fun e =>
    if e.2 ∉ bad then e.1
    else match s.lastReady x with
      | some k =>
        if e.2 < s.entW x k 4 % 65536 then s.hbmBytes (picAddr x k + e.2 * x.pitch) (lineBytes (ringFormat x) f.width)
        else blackLine x f
      | none => blackLine x f

/-- Mark the cycles a core was busy with a picture (Table 6.8). -/
def addBusy (s : State) (p n : Nat) : State := s.wr64 p O.DEC_BUSY_LO ((s.rd64 p O.DEC_BUSY_LO + n) % 2 ^ 64)

/-- The samples a core has made reach the slot, with concealment (R139, R150, R151). -/
def writePic (s : State) (c : Nat) (f : Flight) (r : PicResult) : State :=
  let x := s.ctx c
  let planes := framePlanes (ringFormat x) r.pic r.bottom
  let free := (signed 16 (s.freeVal.toNat % 2 ^ 16), signed 16 (s.freeVal.toNat / 2 ^ 16 % 2 ^ 16))
  let planes := if x.typ = 0 ∧ r.blocks ≠ [] then
      s.concealed x f (fillVecs free (cdiv f.width 16) r.blocks r.vectors) planes
    else planes
  let lines := (packedLines (ringFormat x) f.width planes).take f.height
  let lines := if x.typ ≠ 0 then s.mendLines x f r.lines lines else lines
  (s.putLines x f.slot lines).freeTaken

/-- A core finishes the picture it has in flight for a context (R143, R149); a result of an older CEPOCH is discarded
(R152). -/
def finishPic (s : State) (typ k : Nat) (r : PicResult) : State :=
  let c := r.ctx.val
  let s := if typ < 2 then s.addBusy (corePage typ k) r.busy else s
  let x := s.ctx c
  match x.flight.find? fun f => f.core = k ∧ !f.done with
  | none => s
  | some f =>
    if x.typ ≠ typ ∨ x.cepoch ≠ r.cepoch ∨ (typ = 2 ∧ bitsOf (x.w 0) 28 4 = 5) then s
    else
      let s := s.writePic c f r
      let isPartial := if typ = 0 then r.blocks ≠ [] else r.lines ≠ []
      let g := { f with done := true, partialPic := isPartial, recovery := r.recovery }
      let s := s.setCtx c ({ x with flight := x.flight.map (fun (h : Flight) => if h.serial = f.serial then g else h)
                                    biterr := x.biterr + r.biterr }.counted)
      let s := if typ < 2 then s.incr (corePage typ k) O.DEC_PICS else s
      let s := if r.biterr ≠ 0 then
          let s := if typ < 2 then (s.addReg (corePage typ k) O.DEC_BITERR r.biterr).setCause (corePage typ k) 2 else s
          if typ = 0 then s.modCtx c ctxLoss else s
        else s
      let s := s.commitDone c 64
      let y := s.ctx c
      let s := r.unref.foldl (fun s k => s.setEntW y k 0 (clrMask (s.entW y k 0) (2 ^ 29))) s
      let s := s.modCtx c fun x => { x with refs := x.refs.filter fun e => e.2.1 ∉ r.unref }
      let s := r.out.foldl (fun s n => match (s.ctx c).outq.find? fun g => g.serial = n with
        | some g => s.outputPic c g
        | none => s) s
      s.settle c

/-! ## Taking a picture (R143-R145) -/

/-- Tokens of the rate allowance at the present stand time (R145). -/
def allowance (s : State) (x : Ctx) : Nat :=
  min (4 * x.width * x.height * x.fden * 1000000000) (x.tokens + x.width * x.height * x.fnum * (s.tim.time - x.tokTime))
/-- Does a picture exceed the allowance? -/
def overRate (s : State) (x : Ctx) (t : PicTake) : Bool :=
  s.allowance x < t.width * t.height * x.fden * 1000000000

/-- Order of a core's queue (R143, R145): over-rate last, class, deadline, context, then as listed. -/
def takeKey (s : State) (t : PicTake) : Nat × Nat × Int × Nat :=
  let x := s.ctx t.ctx
  let p := (s.ptsOf x t).1
  (b2n (s.overRate x t), x.cls, s.deadline p.toNat, t.ctx.val)

/-- Lexicographic order of two keys. -/
def keyLt (a b : Nat × Nat × Int × Nat) : Bool :=
  a.1 < b.1 || (a.1 = b.1 && (a.2.1 < b.2.1 || (a.2.1 = b.2.1 && (a.2.2.1 < b.2.2.1
    || (a.2.2.1 = b.2.2.1 && a.2.2.2 < b.2.2.2)))))

/-- Do a picture's packets lie between REL and COMMIT, apart from those taken or finished already? -/
def inOrder (s : State) (t : PicTake) : Bool :=
  let x := s.ctx t.ctx
  let d (q : Nat) : Nat := dist q (s.fpos O.FLM_REL t.ctx)
  let a := d t.start.toNat
  let b := d t.stop.toNat
  a ≤ b && b ≤ d (s.fpos O.FLM_COMMIT t.ctx)
    && (goneOf x ++ x.flight.map fun f => (f.start, f.stop)).all fun r => b ≤ d r.1 || d r.2 ≤ a

/-- A gang hands consecutive pictures in decode order to its cores in turn (R145). -/
def itsTurn (s : State) (k : Nat) (t : PicTake) : Bool :=
  let x := s.ctx t.ctx
  let rel := s.fpos O.FLM_REL t.ctx
  !x.ganged || (x.cores.getD (x.turn % x.cores.length) 0 = k
    && dist t.start.toNat rel ≤ dist (s.unfinished t.ctx (x.flight.map fun f => (f.start, f.stop))) rel)

/-- May a core take a picture of the context: it works, runs on the core, and neither a migration nor a close stops it at
the access-unit boundary where it stands (R135, R153)? -/
def mayTake (s : State) (typ k : Nat) (t : PicTake) : Bool :=
  let x := s.ctx t.ctx
  let goesOn := !t.newUnit && x.midUnit
  x.works && x.typ = typ && (x.mig.isNone || goesOn) && (typ = 2 || k ∈ x.cores)
    && s.inOrder t && s.itsTurn k t
    && (match x.closing with
      | none => true
      | some q => goesOn
        || q.drain && dist t.stop.toNat (s.fpos O.FLM_REL t.ctx) ≤ dist q.upto (s.fpos O.FLM_REL t.ctx))

/-- Does a stream's sequence lie within Table 6.1 and LEVEL_CAP (R130)? -/
def streamOk (x : Ctx) (t : PicTake) : Bool :=
  let codec := bitsOf (x.w 0) 28 4
  let cap := bitsOf (x.w 0) 16 8
  t.supported && 64 ≤ t.width && 64 ≤ t.height
    && (2 < codec || (t.level ≤ levelLimit codec && (cap = 0 || t.level ≤ cap)))
    && (match codec with
      | 0 | 1 => t.chroma.val ≤ 1 && 8 ≤ t.depth && t.depth ≤ 10
      | 2 => t.chroma.val = 0 && (t.depth = 8 || t.depth = 10)
      | 3 => 1 ≤ t.chroma.val && (t.depth ≤ if t.chroma.val = 1 then 10 else 12)
      | _ => 1 ≤ t.chroma.val && (t.depth = 10 || t.depth = 12 || (t.depth = 8 && t.chroma.val = 1)))

/-- Slots a sequence needs (R139). -/
def ringNeed (x : Ctx) (t : PicTake) : Nat :=
  match bitsOf (x.w 0) 28 4 with
  | 0 | 1 => t.dpb + 3
  | 2 => 11
  | _ => 4

/-- Slots of the reference pictures a picture names; one that the ring does not hold is replaced by the most recent
picture before it in decode order (R149). The Boolean says whether one was. -/
def refsOf (s : State) (x : Ctx) (t : PicTake) : List Nat × Bool :=
  let rel := s.fpos O.FLM_REL t.ctx
  let before := x.flight.filter fun f => dist f.start rel < dist t.start.toNat rel
  let held := x.refs.map (fun e => (e.1, e.2.1)) ++ x.flight.map fun f => (f.serial, f.slot)
  let recent := ((before.getLast?).map (·.slot)).or x.lastSlot
  let found (n : Option Nat) : Option Nat := n.bind fun i => (held.find? fun e => e.1 = i).map (·.2)
  (t.refs.filterMap fun n => (found n).or recent, t.refs.any fun n => (found n).isNone)

/-- A picture joins those in flight, in decode order. -/
def addFlight (rel : Nat) (f : Flight) (l : List Flight) : List Flight :=
  l.filter (fun g => dist g.start rel ≤ dist f.start rel) ++ f :: l.filter fun g => dist f.start rel < dist g.start rel

/-- A picture's packets are finished without a picture: discarded, skipped, or holding none. -/
def passOver (s : State) (c : Nat) (t : PicTake) (x : Ctx) : State :=
  ((s.setCtx c (finished x t.start.toNat t.stop.toNat x.prevPts x.anchor)).commitDone c 64).settle c

/-- Take one picture onto a core. -/
def takePic (s : State) (typ k : Nat) (t : PicTake) : State :=
  let c := t.ctx.val
  let s := if t.newUnit then (s.modCtx c fun x => { x with midUnit := false }).applyNewCfg c else s
  let s := s.readTo c t.stop.toNat
  let x := s.ctx c
  let x1 := { x with midUnit := !t.endUnit, mismatch := 0, turn := x.turn + 1, waiting := none }
  if t.width = 0 then s.passOver c t x
  else if t.mismatch then
    let x := { x with mismatch := x.mismatch + b2n t.newUnit }
    if 16 ≤ x.mismatch then (s.setCtx c x).faultCtx c 5 else s.passOver c t x
  else if !streamOk x t then (s.setCtx c x1).faultCtx c 1
  else if x.width < t.width ∨ x.height < t.height then (s.setCtx c x1).faultCtx c 2
  else if ringSlots x < ringNeed x t then (s.setCtx c x1).faultCtx c 3
  else if typ = 0 ∧ x.st = 1 ∧ !t.key ∧ !(x.flight.any fun f => f.key) then
    s.passOver c t ({ x1 with discarded := x1.discarded + b2n t.newUnit, turn := x.turn }.counted)
  else
    let r := s.ptsOf x1 t
    let pts := toBits 64 r.1
    if !t.ref ∧ s.deadline pts < s.tim.time then
      let s := if typ < 2 then s.incr (corePage typ k) O.DEC_SKIPPED else s
      s.passOver c t ({ r.2 with skipped := r.2.skipped + 1 }.counted)
    else match s.findSlot c with
      | none =>
        if x.waiting = some t.start.toNat then s
        else s.setCtx c ({ x with ringWait := min 0xFFFF (x.ringWait + 1), waiting := some t.start.toNat }.event 7)
      | some slot =>
        let isOver := s.overRate x t
        let colour := bitsOf (x.w 0) 12 4
        let refs := s.refsOf x t
        let f : Flight :=
          { serial := x.serial, core := k, slot := slot, start := t.start.toNat, stop := t.stop.toNat, pts := pts
            width := t.width, height := t.height, colour := if colour = 0 then t.colour else colour
            full := if colour = 0 then t.full else bitOf (x.w 0) 11, key := t.key || typ ≠ 0, ref := t.ref
            disc := x.discNext, refs := refs.1, standin := refs.2, prevPts := r.2.prevPts, anchor := r.2.anchor }
        let y := r.2
        let y := { y with serial := y.serial + 1, flight := addFlight (s.fpos O.FLM_REL c) f y.flight, discNext := false
                          tokTime := s.tim.time, overRate := y.overRate + b2n isOver
                          tokens := if isOver then s.allowance x
                            else s.allowance x - t.width * t.height * x.fden * 1000000000 }
        ((s.setCtx c (if isOver then y.counted else y)).setSstate x slot 1).settle c

/-- Is a core free to take a picture? -/
def coreFree (s : State) (typ k : Nat) : Bool :=
  typ = 2 || (s.inService typ k && (s.onCore typ k).all fun c => (s.ctx c).flight.all fun f => f.core ≠ k ∨ f.done)

/-- The core takes the next picture of its queue; while FLM does not run, or a memory, its reads wait (R128, R394). -/
def takeNext (s : State) (typ k : Nat) (l : List PicTake) : State :=
  let s := (if typ = 2 then (s.ctxs.filter fun e => e.2.typ = 2 ∧ e.2.isOpen).map (·.1) else s.onCore typ k).foldl
    (fun s c => s.readKerfs c) s
  let s := l.foldl (fun s t => s.skipToKey t.ctx) s
  let ok := l.filter fun t => s.mayTake typ k t
  let best := ok.foldl (fun b t => match b with
    | none => some t
    | some u => if keyLt (s.takeKey t) (s.takeKey u) then some t else b) none
  match best with
  | some t => if s.coreFree typ k && s.running pFlm && s.hbmReady && s.sramReady then s.takePic typ k t else s
  | none => s

/-! ## FRAME_PUT (R140) -/

/-- The bytes of an image, cut into the lines of the ring. -/
def imageLines (l : List Byte) (pitch bytes : Nat) : Nat → List (List Byte)
  | 0 => []
  | n + 1 => l.take bytes :: imageLines (l.drop pitch) pitch bytes n

/-- Up to `n` more lines of a FRAME_PUT's image, whose slot is taken; with the last one it is READY. -/
def frameLines (s : State) (r : JobRef) (j : Job) (f : Flight) (n : Nat) : State :=
  if !s.hostReady ∨ !s.hbmReady then s
  else
    let c := j.ctx
    let x := s.ctx c
    let bytes := lineBytes (j.dw 8) f.width
    let k := min n (f.height - j.moved)
    let ls := imageLines ((s.jobData j).drop (j.dw 7 * j.moved)) (j.dw 7) bytes k
    let s := (((s.wakeLink.putLines x f.slot ls j.moved).jobBytes r (bytes * k)).setJob r fun j =>
      { j with moved := j.moved + k, taken := true })
    if j.moved + k = f.height then
      ((((s.modCtx c fun x => { x with flight := [] }).outputPic c f).finish r { status := stSuccess, result := f.slot })
        |>.applyNewCfg c).tryClose c
    else s

/-- FRAME_PUT: the image goes into its slot, `n` lines at a time, and is READY with the last; or the job waits for a slot. -/
def framePut (s : State) (r : JobRef) (j : Job) (n : Nat) : State :=
  let c := j.ctx
  let x := s.ctx c
  let width := bitsOf (j.dw 6) 16 16
  let height := bitsOf (j.dw 6) 0 16
  let pitch := j.dw 7
  let fmt := j.dw 8
  let bytes := lineBytes fmt width
  if x.st = 4 then s.finishSt r stCapacityLost
  else if !x.isOpen ∨ x.typ ≠ 2 ∨ bitsOf (x.w 0) 28 4 ≠ 5 ∨ x.st = 5 then
    s.finishSt r stBadState
  else match x.flight with
  | f :: _ => s.frameLines r j f n
  | [] =>
  if width = 0 ∨ height = 0 ∨ x.width < width ∨ x.height < height ∨ fmt ≠ ringFormat x ∨ pitch % 16 ≠ 0
      ∨ pitch < bytes ∨ j.length < pitch * (height - 1) + bytes then s.finishSt r stBadParam
  else match s.findSlot c with
    | none => s.takeJob r
    | some slot =>
      let pts := toBits 64 ((j.dw 9 + j.dw 10 * 2 ^ 32 : Nat) + signed 64 (pairAt x.desc 5))
      if !s.hostReady ∨ !s.hbmReady then s.takeJob r
      else
      let f : Flight := { serial := x.serial, core := 0, slot := slot, start := 0, stop := 0, pts := pts, width := width
                          height := height, colour := bitsOf (x.w 0) 12 4, full := bitOf (x.w 0) 11, key := true, ref := false
                          disc := false, cepoch := x.cepoch }
      let s := ((s.setSstate x slot 1).modCtx c fun x => { x with flight := [f] }).setJob r fun j => { j with moved := 0 }
      s.frameLines r { j with moved := 0 } f n

/-! ## FEED (R69, R118) -/

/-- Are the FEED and FRAME_PUT jobs before this one in its queue done (R73)? -/
def feedTurn (s : State) (r : JobRef) : Bool :=
  ((s.sqOf r.q).started.takeWhile fun x => x.first ≠ r.idx).all fun x => (x.op ≠ 0x10 ∧ x.op ≠ 0x11) ∨ x.out.isSome

/-- One go at a FEED job: every byte that fits is written, and the job completes with the last one. -/
def feed (s : State) (r : JobRef) (j : Job) : State :=
  let c := j.ctx
  let x := s.ctx c
  if j.moved = 0 ∧ x.st = 4 ∧ !j.taken then s.finishSt r stCapacityLost
  else if !x.isOpen ∨ x.typ = 3 ∨ !s.feedOk c then s.finishSt r stBadState
  else if !s.running pFlm ∨ !s.feedTurn r ∨ !s.hostReady ∨ !s.hbmReady ∨ !s.sramReady then s.takeJob r
  else
    let t := s.wakeLink.feedStep c j
    let s := t.1
    let s := (if x.works then s else s.drainDead c).jobBytes r (t.2 - j.moved)
    let s := s.setJob r fun j => { j with moved := t.2, taken := true }
    if t.2 = j.length then s.finish r { status := stSuccess, result := t.2 } else s

/-- A datagram, or a loss, reaches the Flume of a context; FAULT and LOST release it (R148). -/
def deliver (s : State) (c : Nat) (d : Option Dgram) (bytes : Nat) (lost : Option Nat) : State :=
  let s := s.toFlume c d bytes lost
  if (s.ctx c).isOpen ∧ !(s.ctx c).works then s.drainDead c else s

/-! ## Consumer operations (R123, R126) -/

/-- A consumer operation. One that is refused: BAD_CONSUMER_OP, and a contained fault of the context. While FLM does not
run, it waits (R128). -/
def consumerOp (s : State) (c : Nat) (o : FlumeOp) : State :=
  if !(s.flm c).used then s
  else if !s.running pFlm then s.setFlm c { s.flm c with ops := (s.flm c).ops ++ [o] }
  else match s.flumeOp c o with
    | some t => t.tryClose c
    | none => (s.errCapture pFlm 0x0100 c 0).faultCtx c 4

/-- FLM runs again (R128): what a context's consumer had to leave is done, and the operations that waited take effect in
issue order (R125). -/
def consumerResumes (s : State) (c : Nat) : State :=
  let x := s.ctx c
  if !x.isOpen ∨ x.typ = 3 then s
  else
    let s := if x.works then s.settle c else s
    let ops := (s.flm c).ops
    let s := ops.foldl (fun s o => s.consumerOp c o) (s.setFlm c { s.flm c with ops := [] })
    let s := if (s.ctx c).works then s.settle c else s.drainDead c
    s.tryClose c

/-- FLM returns to RUNNING: the Kerfs of what was dropped, and the consumers go on. -/
def flmRuns (s : State) : State := (List.range 512).foldl consumerResumes s.flumesResume

end State

/-! ## The commands -/

/-- FEED (R118); given again, it goes on with a job that waits for space. -/
def execFeed (j : JobRef) : State → Out := act .wqm fun s =>
  match s.findJob j with
  | some b => if b.op = 0x10 ∧ b.out = none ∧ s.skdMoves then s.feed j b else s
  | none => s

/-- FRAME_PUT (R140): up to `j.n` lines more; given again, it goes on with a job that is not done or waits for a slot. -/
def execFramePut (j : JobPart) : State → Out := act .wqm fun s =>
  match s.findJob j.ref with
  | some b => if b.op = 0x11 ∧ b.out = none ∧ s.skdMoves ∧ s.feedTurn j.ref then s.framePut j.ref b j.n else s
  | none => s

/-- PICTURE_DECODED (R143): `kind` 0 decode core, 1 JPEG XS core, 2 raw unpacker; `ready` is the core's queue. -/
def execPictureDecoded (kind : Fin 3) (unit : Fin 36) (fin : Option PicResult) (ready : List PicTake) : State → Out :=
  act (if kind.val = 1 then .xsd else .dec) fun s =>
    let s := match fin with
      | some r => ((s.finishPic kind unit r).endMig r.ctx).tryClose r.ctx
      | none => s
    let s := s.takeNext kind unit ready
    match ready.head? with
    | some t => s.tryClose t.ctx
    | none => s

/-- CSB_WRITE (R148). -/
def execCsbWrite (c : Fin 512) : State → Out := act .dec fun s =>
  when ((s.ctx c).isOpen && (s.ctx c).typ ≠ 3) (·.blockDue c) s

/-- Kind and number of a decode or JPEG XS core. -/
def coreOf (k : Fin 45) : Nat × Nat := if k.val < 36 then (0, k) else (1, k - 36)

/-- CORE_HANG (R157): HANG_T without progress on a started picture. -/
def execCoreHang (k : Fin 45) (badSpares : List Nat) : State → Out := act .dec fun s =>
  let t := coreOf k
  when ((s.onCore t.1 t.2).any fun c => (s.ctx c).flight.any fun f => f.core = t.2 ∧ !f.done)
    (·.coreFail t.1 t.2 0x0101 badSpares) s

/-- CORE_UE (R157). -/
def execCoreUe (k : Fin 45) (badSpares : List Nat) : State → Out :=
  actFault .dec (corePage (coreOf k).1 (coreOf k).2) 0x0100 0 fun s =>
    s.coreFail (coreOf k).1 (coreOf k).2 0x0100 badSpares

/-- READ (R123). -/
def execFlumeRead (c : Fin 512) (k : W32) : State → Out := act .flm fun s => s.consumerOp c (.read k.toNat)
/-- MARK (R123). -/
def execFlumeMark (c : Fin 512) : State → Out := act .flm fun s => s.consumerOp c .mark
/-- REWIND (R123). -/
def execFlumeRewind (c : Fin 512) : State → Out := act .flm fun s => s.consumerOp c .rewind
/-- RELEASE (R123). -/
def execFlumeRelease (c : Fin 512) (p : W32) : State → Out := act .flm fun s => s.consumerOp c (.release p.toNat)
/-- DROP_REM (R123). -/
def execFlumeDropRem (c : Fin 512) : State → Out := act .flm fun s => s.consumerOp c .dropRem

end Sys2Proof.Machine
end

