-- ==== Sys2Proof/Machine/Bucking.lean ====
section
/-! DEFINITION. The bucking table and the tile types as every block reads them (R223-R226), the extents of the wall,
and the pixel-rate rules over them (R11-R13, R266, R267). -/
namespace Sys2Proof.Machine

/-- An enabled tile: a bucking entry with its tile type. -/
structure TileCfg where
  t : Nat
  port : Nat
  pos : Nat
  orient : Nat
  typ : Nat
  x : Nat
  y : Nat
  lmbase : Nat
  typeEn : Bool
  fmt36 : Bool
  w : Nat
  h : Nat
  maxDrive : Nat
deriving DecidableEq, Repr

namespace TileCfg

/-- Width of the footprint on the wall (R225). -/
def fw (e : TileCfg) : Nat := if e.orient % 2 = 0 then e.w else e.h
/-- Height of the footprint on the wall. -/
def fh (e : TileCfg) : Nat := if e.orient % 2 = 0 then e.h else e.w
/-- Lamp pixels of the tile. -/
def lamps (e : TileCfg) : Nat := e.w * e.h
/-- Lamp pixels of one PIXEL cell (R266). -/
def perCell (e : TileCfg) : Nat := if e.fmt36 then 110 else 83
/-- PIXEL cells of one slot. -/
def cells (e : TileCfg) : Nat := cdiv e.lamps e.perCell

/-- Position of lamp (i, j) within the footprint (Table 9.3). -/
def lampPos (e : TileCfg) (i j : Nat) : Nat × Nat :=
  match e.orient with
  | 0 => (i, j)
  | 1 => (e.h - 1 - j, i)
  | 2 => (e.w - 1 - i, e.h - 1 - j)
  | 3 => (j, e.w - 1 - i)
  | 4 => (e.w - 1 - i, j)
  | 5 => (e.h - 1 - j, e.w - 1 - i)
  | 6 => (i, e.h - 1 - j)
  | _ => (j, i)

/-- Do two intervals of starts and lengths share a point? -/
def meet (a n b m : Nat) : Bool := a < b + m && b < a + n

/-- Do two tiles fail R226 against each other, in the way of a code? -/
def clash (code : Nat) (e o : TileCfg) : Bool :=
  if code = 0x21 then e.port = o.port && e.pos = o.pos
  else if code = 0x22 then meet e.x e.fw o.x o.fw && meet e.y e.fh o.y o.fh
  else if code = 0x23 then meet e.lmbase e.lamps o.lmbase o.lamps
  else false

/-- Does a tile fail R226 by itself, in the way of a code? -/
def alone (code : Nat) (e : TileCfg) : Bool :=
  if code = 0x20 then !e.typeEn
  else if code = 0x22 then 65536 < e.x + e.fw || 65536 < e.y + e.fh
  else if code = 0x23 then 67108864 < e.lmbase + e.lamps
  else false

end TileCfg

/-- Lamp-pixel limit of a port at a rate code (R10, R267). -/
def portLimit (rate : Nat) (is36 : Bool) : Nat :=
  match rate, is36 with
  | 0, false => 2000000000
  | 0, true => 2600000000
  | 1, false => 1000000000
  | 1, true => 1300000000
  | _, false => 485000000
  | _, true => 631000000

/-- A slot rate: slots per wall frame times the wall frame rate. -/
structure SlotRate where
  q : Nat
  num : Nat
  den : Nat
deriving DecidableEq, Repr

/-- Do `n` items per slot stay within `limit` a second? -/
def SlotRate.within (r : SlotRate) (n limit : Nat) : Bool := n * r.q * r.num ≤ limit * r.den

namespace State

/-- Bucking entry `t` of copy `k0` with its type in copy `k1` of the type table. -/
def tileCfg (s : State) (k0 k1 t : Nat) : TileCfg :=
  let b (i : Nat) : Nat := s.tabAt pLmp 0 k0 (4 * t + i)
  let typ := bitsOf (b 0) 0 6
  let y (i : Nat) : Nat := s.tabAt pLmp 1 k1 (16 * typ + i)
  { t := t, port := bitsOf (b 0) 24 6, pos := bitsOf (b 0) 16 6, orient := bitsOf (b 0) 8 3, typ := typ
    x := bitsOf (b 1) 16 16, y := bitsOf (b 1) 0 16, lmbase := bitsOf (b 2) 0 26
    typeEn := bitOf (y 0) 31, fmt36 := bitOf (y 0) 30, w := bitsOf (y 1) 16 16, h := bitsOf (y 1) 0 16
    maxDrive := bitsOf (y 2) 16 16 }

/-- Is bucking entry `t` of copy `k0` enabled? -/
def entEn (s : State) (k0 t : Nat) : Bool := bitOf (s.tabAt pLmp 0 k0 (4 * t)) 31

/-- Enabled tiles of a pair of copies, ascending. -/
def tilesIn (s : State) (k0 k1 : Nat) : List TileCfg :=
  ((List.range 4032).filter fun t => s.entEn k0 t).map fun t => s.tileCfg k0 k1 t

/-- Tiles in force. -/
def tiles (s : State) : List TileCfg := s.tilesIn (s.activeCopy pLmp 0) (s.activeCopy pLmp 1)
/-- A tile in force. -/
def tile (s : State) (t : Nat) : TileCfg := s.tileCfg (s.activeCopy pLmp 0) (s.activeCopy pLmp 1) t
/-- Is a tile of the tables in force enabled? -/
def tileEn (s : State) (t : Nat) : Bool := s.entEn (s.activeCopy pLmp 0) t
/-- Tiles in force of a port. -/
def portTiles (s : State) (p : Nat) : List TileCfg := s.tiles.filter fun e => e.port = p
/-- The tile in force at a chain position. -/
def tileAt (s : State) (p pos : Nat) : Option TileCfg := s.tiles.find? fun e => e.port = p ∧ e.pos = pos
/-- A matrix coefficient of a tile's type, Q8.24. -/
def tileMat (s : State) (typ r c : Nat) : Int := signed 32 (s.tab pLmp 1 (16 * typ + 3 + 3 * r + c))

/-- Extents of the wall: the least rectangle from the origin that holds every footprint. -/
def wallSize (s : State) : Nat × Nat :=
  s.tiles.foldl (fun a e => (max a.1 (e.x + e.fw), max a.2 (e.y + e.fh))) (0, 0)

/-- The check of R226: the code and the first failing entry, or `none`. -/
def tableFault (s : State) (k0 k1 : Nat) : Option (Nat × Nat) :=
  let l := s.tilesIn k0 k1
  l.findSome? fun e =>
    ([0x20, 0x21, 0x22, 0x23].find? fun c => e.alone c || l.any fun o => o.t ≠ e.t && e.clash c o).map fun c => (c, e.t)

/-! ## Pixel rates -/

/-- Rate code that the checks use for a port (R267). -/
def portRate (s : State) (p : Nat) : Nat :=
  if s.lstate p = 3 ∨ s.lstate p = 4 then s.fld (pJlk + p) O.JLK_PORT_STAT 24 2
  else let r := s.fld (pJlk + p) O.JLK_PORT_CTL 0 2
    if r = 3 then 0 else r

/-- Does a port keep R11 and R266 with a list of tiles, at a slot rate and a rate code? -/
def portFits (l : List TileCfg) (p rate : Nat) (r : SlotRate) : Bool :=
  let l := l.filter fun e => e.port = p
  let lim := portLimit rate (l.all (·.fmt36))
  let per := if l.all (·.fmt36) then 110 else 83
  r.within (l.map (·.lamps)).sum lim && r.within ((l.map (·.cells)).sum * per) lim

/-- Landing lanes in service (LND.LANES). -/
def lanes (s : State) : Nat := s.fld pLnd O.LND_LANES 0 7
/-- P_dev of R12, lamp pixels per second. -/
def devLimit (s : State) : Nat := min 128000000000 ((s.lanes - 16) * 1600000000)

/-- Do tiles and a slot rate keep R11, R12 and R266 (R13)? -/
def ratesFit (s : State) (l : List TileCfg) (r : SlotRate) : Bool :=
  r.within (l.map (·.lamps)).sum s.devLimit && (List.range 64).all fun p => portFits l p (s.portRate p) r

/-- Slot rate of the mode in force. -/
def slotRate (s : State) : SlotRate := ⟨s.slotsPerFrame, s.frateNum, s.frateDen⟩

/-- Is a port BLACK port-wide under a condition of Table 18.3, the pages that all content crosses included? -/
def portDark (s : State) (p : Nat) : Bool :=
  s.portBlack p || !s.running pLnd || !s.running pLmp || !s.running (pJlk + p)

/-- Ports that R13 blanks because lanes were lost: the smallest run of the highest-numbered ports among those that are
composed. -/
def ratePorts (s : State) : List Nat :=
  let n (p : Nat) : Nat := ((s.portTiles p).map (·.lamps)).sum
  let ps := (List.range 64).filter fun p => !s.portDark p && n p ≠ 0
  ((List.range (ps.length + 1)).findSome? fun k =>
    let keep := ps.take (ps.length - k)
    if s.slotRate.within (keep.map n).sum s.devLimit then some (ps.drop (ps.length - k)) else none).getD ps

/-- A port comes to run at a rate, or the configuration changes: R267's BLACK starts or ends. -/
def portRateCheck (s : State) (p : Nat) : State :=
  if portFits s.tiles p (s.portRate p) s.slotRate then s.endPort p .allowance else s.startPort p .allowance

end State
end Sys2Proof.Machine
end

