-- ==== Sys2Proof/Machine/Coding.lean ====
section
/-! DEFINITION. The bytes of an encoded stream as far as the spec has the engine write them: the buffer model's signalling
(R173), filler (R172), packetisation (R181) and the transport stream (R182). Chapter 07 does not restate the codecs' own
syntax; what of it is used here is that of the codecs' and the transport stream's standards (PRESUMED, log 119). -/
namespace Sys2Proof.Machine

/-! ## Bits -/

/-- Bits of a number, most significant first. -/
def uBits (n v : Nat) : List Bool := (List.range n).map fun i => bitOf v (n - 1 - i)

/-- Exp-Golomb code of a number. -/
def ueBits (v : Nat) : List Bool := List.replicate (v + 1).log2 false ++ uBits ((v + 1).log2 + 1) (v + 1)

/-- Bits packed into bytes, the last filled with zeros. -/
def packBits : Nat → List Bool → List Byte
  | 0, _ => []
  | n + 1, l =>
    if l.isEmpty then []
    else BitVec.ofNat 8 ((List.range 8).foldl (fun a i => a * 2 + b2n (l.getD i false)) 0) :: packBits n (l.drop 8)

/-- Bytes of a row of bits. -/
def bitBytes (l : List Bool) : List Byte := packBits l.length l

/-- A raw byte sequence: its bits, a one, and zeros to a byte. -/
def rbsp (l : List Bool) : List Byte := bitBytes (l ++ [true])

/-- Emulation prevention: a byte 3 after two zeros that a byte up to 3 would follow. -/
def escape : Nat → List Byte → List Byte
  | _, [] => []
  | z, b :: r =>
    if 2 ≤ z ∧ b.toNat ≤ 3 then 3#8 :: b :: escape (if b = 0 then 1 else 0) r
    else b :: escape (if b = 0 then z + 1 else 0) r

/-- Big-endian bytes. -/
def beBytes (n v : Nat) : List Byte := (leBytes n v).reverse

/-! ## Headers of the units of a stream: codec 0 HEVC, 1 AVC, 2 AV1 -/

/-- A NAL unit with its header, or an OBU without a size field. -/
def unitOf (codec typ : Nat) (body : List Byte) : List Byte :=
  (if codec = 0 then [BitVec.ofNat 8 (typ * 2), 1] else if codec = 1 then [BitVec.ofNat 8 (96 + typ)]
    else [BitVec.ofNat 8 (typ * 8)]) ++ body

/-- Type of the slices of a picture: IDR_W_RADL, CRA and TRAIL_R in HEVC; IDR and non-IDR in AVC; a frame OBU. -/
def sliceType (codec : Nat) (k : PicKind) : Nat :=
  if codec = 2 then 6
  else match k with
    | .idr => if codec = 0 then 19 else 5
    | .open_ => if codec = 0 then 21 else 1
    | _ => 1

/-- Type of a filler-data NAL unit or padding OBU, and its header's bytes. -/
def fillerUnit (codec n : Nat) : List Byte :=
  let h := if codec = 0 then [0x4C, 1] else if codec = 1 then [0x0C] else [0x78]
  h ++ List.replicate (n - h.length - 1) 0xFF ++ [0x80]
/-- Bytes of filler that `n` bytes owed come to: a unit has at least its header and its trailing byte. -/
def fillerLen (codec n : Nat) : Nat := if n = 0 then 0 else max n (if codec = 0 then 3 else 2)

/-! ## The buffer model's signalling (R173) -/

/-- bit_rate_value and cpb_size_value at scale 0: units of 64 bit/s, and of 16 bits. -/
def Hrd.rateValue (h : Hrd) : Nat := cdiv h.rate 64
def Hrd.sizeValue (h : Hrd) : Nat := h.size / 16

/-- HRD parameters of an HEVC VPS or SPS, or of an AVC SPS. -/
def Hrd.bits (h : Hrd) (codec : Nat) : List Bool :=
  let entry := ueBits (h.rateValue - 1) ++ ueBits (h.sizeValue - 1) ++ [h.cbr]
  if codec = 0 then
    [true, false, false] ++ uBits 4 0 ++ uBits 4 0 ++ uBits 5 23 ++ uBits 5 23 ++ uBits 5 23
      ++ [true] ++ ueBits 0 ++ ueBits 0 ++ entry
  else ueBits 0 ++ uBits 4 0 ++ uBits 4 0 ++ entry ++ uBits 5 23 ++ uBits 5 23 ++ uBits 5 23 ++ uBits 5 0

/-- decoder_model_info of an AV1 sequence header. -/
def av1Model : List Bool := uBits 5 31 ++ uBits 32 1 ++ uBits 5 31 ++ uBits 5 31
/-- operating_parameters_info: decoder and encoder buffer delay, low_delay_mode_flag 0. -/
def Hrd.av1Params (h : Hrd) : List Bool := uBits 32 h.delay ++ uBits 32 (h.full - h.delay) ++ [false]

/-- An SEI message. -/
def seiMessage (typ : Nat) (l : List Bool) : List Byte :=
  let b := if l.length % 8 = 0 then bitBytes l else rbsp l
  [BitVec.ofNat 8 typ, BitVec.ofNat 8 b.length] ++ b

/-- Buffering period. -/
def bufferingPeriod (codec : Nat) (h : Hrd) : List Byte :=
  seiMessage 0 ((if codec = 0 then ueBits 0 ++ [false, false] ++ uBits 24 0 else ueBits 0)
    ++ uBits 24 h.delay ++ uBits 24 (h.full - h.delay))
/-- Picture timing: pictures since the last buffering period, in HEVC's ticks of a frame or AVC's of a field. -/
def pictureTiming (codec since : Nat) : List Byte :=
  seiMessage 1 (if codec = 0 then uBits 24 (max 1 since - 1) ++ uBits 24 0 else uBits 24 (2 * since) ++ uBits 24 0)
/-- AVC recovery point with recovery_frame_cnt 0 (R160). -/
def recoveryPoint : List Byte := seiMessage 6 (ueBits 0 ++ [true, false] ++ uBits 2 0)

/-- An SEI NAL unit. -/
def seiUnit (codec : Nat) (m : List Byte) : List Byte := unitOf codec (if codec = 0 then 39 else 6) (escape 0 (m ++ [0x80]))

/-- Parameter sets of a key picture, with the model's fields between the coder's bits. -/
def paramUnits (codec : Nat) (h : Hrd) (sets : List (List Bool)) : List (List Byte) :=
  let g (i : Nat) : List Bool := sets.getD i []
  let nal (typ : Nat) (l : List Bool) : List Byte := unitOf codec typ (escape 0 (rbsp l))
  match codec with
  | 0 => [nal 32 (g 0 ++ h.bits 0 ++ g 1), nal 33 (g 2 ++ h.bits 0 ++ g 3), nal 34 (g 4)]
  | 1 => [nal 7 (g 0 ++ h.bits 1 ++ g 1), nal 8 (g 2)]
  | _ => [unitOf 2 1 (rbsp (g 0 ++ av1Model ++ g 1 ++ h.av1Params ++ g 2))]

/-- SEI units of a picture. -/
def seiUnits (codec : Nat) (k : PicKind) (h : Hrd) (since : Nat) : List (List Byte) :=
  let key := k = .idr ∨ k = .open_
  if codec = 2 then []
  else (if key then [seiUnit codec (bufferingPeriod codec h)] else []) ++ [seiUnit codec (pictureTiming codec since)]
    ++ if codec = 1 ∧ k = .open_ then [seiUnit 1 recoveryPoint] else []

/-- Units of a picture's slices: a NAL unit each, or one frame OBU of all tile rows. -/
def sliceUnits (codec : Nat) (k : PicKind) (l : List (List Byte)) : List (List Byte) :=
  if codec = 2 then [unitOf 2 6 l.flatten] else l.map (unitOf codec (sliceType codec k))

/-- The access unit of a picture without filler (R160, R173). -/
def accessUnit (codec : Nat) (k : PicKind) (h : Hrd) (since : Nat) (sets : List (List Bool)) (slices : List (List Byte)) :
    List (List Byte) :=
  (if k = .idr ∨ k = .open_ then paramUnits codec h sets else []) ++ seiUnits codec k h since ++ sliceUnits codec k slices

/-- Rows of each slice, first and count, of `n` slices over `rows` rows, as evenly as the rows allow (R160). -/
def sliceRows (rows n : Nat) : List (Nat × Nat) :=
  let n := max 1 (min n rows)
  (List.range n).map fun i => (i * rows / n, (i + 1) * rows / n - i * rows / n)

/-! ## RTP payloads (R181) -/

/-- Cut a list into pieces. -/
def pieces (n : Nat) : Nat → List Byte → List (List Byte)
  | 0, _ => []
  | fuel + 1, l => if l.isEmpty then [] else l.take n :: pieces n fuel (l.drop n)

/-- Fragments of a NAL unit: FU of RFC 7798 or FU-A of RFC 6184. -/
def nalFragments (codec lim : Nat) (u : List Byte) : List (List Byte) :=
  let h := (u.getD 0 0).toNat
  let hl := if codec = 0 then 2 else 1
  let typ := if codec = 0 then bitsOf h 1 6 else h % 32
  let head : List Byte := if codec = 0 then [BitVec.ofNat 8 (h / 128 * 128 + 49 * 2 + h % 2), u.getD 1 0]
    else [BitVec.ofNat 8 (h / 32 * 32 + 28)]
  let cs := pieces (lim - hl - 1) u.length (u.drop hl)
  cs.zipIdx.map fun e =>
    head ++ [BitVec.ofNat 8 (b2n (e.2 = 0) * 128 + b2n (e.2 + 1 = cs.length) * 64 + typ)] ++ e.1

/-- A NAL unit in a packet of its own, or in fragments. -/
def oneUnit (codec lim : Nat) (u : List Byte) : List (List Byte) :=
  if u.length ≤ lim then [u] else nalFragments codec lim u

/-- Units aggregated in one packet (AP or STAP-A), where they are several and fit. -/
def aggregate (codec lim : Nat) (us : List (List Byte)) : List (List Byte) :=
  let p := (if codec = 0 then [0x60, 1] else [0x78]) ++ us.flatMap fun u => beBytes 2 u.length ++ u
  if 2 ≤ us.length ∧ p.length ≤ lim then [p] else us.flatMap (oneUnit codec lim)

/-- LEB128 length of an OBU element. -/
def leb128 : Nat → Nat → List Byte
  | 0, _ => []
  | n + 1, v => if v < 128 then [BitVec.ofNat 8 v] else BitVec.ofNat 8 (128 + v % 128) :: leb128 n (v / 128)

/-- AV1 packets: OBUs put one behind the other, each with its length, and cut where a packet is full. `cur` is the packet
in hand without its aggregation header, `z` says that it begins inside an OBU. -/
def obuPackets (lim : Nat) : Nat → List (List Byte) → List Byte → Bool → List (Bool × Bool × List Byte)
  | 0, _, cur, z => [(z, false, cur)]
  | _ + 1, [], cur, z => if cur.isEmpty then [] else [(z, false, cur)]
  | fuel + 1, u :: r, cur, z =>
    let room := lim - 1 - cur.length
    let whole := leb128 5 u.length ++ u
    if whole.length ≤ room then obuPackets lim fuel r (cur ++ whole) z
    else if room < 4 then (z, false, cur) :: obuPackets lim fuel (u :: r) [] false
    else
      let n := room - 3
      (z, true, cur ++ leb128 5 n ++ u.take n) :: obuPackets lim fuel (u.drop n :: r) [] true

/-- AV1 payloads with their aggregation headers: Z, Y, W = 0, N. -/
def av1Payloads (lim : Nat) (newSeq : Bool) (us : List (List Byte)) : List (List Byte) :=
  let ps := obuPackets lim (2 * us.flatten.length + 2 * us.length + 2) us [] false
  ps.zipIdx.map fun e => BitVec.ofNat 8
    (b2n e.1.1 * 128 + b2n e.1.2.1 * 64 + b2n (newSeq && e.2 = 0) * 8) :: e.1.2.2

/-- Payloads of an access unit: parameter sets and SEI aggregated (AVC: the parameter sets), the rest one by one. -/
def rtpPayloads (codec lim : Nat) (key : Bool) (us : List (List Byte)) : List (List Byte) :=
  if codec = 2 then av1Payloads lim key us
  else
    let typ (u : List Byte) : Nat := if codec = 0 then bitsOf (u.getD 0 0).toNat 1 6 else (u.getD 0 0).toNat % 32
    let head (u : List Byte) : Bool := if codec = 0 then 32 ≤ typ u && typ u < 35 || typ u = 39 else typ u = 7 || typ u = 8
    aggregate codec lim (us.filter head) ++ (us.filter fun u => !head u).flatMap (oneUnit codec lim)

/-! ## Transport stream (R182) -/

/-- Header of a transport packet: PUSI, PID, adaptation field control, continuity counter. -/
def tsHeader (pusi : Bool) (pid afc cc : Nat) : List Byte :=
  [0x47] ++ beBytes 2 (b2n pusi * 2 ^ 14 + pid % 2 ^ 13) ++ [BitVec.ofNat 8 (afc * 16 + cc % 16)]

/-- A section in one transport packet. -/
def tsSection (pid cc : Nat) (body : List Byte) : List Byte :=
  let p := tsHeader true pid 1 cc ++ [0] ++ body ++ beBytes 4 (crcMsb 32 0x04C11DB7 0xFFFFFFFF body)
  p ++ List.replicate (188 - p.length) 0xFF

/-- PAT of a program. -/
def patSection (program pmt : Nat) : List Byte :=
  [0] ++ beBytes 2 (0xB000 + 13) ++ beBytes 2 1 ++ [0xC1, 0, 0] ++ beBytes 2 program ++ beBytes 2 (0xE000 + pmt)
/-- PMT of a program with its one video stream, which carries the PCR. -/
def pmtSection (program video codec : Nat) : List Byte :=
  [2] ++ beBytes 2 (0xB000 + 18) ++ beBytes 2 program ++ [0xC1, 0, 0] ++ beBytes 2 (0xE000 + video) ++ beBytes 2 0xF000
    ++ [if codec = 0 then 0x24 else if codec = 1 then 0x1B else 0x06] ++ beBytes 2 (0xE000 + video) ++ beBytes 2 0xF000

/-- A PTS in a PES header. -/
def ptsField (p : Nat) : List Byte :=
  [BitVec.ofNat 8 (0x21 + bitsOf p 30 3 * 2)] ++ beBytes 2 (bitsOf p 15 15 * 2 + 1) ++ beBytes 2 (bitsOf p 0 15 * 2 + 1)

/-- PES packet of a picture: PTS and no DTS. -/
def pesOf (codec pts90 : Nat) (us : List (List Byte)) : List Byte :=
  [0, 0, 1, 0xE0, 0, 0, 0x80, 0x80, 5] ++ ptsField (pts90 % 2 ^ 33)
    ++ us.flatMap fun u => (if codec = 2 then [] else [0, 0, 0, 1]) ++ u

/-- PCR of a stand time: 33 bits at 90 kHz, 6 reserved, 9 bits at 27 MHz. -/
def pcrField (t : Nat) : List Byte :=
  let c := t * 27 / 1000
  beBytes 6 (c / 300 % 2 ^ 33 * 2 ^ 15 + 0x7E00 + c % 300)

/-- Video packets of a PES: the PCR on the first, stuffing on the last that has payload. -/
def videoPackets (pid : Nat) : Nat → Option (List Byte) → Bool → Nat → List Byte → List (List Byte)
  | 0, _, _, _, _ => []
  | n + 1, pcr, first, cc, l =>
    if l.isEmpty then []
    else
      let af : List Byte := match pcr with | some p => 0x10 :: p | none => []
      let room := if af.isEmpty then 184 else 183 - af.length
      let fill := room - min room l.length
      let field : List Byte :=
        if af.isEmpty ∧ fill = 0 then []
        else if af.isEmpty then BitVec.ofNat 8 (fill - 1) :: (if fill = 1 then [] else 0 :: List.replicate (fill - 2) 0xFF)
        else BitVec.ofNat 8 (af.length + fill) :: (af ++ List.replicate fill 0xFF)
      (tsHeader first pid (if field.isEmpty then 1 else 3) cc ++ field ++ l.take room)
        :: videoPackets pid n none false (cc + 1) (l.drop room)

/-- A packet of adaptation field only, which completes the last datagram of a picture. -/
def stuffPacket (pid cc : Nat) : List Byte := tsHeader false pid 2 cc ++ [183, 0] ++ List.replicate 182 0xFF

/-- UDP or RTP payloads of a picture at stand time `now`: PAT and PMT when 100 ms have passed, the PES with a PCR, seven
packets to a datagram. -/
def tsPayloads (codec program pmt video now pts90 : Nat) (t : TsSt) (us : List (List Byte)) : List (List Byte) × TsSt :=
  let psi : Bool := t.psi.all fun p => decide (p + 100000000 ≤ now)
  let cc (i : Nat) : Nat := t.cc.getD i 0
  let pre := if psi then [tsSection 0 (cc 0) (patSection program pmt), tsSection pmt (cc 1) (pmtSection program video codec)]
    else []
  let pes := pesOf codec pts90 us
  let vs := videoPackets video pes.length (some (pcrField now)) true (cc 2) pes
  let all := pre ++ vs
  let pad := (7 - all.length % 7) % 7
  let last := cc 2 + vs.length
  let all := all ++ List.replicate pad (stuffPacket video (last + 15))
  ((List.range (all.length / 7)).map fun i => ((all.drop (7 * i)).take 7).flatten,
    { cc := [cc 0 + b2n psi, cc 1 + b2n psi, last], psi := if psi then some now else t.psi })

end Sys2Proof.Machine
end

