-- ==== Sys2Proof/Machine/Sampling.lean ====
section
/-! DEFINITION. The sampling filters that the Landing and the encode cores share (R204, R167), and the normal values of
samples (R211). -/
namespace Sys2Proof.Machine

/-! ## Sampling (R204) -/

/-- What a layer samples: a picture in a ring slot, its size, and whether it is RGB, full range, and 4:4:4. -/
structure Pic where
  base : Nat
  pitch : Nat
  width : Nat
  height : Nat
  rgb : Bool
  full : Bool
  colour : Nat
  is444 : Bool
deriving DecidableEq, Repr

/-- Coefficients of the eight taps of a phase at a bandwidth (R204). -/
def filterTaps (sb : Rat) (p : Nat) : List Int :=
  let at_ (k : Nat) : Rat := (k : Rat) - 3 - (p : Rat) / 64
  let raw := (List.range 8).map fun k => sinc (at_ k / sb) * sinc (at_ k / 4)
  let sum := raw.sum
  let r := raw.map fun c => roundHalf (512 * c / sum)
  let near := if p ≤ 32 then 3 else 4
  r.mapIdx fun k c => if k = near then c + (512 - r.sum) else c

/-- Bandwidth of AUTO for a scale factor. -/
def autoBand (s : Rat) : Rat := (([1, 3 / 2, 2, 3, 4, 5, 6, 8] : List Rat).find? fun b => s ≤ b).getD 8

/-- First tap column and phase of a coordinate. -/
def tapStart (u : Rat) : Int × Nat :=
  let f := (u - 1 / 2).floor
  let p := (roundHalf ((u - 1 / 2 - f) * 64)).toNat
  if p = 64 then (f + 1 - 3, 0) else (f - 3, p)

/-- Sum of products of taps and samples. -/
def tapSum (c : List Int) (f : Nat → Int) : Int := (c.zipIdx.map fun e => e.1 * f e.2).sum

/-! ## Normal values (R211) -/

/-- Kr and Kb of a colour. -/
def kCoef (colour : Nat) : Rat × Rat :=
  if colour ≤ 1 then (2126 / 10000, 722 / 10000) else (2627 / 10000, 593 / 10000)

/-- Y′, or a component of RGB, normalised (R211). -/
def normY (full : Bool) (v : Rat) : Rat := if full then v / 1023 else (v - 64) / 876
/-- Chroma normalised. -/
def normC (full : Bool) (v : Rat) : Rat := if full then (v - 512) / 1023 else (v - 512) / 896

end Sys2Proof.Machine
end

