-- ==== Sys2Proof/Machine/Motion.lean ====
section
/-! DEFINITION. The pictures that an encode core works on: the source's samples scaled into the input ring (R167), their
conversion to the coded format (R161), and the motion search (R178). -/
namespace Sys2Proof.Machine

/-! ## Scaling of a source picture (R167) -/

/-- How an axis of `n` source samples meets `m` coded ones: first source sample and how many are used, the scale, and the
coded samples of black before them. -/
structure Axis where
  first : Nat
  used : Nat
  scale : Rat
  lead : Nat
deriving DecidableEq, Repr

/-- 1:1 and centred where the source is smaller; the middle eight times the coded size where it is larger than that. -/
def axisOf (n m : Nat) : Axis :=
  if n < m then ⟨0, n, 1, (m - n) / 2⟩
  else if 8 * m < n then ⟨(n - 8 * m) / 2, 8 * m, 8, 0⟩
  else ⟨0, n, (n : Rat) / (max 1 m : Nat), 0⟩

/-- Is a coded sample outside the picture taken 1:1? -/
def Axis.outside (a : Axis) (i : Nat) : Bool := a.scale = 1 && (i < a.lead || a.lead + a.used ≤ i)
/-- Source coordinate of a coded sample. -/
def Axis.at_ (a : Axis) (i : Nat) : Rat := a.first + ((i - a.lead : Nat) + 1 / 2) * a.scale

namespace State

/-- A stored component of a ring picture on its own grid: chroma of packed 4:2:2 has one sample for two columns (R137). -/
def rawSample (s : State) (p : Pic) (comp col row : Nat) : Nat :=
  if p.is444 then
    bitsOf (leNat (s.hbmBytes (p.base + row * p.pitch + col / 4 * 15) 15)) (30 * (col % 4) + [10, 0, 20].getD comp 0) 10
  else
    let g := if comp = 0 then col / 2 else col
    bitsOf (leNat (s.hbmBytes (p.base + row * p.pitch + g * 5) 5))
      (if comp = 0 then 10 + 20 * (col % 2) else if comp = 1 then 0 else 20) 10

/-- A component of a 4:4:4 picture as Y, Cb or Cr: an RGB picture by the matrix of its COLOUR (R161). -/
def ycc (s : State) (p : Pic) (comp col row : Nat) : Nat :=
  if !p.rgb then s.rawSample p comp col row
  else
    let n (c : Nat) : Rat := normY p.full (s.rawSample p c col row)
    let k := kCoef p.colour
    let y := k.1 * n 2 + (1 - k.1 - k.2) * n 0 + k.2 * n 1
    let q (x : Rat) : Nat := (max 0 (min 1023 (roundHalf x))).toNat
    let c (d : Rat) : Nat := q (512 + (if p.full then 1023 else 896) * d)
    if comp = 0 then q (if p.full then 1023 * y else 64 + 876 * y)
    else if comp = 1 then c ((n 1 - y) / (2 * (1 - k.2)))
    else c ((n 2 - y) / (2 * (1 - k.1)))

/-- A source sample in 4:2:2: chroma of a 4:4:4 picture averaged in horizontal pairs (R161). -/
def srcSample (s : State) (p : Pic) (comp col row : Nat) : Nat :=
  if comp = 0 ∨ !p.is444 then s.ycc p comp col row
  else if 2 * col + 1 < p.width then (s.ycc p comp (2 * col) row + s.ycc p comp (2 * col + 1) row + 1) / 2
  else s.ycc p comp (2 * col) row

/-- A coded sample of a source picture, scaled with the 8-tap filter plane by plane (R167). -/
def scaledSample (s : State) (p : Pic) (comp : Nat) (ax ay : Axis) (i j : Nat) : Nat :=
  if ax.outside i ∨ ay.outside j then (if comp ≠ 0 then 512 else if p.full then 0 else 64)
  else
    let hold (a : Axis) (k : Int) : Nat := (max (a.first : Int) (min k (a.first + a.used - 1 : Nat))).toNat
    let tu := tapStart (ax.at_ i)
    let tv := tapStart (ay.at_ j)
    let sum := tapSum (filterTaps (autoBand ay.scale) tv.2) fun y => tapSum (filterTaps (autoBand ax.scale) tu.2) fun x =>
      s.srcSample p comp (hold ax (tu.1 + x)) (hold ay (tv.1 + y))
    (max 0 (min 1023 (rdiv sum 262144))).toNat

/-- Write a source picture, scaled to the encode size, into a frame of the input ring. -/
def putInput (s : State) (p : Pic) (base pitch w h : Nat) : State :=
  let ay := axisOf p.height h
  let ax := axisOf p.width w
  let ac := axisOf (cdiv p.width 2) (w / 2)
  let line (t : State) (j : Nat) : State := t.setHbm (base + j * pitch) (packLine 0 w
    ((List.range w).map fun i => s.scaledSample p 0 ax ay i j)
    ((List.range (w / 2)).map fun i => s.scaledSample p 1 ac ay i j)
    ((List.range (w / 2)).map fun i => s.scaledSample p 2 ac ay i j))
  (List.range h).foldl line s

/-! ## The coded format (R161) -/

/-- A sample of the coded depth. -/
def toDepth (ten : Bool) (x : Nat) : Nat := if ten then x else min 255 ((x + 2) / 4)

/-- The picture in a frame of the input ring in the coded format: 4:2:0, and 8 bits where the stream has them. -/
def codedPic (s : State) (base pitch w h : Nat) (ten : Bool) : Plane × Plane × Plane :=
  let p : Pic := ⟨base, pitch, w, h, false, false, 1, false⟩
  let chroma (comp : Nat) : Plane := (List.range (h / 2)).map fun j => (List.range (w / 2)).map fun i =>
    toDepth ten ((s.rawSample p comp i (2 * j) + s.rawSample p comp i (2 * j + 1) + 1) / 2)
  ((List.range h).map fun j => (List.range w).map fun i => toDepth ten (s.rawSample p 0 i j), chroma 1, chroma 2)

end State

/-! ## Motion search (R178); vectors in quarter pixels -/

/-- A vector. -/
abbrev Vec := Int × Int

/-- A luma sample, edge samples repeated outside the picture. -/
def lumaAt (p : Plane) (x y : Int) : Int :=
  let l := p.getD (min (max y 0).toNat (p.length - 1)) []
  (l.getD (min (max x 0).toNat (l.length - 1)) 0 : Nat)

/-- A reference sample at a position in quarter pixels. -/
def refAt (codec : Nat) (p : Plane) (x y : Int) : Int :=
  if x % 4 = 0 ∧ y % 4 = 0 then lumaAt p (x / 4) (y / 4)
  else Config.subSample codec (x % 4).toNat (y % 4).toNat
    ((List.range 8).flatMap fun j => (List.range 8).map fun i => lumaAt p (x / 4 - 3 + i) (y / 4 - 3 + j))

/-- A search: codec, quantiser, the picture and its reference. -/
structure Hunt where
  codec : Nat
  qp : Nat
  src : Plane
  ref : Plane
deriving DecidableEq, Repr

/-- A block: column, line, width, height. -/
structure Blk4 where
  x : Nat
  y : Nat
  w : Nat
  h : Nat
deriving DecidableEq, Repr

namespace Hunt

/-- Differences of a block under a vector. -/
def diffs (g : Hunt) (b : Blk4) (v : Vec) : List Int :=
  (List.range b.h).flatMap fun j => (List.range b.w).map fun i =>
    lumaAt g.src (b.x + i : Nat) (b.y + j : Nat) - refAt g.codec g.ref (4 * (b.x + i : Nat) + v.1) (4 * (b.y + j : Nat) + v.2)

/-- Cost of a vector: SAD, or SATD, and λ times the bits of the vector. -/
def cost (g : Hunt) (b : Blk4) (fine : Bool) (v : Vec) : Nat :=
  let d := g.diffs b v
  (if fine then Config.satd g.codec d else (d.map Int.natAbs).sum)
    + Config.motionLambda g.codec g.qp * Config.vectorBits g.codec v.1 v.2

/-- The vector of least cost; equal costs keep the earlier one. -/
def best (g : Hunt) (b : Blk4) (fine : Bool) (start : Vec) (l : List Vec) : Vec :=
  (l.foldl (fun (a : Vec × Nat) v => let k := g.cost b fine v; if k < a.2 then (v, k) else a) (start, g.cost b fine start)).1

/-- Positions around a vector: `r` steps of `n` quarter pixels each way. -/
def around (v : Vec) (r n : Nat) : List Vec :=
  (List.range (2 * r + 1)).flatMap fun j => (List.range (2 * r + 1)).map fun i =>
    (v.1 + ((i : Int) - r) * n, v.2 + ((j : Int) - r) * n)

/-- The three refinements, the first over ±`r` pixels: the whole-pixel vector and the final one. -/
def refine (g : Hunt) (b : Blk4) (r : Nat) (v : Vec) : Vec × Vec :=
  let whole := g.best b false v (around v r 4)
  let half := g.best b false whole (around whole 1 2)
  (whole, g.best b true half (around half 1 1))

end Hunt

/-- A candidate in whole pixels, within ±1,024 columns and ±512 lines. -/
def clampVec (v : Vec) : Vec :=
  let q (x lim : Int) : Int := 4 * max (-lim) (min lim (roundHalf ((x : Rat) / 4)))
  (q v.1 1024, q v.2 512)

/-- Each vector once, the earlier kept. -/
def firstOnly : List Vec → List Vec → List Vec
  | [], acc => acc.reverse
  | v :: r, acc => firstOnly r (if v ∈ acc then acc else v :: acc)

/-- Component-wise median of vectors: of an even number, the lower of the middle two. -/
def medianOf (l : List Vec) : Vec :=
  let m (a : List Int) : Int := (a.mergeSort (· ≤ ·)).getD ((a.length - 1) / 2) 0
  (m (l.map (·.1)), m (l.map (·.2)))

/-- What a picture's search takes from elsewhere: its composition vectors by block, the final vectors of the previous
picture by block, and its global vector (Table 7.5). -/
structure Hints where
  comp : Nat → Option Vec
  prev : List Vec
  glob : Option Vec

/-- Candidates of a block in the order of Table 7.5; `done` are the final vectors found so far, in raster order. -/
def candidates (h : Hints) (across n : Nat) (done : List Vec) : List Vec :=
  let col := n % across
  let near : List Vec := [if col = 0 then none else done[n - 1]?,
    if n < across then none else done[n - across]?,
    if n < across ∨ col + 1 = across then none else done[n - across + 1]?].filterMap id
  firstOnly (((h.comp n).toList ++ near ++ h.prev[n]?.toList ++ [(0, 0)] ++ h.glob.toList).map clampVec) []

/-- Search the blocks of a picture in raster order: whole-pixel and final vectors. -/
def searchAll (g : Hunt) (h : Hints) (across : Nat) : Nat → Nat → List (Vec × Vec) → List (Vec × Vec)
  | 0, _, acc => acc
  | fuel + 1, n, acc =>
    let b : Blk4 := ⟨16 * (n % across), 16 * (n / across), 16, 16⟩
    let cs := candidates h across n (acc.map (·.2))
    let v := g.best b false (cs.headD (0, 0)) (cs.drop 1)
    searchAll g h across fuel (n + 1) (acc ++ [g.refine b 8 v])

/-- Vectors of the partitions smaller than 16 × 16, refined from their block's over ±2 pixels. -/
def searchParts (g : Hunt) (across : Nat) (final : List Vec) (parts : List (Nat × Nat × Nat × Nat)) : List Vec :=
  parts.map fun q =>
    let v := final.getD (q.2.1 / 16 * across + q.1 / 16) (0, 0)
    (g.refine ⟨q.1, q.2.1, q.2.2.1, q.2.2.2⟩ 2 (clampVec v)).2

end Sys2Proof.Machine
end

