-- ==== Sys2Proof/Machine/EncodeCtx.lean ====
section
/-! DEFINITION. Encoding (chapter 07): the encode descriptor and its checks, pictures and their sources, rate control,
key requests, egress; and the commands that open, change, close and migrate a context of any type. -/
namespace Sys2Proof.Machine

/-! ## Levels (R159, R163); the limits are those of the codecs' own standards (PRESUMED) -/

/-- A level: its code in the codec's syntax, limits on picture size and luma samples per second, and on the bit rate
and the buffer, in kbit, of the Main and the High tier (0: the tier lacks the level). -/
structure Level where
  code : Nat
  pic : Nat
  rate : Nat
  brMain : Nat
  brHigh : Nat
  cpbMain : Nat
  cpbHigh : Nat
deriving DecidableEq, Repr

/-- Levels of HEVC up to 5.1. -/
def hevcLevels : List Level :=
  [⟨30, 36864, 552960, 128, 0, 350, 0⟩, ⟨60, 122880, 3686400, 1500, 0, 1500, 0⟩,
   ⟨63, 245760, 7372800, 3000, 0, 3000, 0⟩, ⟨90, 552960, 16588800, 6000, 0, 6000, 0⟩,
   ⟨93, 983040, 33177600, 10000, 0, 10000, 0⟩, ⟨120, 2228224, 66846720, 12000, 30000, 12000, 30000⟩,
   ⟨123, 2228224, 133693440, 20000, 50000, 20000, 50000⟩, ⟨150, 8912896, 267386880, 25000, 100000, 25000, 100000⟩,
   ⟨153, 8912896, 534773760, 40000, 160000, 40000, 160000⟩]

/-- Levels of AVC High up to 5.2, in macroblocks; bit rate and buffer with the factor 1.25 of the profile. -/
def avcLevels : List Level :=
  ([(10, 99, 1485, 64, 175), (9, 99, 1485, 128, 350), (11, 396, 3000, 192, 500), (12, 396, 6000, 384, 1000),
    (13, 396, 11880, 768, 2000), (20, 396, 11880, 2000, 2000), (21, 792, 19800, 4000, 4000),
    (22, 1620, 20250, 4000, 4000), (30, 1620, 40500, 10000, 10000), (31, 3600, 108000, 14000, 14000),
    (32, 5120, 216000, 20000, 20000), (40, 8192, 245760, 20000, 25000), (41, 8192, 245760, 50000, 62500),
    (42, 8704, 522240, 50000, 62500), (50, 22080, 589824, 135000, 135000), (51, 36864, 983040, 240000, 240000),
    (52, 36864, 2073600, 240000, 240000)] : List (Nat × Nat × Nat × Nat × Nat)).map fun l =>
    ⟨l.1, l.2.1 * 256, l.2.2.1 * 256, l.2.2.2.1 * 5 / 4, l.2.2.2.1 * 5 / 4, l.2.2.2.2 * 5 / 4, l.2.2.2.2 * 5 / 4⟩

/-- Levels of AV1 up to 5.1; the buffer is one second at the highest bit rate. -/
def av1Levels : List Level :=
  [⟨0, 147456, 4423680, 1500, 0, 1500, 0⟩, ⟨1, 278784, 8363520, 3000, 0, 3000, 0⟩,
   ⟨4, 665856, 19975680, 6000, 0, 6000, 0⟩, ⟨5, 1065024, 31950720, 10000, 0, 10000, 0⟩,
   ⟨8, 2359296, 70778880, 12000, 30000, 12000, 30000⟩, ⟨9, 2359296, 141557760, 20000, 50000, 20000, 50000⟩,
   ⟨12, 8912896, 267386880, 30000, 100000, 30000, 100000⟩, ⟨13, 8912896, 534773760, 40000, 160000, 40000, 160000⟩]

/-- Luma size a codec counts: whole macroblocks in AVC. -/
def lumaSize (codec w h : Nat) : Nat := if codec = 1 then cdiv w 16 * cdiv h 16 * 256 else w * h

/-- Largest width and height of an AV1 level. -/
def av1Sides (code : Nat) : Nat × Nat :=
  if code = 0 then (2048, 1152) else if code = 1 then (2816, 1584) else if code = 4 then (4352, 2448)
  else if code = 5 then (5504, 3096) else if code < 12 then (6144, 3456) else (8192, 4352)

/-- Do the sides keep the level: in HEVC and AVC each at most the square root of eight times the picture size, AVC counting
macroblocks? -/
def levelSides (codec : Nat) (l : Level) (w h : Nat) : Bool :=
  if codec = 2 then w ≤ (av1Sides l.code).1 && h ≤ (av1Sides l.code).2
  else if codec = 1 then cdiv w 16 ^ 2 ≤ 8 * (l.pic / 256) && cdiv h 16 ^ 2 ≤ 8 * (l.pic / 256)
  else w * w ≤ 8 * l.pic && h * h ≤ 8 * l.pic

/-- The lowest level of the tier that admits a size, rate, bit rate and buffer (R163). -/
def levelOf (codec : Nat) (high : Bool) (w h fnum fden br cpb : Nat) : Option Nat :=
  let ls := if codec = 0 then hevcLevels else if codec = 1 then avcLevels else av1Levels
  let n := lumaSize codec w h
  (ls.find? fun l => n ≤ l.pic && levelSides codec l w h && n * fnum ≤ l.rate * fden
    && br ≤ (if high && codec ≠ 1 then l.brHigh else l.brMain)
    && cpb ≤ (if high && codec ≠ 1 then l.cpbHigh else l.cpbMain)).map (·.code)

/-! ## The descriptor (R162-R164) -/

/-- An encode descriptor's fields, with DW7-DW9. -/
structure EncCfg where
  d : List W32
  width : Nat
  height : Nat
  fnum : Nat
  fden : Nat
deriving DecidableEq, Repr

namespace EncCfg

/-- A descriptor word. -/
def w (e : EncCfg) (i : Nat) : Nat := (e.d.getD i 0).toNat
/-- CODEC. -/
def codec (e : EncCfg) : Nat := bitsOf (e.w 0) 28 4
/-- SRC_KIND is TAP. -/
def tap (e : EncCfg) : Bool := bitsOf (e.w 0) 24 2 = 0
/-- CARRIAGE: 0 RTP, 1 TS in UDP, 2 TS in RTP. -/
def carriage (e : EncCfg) : Nat := bitsOf (e.w 0) 17 2
/-- BITRATE, kbit/s. -/
def bitrate (e : EncCfg) : Nat := e.w 1
/-- CPB, kbit. -/
def cpb (e : EncCfg) : Nat := e.w 2
/-- VBR. -/
def vbr (e : EncCfg) : Bool := bitOf (e.w 3) 31
/-- Initial removal delay D0, s. -/
def d0 (e : EncCfg) : Rat :=
  let m := bitsOf (e.w 3) 0 16
  if m = 0 then (9 * e.cpb : Nat) / (10 * max 1 e.bitrate : Nat) else (m : Rat) / 1000
/-- OUT_LIMIT in bytes. -/
def outLimit (e : EncCfg) : Nat := if e.w 11 = 0 then 250 * e.cpb else e.w 11 * 1024
/-- Largest size of a skip picture, bytes (R172). -/
def sSkip (e : EncCfg) : Nat := 256 + cdiv (cdiv e.width 64 * cdiv e.height 64) 4
/-- WORK_BASE. -/
def workBase (e : EncCfg) : Nat := bitsOf (e.w 9) 16 16 * 65536 + bitsOf (e.w 10) 0 4 * 2 ^ 32
/-- Bytes of an input frame (R164). -/
def frameBytes (e : EncCfg) : Nat := slotBytesOf (pitchOf 0 e.width) e.height
/-- Bytes of a composition-vector map. -/
def cvBytes (e : EncCfg) : Nat := cdiv (cdiv e.width 16 * cdiv e.height 16 * 4) 65536 * 65536
/-- IN_SLOTS. -/
def inSlots (e : EncCfg) : Nat := bitsOf (e.w 9) 0 4
/-- Bytes of the work region. -/
def workBytes (e : EncCfg) : Nat :=
  (e.inSlots + 2) * (e.frameBytes + e.cvBytes) + cdiv e.outLimit 65536 * 65536
/-- TAP_FEED. -/
def tapFeed (e : EncCfg) : Nat := bitsOf (e.w 6) 29 3
/-- SRC_CTX. -/
def srcCtx (e : EncCfg) : Nat := bitsOf (e.w 6) 0 9
/-- Tap rectangle: x, y, width, height. -/
def rect (e : EncCfg) : Nat × Nat × Nat × Nat :=
  (bitsOf (e.w 7) 16 16, bitsOf (e.w 7) 0 16, bitsOf (e.w 8) 16 16, bitsOf (e.w 8) 0 16)
/-- HDR_LEN bytes of the header template. -/
def hdr (e : EncCfg) : List Byte :=
  (((List.range 24).map fun i => leBytes 4 (e.w (32 + i))).flatten).take (bitsOf (e.w 31) 0 8)

/-- Reserved fields and ranges of Table 7.2. -/
def fieldsOk (e : EncCfg) : Bool :=
  e.codec < 3 && bitsOf (e.w 0) 24 2 < 2 && e.carriage < 3 && bitsOf (e.w 3) 16 15 = 0
    && bitsOf (e.w 4) 24 8 ≤ bitsOf (e.w 4) 16 8 && (e.codec = 2 || bitsOf (e.w 4) 16 8 ≤ 51)
    && bitsOf (e.w 5) 7 9 = 0 && 1 ≤ bitsOf (e.w 5) 0 7 && bitsOf (e.w 5) 0 7 ≤ 64
    && (e.carriage = 1 || (512 ≤ bitsOf (e.w 5) 16 16 && bitsOf (e.w 5) 16 16 ≤ 8960))
    && bitsOf (e.w 6) 9 20 = 0 && bitsOf (e.w 9) 4 12 = 0 && 3 ≤ e.inSlots && e.inSlots ≤ 8
    && bitsOf (e.w 10) 4 28 = 0 && bitsOf (e.w 12) 27 5 = 0 && bitsOf (e.w 12) 10 14 = 0

/-- Reserved fields and ranges of Table 7.2, from word 14 on. -/
def fieldsOk2 (e : EncCfg) : Bool :=
  bitsOf (e.w 14) 7 9 = 0 && bitsOf (e.w 16) 29 3 = 0 && bitsOf (e.w 16) 13 3 = 0 && bitsOf (e.w 17) 16 16 = 0
    && bitsOf (e.w 18) 11 21 = 0 && bitsOf (e.w 19) 8 24 = 0 && e.w 20 % 64 = 0
    && ((List.range 9).all fun i => e.w (22 + i) = 0) && bitsOf (e.w 31) 8 24 = 0
    && 42 ≤ bitsOf (e.w 31) 0 8 && bitsOf (e.w 31) 0 8 ≤ 90 && ((List.range 8).all fun i => e.w (56 + i) = 0)

/-- Colour and depth conditions of R163. -/
def colourOk (e : EncCfg) : Bool :=
  let ten := bitOf (e.w 0) 27
  let col := bitsOf (e.w 0) 20 4
  (!e.tap || (1 ≤ col && col ≤ 4 && (col ≤ 2 || ten))) && !(ten && e.codec = 1)

/-- Sizes and rates of Table 7.1 and R163 that the descriptor alone fixes. -/
def sizeOk (e : EncCfg) : Bool :=
  128 ≤ e.width && e.width ≤ 3840 && 96 ≤ e.height && e.height ≤ 2160 && e.width % 2 = 0 && e.height % 2 = 0
    && e.fden ≤ e.fnum && e.fnum ≤ 240 * e.fden
    && (!e.tap || (e.width ≤ e.rect.2.2.1 && e.rect.2.2.1 ≤ 8 * e.width && e.height ≤ e.rect.2.2.2
        && e.rect.2.2.2 ≤ 8 * e.height))

/-- Buffer and bit-rate conditions of R163. -/
def bufferOk (e : EncCfg) : Bool :=
  2 * e.bitrate * e.fden ≤ e.cpb * e.fnum && e.cpb ≤ 10 * e.bitrate && 1 ≤ e.bitrate
    && 16 * e.fnum * e.sSkip ≤ e.bitrate * 1000 * e.fden && e.workBase + e.workBytes ≤ 51539607552

/-- Bytes of the header template before the IP header: Ethernet II and up to two VLAN tags. -/
def l3 (h : List Byte) : Nat :=
  let et (i : Nat) : Nat := beNat ((h.drop i).take 2)
  let tag (v : Nat) : Bool := v = 0x8100 || v = 0x88A8
  if !tag (et 12) then 14 else if !tag (et 16) then 18 else 22

/-- Is the template IPv4? -/
def isV4 (h : List Byte) : Bool := beNat ((h.drop (l3 h - 2)).take 2) = 0x0800

/-- Bytes of the IP header of a template. -/
def ipLen (h : List Byte) : Nat := if isV4 h then (h.getD (l3 h) 0).toNat % 16 * 4 else 40

/-- Is the template consistent, ending right after its UDP header (R180)? -/
def hdrOk (e : EncCfg) : Bool :=
  let h := e.hdr
  let v := (h.getD (l3 h) 0).toNat / 16
  let proto := (h.getD (l3 h + (if isV4 h then 9 else 6)) 0).toNat
  ((isV4 h && v = 4 && 20 ≤ ipLen h) || (beNat ((h.drop (l3 h - 2)).take 2) = 0x86DD && v = 6)) && proto = 17
    && h.length = l3 h + ipLen h + 8

/-- Level signalled, if any admits the context. -/
def level (e : EncCfg) : Option Nat :=
  levelOf e.codec (bitOf (e.w 0) 26) e.width e.height e.fnum e.fden e.bitrate e.cpb

/-- Fields that only closing and reopening, or ENC_RECONFIG, may change (R163). -/
def fixed (e : EncCfg) : List Nat :=
  [e.w 0 / 65536, e.w 1, e.w 2, e.w 3, e.w 5, e.w 6, e.w 9, e.w 10, e.w 11, e.w 12, e.w 13, e.w 14, e.w 15, e.w 16, e.w 17]
    ++ (List.range 42).map fun i => e.w (22 + i)

end EncCfg

/-- A context's descriptor and size. -/
def Ctx.ecfg (x : Ctx) : EncCfg := ⟨x.desc, x.width, x.height, x.fnum, x.fden⟩

namespace State

/-- BAD_PARAM conditions of R163. -/
def encBad (s : State) (e : EncCfg) : Bool :=
  let r := e.rect
  let q := bitsOf (e.w 12) 0 10
  !(e.fieldsOk && e.fieldsOk2 && e.colourOk && e.sizeOk && e.bufferOk && e.hdrOk)
    || (e.tap && (s.wallSize.1 < r.1 + r.2.2.1 || s.wallSize.2 < r.2.1 + r.2.2.2
        || s.frateNum * e.fden < e.fnum * s.frateDen))
    || 515 < q || !s.instExists (bitsOf (e.w 12) 24 3)

/-- TAP contexts open. -/
def tapCount (s : State) : Nat := (s.ctxs.filter fun x => x.2.typ = 3 ∧ x.2.isOpen ∧ x.2.ecfg.tap).length

/-- CTX_OPEN of an encode context (R163). -/
def openEnc (s : State) (r : JobRef) (j : Job) (cls width height fnum fden : Nat) : State :=
  let c := j.ctx
  let e : EncCfg := ⟨s.readDesc j 64, width, height, fnum, fden⟩
  if j.length ≠ 256 ∨ s.encBad e then s.finishSt r stBadParam
  else match e.level with
    | none => s.finishSt r stUnsupported
    | some lv =>
      let x : Ctx := { typ := 3, cls := cls, width := width, height := height, fnum := fnum, fden := fden, desc := e.d
                       enc := { d := e.d0, d0 := e.d0, level := lv, xKey := (width * height * 8) ^ 6
                                xP := (width * height * 2) ^ 6, tapW0 := (s.tim.wframe + 1) % 2 ^ 48 } }
      if 497664000 < x.rate ∨ (e.tap ∧ 64 ≤ s.tapCount) then s.finishSt r stNoCapacity
      else match s.place 3 x.rate none [] with
        | none => s.finishSt r stNoCapacity
        | some cores =>
          ((s.setCtx c ({ x with cores := cores }.goto 1)).openFlume c false).finish r
            { status := stSuccess, result := coresResult 3 cores }

/-- Merge a key request into the pending one, or hold it (R174). -/
def encKey (s : State) (c : Nat) (idr feedback : Bool) : State :=
  s.modCtx c fun x =>
    let e := x.enc
    let e := { e with keyAll := e.keyAll + 1, keyFb := e.keyFb + b2n feedback }
    let join (a : Option Bool) : Option Bool := some (idr || a.getD false)
    let e := if feedback && e.holdoff then { e with keyHeld := join e.keyHeld } else { e with keyReq := join e.keyReq }
    { x with enc := e }.counted

/-- CTX_CONFIG of an encode context (R163): accepted for the key picture at the next boundary. -/
def configEnc (s : State) (r : JobRef) (j : Job) (cls width height fnum fden : Nat) : State :=
  let c := j.ctx
  let x := s.ctx c
  let e : EncCfg := ⟨s.readDesc j 64, width, height, fnum, fden⟩
  let n : Ctx := { x with width := width, height := height, fnum := fnum, fden := fden }
  if j.length ≠ 256 ∨ s.encBad e ∨ e.fixed ≠ x.ecfg.fixed then s.finishSt r stBadParam
  else if e.level = none then s.finishSt r stUnsupported
  else
    let ask := x.rate < n.rate ∨ x.st = 4
    let spot := if 497664000 < n.rate then none
      else if ask then s.place 3 n.rate (some c) [] else some x.cores
    match spot with
    | none => s.finishSt r stNoCapacity
    | some cores =>
      let cfg : NewCfg := ⟨cls, width, height, fnum, fden, e.d⟩
      let s := s.setCtx c { x with newCfg := some cfg, events := 0, evNew := 0 }
      let s := s.encKey c true false
      let s := if x.st = 4 then s.modCtx c fun x => { x with cores := cores, enc := { x.enc with
          tapN := 0, tapW0 := (s.tim.wframe + 1) % 2 ^ 48, t0 := none, cap := none } }.goto 1
        else if cores ≠ x.cores then s.startMig c cores none else s
      s.finish r { status := stSuccess, result := coresResult 3 cores }

/-! ## Picture boundaries (R163, R177) -/

/-- The configuration a change accepted by CTX_CONFIG leads to. -/
def nextCfg (x : Ctx) (c : Option NewCfg) : EncCfg :=
  match c with
  | none => x.ecfg
  | some n => ⟨(List.range 64).map fun i => if i = 1 ∨ i = 2 ∨ i = 3 then x.desc.getD i 0 else n.desc.getD i 0,
      n.width, n.height, n.fnum, n.fden⟩

/-- A change accepted by CTX_CONFIG takes effect with the picture that starts, of presentation time `pts` and, of a tap, of
wall frame `w`; where the frame rate changes, the encode instants count on from that picture. A later change still waits. -/
def encApplyCfg (x : Ctx) (cfg : Option NewCfg) (pts w : Nat) : Ctx :=
  match cfg with
  | none => x
  | some n =>
    let c := nextCfg x cfg
    let e := { x.enc with level := c.level.getD x.enc.level }
    let e := if n.fnum * x.fden = x.fnum * n.fden then e
      else { e with tapN := 1, tapW0 := w, t0 := if x.ecfg.tap then e.t0 else some pts }
    { x with cls := n.cls, width := n.width, height := n.height, fnum := n.fnum, fden := n.fden, desc := c.d
             newCfg := x.newCfg.filter (· ≠ n), enc := e }

/-- The parameters of ENC_RECONFIG take effect: RECONFIG_APPLIED. -/
def encApplyRate (x : Ctx) : Ctx :=
  match x.enc.reconf with
  | some (br, cpb, vbr) =>
    let d := ((x.desc.set 1 (BitVec.ofNat 32 br)).set 2 (BitVec.ofNat 32 cpb)).set 3
      (BitVec.ofNat 32 (putBits (x.w 3) 31 1 (b2n vbr)))
    let e : EncCfg := ⟨d, x.width, x.height, x.fnum, x.fden⟩
    { x with desc := d, enc := { x.enc with
      reconf := none, reconfNext := false, d0 := e.d0, level := e.level.getD x.enc.level } }.event 4
  | none => x

/-- R in bit/s. -/
def encR (x : Ctx) : Rat := (x.ecfg.bitrate * 1000 : Nat)
/-- Frame period 1/f, s. -/
def encT (x : Ctx) : Rat := (x.fden : Rat) / (max 1 x.fnum : Nat)
/-- B/R, s. -/
def encBR (x : Ctx) : Rat := (x.ecfg.cpb : Rat) / (max 1 x.ecfg.bitrate : Nat)

/-- Target size T of a first pass, bits (R171). -/
def encTarget (x : Ctx) (key : Bool) : Rat :=
  let e := x.enc
  let rf := encR x * encT x
  let t := if key then min (9 / 10 * encR x * e.d) (6 * rf) else rf * (1 + (e.d - e.d0))
  min (max t (8 * x.ecfg.sSkip : Nat)) (8 / 10 * encR x * e.d)

/-- Sixth power of the quantiser step: 2^QP, or of an AV1 qindex the step that the codec gives it (R171). -/
def stepPow (x : Ctx) (q : Nat) : Nat :=
  if x.ecfg.codec = 2 then Config.av1Step (bitOf (x.w 0) 27) q ^ 6 else 2 ^ q

/-- The least quantiser at which the complexity meets the target, within its limits (R171). -/
def encQp (x : Ctx) (key : Bool) : Nat :=
  let lo := bitsOf (x.w 4) 24 8
  let hi := bitsOf (x.w 4) 16 8
  let t := encTarget x key ^ 6
  let big : Rat := ((if key then x.enc.xKey else x.enc.xP : Nat) : Rat)
  ((List.range (hi + 1)).find? fun q => lo ≤ q && big ≤ stepPow x q * t).getD hi

/-- Quantiser of a pass (Table 7.4). -/
def passQp (x : Ctx) (p : EncPic) : Nat :=
  let step := if x.ecfg.codec = 2 then 24 else 6
  if p.pass ≤ 1 then p.qp else min (if x.ecfg.codec = 2 then 255 else 51) (p.qp + step * (p.pass - 1))

/-- Kind of a picture (R160): a key picture asked for with IDR = 0 is a CRA or an I picture, in AV1 a key frame. -/
def picKind (x : Ctx) (p : EncPic) : PicKind :=
  if !p.key then .inter else if p.idr ∨ x.ecfg.codec = 2 then .idr else .open_

/-- HBM address of a frame of the input ring; its composition-vector map follows it (R164, R166). -/
def inputBase (e : EncCfg) (slot : Nat) : Nat := e.workBase + slot * (e.frameBytes + e.cvBytes)

/-- The source picture of a CONTEXT context is scaled into the next frame of its input ring (R167). -/
def takeSource (s : State) (c : Nat) (p : EncPic) : State × EncPic :=
  match p.src with
  | none => (s, p)
  | some k =>
    let x := s.ctx c
    let e := x.ecfg
    let src := s.ctx e.srcCtx
    let w0 := s.entW src k 0
    let w4 := s.entW src k 4
    let pic : Pic := ⟨picAddr src k, src.pitch, bitsOf w4 16 16, bitsOf w4 0 16, bitOf w0 14, bitOf w0 15, bitsOf w0 16 4,
      bitsOf w0 12 2 = 1⟩
    let slot := x.enc.capNum % max 1 e.inSlots
    let s := s.putInput pic (inputBase e slot) (pitchOf 0 e.width) e.width e.height
    (s.modCtx c fun x => { x with enc := { x.enc with capNum := x.enc.capNum + 1 } }, { p with slot := slot, src := none })

/-- Wall frame of encode instant n of a TAP context (R165). -/
def tapFrameAt (s : State) (x : Ctx) (n : Nat) : Nat :=
  (x.enc.tapW0 + n * s.frateNum * x.fden / (s.frateDen * max 1 x.fnum)) % 2 ^ 48

/-- Start the picture that is due: changes apply, its kind and quantiser are fixed (R160, R163, R171, R174, R177). -/
def encStart (s : State) (c : Nat) : State :=
  let x := s.ctx c
  match x.enc.pic with
  | none => s
  | some p =>
    let recon := x.enc.reconfNext
    let cfg := if x.ecfg.tap then p.conf else x.newCfg
    let conf := cfg.isSome
    let x := encApplyCfg x cfg p.pts (s.tapFrameAt x (x.enc.tapN - 1))
    let x := if recon then encApplyRate x else x
    let r := (s.setCtx c x).takeSource c p
    let s := r.1
    let p := r.2
    let x := s.ctx c
    let e := x.enc
    let gop := bitsOf (x.w 0) 0 16
    let own := recon || conf || p.want || e.want || e.num = 0 || (gop ≠ 0 && decide (gop ≤ e.sinceKey))
    let key := own || e.keyReq.isSome
    let idr := own || e.keyReq.getD false
    let qp := encQp x key
    let hold := bitsOf (x.w 4) 0 16 ≠ 0xFFFF
    let e := { e with
      pic := some { p with started := true, key := key, idr := idr, pass := 1, qp := qp }
      keyReq := none, want := false, reconfNext := e.reconf.isSome, holdoff := if key then hold else e.holdoff }
    s.setCtx c { x with enc := e }

/-- A picture a core is encoding. -/
def encBusy (s : State) (k : Nat) : Bool :=
  (s.onCore 3 k).any fun c => (s.ctx c).enc.pic.any (·.started)

/-- Order in which a core serves the contexts that have a picture due: class, start time and one frame period, number
(R169). -/
def encBefore (s : State) (a b : Nat) : Bool :=
  let key (c : Nat) : Nat × Nat × Int × Nat :=
    let x := s.ctx c
    (0, x.cls, (x.enc.pic.map (·.start)).getD 0 + framePeriod x, c)
  keyLt (key a) (key b)

/-- A core that is free starts the next picture of its contexts (R169). -/
def encServe (s : State) (k : Nat) : State :=
  if s.encBusy k ∨ !s.inService 3 k then s
  else
    let due := (s.onCore 3 k).filter fun c => (s.ctx c).enc.pic.isSome ∧ (s.ctx c).mig.isNone
    match due.foldl (fun b c => match b with
      | none => some c
      | some a => if s.encBefore c a then some c else b) none with
    | some c => s.encStart c
    | none => s

/-- Every encode core that is free starts the next picture of its contexts: one may have come free without the end of a pass,
or contexts may have moved onto it (R169, R186). -/
def encServeAll (s : State) : State := (List.range 18).foldl encServe s

/-! ## Datagrams (R180-R183) -/

/-- One's-complement sum of 16-bit big-endian words. -/
def sum16 : List Byte → Nat
  | a :: b :: r => a.toNat * 256 + b.toNat + sum16 r
  | [a] => a.toNat * 256
  | [] => 0

/-- Fold a sum into 16 bits. -/
def fold16 (n : Nat) : Nat :=
  let a := n % 65536 + n / 65536
  let b := a % 65536 + a / 65536
  b % 65536 + b / 65536

/-- Replace bytes of a list from an offset. -/
def patch (l : List Byte) (off : Nat) (v : List Byte) : List Byte := l.take off ++ v ++ l.drop (off + v.length)

/-- A datagram: the header template with the fields of Table 7.7, and the UDP payload. -/
def datagram (e : EncCfg) (count : Nat) (payload : List Byte) : List Byte :=
  let h := e.hdr
  let l3 := EncCfg.l3 h
  let v4 := EncCfg.isV4 h
  let n := EncCfg.ipLen h
  let udpLen := 8 + payload.length
  let h := patch h (l3 + n + 4) (beBytes 2 udpLen ++ beBytes 2 0)
  let h := if v4 then
      let h := patch h (l3 + 2) (beBytes 2 (n + udpLen)
        ++ beBytes 2 (beNat ((h.drop (l3 + 4)).take 2) + count))
      let h := patch h (l3 + 10) (beBytes 2 0)
      patch h (l3 + 10) (beBytes 2 (0xFFFF - fold16 (sum16 ((h.drop l3).take n))))
    else patch h (l3 + 4) (beBytes 2 udpLen)
  let addrs := if v4 then (h.drop (l3 + 12)).take 8 else (h.drop (l3 + 8)).take 32
  let sum := 0xFFFF - fold16 (sum16 addrs + 17 + udpLen + sum16 ((h.drop (l3 + n)) ++ payload))
  let h := if v4 ∧ !bitOf (e.w 0) 16 then h
    else patch h (l3 + n + 6) (beBytes 2 (if sum = 0 then 0xFFFF else sum))
  h ++ payload

/-- RTP timestamp of a presentation time (R181). -/
def rtpStamp (e : EncCfg) (pts : Nat) : Nat := (e.w 15 + pts * 90000 / 1000000000) % 2 ^ 32

/-- Fixed RTP header. -/
def rtpHeader (e : EncCfg) (seq pts : Nat) (last : Bool) : List Byte :=
  beBytes 1 0x80 ++ beBytes 1 (b2n last * 128 + bitsOf (e.w 14) 0 7) ++ beBytes 2 (bitsOf (e.w 14) 16 16 + seq)
    ++ beBytes 4 (rtpStamp e pts) ++ beBytes 4 (e.w 13)

/-- The frames of an access unit. -/
def encFrames (x : Ctx) (c pts : Nat) (payloads : List (List Byte)) : List NetFrame :=
  let e := x.ecfg
  payloads.zipIdx.map fun a =>
    let body := if e.carriage = 1 then a.1
      else rtpHeader e (x.enc.packets + a.2) pts (a.2 + 1 = payloads.length) ++ a.1
    { queue := bitsOf (e.w 12) 0 10, inst := bitsOf (e.w 12) 24 3
      bytes := datagram e (x.enc.dgrams + a.2) body, ctx := some c }

/-- Bytes of a context that wait in the Choker. -/
def encQueued (s : State) (c : Nat) : Nat :=
  (((s.chk.inbox ++ s.chk.frames).filter fun f => f.ctx = some c).map fun f => f.bytes.length).sum

/-- UDP or RTP payloads of an access unit (R181, R182), and the transport stream's state behind them. -/
def encPayloads (s : State) (x : Ctx) (pts : Nat) (key : Bool) (us : List (List Byte)) : List (List Byte) × TsSt :=
  let e := x.ecfg
  if e.carriage = 0 then (rtpPayloads e.codec (bitsOf (e.w 5) 16 16) key us, x.enc.ts)
  else tsPayloads e.codec (bitsOf (e.w 17) 0 16) (bitsOf (e.w 16) 16 13) (bitsOf (e.w 16) 0 13) s.tim.time
    (pts * 90000 / 1000000000) x.enc.ts us

/-- Hand an access unit over, or discard it over OUT_LIMIT (R183). -/
def encHand (s : State) (c pts : Nat) (key : Bool) (us : List (List Byte)) : State :=
  let x := s.ctx c
  let r := s.encPayloads x pts key us
  let payloads := r.1
  let fs := encFrames x c pts payloads
  if x.ecfg.outLimit < s.encQueued c + (fs.map fun f => f.bytes.length).sum then
    let s := s.modCtx c fun x => { x with enc := { x.enc with num := x.enc.num + 1, outDrop := x.enc.outDrop + 1 } }.event 5
    s.encKey c false false
  else
    let s := { s with chk := { s.chk with inbox := s.chk.inbox ++ fs } }
    let e := x.enc
    let rtp := if x.ecfg.carriage = 1 then 0 else payloads.length
    let e := { e with
      num := e.num + 1, sent := e.num, dgrams := e.dgrams + payloads.length, packets := e.packets + rtp, ts := r.2
      octets := if x.ecfg.carriage = 1 then e.octets else e.octets + (payloads.map List.length).sum
      lastKey := if key then e.num else e.lastKey, lastRtp := rtpStamp x.ecfg pts }
    let x := { x with enc := e, lastPts := pts }.counted
    let s := s.setCtx c (if key then x.event 1 else x)
    match x.cores with | k :: _ => s.incr (corePage 3 k) O.ENC_PICS | [] => s

/-- Bytes of filler owed to a picture of b bits (R172, R177). -/
def fillerBytes (x : Ctx) (b : Nat) : Nat :=
  let e := x.enc
  let need (lim : Rat) : Rat := encR x * (e.d + encT x - lim) - b
  let cbr := if x.ecfg.vbr then 0 else need (encBR x)
  let chg := match e.reconf with
    | some (br, cpb, _) => if e.reconfNext then need ((cpb : Rat) / (max 1 br : Nat)) else 0
    | none => 0
  fillerLen x.ecfg.codec (max 0 (max cbr chg) / 8).ceil.toNat

/-- What a picture signals of the buffer model (R173). -/
def encHrd (x : Ctx) : Hrd :=
  { rate := x.ecfg.bitrate * 1000, size := x.ecfg.cpb * 1000, cbr := !x.ecfg.vbr
    delay := (x.enc.d * 90000).floor.toNat, full := (encBR x * 90000).floor.toNat }

/-- Rows of the slices of a picture: macroblock rows in AVC, else rows of 64 × 64 blocks (R160). -/
def encRows (x : Ctx) : List (Nat × Nat) :=
  sliceRows (cdiv x.height (if x.ecfg.codec = 1 then 16 else 64)) (bitsOf (x.w 5) 0 7)

/-- Bytes of units. -/
def unitBytes (us : List (List Byte)) : Nat := (us.map List.length).sum

/-- Units cut off at a number of bytes. -/
def cutUnits : Nat → List (List Byte) → List (List Byte)
  | _, [] => []
  | n, u :: r => if n = 0 then [] else u.take n :: cutUnits (n - u.length) r

/-- The access unit of a picture without filler: its slices are those of R160, one for each of their rows, and a skip picture
has at most S_skip bytes (R172). -/
def encUnits (x : Ctx) (k : PicKind) (o : EncOut) : List (List Byte) :=
  let slices := (List.range (encRows x).length).map fun i => o.slices.getD i []
  let us := accessUnit x.ecfg.codec k (encHrd x) x.enc.sinceKey o.sets slices
  if k = .skip then cutUnits x.ecfg.sSkip us else us

/-- A picture is final: filler, the delay headroom, and the access unit goes out (R170, R172). -/
def encFinal (s : State) (c pts : Nat) (k : PicKind) (us : List (List Byte)) : State :=
  let x := s.ctx c
  let b := 8 * unitBytes us
  let fill := fillerBytes x b
  let key := decide (k = .idr ∨ k = .open_)
  let d := x.enc.d + encT x - ((b + 8 * fill : Nat) : Rat) / encR x
  let u : EncUnit := { num := x.enc.num, kind := k, ref := if key then none else x.enc.refNum, rows := encRows x
                       hrd := encHrd x, filler := fill }
  let e := { x.enc with
    d := if x.ecfg.vbr then min d (encBR x) else d
    filler := x.enc.filler + fill, skips := x.enc.skips + b2n (k = .skip)
    sinceKey := if key then 1 else x.enc.sinceKey + 1, unit := some u
    refNum := if k = .skip then x.enc.refNum else some x.enc.num }
  (s.setCtx c ({ x with enc := e }.counted)).encHand c pts key
    (us ++ if fill = 0 then [] else [fillerUnit x.ecfg.codec fill])

/-- A skip picture is coded with no pass of a core (R166, R168, R169). -/
def encSkip (s : State) (c pts : Nat) (o : EncOut) : State :=
  let s := s.modCtx c fun x => { x with enc := { x.enc with reconfNext := x.enc.reconfNext || x.enc.reconf.isSome } }
  s.encFinal c pts .skip (encUnits (s.ctx c) .skip o)

/-! ## Motion search of a first pass (R178) -/

/-- Composition vector of a block of a frame of the input ring (Table 7.6), where its entry is VALID. -/
def compVec (s : State) (e : EncCfg) (slot n : Nat) : Option (Int × Int) :=
  let v := leNat (s.hbmBytes (inputBase e slot + e.frameBytes + 4 * n) 4)
  if bitOf v 31 then some (signed 14 (bitsOf v 16 14), signed 14 (bitsOf v 0 14)) else none

/-- What the search of a P picture takes from elsewhere: no composition vector in the first P picture after a key picture,
and nothing of a key picture. -/
def huntHints (s : State) (x : Ctx) (p : EncPic) : Hints :=
  let e := x.ecfg
  { comp := fun n => if !e.tap ∨ x.enc.sinceKey = 1 then none else s.compVec e p.slot n
    prev := x.enc.mvs.map (·.2)
    glob := if x.enc.mvs.isEmpty then none else some (medianOf (x.enc.mvs.map (·.1))) }

/-- The search of a P picture's first pass. -/
def encHunt (s : State) (x : Ctx) (p : EncPic) (parts : List (Nat × Nat × Nat × Nat)) : Ctx :=
  let e := x.ecfg
  let src := (s.codedPic (inputBase e p.slot) (pitchOf 0 e.width) e.width e.height (bitOf (e.w 0) 27)).1
  let g : Hunt := ⟨e.codec, p.qp, src, x.enc.recon.1⟩
  let across := cdiv e.width 16
  let mvs := searchAll g (s.huntHints x p) across (across * cdiv e.height 16) 0 []
  { x with enc := { x.enc with mvNew := mvs, partMvs := searchParts g across (mvs.map (·.2)) parts } }

/-- Mark the cycles an encode core was busy (Table 7.10). -/
def encCycles (s : State) (c n : Nat) : State :=
  match (s.ctx c).cores with
  | k :: _ => s.addBusy (corePage 3 k) n
  | [] => s

/-- The picture in progress has left its core: what it read is released, skip pictures owed after it go out, the context
may move or close, and the cores that are free start their next pictures. -/
def encDone (s : State) (c : Nat) : State :=
  let x := s.ctx c
  let owed := x.enc.owed
  let s := { s.setCtx c { x with enc := { x.enc with pic := none, owed := [] } } with
    holds := s.holds.filter fun h => h.1 ≠ 8 + c }
  let s := owed.foldl (fun s o => s.encSkip c o.1 o.2) s
  ((s.endMig c).tryClose c).encServeAll

/-- The end of a pass (R170-R175): the picture is final, or it is encoded again, or replaced by a skip picture. -/
def encPass (s : State) (c : Nat) (o skip : EncOut) : State :=
  let x := s.ctx c
  match x.enc.pic with
  | none => s
  | some p =>
    let k := x.cores.headD 0
    let again (x : Ctx) : Ctx := if p.key then
        { x with enc := { x.enc with keyReq := some (p.idr || x.enc.keyReq.getD false) } } else x
    let s := if p.started then s.encCycles c o.busy else s
    if !p.started then s
    else if p.pass = 4 then ((s.modCtx c again).encSkip c p.pts skip).encDone c
    else
    let x := if p.pass = 1 ∧ !p.key then s.encHunt x p o.parts else x
    let k' := picKind x p
    let us := encUnits x k' o
    let bits := 8 * unitBytes us
    if (bits : Rat) ≤ encR x * x.enc.d then
      let cx := bits ^ 6 * stepPow x (passQp x p)
      let e := if p.key then { x.enc with xKey := cx, mvs := [], mvNew := [], partMvs := [] }
        else { x.enc with xP := cx, mvs := x.enc.mvNew }
      ((s.setCtx c { x with enc := { e with recon := o.recon } }).encFinal c p.pts k' us).encDone c
    else if p.pass < 3 then
      (s.setCtx c { x with enc := { x.enc with
        pic := some { p with pass := p.pass + 1 }, reenc := x.enc.reenc + 1 } }.counted).incr (corePage 3 k) O.ENC_REENC
    else
      let x := again (x.event 3)
      let x := if p.key then x.event 2 else x
      let s := ((s.setCtx c x).incr (corePage 3 k) O.ENC_SKIPS).setCause (corePage 3 k) 2
      (s.encFinal c p.pts .skip (encUnits x .skip skip)).encDone c

/-! ## Encode instants (R165-R169) -/

/-- A picture is available: it waits for its core; a picture still in progress makes it a backlog skip picture. -/
def encDue (s : State) (c pts : Nat) (start : Int) (want : Bool) (src : Option Nat) (skip : EncOut) : State :=
  let x := s.ctx c
  let k := x.cores.headD 0
  if x.enc.pic.isSome then
    let x := { x with enc := { x.enc with owed := x.enc.owed ++ [(pts, skip)], want := x.enc.want || want } }
    ((s.setCtx c x).incr (corePage 3 k) O.ENC_LATE_SKIP).countLate (corePage 3 k) |>.setCause (corePage 3 k) 1
  else
    let want := want || x.st ≠ 2
    let slot := (x.enc.capNum + x.ecfg.inSlots - 1) % max 1 x.ecfg.inSlots
    let p : EncPic := { pts := pts, start := start, src := src, want := want, conf := x.enc.capConf, slot := slot }
    let x := { x with enc := { x.enc with pic := some p } }.goto 2
    (s.setCtx c x).encServe k

/-- The instant has no picture to encode: a skip picture once a picture has been sent, and nothing before (R168). -/
def encMissing (s : State) (c pts : Nat) (gone : Bool) (skip : EncOut) : State :=
  let x := s.ctx c
  if x.st = 1 then s
  else
    let x := if gone then x.goto 3 else x
    if x.enc.pic.isSome then
      s.setCtx c { x with enc := { x.enc with owed := x.enc.owed ++ [(pts, skip)] } }
    else ((s.setCtx c x).encSkip c pts skip).tryClose c

/-- Has the wall frame of a tap's next instant gone by, or been captured already, so that its capture is missed (R166)? -/
def tapMissed (s : State) (x : Ctx) : Bool :=
  let w := s.tapFrameAt x x.enc.tapN
  let ahead := (w + 2 ^ 48 - s.tim.wframe) % 2 ^ 48
  2 ^ 47 ≤ ahead || (ahead = 0 && x.enc.lastCap = some s.tim.wframe)

/-- Display instant of a feed's slot in a wall frame, counted from the one in progress. -/
def frameDisplay (s : State) (feed w : Nat) : Int :=
  s.syncTime feed + s.displayDelay
    + rdiv (signed 48 ((w + 2 ^ 48 - s.tim.wframe) % 2 ^ 48) * s.frateDen * 1000000000) (max 1 s.frateNum : Nat)

/-- Encode instant of a TAP context: the capture is complete, or missed, or the feed is absent. -/
def tapInstant (s : State) (c : Nat) (skip : EncOut) : State :=
  let x := s.ctx c
  match x.enc.cap with
  | none =>
    if s.tapMissed x then
      let pts := toBits 64 (s.frameDisplay x.ecfg.tapFeed (s.tapFrameAt x x.enc.tapN))
      (s.setCtx c { x with enc := { x.enc with tapN := x.enc.tapN + 1 } }).encMissing c pts false skip
    else s
  | some (pts, kind) =>
    let s := s.modCtx c fun x => { x with enc := { x.enc with cap := none } }
    if kind = 0 then s.encDue c pts s.tim.time false none skip else s.encMissing c pts (kind = 2) skip

/-- PTS of the first READY picture of a ring. -/
def firstReady (s : State) (x : Ctx) : Option Nat :=
  ((List.range (ringSlots x)).filter fun k => s.sstate x k = 2).foldl (fun b k => match b with
    | none => some (s.slotPts x k)
    | some p => some (min p (s.slotPts x k))) none

/-- Encode instant of a CONTEXT context: the newest READY picture of the source at or before t_n (R165, R167). -/
def srcInstant (s : State) (c : Nat) (skip : EncOut) : State :=
  let x := s.ctx c
  let src := s.ctx x.ecfg.srcCtx
  let usable := src.isOpen && src.typ ≠ 3 && src.st ≠ 4 && src.st ≠ 5
  match x.enc.t0.or (if usable then s.firstReady src else none) with
  | none => s
  | some t0 =>
    let tn := t0 + x.enc.tapN * 1000000000 * x.fden / max 1 x.fnum
    let s := s.reachTime ((tn : Int) - s.displayDelay)
    let s := s.modCtx c fun x => { x with enc := { x.enc with t0 := some t0, tapN := x.enc.tapN + 1 } }
    match if usable then s.newestReady src tn else none with
    | none => s.encMissing c tn true skip
    | some slot =>
      let look := bitsOf (s.entW src slot 0) 14 6 * 2 ^ 32 + s.entW src slot 4
      let chg := x.enc.srcColour.any fun v => v ≠ look
      let s := s.modCtx c fun x =>
        let x := { x with enc := { x.enc with srcColour := some look } }
        if chg then x.event 7 else x
      let s := if x.enc.pic.isSome then s
        else { s with holds := (8 + c, x.ecfg.srcCtx, slot) :: s.holds.filter fun h => h.1 ≠ 8 + c }
      s.encDue c tn ((tn : Int) - s.displayDelay) chg (some slot) skip

/-! ## Jobs on contexts of every type (R66, R67, R69) -/

/-- CTX_OPEN. -/
def ctxOpen (s : State) (r : JobRef) (j : Job) (ok : Bool) : State :=
  let typ := bitsOf (j.dw 6) 0 4
  let cls := bitsOf (j.dw 6) 8 2
  let width := bitsOf (j.dw 7) 16 16
  let height := bitsOf (j.dw 7) 0 16
  if (s.ctx j.ctx).isOpen then s.finishSt r stBadState
  else if 3 < typ ∨ cls = 3 ∨ j.dw 8 = 0 ∨ j.dw 9 = 0 then s.finishSt r stBadParam
  else if !ok then s.finishSt r stHostAccess
  else if typ = 3 then s.openEnc r j cls width height (j.dw 8) (j.dw 9)
  else s.openDec r j typ cls width height (j.dw 8) (j.dw 9)

/-- CTX_CONFIG. -/
def ctxConfig (s : State) (r : JobRef) (j : Job) (ok : Bool) : State :=
  let x := s.ctx j.ctx
  let cls := bitsOf (j.dw 6) 8 2
  let width := bitsOf (j.dw 7) 16 16
  let height := bitsOf (j.dw 7) 0 16
  if !x.isOpen ∨ x.st = 5 ∨ x.closing.isSome then s.finishSt r stBadState
  else if cls = 3 ∨ j.dw 8 = 0 ∨ j.dw 9 = 0 then s.finishSt r stBadParam
  else if !ok then s.finishSt r stHostAccess
  else if x.typ = 3 then s.configEnc r j cls width height (j.dw 8) (j.dw 9)
  else s.configDec r j cls width height (j.dw 8) (j.dw 9)

/-- CTX_CLOSE: accepted, and complete once nothing of the context is in a core (R69, R135, R184). -/
def ctxClose (s : State) (r : JobRef) (j : Job) : State :=
  let c := j.ctx
  let x := s.ctx c
  let drain := bitOf (j.dw 6) 0
  if !x.isOpen ∨ x.closing.isSome then s.finishSt r stBadState
  else
    let s := s.takeJob r
    let s := s.setCtx c { x with closing := some ⟨r, drain, s.fpos O.FLM_COMMIT c⟩ }
    let s := s.setSq c { s.sqOf c with
      shut := some ((s.qTail c + s.qSize c - (s.sqOf c).fetch) % s.qSize c : Nat) }
    let s :=
      if drain then s
      else
        let v := s.sqOf c
        let s := s.setSq c { v with started := v.started.map fun (g : Job) =>
          if (g.op = 0x10 ∨ g.op = 0x11) ∧ g.out = none then
            { g with out := some { status := stCancelled, result := if g.op = 0x10 then g.moved else 0 } } else g }
        let s := s.endWaiting c stCancelled
        if x.typ = 3 then
          { s.modCtx c fun x => { x with enc := { x.enc with pic := none, owed := [] } } with
            holds := s.holds.filter fun h => h.1 ≠ 8 + c }
        else s
    s.tryClose c

/-- CTX_MIGRATE (R153, R154). -/
def ctxMigrate (s : State) (r : JobRef) (j : Job) : State :=
  match s.migTarget j.ctx (bitsOf (j.dw 6) 0 8) with
  | .inl o => s.finish r o
  | .inr cores => ((s.takeJob r).startMig j.ctx cores (some r)).endMig j.ctx

/-- KEY_REQUEST (R174, R176). -/
def keyRequest (s : State) (r : JobRef) (j : Job) : State :=
  let c := j.ctx
  let x := s.ctx c
  if !x.isOpen ∨ x.typ ≠ 3 ∨ !x.works then s.finishSt r stBadState
  else
    let n := x.enc.num + if x.enc.pic.any (·.started) then 1 + x.enc.owed.length else 0
    (s.encKey c (bitOf (j.dw 6) 0) false).finish r { status := stSuccess, result := n }

/-- ENC_RECONFIG (R177). -/
def encReconfig (s : State) (r : JobRef) (j : Job) : State :=
  let c := j.ctx
  let x := s.ctx c
  if x.typ = 3 ∧ x.st = 4 then s.finishSt r stCapacityLost
  else if !x.isOpen ∨ x.typ ≠ 3 ∨ !x.works then s.finishSt r stBadState
  else
    let d := ((x.desc.set 1 (BitVec.ofNat 32 (j.dw 6))).set 2 (BitVec.ofNat 32 (j.dw 7))).set 3
      (BitVec.ofNat 32 (putBits (x.w 3) 31 1 (bitsOf (j.dw 8) 0 1)))
    let e : EncCfg := ⟨d, x.width, x.height, x.fnum, x.fden⟩
    if !e.bufferOk then s.finishSt r stBadParam
    else if e.level = none then s.finishSt r stUnsupported
    else
      let s := s.setCtx c { x with enc := { x.enc with
        reconf := some (j.dw 6, j.dw 7, bitOf (j.dw 8) 0), keyAll := x.enc.keyAll + 1 } }
      s.finish r { status := stSuccess }

/-- A holdoff runs out: what was held is pending (R174). -/
def holdoffEnds (s : State) (c : Nat) : State :=
  s.modCtx c fun x =>
    let e := x.enc
    let req := match e.keyReq, e.keyHeld with
      | some a, some b => some (a || b)
      | some a, none => some a
      | none, h => h
    { x with enc := { e with holdoff := false, keyHeld := none, keyReq := req } }

/-- Contexts whose egress instance no longer exists enter FAULT with EGRESS_CONFIG (R184). -/
def egressCheck (s : State) : State :=
  ((s.ctxs.filter fun e => e.2.typ = 3 ∧ e.2.isOpen ∧ !s.instExists (bitsOf (e.2.w 12) 24 3)).foldl
    (fun s e => s.faultCtx e.1 2) s).encServeAll

end State

/-! ## The commands -/

/-- CTX_OPEN (R133, R163). -/
def execCtxOpen (j : JobRead) : State → Out := act .wqm fun s =>
  s.withJob j.ref 0x01 (fun b s => s.withHbm (·.withHost (·.ctxOpen j.ref b j.ok)))
/-- CTX_CONFIG (R134, R163). -/
def execCtxConfig (j : JobRead) : State → Out := act .wqm fun s =>
  s.withJob j.ref 0x02 (fun b s => s.withHost (·.ctxConfig j.ref b j.ok))
/-- CTX_CLOSE (R69, R135, R184); given again, it tries to end a close that waits. -/
def execCtxClose (j : JobRef) : State → Out := act .wqm fun s =>
  match s.findJob j with
  | some b => if b.op = 0x03 ∧ b.out = none then ((if b.taken then s.tryClose b.ctx else s.ctxClose j b).encServeAll) else s
  | none => s
/-- CTX_MIGRATE (R154). -/
def execCtxMigrate (j : JobRef) : State → Out := act .wqm fun s => s.withJob j 0x04 (fun b s => (s.ctxMigrate j b).encServeAll)
/-- KEY_REQUEST (R176). -/
def execKeyRequest (j : JobRef) : State → Out := act .wqm fun s => s.withJob j 0x21 (fun b s => s.keyRequest j b)
/-- ENC_RECONFIG (R177). -/
def execEncReconfig (j : JobRef) : State → Out := act .wqm fun s => s.withJob j 0x22 (fun b s => s.encReconfig j b)

/-- ENCODE_INSTANT (R165-R169): the next encode instant of a context; `skip` is the skip picture it may need. -/
def execEncodeInstant (c : Fin 512) (skip : EncOut) : State → Out := act .enc fun s =>
  let x := s.ctx c
  when (x.typ = 3 && x.works && x.closing.isNone)
    (fun s => if x.ecfg.tap then s.tapInstant c skip else s.srcInstant c skip) s

/-- ENCODE_PASS_DONE (R170-R175): a core ends a pass of a context's picture. -/
def execEncodePassDone (c : Fin 512) (o skip : EncOut) : State → Out := act .enc fun s =>
  when ((s.ctx c).typ = 3 && (s.ctx c).works) (·.encPass c o skip) s

/-- KEY_HOLDOFF_EXPIRY (R174). -/
def execKeyHoldoffExpiry (c : Fin 512) : State → Out := act .enc fun s =>
  when ((s.ctx c).typ = 3 && (s.ctx c).enc.holdoff) (·.holdoffEnds c) s

/-- ENC_CORE_FAULT (R186): a hang (HANG_T without progress on a picture) or an uncorrectable error. -/
def execEncCoreFault (k : Fin 18) (hang : Bool) (badSpares : List Nat) : State → Out :=
  actFault .enc (corePage 3 k) (if hang then 0x0101 else 0x0100) 0 fun s =>
  when (!hang || s.encBusy k) (fun s => (s.coreFail 3 k (if hang then 0x0101 else 0x0100) badSpares).encServeAll) s

/-- NORMAL_MIGRATION (R153, R186): the end of a migration under way. -/
def execNormalMigration (c : Fin 512) : State → Out := act .dec fun s => (s.endMig c).encServeAll

/-- REBALANCE (R154). -/
def execRebalance : State → Out := act .dec fun s => s.rebalance.encServeAll

/-- CONTEXT_FAULT (R148, R184). -/
def execContextFault (c : Fin 512) (code : Fin 6) : State → Out := act .dec fun s =>
  when (code ≠ 0) (fun s => (s.faultCtx c code).encServeAll) s

/-- ESB_WRITE (R185). -/
def execEsbWrite (c : Fin 512) : State → Out := act .enc fun s =>
  when ((s.ctx c).isOpen && (s.ctx c).typ = 3) (·.blockDue c) s

end Sys2Proof.Machine
end

