-- ==== Sys2Proof/Machine/Net.lean ====
section
/-! DEFINITION. The network ports and the Debarker (chapter 04): MAC filtering, the parse graph, rule lookup, colour,
payload patterns, RTCP feedback, slow-path queues and Yarder deliveries. -/
namespace Sys2Proof.Machine

/-! ## Parsing (R92-R94) -/

/-- A UDP datagram of a frame: IPv6, the addresses and ports, and the payload. -/
structure Udp where
  v6 : Bool
  src : List Byte
  dst : List Byte
  sport : List Byte
  dport : List Byte
  payload : List Byte
deriving DecidableEq, Repr

/-- What the parse graph makes of a frame: the slow path with a reason (Table 4.5), a malformed frame (Table 4.6), a
control type, or a UDP datagram. -/
inductive Parsed where
  | slow (reason : Nat)
  | mal (code : Nat)
  | ctl
  | udp (u : Udp)
deriving DecidableEq, Repr

/-- Big-endian 16 bits at an offset. -/
def be16 (l : List Byte) (i : Nat) : Nat := beNat ((l.drop i).take 2)

/-- Does a list of 16-bit words sum to all ones? -/
def sumOk (n : Nat) : Bool := State.fold16 n = 0xFFFF

/-- Bytes before the L3 header, EtherType, and outer VID; `none` for a third tag. -/
def l2Parse (f : List Byte) : Option (Nat × Nat × Nat) :=
  let tag (v : Nat) : Bool := v = 0x8100 || v = 0x88A8
  if !tag (be16 f 12) then some (14, be16 f 12, 0)
  else
    let vid := be16 f 14 % 4096
    if !tag (be16 f 16) then some (18, be16 f 16, vid)
    else if !tag (be16 f 20) then some (22, be16 f 20, vid)
    else none

/-- UDP of an IP payload; `pseudo` is the sum of the pseudo-header's addresses. -/
def udpParse (check v6 : Bool) (src dst ip : List Byte) : Parsed :=
  let len := be16 ip 4
  let sum := be16 ip 6
  if ip.length < 8 ∨ len < 8 ∨ len ≠ ip.length then .mal 0x02
  else if check ∧ (if sum = 0 then v6 else !sumOk (State.sum16 (src ++ dst) + 17 + len + State.sum16 ip)) then .mal 0x06
  else .udp ⟨v6, src, dst, ip.take 2, (ip.drop 2).take 2, ip.drop 8⟩

/-- IPv4; a fragment with options goes by its options (IP_OPT; DESIGN CHOICE, log 124). -/
def ip4Parse (check : Bool) (p : List Byte) : Parsed :=
  let b0 := (p.headD 0).toNat
  let ihl := b0 % 16
  let total := be16 p 2
  if b0 / 16 ≠ 4 ∨ ihl < 5 ∨ !sumOk (State.sum16 (p.take (ihl * 4))) then .mal 0x05
  else if p.length < total then .mal 0x01
  else if 5 < ihl then .slow 0x05
  else if be16 p 6 % 0x4000 ≠ 0 then .slow 0x01
  else if (p.getD 9 0).toNat ≠ 17 then .slow 0x06
  else udpParse check false ((p.drop 12).take 4) ((p.drop 16).take 4) ((p.take total).drop 20)

/-- Next Header values that are IPv6 extension headers, Fragment apart. -/
def ext6 : List Nat := [0, 43, 50, 51, 60, 135, 139, 140, 253, 254]

/-- IPv6; the first Next Header alone tells, so that a Fragment header behind another extension header gives EXT6 (DESIGN CHOICE,
log 124). -/
def ip6Parse (check : Bool) (p : List Byte) : Parsed :=
  let nh := (p.getD 6 0).toNat
  let len := be16 p 4
  if (p.headD 0).toNat / 16 ≠ 6 then .mal 0x05
  else if p.length < 40 + len then .mal 0x01
  else if nh = 44 then .slow 0x01
  else if nh ∈ ext6 then .slow 0x02
  else if nh ≠ 17 then .slow 0x06
  else udpParse check true ((p.drop 8).take 16) ((p.drop 24).take 16) ((p.drop 40).take len)

/-- The parse up to the lookup. -/
def parseFrame (check : Bool) (f : List Byte) : Parsed :=
  match l2Parse f with
  | none => .slow 0x03
  | some (n, et, _) =>
    if et = 0x0800 then ip4Parse check (f.drop n)
    else if et = 0x86DD then ip6Parse check (f.drop n)
    else if et = 0x0806 ∨ et = 0x88CC ∨ et = 0x88F7 ∨ et = 0x8809 then .ctl
    else .slow 0x04

/-! ## Keys and hashes (R95-R98) -/

/-- One step of a reflected CRC-32 over a byte. -/
def crcByte (poly : Nat) (c : Nat) (b : Byte) : Nat :=
  (List.range 8).foldl (fun c _ => if c % 2 = 1 then (c / 2) ^^^ poly else c / 2) (c ^^^ b.toNat)

/-- CRC-32 with a reflected polynomial, initial value and final XOR all ones. -/
def crc32 (poly : Nat) (l : List Byte) : Nat := (l.foldl (crcByte poly) 0xFFFFFFFF) ^^^ 0xFFFFFFFF

/-- IEEE 802.3 CRC-32. -/
def crcIeee (l : List Byte) : Nat := crc32 0xEDB88320 l
/-- CRC-32C. -/
def crcC (l : List Byte) : Nat := crc32 0x82F63B78 l

/-- Pad with zeros to a length. -/
def padTo (n : Nat) (l : List Byte) : List Byte := l.take n ++ List.replicate (n - l.length) 0

/-- The 44 bytes of a key (Table 4.8). -/
def keyBytes (a b pa pb : List Byte) (vid : Nat) (ssrc : List Byte) : List Byte :=
  padTo 16 a ++ padTo 16 b ++ padTo 2 pa ++ padTo 2 pb ++ beBytes 2 vid ++ padTo 4 ssrc ++ [0, 0]

/-- The key of a UDP datagram for a key type, with DIR; `none` where the type does not suit the family (Table 4.9). -/
def udpKey (u : Udp) (vid kt : Nat) : Option (List Byte × Bool) :=
  let suits := if u.v6 then kt = 3 ∨ kt = 5 ∨ kt = 7 ∨ kt = 9 else kt = 2 ∨ kt = 4 ∨ kt = 6 ∨ kt = 8
  if !decide suits then none
  else if kt ≤ 3 then some (keyBytes u.src u.dst u.sport u.dport vid [], false)
  else if kt ≤ 5 then some (keyBytes [] u.dst [] u.dport vid [], false)
  else if kt ≤ 7 then some (keyBytes [] u.dst [] u.dport vid ((u.payload.drop 8).take 4), false)
  else if beNat (padTo 16 u.dst ++ u.dport) < beNat (padTo 16 u.src ++ u.sport) then
    some (keyBytes u.dst u.src u.dport u.sport vid [], true)
  else some (keyBytes u.src u.dst u.sport u.dport vid [], false)

/-- A rule that matched: its table, its entry, and the entry's words 12 and 13. -/
structure Hit where
  table : Nat
  entry : Nat
  w12 : Nat
  w13 : Nat
deriving DecidableEq, Repr

/-- QKIND: 0 DROP, 1 FLUME, 2 SLOW, 3 YARDER. -/
def Hit.kind (h : Hit) : Nat := bitsOf h.w12 30 2
/-- COLOUR of the rule. -/
def Hit.colour (h : Hit) : Nat := bitsOf h.w12 28 2
/-- CLASS. -/
def Hit.cls (h : Hit) : Nat := bitsOf h.w12 25 3
/-- PFMT. -/
def Hit.pfmt (h : Hit) : Nat := bitsOf h.w12 20 4
/-- QID. -/
def Hit.qid (h : Hit) : Nat := bitsOf h.w12 0 12
/-- METER. -/
def Hit.meter (h : Hit) : Nat := bitsOf h.w13 16 9

/-! ## RTP and payload headers (R92, R94, R104) -/

/-- Fixed RTP header fields and the payload after header, CSRC list and extension, without padding. -/
structure Rtp where
  marker : Bool
  seq : Nat
  ts : Nat
  payload : List Byte
deriving DecidableEq, Repr

/-- RTP header of a UDP payload, or the malformed code. The header is known even when the padding is wrong. -/
def rtpParse (p : List Byte) : Sum Nat (Rtp × Bool) :=
  let b0 := (p.headD 0).toNat
  let n := 12 + 4 * (b0 % 16)
  let m := if bitOf b0 4 then n + 4 + 4 * be16 p (n + 2) else n
  if p.length < 12 ∨ b0 / 64 ≠ 2 ∨ p.length < n ∨ p.length < m ∨ (bitOf b0 4 ∧ p.length < n + 4) then .inl 0x07
  else
    let body := p.drop m
    let pad := (p.getLastD 0).toNat
    let bad := bitOf b0 5 ∧ (pad = 0 ∨ body.length < pad)
    let pay := if bitOf b0 5 ∧ !bad then body.take (body.length - pad) else body
    .inr (⟨bitOf (p.getD 1 0).toNat 7, be16 p 2, beNat ((p.drop 4).take 4), pay⟩, bad)

/-- TS payload checks. -/
def tsCheck : Nat → List Byte → Bool
  | 0, _ => true
  | n + 1, l => l.headD 0 = 0x47 && tsCheck n (l.drop 188)

/-- Malformed code of a TS payload, 0 for none. -/
def tsFault (l : List Byte) : Nat :=
  if l.isEmpty ∨ l.length % 188 ≠ 0 then 0x04 else if tsCheck (l.length / 188) l then 0 else 0x08

/-- SRD headers of ST 2110-20: their number and the sum of their lengths, at most three of them. -/
def srdParse : Nat → List Byte → Nat → Nat → Nat × Nat
  | 0, _, n, s => (n, s)
  | fuel + 1, l, n, s =>
    let s := s + be16 l 0
    if bitOf (be16 l 4) 15 then srdParse fuel (l.drop 6) (n + 1) s else (n + 1, s)

/-- Malformed code of a payload header (0 for none) and the bytes of payload header that patterns skip (R104). -/
def payloadHeader (pfmt : Nat) (l : List Byte) : Nat × Nat :=
  let b0 := (l.headD 0).toNat
  match pfmt with
  | 1 =>
    let t := b0 / 2 % 64
    let fu := (l.getD 2 0).toNat
    if t = 49 then (if bitOf fu 7 ∧ bitOf fu 6 then 0x09 else 0, 3) else (0, if t = 48 then 2 else 0)
  | 2 =>
    let t := b0 % 32
    let fu := (l.getD 1 0).toNat
    if t = 28 ∨ t = 29 then (if bitOf fu 7 ∧ bitOf fu 6 then 0x09 else 0, if t = 28 then 2 else 4)
    else (0, if t = 24 then 1 else if 25 ≤ t ∧ t ≤ 27 then 3 else 0)
  | 4 => (if l.length < 8 then 0x09 else 0, 8)
  | 5 =>
    let r := srdParse 3 (l.drop 2) 0 0
    (if l.length = 2 + 6 * r.1 + r.2 then 0 else 0x09, 2 + 6 * r.1)
  | 6 => (tsFault l, 0)
  | 7 => (tsFault l, 0)
  | _ => (0, 0)

/-- Do the lengths of an RTCP compound add up, each packet with version 2 (the version is a DESIGN CHOICE, log 126)? -/
def rtcpOk : Nat → List Byte → Bool
  | 0, _ => false
  | fuel + 1, l =>
    let n := 4 * (be16 l 2 + 1)
    if l.length < 4 ∨ (l.headD 0).toNat / 64 ≠ 2 ∨ l.length < n then false
    else if l.length = n then true
    else rtcpOk fuel (l.drop n)

/-- The parts of a matched UDP frame: malformed code (0 for none), RTP header if known, payload for the Flume, bytes the
patterns skip. -/
def payloadParse (pfmt : Nat) (udp : List Byte) : Nat × Option Rtp × List Byte × Nat :=
  if 1 ≤ pfmt ∧ pfmt ≤ 6 then
    match rtpParse udp with
    | .inl c => (c, none, udp, 0)
    | .inr (r, badPad) =>
      let h := payloadHeader pfmt r.payload
      (if badPad then 0x03 else h.1, some r, r.payload, h.2)
  else if pfmt = 8 then (if rtcpOk (udp.length + 1) udp then 0 else 0x07, none, udp, 0)
  else let h := payloadHeader pfmt udp
    (h.1, none, udp, h.2)

namespace State

/-! ## Lookup -/

/-- KEY bytes of an entry. -/
def entryKey (s : State) (t e : Nat) : List Byte :=
  ((List.range 11).map fun i => leBytes 4 (s.tab pDbk t (16 * e + 1 + i))).flatten

/-- Does an entry match? -/
def entryMatch (s : State) (inst kt : Nat) (key : List Byte) (t e : Nat) : Bool :=
  let w0 := s.tab pDbk t (16 * e)
  bitOf w0 31 && !decide ((t, e) ∈ s.mem.badRules) && bitsOf w0 24 4 = kt && bitOf w0 (16 + inst) && s.entryKey t e == key

/-- Look a key up in the two hash tables (R98). -/
def lookup (s : State) (inst kt : Nat) (key : List Byte) : Option Hit :=
  let input := key ++ [BitVec.ofNat 8 kt, 0, 0, 0]
  let at_ (t h : Nat) : Option Hit :=
    ((List.range 4).find? fun w => s.entryMatch inst kt key t (h % 8192 * 4 + w)).map fun w =>
      let e := h % 8192 * 4 + w
      ⟨t, e, s.tab pDbk t (16 * e + 12), s.tab pDbk t (16 * e + 13)⟩
  (at_ 0 (crcC input)).or (at_ 1 (crcIeee input))

/-- VID of keys. -/
def keyVid (s : State) (vid : Nat) : Nat := if s.bit pDbk O.DBK_KSEL 20 then vid else 0

/-- Rule for a UDP frame: primary, then secondary key type (R97); and the frame's DIR, which the building of an ordered key sets
(R96). -/
def lookupUdp (s : State) (inst vid : Nat) (u : Udp) : Option Hit × Bool :=
  let key (b : Nat) : Option (List Byte × Bool) := udpKey u (s.keyVid vid) (s.fld pDbk O.DBK_KSEL b 4)
  let find (b : Nat) : Option Hit := (key b).bind fun k => s.lookup inst (s.fld pDbk O.DBK_KSEL b 4) k.1
  let lo := if u.v6 then 8 else 0
  let dir (b : Nat) : Bool := (key b).any (·.2)
  match find lo with
  | some h => (some h, dir lo)
  | none => (find (lo + 4), dir lo || dir (lo + 4))

/-- Rule for a control frame. -/
def lookupCtl (s : State) (inst vid et : Nat) (f : List Byte) : Option Hit :=
  if s.fld pDbk O.DBK_KSEL 16 4 = 1 then
    s.lookup inst 1 (keyBytes (f.take 6) [] (beBytes 2 et) [] (s.keyVid vid) [])
  else none

/-! ## Metadata and slow-path queues (R106, R107) -/

/-- What travels with a frame. -/
structure Meta where
  inst : Nat
  stamp : Nat
  frac : Nat
  hit : Option Hit := none
  dir : Bool := false
  colour : Nat := 0
  flags : Nat := 0

/-- The 32 bytes of slot metadata (Table 4.15). -/
def metaBytes (m : Meta) (phase trunc : Bool) (reason sub len : Nat) : List Byte :=
  let h := m.hit
  let cls := (h.map Hit.cls).getD 0
  let tag := (h.map fun h => h.w13 % 65536).getD 0
  let at_ := (h.map fun h => h.table * 2 ^ 31 + h.entry).getD 0
  leBytes 4 (b2n phase * 2 ^ 31 + b2n trunc * 2 ^ 30 + reason * 2 ^ 16 + len % 65536)
    ++ leBytes 4 (cls * 2 ^ 29 + m.colour * 2 ^ 27 + b2n m.dir * 2 ^ 26 + b2n h.isSome * 2 ^ 25 + m.flags * 2 ^ 16
        + m.inst * 2 ^ 13)
    ++ leBytes 4 (tag * 2 ^ 16 + sub) ++ leBytes 4 at_ ++ leBytes 8 m.stamp ++ leBytes 4 (m.frac * 65536) ++ leBytes 4 0

/-- A register of slow-path queue block q. -/
def spr (off q : Nat) : Nat := off + 0x20 * q
/-- Slots of a slow-path ring. -/
def spSize (s : State) (q : Nat) : Nat := 2 ^ s.fld pDbk (spr O.DBK_SPQ_CFG q) 0 4

/-- Send a queue's vector, if IEN is set. -/
def spSignal (s : State) (q : Nat) : State :=
  if s.bit pDbk (spr O.DBK_SPQ_CFG q) 30 then s.sendVector (s.fld pDbk (spr O.DBK_SPQ_CFG q) 16 11) else s

/-- A frame for a slow-path queue: the next slot, or a counted drop (R106). SLOW_CNT counts the frame in both cases (DESIGN CHOICE,
log 125). -/
def spDeliver (s : State) (q : Nat) (m : Meta) (reason sub : Nat) (f : List Byte) : State :=
  let s := s.incr pDbk (O.DBK_SLOW_CNT + (m.inst * 16 + reason) * 4)
  let tail := s.fld pDbk (spr O.DBK_SPQ_STAT q) 0 16
  let head := s.fld pDbk (spr O.DBK_SPQ_HEAD q) 0 16
  let nx := (tail + 1) % s.spSize q
  if !s.bit pDbk (spr O.DBK_SPQ_CFG q) 31 ∨ nx = head ∨ !s.hostReady then
    (s.incr pDbk (spr O.DBK_SPQ_DROP q)).setCause pDbk 0x20
  else
    let slot := 2048 * 2 ^ s.fld pDbk (spr O.DBK_SPQ_CFG q) 4 2
    let a := s.rd64 pDbk (spr O.DBK_SPQ_BASE_LO q) / 4096 * 4096 + tail * slot
    let phase := s.bit pDbk (spr O.DBK_SPQ_STAT q) 31
    let s := s.setHost (a + 32) (f.take (slot - 32))
    let s := s.setHost a (metaBytes m phase (decide (slot - 32 < f.length)) reason sub f.length)
    let s := s.wr pDbk (spr O.DBK_SPQ_STAT q) (b2n (if nx = 0 then !phase else phase) * 2 ^ 31 + nx)
    let s := s.incr pDbk (spr O.DBK_SPQ_FRAMES q)
    if tail = head then s.spSignal q else s

/-- A write of SPQ_HEAD (R107). -/
def spHead (s : State) (q v : Nat) : State :=
  let s := s.wr pDbk (spr O.DBK_SPQ_HEAD q) (v % 65536)
  if s.bit pDbk (spr O.DBK_SPQ_CFG q) 31 ∧ s.fld pDbk (spr O.DBK_SPQ_STAT q) 0 16 ≠ v % 65536 then s.spSignal q else s

/-! ## Yarder deliveries (R108) -/

/-- A frame for a subchannel: a receive buffer, the ring, and the EIC source. -/
def yrxDeliver (s : State) (sub : Nat) (m : Meta) (f : List Byte) : State :=
  match (List.range 64).find? fun b => b ∉ s.yrx.used with
  | none => (s.incr pDbk O.DBK_CNT_YRX_DROP).setCause pDbk 0x10
  | some b =>
    let bytes := metaBytes m false (decide (2016 < f.length)) 0x09 0 f.length ++ f.take 2016
    let s := { s with yrx := { bufs := sset (fun _ => []) s.yrx.bufs b bytes
                               used := b :: s.yrx.used, ring := s.yrx.ring ++ [(b, sub)] } }
    s.eicRaise (s.fld pDbk O.DBK_YRX_CFG 0 10)

/-- Value a read of YRX_POP returns. -/
def yrxHead (s : State) : Nat :=
  match s.yrx.ring with
  | [] => 0
  | (b, sub) :: _ => 2 ^ 31 + b * 2 ^ 16 + sub

/-- A read of YRX_POP removes the oldest entry. -/
def yrxPop (s : State) : State := { s with yrx := { s.yrx with ring := s.yrx.ring.drop 1 } }

/-- A buffer is returned. -/
def yrxFree (s : State) (b : Nat) : State :=
  { s with yrx := { s.yrx with used := s.yrx.used.filter fun x => x ≠ b, bufs := sset (fun _ => []) s.yrx.bufs b [] } }

/-! ## Malformed frames (R94) -/

/-- A register word of INST_CFG. -/
def instCfg (s : State) (inst lo n : Nat) : Nat := s.fld pDbk (O.DBK_INST_CFG + 4 * inst) lo n

/-- The malformed action of an instance. -/
def malformedFrame (s : State) (m : Meta) (code : Nat) (f : List Byte) : State :=
  let i := m.inst
  let s := (s.incr pDbk (O.DBK_MAL_CNT + (i * 16 + code) * 4)).setCause pDbk 2
  match s.instCfg i 0 2 with
  | 1 => s.spDeliver (s.instCfg i 16 4) m 0x0A code f
  | 2 => s.handOver ⟨0, s.instCfg i 4 3, f, none, none⟩
  | _ => s

/-! ## Colour and patterns (R102-R104) -/

/-- Colour of a matched frame and the meter after it. -/
def colourOf (s : State) (h : Hit) (len : Nat) : Nat × State :=
  let live := sget (fun _ => [0, 0, 0, 0, 0]) s.chk.mlive h.meter
  if bitOf h.w12 18 ∧ bitOf (live.getD 4 0) 31 then
    let r := markFrame (sget (fun _ => (0, 0)) s.chk.meter h.meter) len h.colour
    (r.1, { s with chk := { s.chk with meter := sset (fun _ => (0, 0)) s.chk.meter h.meter r.2 } })
  else (min 2 h.colour, s)

/-- Does a pattern match at an offset? -/
def patAt (value mask : List Byte) (len : Nat) (p : List Byte) : Bool :=
  len ≤ p.length && (List.range len).all fun j => p.getD j 0 &&& mask.getD j 0 == value.getD j 0

/-- Flag of pattern i if it is found in a payload. LEN 0 is found at the first offset tried; beyond 16, VALUE and MASK go on with
zeros (DESIGN CHOICE, log 127). -/
def patFlag (s : State) (pfmt : Nat) (p : List Byte) (i : Nat) : Nat :=
  let w (k : Nat) : Nat := s.tab pDbk 2 (12 * i + k)
  let w8 := w 8
  if !bitOf w8 31 ∨ !bitOf (w 9) pfmt then 0
  else
    let value := ((List.range 4).map fun k => leBytes 4 (w k)).flatten
    let mask := ((List.range 4).map fun k => leBytes 4 (w (4 + k))).flatten
    let span := let n := bitsOf w8 16 8; if n = 0 then 256 else n
    let off := bitsOf w8 8 8
    let hay := p.take 256
    if (List.range span).any fun o => off + o < 256 && patAt value mask (bitsOf w8 0 5) (hay.drop (off + o)) then
      2 ^ bitsOf w8 28 3
    else 0

/-- Flags of a matched frame. -/
def patFlags (s : State) (h : Hit) (p : List Byte) : Nat :=
  if bitOf h.w12 24 then (List.range 64).foldl (fun a i => a ||| s.patFlag h.pfmt p i) 0 else 0

/-! ## RTCP feedback (R105) -/

/-- FIR entries for an SSRC: sequence numbers. -/
def firSeqs (ssrc : Nat) : Nat → List Byte → List Nat
  | 0, _ => []
  | n + 1, l =>
    (if 8 ≤ l.length ∧ beNat (l.take 4) = ssrc then [(l.getD 4 0).toNat] else []) ++ firSeqs ssrc n (l.drop 8)

/-- A FIR entry: a key request, unless the same sender sent the same number last. -/
def firEntry (s : State) (c sender seq : Nat) : State :=
  let last := sget (fun _ => none) (s.ctx c).enc.fir sender
  if last = some seq then s.incr pDbk O.DBK_CNT_FB_IGNORED
  else
    let s := s.modCtx c fun x => { x with enc := { x.enc with fir := sset (fun _ => none) x.enc.fir sender (some seq) } }
    (s.incr pDbk O.DBK_CNT_FIR).encKey c true true

/-- One packet of a compound. -/
def rtcpPacket (s : State) (c : Nat) (l : List Byte) : State :=
  let ssrc := (s.ctx c).w 13
  let fmt := (l.headD 0).toNat % 32
  if (l.getD 1 0).toNat ≠ 206 then s
  else if fmt = 1 ∧ 12 ≤ l.length ∧ beNat ((l.drop 8).take 4) = ssrc then (s.incr pDbk O.DBK_CNT_PLI).encKey c true true
  else if fmt = 4 then
    (firSeqs ssrc (l.length / 8) (l.drop 12)).foldl (fun s q => s.firEntry c (beNat ((l.drop 4).take 4)) q) s
  else s

/-- The packets of a compound. -/
def rtcpAll (s : State) (c : Nat) : Nat → List Byte → State
  | 0, _ => s
  | fuel + 1, l =>
    if l.length < 4 then s
    else
      let n := 4 * (be16 l 2 + 1)
      (s.rtcpPacket c (l.take n)).rtcpAll c fuel (l.drop n)

/-! ## Actions (R99, R101) -/

/-- Context types a PFMT is allowed for (Table 4.11). -/
def pfmtAllowed (pfmt typ : Nat) : Bool :=
  match pfmt with
  | 0 => true
  | 4 => typ = 1
  | 5 => typ = 2
  | 8 => typ = 3
  | _ => typ = 0

/-- The Flume's datagram of a matched frame (R101). A control frame has no UDP payload and no RTP header: it stands as an empty
datagram under a PFMT that needs no RTP header, and is none otherwise (DESIGN CHOICE, log 121). -/
def dgramOf (pfmt : Nat) (r : Option Rtp) (payload : List Byte) (m : Meta) : Option Dgram :=
  let d : Dgram := { pfmt := pfmt, flags := m.flags, colour := m.colour, payload := payload, stamp := m.stamp, frac := m.frac }
  match r with
  | some r => some { d with ts := r.ts, seq := r.seq, marker := r.marker }
  | none => if pfmt = 0 ∨ pfmt = 7 then some d else none

/-- Does a Flume's fill reach the YELLOW_LIMIT that the meter took over at its last refill (R103)? -/
def yellowFull (s : State) (h : Hit) : Bool :=
  let l := bitsOf ((sget (fun _ => [0, 0, 0, 0, 0]) s.chk.mlive h.meter).getD 4 0) 0 8
  (if l = 0 then 256 else l) ≤ s.fill h.qid

/-- Carry out a usable action on a frame whose headers are sound. -/
def actOn (s : State) (h : Hit) (m : Meta) (f : List Byte) (r : Option Rtp) (payload : List Byte) (udpLen : Nat) : State :=
  let c := h.qid
  let flume := h.kind = 1 ∧ h.pfmt ≠ 8
  let lose (s : State) : State :=
    if flume then s.deliver c (dgramOf h.pfmt r payload m) udpLen (some cPoliced) else s
  if m.colour = 2 then lose (s.incr pDbk (O.DBK_DROP_RED + 0x20 * h.meter))
  else if m.colour = 1 ∧ flume ∧ s.yellowFull h then lose (s.incr pDbk (O.DBK_DROP_YEL + 0x20 * h.meter))
  else match h.kind with
    | 1 => if h.pfmt = 8 then s.rtcpAll c (payload.length + 1) payload
      else s.deliver c (dgramOf h.pfmt r payload m) udpLen none
    | 2 => s.spDeliver c m 0x09 0 f
    | 3 => s.yrxDeliver c m f
    | _ => s

/-- The action of a rule that matched (R99, R101, R102). A frame dropped as BAD_RULE on its way to the Flume of an open context is
reported lost (R94), with the cause MALFORMED (log 122). -/
def matched (s : State) (h : Hit) (m : Meta) (f : List Byte) (udp : Option (List Byte)) : State :=
  let s := s.addTab64 pDbk h.table (16 * h.entry + 14) 1
  let x := s.ctx h.qid
  let pfmt := if udp.isSome then h.pfmt else 0
  let r := payloadParse pfmt (udp.getD [])
  let m := { m with hit := some h }
  let lose (s : State) : State :=
    if h.kind = 1 ∧ x.isOpen ∧ h.pfmt ≠ 8 then
      s.deliver h.qid (dgramOf h.pfmt r.2.1 r.2.2.1 { m with colour := h.colour }) (udp.getD []).length (some cMalformed) else s
  if udp.isSome ∧ r.1 ≠ 0 then (lose s).malformedFrame m r.1 f
  else if 9 ≤ h.pfmt ∨ (h.kind = 1 ∧ 511 < h.qid) ∨ (h.kind = 2 ∧ 15 < h.qid)
      ∨ (h.kind = 1 ∧ x.isOpen ∧ !pfmtAllowed h.pfmt x.typ) then
    ((lose s).incr pDbk O.DBK_CNT_BAD_RULE).setCause pDbk 8
  else if h.kind = 1 ∧ !x.isOpen then (s.incr pDbk O.DBK_CNT_CTX_CLOSED).setCause pDbk 4
  else
    let t := s.colourOf h (f.length + 4)
    let flags := if udp.isSome then t.2.patFlags h ((if h.pfmt = 6 ∨ h.pfmt = 7 then r.2.2.1.take 188
      else r.2.2.1).drop r.2.2.2) else 0
    let m := { m with colour := t.1, flags := flags }
    let s := if bitOf h.w12 19 then t.2.spDeliver (t.2.instCfg m.inst 16 4) m 0x0B 0 f else t.2
    s.actOn h m f r.2.1 r.2.2.1 (udp.getD []).length

/-- The Debarker takes a frame (R92-R102). -/
def debark (s : State) (inst : Nat) (m : Meta) (f : List Byte) : State :=
  let vid := ((l2Parse f).map (·.2.2)).getD 0
  let et := ((l2Parse f).map (·.2.1)).getD 0
  let slow (r : Nat) : State := s.spDeliver (s.instCfg inst 16 4) m r 0 f
  match parseFrame (s.bit (netPage inst) (netReg O.NET_MAC_CFG inst) 29) f with
  | .slow r => slow r
  | .mal c => s.malformedFrame m c f
  | .ctl => match s.lookupCtl inst vid et f with
    | some h => s.matched h m f none
    | none => slow 0x07
  | .udp u =>
    let l := s.lookupUdp inst vid u
    let m := { m with dir := l.2 }
    match l.1 with
    | some h => s.matched h m f (some u.payload)
    | none =>
      let s := s.setCause pDbk 1
      if bitOf (s.instCfg inst 8 1) 0 then s.spDeliver (s.instCfg inst 16 4) m 0x08 0 f
      else s.incr pDbk O.DBK_CNT_MISS_DROP

/-! ## The MAC (R88, R89) -/

/-- CLASS of the rule that a frame matches, which selects the reserved ingress space (R89, R102); 0 without one. -/
def frameClass (s : State) (inst : Nat) (f : List Byte) : Nat :=
  let vid := ((l2Parse f).map (·.2.2)).getD 0
  let et := ((l2Parse f).map (·.2.1)).getD 0
  let hit : Option Hit := match parseFrame (s.bit (netPage inst) (netReg O.NET_MAC_CFG inst) 29) f with
    | .ctl => s.lookupCtl inst vid et f
    | .udp u => (s.lookupUdp inst vid u).1
    | _ => none
  (hit.map Hit.cls).getD 0

/-- Does a frame fit into the 512 KiB ingress buffer of its port, of which 64 KiB is kept for class 6 and 7 (R89)? -/
def ingressFits (x : RxFrame) (cls len : Nat) : Bool :=
  decide (x.low + x.high + len ≤ 524288) && (decide (6 ≤ cls) || decide (x.low + len ≤ 458752))

/-- A frame crosses the receive balls of an instance. A frame with a bad FCS counts in RX_FCS_ERR alone, whatever its size;
RX_FRAMES and RX_BYTES count every frame with a good FCS and size, those dropped by type or address among them (DESIGN CHOICE,
log 123). -/
def rxFrame (s : State) (inst : Nat) (x : RxFrame) : State :=
  let p := netPage inst
  let reg (off : Nat) : Nat := netReg off inst
  let s := (s.addReg p (reg O.NET_FEC_CORR) x.fecCorr).addReg p (reg O.NET_FEC_UNCORR) x.fecUncorr
  let f := x.bytes
  let len := f.length + 4
  let own := beNat (f.take 6) = s.rd64 p (reg O.NET_MAC_ADDR_LO) % 2 ^ 48
  let group := bitOf (f.headD 0).toNat 0
  if !x.fcsOk then s.incr p (reg O.NET_RX_FCS_ERR)
  else if len < 64 ∨ s.maxFrame inst < len then s.incr p (reg O.NET_RX_SIZE_ERR)
  else
    let s := (s.addReg64 p (reg O.NET_RX_FRAMES_LO) 1).addReg64 p (reg O.NET_RX_BYTES_LO) len
    if be16 f 12 = 0x8808 then s.incr p (reg O.NET_RX_MAC_CTL)
    else if !s.bit p (reg O.NET_MAC_CFG) 30 ∧ !group ∧ !own then s.incr p (reg O.NET_RX_DA_DROP)
    else if !s.running pDbk then s.incr p O.NET_RX_DBK_DROP
    else if !ingressFits x (s.frameClass inst f) f.length then (s.incr p (reg O.NET_RX_OVF)).setCause p 0x10
    else
      let v : Int := x.stamp.toNat * 65536 + x.frac.toNat + signed 32 (s.rd p (reg O.NET_TS_ADJ_RX)) * 256
      s.debark inst { inst := inst, stamp := toBits 64 (v / 65536), frac := (v % 65536).toNat } f

/-- The links of an instance change (Table 4.2). -/
def linkChange (s : State) (inst : Nat) (up lock ber : Bool) : State :=
  let p := netPage inst
  let i := inst % 4
  let was := s.bit p O.NET_LINK_FLAGS i
  let s := ((s.setBit p O.NET_LINK_FLAGS i up).setBit p O.NET_LINK_FLAGS (4 + i) lock).setBit p O.NET_LINK_FLAGS (8 + i) ber
  if was ≠ up then s.setCause p (2 ^ (8 + i)) else s

end State

/-! ## The commands -/

/-- FRAME_RECEIVED (R88): a frame on a MAC instance that exists, is enabled, and whose port is RUNNING. -/
def execFrameReceived (inst : Fin 8) (f : RxFrame) : State → Out := act .net fun s =>
  when (s.running (State.netPage inst) && s.instExists inst && s.bit (State.netPage inst) (State.netReg O.NET_MAC_CFG inst) 31)
    (·.rxFrame inst f) s

/-- SPQ_HEAD_WRITE (R107). -/
def execSpqHeadWrite (q : Fin 16) (v : W32) : State → Out := access fun s => s.spHead q v.toNat

/-- YRX_POP (R108): microcode or the host reads the oldest entry of the ring. -/
def execYrxPop : State → Out := access fun s => (s.emit (.readData (BitVec.ofNat 64 s.yrxHead))).yrxPop

/-- YRX_FREE (R108). -/
def execYrxFree (v : W32) : State → Out := access fun s => s.yrxFree (bitsOf v.toNat 0 6)

/-- NET_LINK_CHANGE (R86, R87): the links of a RUNNING port's instance. -/
def execNetLinkChange (inst : Fin 8) (up fecLock hiBer : Bool) : State → Out := act .net fun s =>
  when (s.running (State.netPage inst) && s.instExists inst) (·.linkChange inst up fecLock hiBer) s

end Sys2Proof.Machine
end

