-- ==== Sys2Proof/Machine/Landing.lean ====
section
/-! DEFINITION. The Landing (chapter 08): scenes and their checks, picture selection, sampling, the colour path,
blending, the flash guard, taps with their composition vectors, lanes, and CAM_SYNC. The order of slots, epochs and
modes is in Slots. -/
namespace Sys2Proof.Machine

/-! ## Scene words (Tables 8.5, 8.6) -/

/-- A word of a scene. -/
def Scene.w (c : Scene) (i : Nat) : Nat := (c.words.getD i 0).toNat
/-- LAYERS. -/
def Scene.layers (c : Scene) : Nat := bitsOf (c.w 1) 0 9
/-- FEED. -/
def Scene.feed (c : Scene) : Nat := bitsOf (c.w 1) 16 3
/-- SCENE_TAG. -/
def Scene.tag (c : Scene) : Nat := c.w 4 + c.w 5 * 2 ^ 32

/-- A layer record: its sixteen words. -/
structure Lay where
  ws : List Nat
deriving DecidableEq, Repr

/-- Layer record i. -/
def Scene.lay (c : Scene) (i : Nat) : Lay := ⟨(List.range 16).map fun k => c.w (16 + 16 * i + k)⟩
/-- Indexes of the enabled layers, bottom first. -/
def Scene.on (c : Scene) : List Nat := (List.range c.layers).filter fun i => bitOf (c.w (16 + 16 * i)) 31
/-- Background in LIN24. -/
def Scene.bg (c : Scene) : Nat × Nat × Nat :=
  (bitsOf (c.w 2) 16 16 * 256, bitsOf (c.w 2) 0 16 * 256, bitsOf (c.w 3) 16 16 * 256)

namespace Lay

/-- A word of the record. -/
def w (l : Lay) (i : Nat) : Nat := l.ws.getD i 0
/-- SRC_KIND: 0 CONTEXT, 1 SOLID, 2 SHARED. -/
def kind (l : Lay) : Nat := bitsOf (l.w 0) 29 2
/-- BLEND is ADD. -/
def add (l : Lay) : Bool := bitOf (l.w 0) 28
/-- EDGE_AA. -/
def edge (l : Lay) : Bool := bitOf (l.w 0) 27
/-- FLASH_GUARD. -/
def guarded (l : Lay) : Bool := bitOf (l.w 0) 26
/-- FLAG_POLICY: 0 SHOW, 1 HOLD, 2 FALLBACK. -/
def policy (l : Lay) : Nat := bitsOf (l.w 0) 24 2
/-- FALLBACK: 0 TRANSPARENT, 1 BLACK, 2 SLATE. -/
def fallback (l : Lay) : Nat := bitsOf (l.w 0) 20 2
/-- FILTER: 0 AUTO, 1 SHARP, 2 NEAREST. -/
def filter (l : Lay) : Nat := bitsOf (l.w 0) 18 2
/-- LAYER_ID. -/
def id (l : Lay) : Nat := bitsOf (l.w 1) 16 16
/-- SRC. -/
def src (l : Lay) : Nat := bitsOf (l.w 1) 0 9
/-- Destination rectangle: DX, DY, DW, DH. -/
def dx (l : Lay) : Nat := bitsOf (l.w 2) 16 16
def dy (l : Lay) : Nat := bitsOf (l.w 2) 0 16
def dw (l : Lay) : Nat := bitsOf (l.w 3) 16 16
def dh (l : Lay) : Nat := bitsOf (l.w 3) 0 16
/-- Crop rectangle: SX, SY, SW, SH. -/
def sx (l : Lay) : Nat := bitsOf (l.w 4) 16 16
def sy (l : Lay) : Nat := bitsOf (l.w 4) 0 16
def sw (l : Lay) : Nat := bitsOf (l.w 5) 16 16
def sh (l : Lay) : Nat := bitsOf (l.w 5) 0 16
/-- Placement coefficient A, B, C or D. -/
def coef (l : Lay) (i : Nat) : Rat := (signed 32 (l.w (6 + i)) : Rat) / 1048576
/-- Placement offset TX or TY. -/
def off (l : Lay) (i : Nat) : Rat := (signed 32 (l.w (10 + i)) : Rat) / 65536
/-- ALPHA. -/
def alpha (l : Lay) : Nat := bitsOf (l.w 12) 22 10
/-- MATTE_CTX, with MATTE_EN. -/
def mat (l : Lay) : Option Nat := if bitOf (l.w 12) 21 then some (bitsOf (l.w 12) 12 9) else none
/-- STALE_MS. -/
def staleMs (l : Lay) : Nat := bitsOf (l.w 12) 0 12
/-- GAIN. -/
def gain (l : Lay) : Rat := (bitsOf (l.w 13) 16 16 : Rat) / 4096
/-- SLATE_CTX. -/
def slate (l : Lay) : Nat := bitsOf (l.w 13) 0 9
/-- Scale factor su or sv (R203). -/
def su (l : Lay) : Rat := max |l.coef 0| |l.coef 1|
def sv (l : Lay) : Rat := max |l.coef 2| |l.coef 3|

/-- Does the destination rectangle hold a wall point (R203)? -/
def covers (l : Lay) (x y : Rat) : Bool :=
  (l.dx : Rat) ≤ x && x < (l.dx + l.dw : Nat) && (l.dy : Rat) ≤ y && y < (l.dy + l.dh : Nat)

/-- Does the destination rectangle, its edges included, hold a wall point? -/
def touches (l : Lay) (x y : Rat) : Bool :=
  (l.dx : Rat) ≤ x && x ≤ (l.dx + l.dw : Nat) && (l.dy : Rat) ≤ y && y ≤ (l.dy + l.dh : Nat)

/-- Does the crop rectangle, its edges included, hold a source point? -/
def cropTouches (l : Lay) (u v : Rat) : Bool :=
  (l.sx : Rat) ≤ u && u ≤ (l.sx + l.sw : Nat) && (l.sy : Rat) ≤ v && v ≤ (l.sy + l.sh : Nat)

/-- Source point of a wall point (R203). -/
def srcPoint (l : Lay) (x y : Rat) : Rat × Rat :=
  let a := x - l.dx
  let b := y - l.dy
  (l.coef 0 * a + l.coef 1 * b + l.off 0, l.coef 2 * a + l.coef 3 * b + l.off 1)

/-- Wall point that a source point is placed at; `none` for a placement that has no inverse. -/
def wallPoint (l : Lay) (u v : Rat) : Option (Rat × Rat) :=
  let det := l.coef 0 * l.coef 3 - l.coef 1 * l.coef 2
  if det = 0 then none
  else
    let p := u - l.off 0
    let q := v - l.off 1
    some ((l.coef 3 * p - l.coef 1 * q) / det + l.dx, (l.coef 0 * q - l.coef 2 * p) / det + l.dy)

/-- Reserved fields, sizes and codes (Table 8.6). -/
def fieldsOk (l : Lay) : Bool :=
  bitsOf (l.w 0) 0 18 = 0 && l.kind < 3 && l.policy < 3 && l.fallback < 3 && l.filter < 3 && bitsOf (l.w 1) 9 7 = 0
    && 1 ≤ l.dw && 1 ≤ l.dh && bitsOf (l.w 13) 9 2 = 0 && bitsOf (l.w 13) 12 4 ≤ 4 && bitsOf (l.w 15) 0 16 = 0
    && (if l.kind = 1 then ((List.range 8).all fun i => l.w (4 + i) = 0) && bitsOf (l.w 13) 0 16 = 0
        else 1 ≤ l.sw && l.sw ≤ 8192 && 1 ≤ l.sh && l.sh ≤ 4352 && (l.kind = 0 || l.src < 256))

end Lay

namespace Scene

/-- Reserved fields and constants of the header. -/
def headerOk (c : Scene) (feed : Nat) : Bool :=
  c.w 0 / 256 = 0x534301 && c.w 0 % 256 = 0 && bitsOf (c.w 1) 19 13 = 0 && bitsOf (c.w 1) 9 7 = 0 && c.layers ≤ 256
    && c.feed = feed && bitsOf (c.w 3) 0 16 = 0 && (List.range 10).all fun i => c.w (6 + i) = 0

/-- The first enabled layer that makes seventeen over some wall point. -/
def crowded (c : Scene) : Option Nat :=
  let on := c.on
  on.find? fun i =>
    let upto := (on.filter fun j => j ≤ i).map c.lay
    upto.any fun a => upto.any fun b => 17 ≤ (upto.filter fun l => l.covers a.dx b.dy).length

/-- Reason and layer of a scene that fails on reading (Table 8.7), in table order. -/
def readFault (c : Scene) (feed bytes : Nat) : Option (Nat × Nat) :=
  if bytes < 64 then some (0x02, 0)
  else if !c.headerOk feed then some (0x01, 0)
  else if bytes ≠ 64 + 64 * c.layers then some (0x02, 0)
  else match c.on.find? fun i => !(c.lay i).fieldsOk with
    | some i => some (0x03, i)
    | none => match c.on.find? fun i => (c.lay i).kind ≠ 1 ∧ (8 < (c.lay i).su ∨ 8 < (c.lay i).sv) with
      | some i => some (0x04, i)
      | none => match c.crowded with
        | some i => some (0x05, i)
        | none => (c.on.find? fun i => c.on.any fun j => j < i ∧ (c.lay j).id = (c.lay i).id).map fun i => (0x06, i)

end Scene

/-! ## The colour path (R211-R213) -/

/-- R′G′B′ of a filtered sample (luma or G, Cb or B, Cr or R). -/
def toRgb (colour : Nat) (full rgb : Bool) (y cb cr : Rat) : Rat × Rat × Rat :=
  if rgb then (normY full cr, normY full y, normY full cb)
  else
    let k := kCoef colour
    let y := normY full y
    let r := y + 2 * (1 - k.1) * normC full cr
    let b := y + 2 * (1 - k.2) * normC full cb
    (r, (y - k.1 * r - k.2 * b) / (1 - k.1 - k.2), b)

/-- cd/m² in LIN24. -/
def lin24 (cd : Rat) : Rat := cd * 16777216 / 10000

/-- SDR_WHITE of a colour register. -/
def sdrWhite (reg : Nat) : Nat := bitsOf reg 0 12
/-- HLG nominal peak, cd/m². -/
def hlgPeak (reg : Nat) : Nat := bitsOf reg 16 12 * 4

/-- Constant m1 of the PQ EOTF. -/
def pqM1 : Rat := 2610 / 16384
def pqM2 : Rat := 2523 / 32
def pqC1 : Rat := 3424 / 4096
def pqC2 : Rat := 2413 / 128
def pqC3 : Rat := 2392 / 128

/-- PQ EOTF, cd/m². -/
def pqEotf (v : Rat) : Rat :=
  let p := ratPow v (1 / pqM2)
  10000 * ratPow (max (p - pqC1) 0 / (pqC2 - pqC3 * p)) (1 / pqM1)

/-- Inverse of the PQ EOTF. -/
def pqInverse (cd : Rat) : Rat :=
  let y := ratPow (cd / 10000) pqM1
  ratPow ((pqC1 + pqC2 * y) / (1 + pqC3 * y)) pqM2

/-- HLG constants. -/
def hlgA : Rat := 17883277 / 100000000
def hlgB : Rat := 1 - 4 * hlgA
/-- Base-2 logarithm of e. -/
def log2e : Rat := 14426950408889634 / 10000000000000000
def hlgC : Rat := 1 / 2 - hlgA * ratLog2 (4 * hlgA) / log2e

/-- Inverse of the HLG OETF: scene light in [0, 1]. -/
def hlgScene (v : Rat) : Rat :=
  if v ≤ 1 / 2 then v * v / 3 else (exp2Fx ((v - hlgC) / hlgA * log2e * fx1).floor + hlgB) / 12

/-- HLG OETF. -/
def hlgOetf (e : Rat) : Rat :=
  if e ≤ 1 / 12 then ratPow (3 * e) (1 / 2) else hlgA * ratLog2 (12 * e - hlgB) / log2e + hlgC

/-- System gamma for a nominal peak: the formula of BT.2100 from 400 to 2,000 cd/m², its extended form outside. -/
def hlgGamma (peak : Nat) : Rat :=
  let r : Rat := (max 1 peak : Nat) / 1000
  if 400 ≤ peak ∧ peak ≤ 2000 then 6 / 5 + 42 / 100 * (ratLog2 r / ratLog2 10)
  else 6 / 5 * exp2Fx (ratLog2 r * ratLog2 (1111 / 1000) * fx1).floor

/-- A value of linear light that an error has moved, within 1 LSB or 0.1% of it (R212). -/
def offBy (v err : Rat) : Rat :=
  let tol := max 1 (v / 1000)
  max 0 (v + ratClamp (-tol) tol err)

/-- Entry i of the 1,025-point table of a colour: LIN24, or scene light for HLG. -/
def eotfEntry (colour reg i : Nat) : Rat :=
  let v : Rat := (i : Rat) / 1024
  let exact := if colour = 3 then lin24 (pqEotf v) else if colour = 4 then hlgScene v
    else lin24 (sdrWhite reg * ratPow v (12 / 5))
  if colour = 4 then exact else offBy exact (Config.eotfError colour reg i)

/-- Table lookup with linear interpolation. -/
def eotfLook (colour reg : Nat) (v : Rat) : Rat :=
  let x := ratClamp 0 1 v * 1024
  let i := x.floor.toNat
  let a := eotfEntry colour reg i
  if 1024 ≤ i then a else a + (eotfEntry colour reg (i + 1) - a) * (x - i)

/-- EOTF of a sample: linear light in LIN24, not yet rounded. -/
def eotf (colour reg : Nat) (c : Rat × Rat × Rat) : Rat × Rat × Rat :=
  let f := eotfLook colour reg
  let t := (f c.1, f c.2.1, f c.2.2)
  if colour ≠ 4 then t
  else
    let ys := 2627 / 10000 * t.1 + 6780 / 10000 * t.2.1 + 593 / 10000 * t.2.2
    let k := lin24 (hlgPeak reg) * ratPow ys (hlgGamma (hlgPeak reg) - 1)
    let err (i : Nat) : Rat := Config.hlgError reg c.1 c.2.1 c.2.2 i
    (offBy (k * t.1) (err 0), offBy (k * t.2.1) (err 1), offBy (k * t.2.2) (err 2))

/-- A 3 × 3 matrix, in ten-thousandths. -/
def mat3 (m : List Int) (c : Rat × Rat × Rat) : Rat × Rat × Rat :=
  let row (i : Nat) : Rat :=
    max 0 ((m.getD (3 * i) 0 * c.1 + m.getD (3 * i + 1) 0 * c.2.1 + m.getD (3 * i + 2) 0 * c.2.2) / 10000)
  (row 0, row 1, row 2)

/-- BT.709 to BT.2020. -/
def to2020 : List Int := [6274, 3293, 433, 691, 9195, 114, 164, 880, 8956]
/-- BT.2020 to BT.709. -/
def to709 : List Int := [16605, -5876, -728, -1246, 11329, -83, -182, -1006, 11187]

/-- Between source primaries and the wall's (R213); `inv` is the way back. -/
def primaries (colour reg : Nat) (inv : Bool) (c : Rat × Rat × Rat) : Rat × Rat × Rat :=
  let src709 := decide (colour ≤ 1)
  let wall709 := bitOf reg 31
  if src709 = wall709 then c
  else if src709 ≠ inv then mat3 to2020 c else mat3 to709 c

/-- Saturate to LIN24. -/
def sat24 (v : Rat) : Nat := (max 0 (min 0xFFFFFF (roundHalf v))).toNat

/-- Steps 2 to 5 of Table 8.9. -/
def colourPath (colour reg : Nat) (gain : Rat) (full rgb : Bool) (y cb cr : Rat) : Nat × Nat × Nat :=
  let colour := if colour = 0 then 1 else colour
  let c := primaries colour reg false (eotf colour reg (toRgb colour full rgb y cb cr))
  (sat24 (gain * c.1), sat24 (gain * c.2.1), sat24 (gain * c.2.2))

/-- Blend one component (R215). -/
def blend1 (add : Bool) (a : Rat) (s o : Nat) : Nat :=
  if add then min 0xFFFFFF (roundHalf (o + a * s)).toNat else (roundHalf (a * s + (1 - a) * o)).toNat

/-- Blend a layer pixel. -/
def blend (add : Bool) (a : Rat) (s o : Nat × Nat × Nat) : Nat × Nat × Nat :=
  (blend1 add a s.1 o.1, blend1 add a s.2.1 o.2.1, blend1 add a s.2.2 o.2.2)

namespace State

/-! ## Feeds and rings -/

/-- A feed. -/
def wfeed (s : State) (k : Nat) : Feed := sget (fun _ => {}) s.lnd.feeds k
/-- Set a feed. -/
def setFeed (s : State) (k : Nat) (f : Feed) : State :=
  { s with lnd := { s.lnd with feeds := sset (fun _ => {}) s.lnd.feeds k f } }
/-- MN_COLOUR layout of the mode in force. -/
def colourCur (s : State) : Nat := s.rd pLnd O.LND_COLOUR_CUR
/-- The ring of a context, or of a share's sink (SRC_KIND 2). -/
def ringCtx (s : State) (kind src : Nat) : Ctx := if kind = 2 then sget (fun _ => {}) s.shares src else s.ctx src
/-- Reader mark of a ring: a context, or 512 + a share. -/
def ringKey (kind src : Nat) : Nat := if kind = 2 then 512 + src else src
/-- Can a ring be shown at all: a context open that has one? -/
def ringOpen (x : Ctx) : Bool := x.isOpen && x.typ ≠ 3

/-- The picture in a ring slot. -/
def picOf (s : State) (x : Ctx) (slot : Nat) : Pic :=
  let w0 := s.entW x slot 0
  let w4 := s.entW x slot 4
  { base := picAddr x slot, pitch := x.pitch, width := bitsOf w4 16 16, height := bitsOf w4 0 16, rgb := bitOf w0 14
    full := bitOf w0 15, colour := bitsOf w0 16 4, is444 := bitsOf w0 12 2 = 1 }

/-- A stored sample of a packed line: component 0 luma or G, 1 Cb or B, 2 Cr or R (R137). -/
def packed (s : State) (p : Pic) (row group comp i : Nat) : Nat :=
  if p.is444 then
    let v := leNat (s.hbmBytes (p.base + row * p.pitch + group * 15) 15)
    bitsOf v (30 * i + [10, 0, 20].getD comp 0) 10
  else
    let v := leNat (s.hbmBytes (p.base + row * p.pitch + group * 5) 5)
    bitsOf v (if comp = 0 then 10 + 20 * i else if comp = 1 then 0 else 20) 10

/-- A component at a source sample, in 4:4:4; outside the picture, black (R204). -/
def sampleAt (s : State) (p : Pic) (comp : Nat) (col row : Nat) : Nat :=
  if p.width ≤ col ∨ p.height ≤ row then
    (if p.rgb then (if p.full then 0 else 64) else if comp = 0 then (if p.full then 0 else 64) else 512)
  else if p.is444 then s.packed p row (col / 4) comp (col % 4)
  else if comp = 0 then s.packed p row (col / 2) 0 (col % 2)
  else
    let a := s.packed p row (col / 2) comp 0
    if col % 2 = 0 then a
    else (a + s.packed p row (min (col / 2 + 1) ((p.width - 1) / 2)) comp 0 + 1) / 2

/-- A component filtered at a source point within a crop rectangle (R204); `bu`, `bv` are the scales of the bucket. -/
def filtered (s : State) (p : Pic) (filter : Nat) (cx cy cw ch : Nat) (bu bv u v : Rat) (comp : Nat) : Nat :=
  let hold (lo n : Nat) (i : Int) : Nat := (max (lo : Int) (min i (lo + n - 1 : Nat))).toNat
  if filter = 2 then s.sampleAt p comp (hold cx cw u.floor) (hold cy ch v.floor)
  else
    let tu := tapStart u
    let tv := tapStart v
    let fu := filterTaps (if filter = 1 then 1 else autoBand bu) tu.2
    let fv := filterTaps (if filter = 1 then 1 else autoBand bv) tv.2
    let sum := tapSum fv fun j => tapSum fu fun i =>
      s.sampleAt p comp (hold cx cw (tu.1 + i)) (hold cy ch (tv.1 + j))
    (max 0 (min 1023 (rdiv sum 262144))).toNat

/-! ## Selection (R191, R206-R210) -/

/-- Is a picture flagged for a layer (R208)? -/
def flagged (s : State) (x : Ctx) (l : Lay) (slot : Nat) : Bool :=
  let w0 := s.entW x slot 0
  bitOf w0 28 || (bitOf w0 27 && !bitOf (l.w 0) 23)

/-- The fallback of a layer (R210); `m` is the matte picture, which a slate keeps. -/
def fallbackSel (s : State) (l : Lay) (m : Option Nat) : LaySel :=
  if l.fallback = 0 then ⟨0, 0, none⟩
  else if l.fallback = 1 then ⟨1, 0, none⟩
  else
    let x := s.ctx l.slate
    match if ringOpen x ∧ x.typ = 2 then s.newestReady x (2 ^ 64) else none with
    | some k => ⟨3, k, m⟩
    | none => ⟨1, 0, none⟩

/-- Matte picture of a layer. -/
def matteSlot (s : State) (l : Lay) (disp : Int) : Option Nat :=
  l.mat.bind fun c => if ringOpen (s.ctx c) then s.newestReady (s.ctx c) disp else none

/-- Table 8.8 without its first row: what the layer shows, what it holds, and whether it is a fallback or a hold. -/
def decide8 (s : State) (l : Lay) (disp : Int) (held : Option Nat) : LaySel × Option Nat × Bool × Bool :=
  let x := s.ringCtx l.kind l.src
  let m := s.matteSlot l disp
  let stale (slot : Nat) : Bool :=
    l.staleMs ≠ 0 && ((s.slotPts x slot : Int) + l.staleMs * 1000000 < disp) && bitOf (l.w 0) 22
  let fb := (s.fallbackSel l m, held, true, false)
  let show_ (slot : Nat) (isHold : Bool) : LaySel × Option Nat × Bool × Bool :=
    if stale slot then fb
    else (⟨2, slot, m⟩, if s.flagged x l slot then held else some slot, false, isHold)
  if l.kind = 1 then (⟨4, 0, m⟩, none, false, false)
  else match if ringOpen x then s.newestReady x disp else none with
    | none => fb
    | some c =>
      if !s.flagged x l c ∨ l.policy = 0 then show_ c false
      else if l.policy = 1 then match held with
        | some h => show_ h true
        | none => fb
      else fb

/-- A frozen layer's picture, or its fallback once it is stale. -/
def frozenSel (s : State) (l : Lay) (disp : Int) (z : LaySel) : LaySel :=
  let x := s.ringCtx l.kind l.src
  if l.kind ≠ 1 ∧ l.staleMs ≠ 0 ∧ (s.slotPts x z.slot : Int) + l.staleMs * 1000000 < disp ∧ bitOf (l.w 0) 22 then
    s.fallbackSel l z.mat
  else z

/-- Is a feed's guarded content frozen? -/
def frozen (s : State) (k : Nat) : Bool := s.bit pLnd O.LND_FLAGS k

/-- One layer of a feed at its slot: the selection and what it keeps, with the counts. -/
def selectLayer (s : State) (k : Nat) (l : Lay) (disp : Int) (rt : LayRt) : State × LaySel × LayRt :=
  let guard_ := l.guarded && s.frozen k
  match if guard_ then rt.froz else none with
  | some z =>
    let v := s.frozenSel l disp z
    (if v = z then s else s.incr pLnd O.LND_CNT_FALLBACK, v, rt)
  | none =>
    let r := s.decide8 l disp rt.held
    let s := if r.2.2.1 then s.incr pLnd O.LND_CNT_FALLBACK else s
    let s := if r.2.2.2 then s.incr pLnd O.LND_CNT_HOLD else s
    let froz := if guard_ ∧ (r.1.kind = 2 ∨ r.1.kind = 4) then some r.1 else none
    (s, r.1, { held := r.2.1, froz := froz })

/-- Rings and slots that a layer reads or keeps (R139, R209). -/
def layReads (l : Lay) (v : LaySel) (rt : LayRt) : List (Nat × Nat) :=
  let key := ringKey l.kind l.src
  let pics (v : LaySel) : List (Nat × Nat) :=
    (if v.kind = 2 then [(key, v.slot)] else if v.kind = 3 then [(l.slate, v.slot)] else [])
      ++ (match l.mat, v.mat with | some c, some k => [(c, k)] | _, _ => [])
  pics v ++ (match rt.held with | some h => if l.policy = 1 then [(key, h)] else [] | none => [])
    ++ (match rt.froz with | some z => pics z | none => [])

/-- Select the pictures of a feed for the slot that starts (R191). -/
def selectFeed (s : State) (k : Nat) (disp : Int) : State :=
  let f := s.wfeed k
  let drop (s : State) : State := { s with holds := s.holds.filter fun h => h.1 ≠ k }
  match f.cur with
  | none => drop { s with lnd := { s.lnd with sel := [] } }
  | some c =>
    let step (a : State × List LaySel × List LayRt) (i : Nat) : State × List LaySel × List LayRt :=
      let l := c.lay i
      if !bitOf (l.w 0) 31 then (a.1, a.2.1 ++ [{ kind := 0 }], a.2.2 ++ [{}])
      else
        let r := a.1.selectLayer k l disp (f.rt.getD i {})
        (r.1, a.2.1 ++ [r.2.1], a.2.2 ++ [r.2.2])
    let r := (List.range c.layers).foldl step (s, [], [])
    let reads := ((List.range c.layers).map fun i => layReads (c.lay i) (r.2.1.getD i { kind := 0 }) (r.2.2.getD i {})).flatten
    let s := r.1.setFeed k { f with rt := r.2.2 }
    let s := drop { s with lnd := { s.lnd with sel := r.2.1 } }
    { s with holds := reads.map (fun e => (k, e.1, e.2)) ++ s.holds }

/-! ## Composition (R203-R215) -/

/-- Distance factor e of a source point to a crop rectangle (R205). -/
def edgeFactor (l : Lay) (u v : Rat) : Rat :=
  let x0 : Rat := l.sx
  let x1 : Rat := l.sx + l.sw
  let y0 : Rat := l.sy
  let y1 : Rat := l.sy + l.sh
  let inside : Bool := x0 ≤ u && u < x1 && y0 ≤ v && v < y1
  if !l.edge then (if inside then 1 else 0)
  else
    let ox := max 0 (max (x0 - u) (u - x1))
    let oy := max 0 (max (y0 - v) (v - y1))
    let d := if ox = 0 ∧ oy = 0 then min (min (u - x0) (x1 - u)) (min (v - y0) (y1 - v))
      else if ox = 0 then -oy else if oy = 0 then -ox else -(ratPow (ox * ox + oy * oy) (1 / 2))
    ratClamp 0 1 (1 / 2 + d / max (max l.su l.sv) 1)

/-- Matte factor m at a source point (R215). -/
def matteFactor (s : State) (l : Lay) (v : LaySel) (u w bu bv : Rat) : Rat :=
  match l.mat with
  | none => 1
  | some c => match v.mat with
    | none => 0
    | some k =>
      let p := s.picOf (s.ctx c) k
      let y := if l.kind = 1 then s.filtered p l.filter 0 0 (max 1 l.dw) (max 1 l.dh) 1 1 u w 0
        else s.filtered p l.filter l.sx l.sy l.sw l.sh bu bv u w 0
      ratClamp 0 1 (normY p.full y)

/-- α of a layer, a multiple of 1/4,096 (R215). -/
def alphaOf (l : Lay) (m e : Rat) : Rat := (roundHalf ((l.alpha : Rat) / 1023 * m * e * 4096) : Rat) / 4096

/-- Colour of a picture of a layer at a source point. -/
def picColour (s : State) (l : Lay) (p : Pic) (cx cy cw ch : Nat) (bu bv u v : Rat) : Nat × Nat × Nat :=
  let g (comp : Nat) : Rat := s.filtered p l.filter cx cy cw ch bu bv u v comp
  let ovr := bitsOf (l.w 13) 12 4
  colourPath (if ovr = 0 then p.colour else ovr) s.colourCur l.gain (if ovr = 0 then p.full else bitOf (l.w 13) 11)
    p.rgb (g 0) (g 1) (g 2)

/-- α of a layer at a wall point, where it is drawn there (R203, R205, R210, R215); `kx`, `ky` are the lamp pixels between
output pixels. -/
def alphaAt (s : State) (l : Lay) (v : LaySel) (x y kx ky : Rat) : Option Rat :=
  if v.kind = 0 ∨ !l.covers x y then none
  else if v.kind = 4 then some (alphaOf l (s.matteFactor l v (x - l.dx) (y - l.dy) 1 1) 1)
  else
    let q := l.srcPoint x y
    let e := edgeFactor l q.1 q.2
    if e ≤ 0 then none
    else some (alphaOf l (if v.kind = 1 then 1 else s.matteFactor l v q.1 q.2 (l.su * kx) (l.sv * ky)) e)

/-- Colour of a layer at a wall point: flat, black, the slate fitted to the crop rectangle, or the picture (R210). -/
def layColour (s : State) (l : Lay) (v : LaySel) (x y kx ky : Rat) : Nat × Nat × Nat :=
  let q := l.srcPoint x y
  let bu := l.su * kx
  let bv := l.sv * ky
  if v.kind = 4 then
    let g (n : Nat) : Nat := sat24 (l.gain * (n * 256 : Nat))
    (g (bitsOf (l.w 14) 16 16), g (bitsOf (l.w 14) 0 16), g (bitsOf (l.w 15) 16 16))
  else if v.kind = 1 then (0, 0, 0)
  else if v.kind = 3 then
    let p := s.picOf (s.ctx l.slate) v.slot
    let fx : Rat := (p.width : Rat) / (max 1 l.sw : Nat)
    let fy : Rat := (p.height : Rat) / (max 1 l.sh : Nat)
    s.picColour l p 0 0 (max 1 p.width) (max 1 p.height) (bu * fx) (bv * fy) ((q.1 - l.sx) * fx) ((q.2 - l.sy) * fy)
  else s.picColour l (s.picOf (s.ringCtx l.kind l.src) v.slot) l.sx l.sy l.sw l.sh bu bv q.1 q.2

/-- A layer blended over a pixel at a wall point. -/
def drawLayer (s : State) (l : Lay) (v : LaySel) (x y kx ky : Rat) (o : Nat × Nat × Nat) : Nat × Nat × Nat :=
  match s.alphaAt l v x y kx ky with
  | none => o
  | some a => blend l.add a (s.layColour l v x y kx ky) o

/-- The feed at a wall point, with the selections given (R215). -/
def composeAt (s : State) (c : Scene) (sel : List LaySel) (x y kx ky : Rat) : Nat × Nat × Nat :=
  (List.range c.layers).foldl (fun o i => s.drawLayer (c.lay i) (sel.getD i { kind := 0 }) x y kx ky o) c.bg

/-- Landing value of a lamp pixel of the feed in progress (R214). -/
def landingValue (s : State) (k x y : Nat) : Nat × Nat × Nat :=
  match (s.wfeed k).cur with
  | none => (0, 0, 0)
  | some c => s.composeAt c s.lnd.sel ((x : Rat) + 1 / 2) ((y : Rat) + 1 / 2) 1 1

/-- Wall positions of the engine's lamp pixels. -/
def lampPoints (s : State) : List (Nat × Nat) :=
  s.tiles.flatMap fun e => (List.range e.fw).flatMap fun u => (List.range e.fh).map fun v => (e.x + u, e.y + v)

/-- Lane cycles per slot of a scene (R14, R221). -/
def feedCost (s : State) (c : Scene) : Nat :=
  (s.lampPoints.map fun p =>
    max 1 (cdiv ((c.on.filter fun i => (c.lay i).covers p.1 p.2).length) 4)).sum

/-- FEED_COST follows the scene and the tables in force. -/
def setCost (s : State) (k : Nat) : State :=
  s.wr pLnd (O.LND_FEED_COST + 4 * k) (match (s.wfeed k).cur with | some c => s.feedCost c | none => 0)

/-! ## The flash guard (R216, R217) -/

/-- Mean light of a cell of lamp pixels. -/
def cellMean (s : State) (k : Nat) (pts : List (Nat × Nat)) : Rat × Rat × Rat :=
  let vs := pts.map fun p => s.landingValue k p.1 p.2
  let n : Rat := max 1 vs.length
  (((vs.map (·.1)).sum : Rat) / n, ((vs.map (·.2.1)).sum : Rat) / n, ((vs.map (·.2.2)).sum : Rat) / n)

/-- A cell's measurement taken into its state: the cell, its luminance transition (1 up, 2 down), and its red one (1 into
red, 2 out of it). -/
def cellStep (s : State) (old : Option FgCell) (m : Rat × Rat × Rat) : FgCell × Nat × Nat :=
  let wts : Rat × Rat × Rat := if bitOf s.colourCur 31 then (2126 / 10000, 7152 / 10000, 722 / 10000)
    else (2627 / 10000, 6780 / 10000, 593 / 10000)
  let y := (wts.1 * m.1 + wts.2.1 * m.2.1 + wts.2.2 * m.2.2) * 10000 / 16777216
  let sum := m.1 + m.2.1 + m.2.2
  let red : Bool := sum ≠ 0 && 8 / 10 * sum ≤ m.1
  let step : Rat := s.fld pLnd O.LND_FG_CFG 8 8
  let dark : Rat := 2 * s.fld pLnd O.LND_FG_CFG 0 8
  match old with
  | none => (⟨0, y, y, red⟩, 0, 0)
  | some c =>
    let up : Bool := c.dir ≠ 1 && step ≤ y - c.lo && c.lo < dark
    let down : Bool := c.dir ≠ 2 && step ≤ c.hi - y && y < dark
    let d := if up then 1 else if down then 2 else 0
    (if d = 0 then ⟨c.dir, min c.lo y, max c.hi y, red⟩ else ⟨d, y, y, red⟩, d,
      if red = c.red then 0 else if red then 1 else 2)

/-- Measure a feed in its slot, and trip the guard if either count reaches 6. -/
def flashGuard (s : State) (k : Nat) : State :=
  if !s.bit pLnd O.LND_FG_CFG 31 ∨ s.tiles = [] ∨ (s.wfeed k).cur = none then s
  else
    let pts := s.lampPoints
    let x0 := pts.foldl (fun a p => min a p.1) 65535
    let y0 := pts.foldl (fun a p => min a p.2) 65535
    let w := pts.foldl (fun a p => max a (p.1 + 1)) 0 - x0
    let h := pts.foldl (fun a p => max a (p.2 + 1)) 0 - y0
    let cellOf (p : Nat × Nat) : Nat := (p.2 - y0) * 16 / max 1 h * 16 + (p.1 - x0) * 16 / max 1 w
    let cells := (List.range 256).filter fun i => pts.any fun p => cellOf p = i
    let f := s.wfeed k
    let r := cells.map fun i =>
      (i, s.cellStep (sget (fun _ => none) f.cells i) (s.cellMean k (pts.filter fun p => cellOf p = i)))
    let need (n : Nat) : Bool :=
      let a := s.fld pLnd O.LND_FG_CFG 16 8
      (if a = 0 then 256 else a) * cells.length ≤ 256 * n
    let count (d : Nat) : Nat := (r.filter fun e => e.2.2.1 = d).length
    let reds (d : Nat) : Nat := (r.filter fun e => e.2.2.2 = d).length
    let span := (roundHalf ((s.frateNum : Rat) / s.frateDen)).toNat
    let now := s.tim.wframe
    let recent (l : List Nat) : List Nat := l.filter fun n => (now + 2 ^ 48 - n) % 2 ^ 48 < span
    let lum := recent (if need (count 1) ∨ need (count 2) then now :: f.lum else f.lum)
    let red := recent (if need (reds 1) ∨ need (reds 2) then now :: f.red else f.red)
    let s := s.setFeed k { f with
      cells := r.foldl (fun m e => sset (fun _ => none) m e.1 (some e.2.1)) f.cells, lum := lum, red := red }
    if !s.frozen k ∧ (6 ≤ lum.length ∨ 6 ≤ red.length) then
      ((s.incr pLnd (O.LND_FG_TRIPS + 4 * k)).setBit pLnd O.LND_FLAGS k true).setCause pLnd 0x10
    else s

/-- The hold ends: both counts restart at 0. -/
def flashHoldEnd (s : State) (k : Nat) : State :=
  let f := s.wfeed k
  (s.setFeed k { f with lum := [], red := [], rt := f.rt.map fun r => { r with froz := none } }).setBit pLnd O.LND_FLAGS k false

/-! ## Taps and composition vectors (R166, R179, R218, R219) -/

/-- Inverse EOTF of a colour (R218). -/
def inverseEotf (colour reg : Nat) (c : Rat × Rat × Rat) : Rat × Rat × Rat :=
  let cd (v : Rat) : Rat := v * 10000 / 16777216
  if colour = 3 then (pqInverse (cd c.1), pqInverse (cd c.2.1), pqInverse (cd c.2.2))
  else if colour = 4 then
    let peak : Rat := max 1 (hlgPeak reg)
    let yd := 2627 / 10000 * cd c.1 + 6780 / 10000 * cd c.2.1 + 593 / 10000 * cd c.2.2
    let g := hlgGamma (hlgPeak reg)
    let k := if yd ≤ 0 then 0 else ratPow (yd / peak) ((1 - g) / g) / peak
    (hlgOetf (k * cd c.1), hlgOetf (k * cd c.2.1), hlgOetf (k * cd c.2.2))
  else
    let f (v : Rat) : Rat := min 1 (ratPow (cd v / max 1 (sdrWhite reg)) (5 / 12))
    (f c.1, f c.2.1, f c.2.2)

/-- Y, Cb and Cr of a tap pixel, 10 bits. -/
def tapPixel (colour : Nat) (full : Bool) (reg : Nat) (v : Nat × Nat × Nat) : Nat × Nat × Nat :=
  let c := inverseEotf colour reg (primaries colour reg true ((v.1 : Rat), (v.2.1 : Rat), (v.2.2 : Rat)))
  let k := kCoef colour
  let y := k.1 * c.1 + (1 - k.1 - k.2) * c.2.1 + k.2 * c.2.2
  let cb := (c.2.2 - y) / (2 * (1 - k.2))
  let cr := (c.1 - y) / (2 * (1 - k.1))
  let q (x : Rat) : Nat := (max 0 (min 1023 (roundHalf x))).toNat
  if full then (q (1023 * y), q (512 + 1023 * cb), q (512 + 1023 * cr))
  else (q (64 + 876 * y), q (512 + 896 * cb), q (512 + 896 * cr))

/-- Wall point of an encode pixel. -/
def tapPoint (e : EncCfg) (i j : Rat) : Rat × Rat :=
  let r := e.rect
  (r.1 + i * r.2.2.1 / (max 1 e.width : Nat), r.2.1 + j * r.2.2.2 / (max 1 e.height : Nat))

/-- Lamp pixels between the pixels of an encoded picture, across and down. -/
def tapStep (e : EncCfg) : Rat × Rat :=
  ((e.rect.2.2.1 : Rat) / (max 1 e.width : Nat), (e.rect.2.2.2 : Rat) / (max 1 e.height : Nat))

/-- One packed line of a capture. -/
def tapLine (s : State) (e : EncCfg) (c : Scene) (sel : List LaySel) (j : Nat) : List Byte :=
  let k := tapStep e
  let px := (List.range e.width).map fun i =>
    let p := tapPoint e ((i : Rat) + 1 / 2) ((j : Rat) + 1 / 2)
    tapPixel (bitsOf (e.w 0) 20 4) (bitOf (e.w 0) 19) s.colourCur (s.composeAt c sel p.1 p.2 k.1 k.2)
  packLine 0 e.width (px.map (·.1)) (pairAvg (px.map (·.2.1))) (pairAvg (px.map (·.2.2)))

/-- Does a block of the encoded picture, as far as it lies in the picture, cross an edge of a layer: of its destination
rectangle, or of its crop rectangle where that lies in the other? Both are convex, so the corners tell. -/
def crossesEdge (e : EncCfg) (l : Lay) (bx by_ : Nat) : Bool :=
  let corner (i j : Nat) : Bool :=
    let w := tapPoint e (min (16 * bx + i) e.width : Nat) (min (16 * by_ + j) e.height : Nat)
    let q := l.srcPoint w.1 w.2
    l.touches w.1 w.2 && (l.kind = 1 || l.cropTouches q.1 q.2)
  !(corner 0 0 && corner 16 0 && corner 0 16 && corner 16 16)

/-- One entry of the composition-vector map (R179). -/
def cvEntry (s : State) (e : EncCfg) (c : Scene) (sel : List LaySel) (prev : Option Scene) (bx by_ : Nat) : Nat :=
  let px : Rat := 16 * bx + 8
  let py : Rat := 16 * by_ + 8
  let p := tapPoint e px py
  let k := tapStep e
  let shown (i : Nat) : Bool :=
    (s.alphaAt (c.lay i) (sel.getD i { kind := 0 }) p.1 p.2 k.1 k.2).any fun a => decide (1 / 2 ≤ a)
  match (c.on.reverse.find? shown), prev with
  | some i, some pc =>
    let l := c.lay i
    match (pc.on.find? fun k => (pc.lay k).id = l.id).map pc.lay with
    | none => 0
    | some m =>
      let q : Option (Rat × Rat) :=
        if l.kind = 1 then some (p.1 - l.dx + m.dx, p.2 - l.dy + m.dy)
        else let u := l.srcPoint p.1 p.2
          m.wallPoint u.1 u.2
      match q with
      | none => 0
      | some q =>
        let r := e.rect
        let dx := roundHalf (4 * ((q.1 - p.1) * e.width / (max 1 r.2.2.1 : Nat)))
        let dy := roundHalf (4 * ((q.2 - p.2) * e.height / (max 1 r.2.2.2 : Nat)))
        if !m.covers q.1 q.2 ∨ dx < -8192 ∨ 8191 < dx ∨ dy < -8192 ∨ 8191 < dy then 0
        else 2 ^ 31 + b2n (crossesEdge e l bx by_) * 2 ^ 30 + toBits 14 dx * 2 ^ 16 + toBits 14 dy
  | _, _ => 0

/-- The scene of the previous capture of a context, where the Landing still holds it (R219). -/
def prevScene (s : State) (x : Ctx) (k : Nat) : Option Scene :=
  x.enc.capScene.bind fun n => ((s.wfeed k).cur.toList ++ (s.wfeed k).retained.toList).find? fun r => r.serial = n

/-- Write a capture of a TAP context into its next input slot, with its map (R166): black where the feed has no scene in
force, and of the size that a change accepted by CTX_CONFIG leads to (R163). -/
def capture (s : State) (c k : Nat) : State :=
  let x := s.ctx c
  let e := nextCfg x x.newCfg
  let sc := (s.wfeed k).cur.getD ⟨[], 0, 0⟩
  let base := inputBase e (x.enc.capNum % max 1 e.inSlots)
  let t := (List.range e.height).foldl (fun t j =>
    t.setHbm (base + j * pitchOf 0 e.width) (s.tapLine e sc s.lnd.sel j)) s
  let bw := cdiv e.width 16
  let t := (List.range (cdiv e.height 16)).foldl (fun t by_ => (List.range bw).foldl (fun t bx =>
    t.setHbm (base + e.frameBytes + (by_ * bw + bx) * 4)
      (leBytes 4 (s.cvEntry e sc s.lnd.sel (s.prevScene x k) bx by_))) t) t
  t.modCtx c fun x => { x with enc := { x.enc with
    capNow := (s.wfeed k).cur.map (·.serial), capConf := x.newCfg } }

/-- Wall frame of the next encode instant of a TAP context (R165). -/
def tapFrame (s : State) (x : Ctx) : Nat := s.tapFrameAt x x.enc.tapN

/-- Is a TAP context due a capture in this wall frame? -/
def tapDue (s : State) (c : Nat) : Bool :=
  let x := s.ctx c
  x.typ = 3 && x.works && x.ecfg.tap && x.closing.isNone && s.tapFrame x = s.tim.wframe

/-- Contexts that take a capture in the slot of feed k. -/
def tapsOf (s : State) (k : Nat) : List Nat :=
  (s.ctxs.map (·.1)).filter fun c => s.tapDue c && (s.ctx c).ecfg.tapFeed = k

/-- The capture of a context is over: its encode instant may come (R166); later instants of the same wall frame are
missed. A capture that is complete is the previous one of the next (R219). -/
def tapEnd (s : State) (c kind : Nat) (disp : Int) : State :=
  s.modCtx c fun x =>
    let kind := if kind = 0 ∧ x.enc.lastCap = some s.tim.wframe then 1 else kind
    let e := if kind = 0 then { x.enc with capScene := x.enc.capNow, capNum := x.enc.capNum + 1 } else x.enc
    { x with enc := { e with
      cap := some (toBits 64 disp, kind), tapN := x.enc.tapN + 1, lastCap := some s.tim.wframe, capNow := none } }

/-! ## Lanes (R220) -/

/-- Is a lane retired? -/
def laneGone (s : State) (n : Nat) : Bool := s.bit pLnd (O.LND_LANE_RETIRED + 4 * (n / 32)) (n % 32)

/-- Lanes that are not retired: the lowest `L` of them are in service, since the lowest spare is always the next taken. -/
def lanesLeft (s : State) : List Nat := (List.range 104).filter fun n => !s.laneGone n

/-- Is a lane in service: one of the 96, or a spare that has been taken, and not retired? -/
def laneIn (s : State) (n : Nat) : Bool := (s.lanesLeft.take s.lanes).contains n

/-- Show a lane RETIRED, with the record of its retirement. -/
def laneShow (s : State) (n cls code : Nat) (spare noSpare : Bool) : State :=
  let p := pLnd
  let s := s.setBit p (O.LND_LANE_RETIRED + 4 * (n / 32)) (n % 32) true
  let s := s.setFld p O.LND_LANES 24 8 (s.fld p O.LND_LANES 24 8 + 1)
  ((s.setCause p 8).setCause pDev 2).faultLog cls spare noSpare p code n

/-- A spare lane leaves the pool. -/
def laneTake (s : State) : State := (s.setFld pLnd O.LND_LANES 16 4 (s.fld pLnd O.LND_LANES 16 4 - 1)).copTake 4

/-- The lowest spare lane runs its self-test; one in `bad` fails it and is retired, and the next is tried (R464). The
lowest spare is the `i`-th lane left. -/
def laneTests (s : State) (bad : List Nat) (i : Nat) : Nat → State
  | 0 => s
  | fuel + 1 =>
    match s.lanesLeft[i]? with
    | none => s
    | some k =>
      if k ∈ bad then ((s.laneShow k 1 0x0102 true false).laneTake).laneTests bad i fuel
      else s

/-- A lane is retired, with a record of a class; the lowest spare that passes its self-test takes its place, with a record
of its promotion, or L falls (R220, R464). -/
def laneOut (s : State) (n cls code : Nat) (bad : List Nat) : State :=
  let any := (s.lanesLeft.drop s.lanes).any fun k => k ∉ bad
  let s := s.laneShow n cls code any (!any)
  let s := if bad = [] then s else s.laneTests bad (s.lanes - 1) 8
  if s.fld pLnd O.LND_LANES 16 4 ≠ 0 then
    s.laneTake.faultLog 0 true false pLnd 0 (s.lanesLeft.getD (s.lanes - 1) 0)
  else (s.setFld pLnd O.LND_LANES 0 7 (s.lanes - 1)).copLose 4

/-- A lane is retired on a residue mismatch (R220); a request to retire it is thereby done (R464). -/
def retireLane (s : State) (n : Nat) (bad : List Nat) : State :=
  let s := (s.errCapture pLnd 0x0100 n 0).laneOut n 1 0x0100 bad
  if s.flt.retiring = some (4, n) then
    { s.wr pDev O.DEV_RETIRE_STAT (2 * 2 ^ 28) with flt := { s.flt with retiring := none } }
  else s

/-- At a slot boundary a lane that is being retired by request leaves service (R465). -/
def laneReqDue (s : State) : State :=
  match s.flt.retiring with
  | some (4, n) =>
    let s := s.laneOut n 0 0 []
    { s.wr pDev O.DEV_RETIRE_STAT (2 * 2 ^ 28) with flt := { s.flt with retiring := none } }
  | _ => s

/-! ## Scenes waiting for their epochs (R24, R201, R202) -/

/-- Distance in wall frames to an epoch, as R3 reads 32-bit epochs. -/
def epochAhead (s : State) (e : Nat) : Int := signed 32 (e + 2 ^ 32 - s.tim.wframe % 2 ^ 32)

/-- Is an epoch at least `n` wall frames ahead (Table 1.5)? -/
def leadOk (s : State) (e n : Nat) : Bool :=
  let d := s.epochAhead e
  1 ≤ d && s.nowFx ≤ s.nextBoundary + (d - 1 - n) * s.periodFx

/-- Jobs that wait for their epoch and have not been withdrawn. -/
def liveScenes (s : State) (k : Nat) : List (Scene × JobRef) := (s.wfeed k).pend.filter fun e => s.jobOpen e.2

/-- SCENE_PEND and FEED_SCENE of a feed. -/
def sceneFlags (s : State) (k : Nat) : State :=
  (s.setBit pLnd O.LND_FLAGS (16 + k) (!(s.liveScenes k).isEmpty)).setBit pLnd O.LND_FLAGS (8 + k) (s.wfeed k).cur.isSome

/-- The scene a job names. -/
def sceneOf (s : State) (j : Job) : Scene :=
  let b := s.jobData j
  ⟨(List.range (b.length / 4)).map fun i => BitVec.ofNat 32 (leWord b (4 * i)), j.dw 7, s.lnd.serial⟩

/-- Place a scene that has been read: it replaces one of the same epoch, takes a buffer, or waits (R24, R202). -/
def placeScene (s : State) (r : JobRef) (j : Job) : State :=
  let k := bitsOf (j.dw 6) 0 3
  let sc := s.sceneOf j
  let live := s.liveScenes k
  let f := s.wfeed k
  if !s.leadOk sc.epoch 1 then s.finishSt r stLateEpoch
  else
    let s := { s with lnd := { s.lnd with serial := s.lnd.serial + 1 } }
    match live.find? fun e => e.1.epoch = sc.epoch with
    | some e =>
      let s := (s.finishSt e.2 stSuperseded).setFeed k { f with
        pend := (live.filter fun g => g.1.epoch ≠ sc.epoch) ++ [(sc, r)] }
      (s.takeJob r (some sc.epoch)).sceneFlags k
    | none => match f.wait.find? fun w => (s.findJob w).any fun g => g.out.isNone && g.epoch == some sc.epoch with
    | some w => ((s.finishSt w stSuperseded).takeJob r (some sc.epoch)).setFeed k { f with
        pend := live, wait := f.wait.map fun v => if v = w then r else v }
    | none =>
      if 2 ≤ live.length then (s.takeJob r (some sc.epoch)).setFeed k { f with pend := live, wait := f.wait ++ [r] }
      else ((s.takeJob r (some sc.epoch)).setFeed k { f with pend := live ++ [(sc, r)] }).sceneFlags k

/-- SCENE_SUBMIT (R201): reading and checking. -/
def sceneSubmit (s : State) (ok : Bool) (r : JobRef) (j : Job) : State :=
  let k := bitsOf (j.dw 6) 0 3
  if !ok then s.finishSt r stHostAccess
  else match (s.sceneOf j).readFault k j.length with
    | some (reason, lay) => s.finishDet r stBadParam (reason * 256 + lay)
    | none => s.placeScene r j

/-- SCENE_INVALID reason and layer of a scene at its epoch (Table 8.7). -/
def sceneInvalid (s : State) (c : Scene) : Option (Nat × Nat) :=
  let enc (n : Nat) : Bool := (s.ctx n).isOpen && (s.ctx n).typ = 3
  if s.feeds ≤ c.feed then some (0x10, 0)
  else (c.on.find? fun i =>
    let l := c.lay i
    (l.kind = 0 && enc l.src) || (l.mat.any enc)
      || (l.kind ≠ 1 && l.fallback = 2 && (s.ctx l.slate).isOpen && (s.ctx l.slate).typ ≠ 2)).map fun i => (0x11, i)

/-- A feed's scene in force changes; the layers start afresh (R209). -/
def setScene (s : State) (k : Nat) (c : Option Scene) : State :=
  let f := s.wfeed k
  let s := s.setFeed k { f with cur := c, retained := f.cur.orElse fun _ => f.retained, rt := [] }
  let s := s.wr pLnd (O.LND_SCENE_EPOCH + 4 * k) ((c.map (·.epoch)).getD 0)
  let s := s.wr64 pLnd (O.LND_SCENE_TAG + 8 * k) ((c.map Scene.tag).getD 0)
  (s.setCost k).sceneFlags k

/-- Step 4 of R22 for a feed: the scene of this wall frame's epoch is checked and applied; one that waited may take the
buffer it leaves. -/
def applyScene (s : State) (k : Nat) : State :=
  let live := s.liveScenes k
  let f := s.wfeed k
  match live.find? fun e => e.1.epoch = s.tim.wframe % 2 ^ 32 with
  | none => (s.setFeed k { f with pend := live }).sceneFlags k
  | some (sc, r) =>
    let s := s.setFeed k { f with pend := live.filter fun e => e.2 ≠ r, wait := f.wait.drop 1 }
    let s := match s.sceneInvalid sc with
      | some (reason, lay) =>
        ((s.setScene k none).finishDet r stSceneInvalid (reason * 256 + lay)).setCause pLnd 2
      | none => ((s.setScene k (some sc)).finish r { status := stSuccess, result := sc.epoch }).setCause pLnd 1
    match f.wait with
    | [] => s
    | n :: _ => match s.findJob n with
      | some j => if j.out.isNone then s.placeScene n j else s
      | none => s

/-! ## CAM_SYNC (R199) -/

/-- A CAM_SYNC register of output k. -/
def csr (off k : Nat) : Nat := off + 0x10 * k
/-- Is output k high? -/
def camLevel (s : State) (k : Nat) (active : Bool) : Bool := active ≠ s.bit pTim (csr O.TIM_CS_CFG k) 30

/-- Target of a slot's leading edge on an output, `n` wall frames from the one in progress, ns. -/
def camTarget (s : State) (k : Nat) (n : Int) (slot : Nat) : Int :=
  let sync := s.slotTime (s.frameAt n) slot
  sync + (if s.bit pTim (csr O.TIM_CS_CFG k) 29 then 0 else s.displayDelay) + signed 32 (s.rd pTim (csr O.TIM_CS_OFS k))

/-- The next leading edge of an output after a slot's. -/
def camNext (s : State) (k : Nat) (n : Int) (slot : Nat) : Int :=
  let ms := setBitsOf (s.rd pTim (csr O.TIM_CS_CFG k)) (min 9 s.slotsPerFrame)
  match ms.find? fun m => slot < m with
  | some m => s.camTarget k n m
  | none => s.camTarget k (n + 1) (ms.headD slot)

/-- A leading edge, if one is due for the slot and its target has not passed. -/
def camLead (s : State) (k : Nat) (n : Int) (slot : Nat) : State :=
  let cfg := s.rd pTim (csr O.TIM_CS_CFG k)
  let t := s.camTarget k n slot
  if !(s.running pLnd && (s.lnd.on || decide (1 ≤ n)) && bitOf cfg 31 && bitOf cfg slot && decide (slot < s.slotsPerFrame)
      && decide ((s.tim.time : Int) ≤ t)) then s
  else
    let wid : Int := max 10 (min 8000000 (s.fld pTim (csr O.TIM_CS_WID k) 0 24))
    let stop := min (t + wid) (s.camNext k n slot - 50)
    let s := (s.reachTime t).emit (.camSync k (s.camLevel k true))
    { s with lnd := { s.lnd with cam := sset (fun _ => none) s.lnd.cam k (some stop.toNat) } }

/-- An active pulse ends. -/
def camTrail (s : State) (k : Nat) : State :=
  { s.emit (.camSync k (s.camLevel k false)) with lnd := { s.lnd with cam := sset (fun _ => none) s.lnd.cam k none } }

/-- A write of CS_CFG(k): an output that is disabled returns to its inactive level, and its polarity shows at once. -/
def camConfig (s : State) (k : Nat) (write : State → State) : State :=
  let high (s : State) : Bool := s.camLevel k (sget (fun _ => none) s.lnd.cam k).isSome
  let t := write s
  let t := if t.bit pTim (csr O.TIM_CS_CFG k) 31 then t
    else { t with lnd := { t.lnd with cam := sset (fun _ => none) t.lnd.cam k none } }
  if high t = high s then t else t.emit (.camSync k (high t))

/-- An edge of output k: the end of its pulse if one is active, the leading edge of the slot otherwise. -/
def camEdge (s : State) (k frame slot : Nat) : State :=
  match sget (fun _ => none) s.lnd.cam k with
  | some t => (s.reachTime t).camTrail k
  | none => s.camLead k (signed 48 (frame + 2 ^ 48 - s.tim.wframe)) slot

/-- LND leaves RUNNING: active pulses end at once, no slot runs, and captures in progress are missed (R192, R199). -/
def landingStops (s : State) : State :=
  let s := (List.range 8).foldl (fun s k => if (sget (fun _ => none) s.lnd.cam k).isSome then s.camTrail k else s) s
  { s with lnd := { s.lnd with on := false, slot := none, sel := [] }, holds := s.holds.filter fun h => 8 ≤ h.1 }

end State

/-! ## The commands -/

/-- SCENE_SUBMIT (R201); `ok` is false when the descriptor cannot be read. -/
def execSceneSubmit (j : JobRef) (ok : Bool) : State → Out := act .wqm fun s =>
  s.withJob j 0x20 (fun b s => s.withHbm (·.withHost (·.sceneSubmit ok j b)))

/-- FLASH_HOLD_END (R217): FG_HOLD ms after a trip. -/
def execFlashHoldEnd (feed : Fin 8) : State → Out := act .lnd fun s => when (s.frozen feed) (·.flashHoldEnd feed) s

/-- CAM_SYNC_EDGE (R199): an edge of output k falls due; a leading edge is that of a slot of a wall frame. -/
def execCamSyncEdge (k : Fin 8) (frame : BitVec 48) (slot : Fin 9) : State → Out := act .tim fun s =>
  s.camEdge k frame.toNat slot

end Sys2Proof.Machine
end

