-- ==== Sys2Proof/Machine/LampMap.lean ====
section
/-! DEFINITION. The Lamp map, the correction of each lamp pixel, tile identity, and the uncorrectable entries
(chapter 09, R223-R233, R250). -/
namespace Sys2Proof.Machine

/-- Lamp pixels of the whole map. -/
def lampCount : Nat := 67108864

/-- Gain of a code in Q1.15 (R227). -/
def lampGain (g : Nat) : Nat :=
  if g = 0 then 0 else (roundHalf (32768 * exp2Fx ((((g : Int) - 128) * fx1) / 512))).toNat

/-- A colour's code in a Lamp map entry: 0 red, 1 green, 2 blue. -/
def codeOf (w c : Nat) : Nat := bitsOf w (16 - 8 * c) 8

/-- Static dither value of a wall position (R229). -/
def ditherAt (x y : Nat) : Nat :=
  let b := y % 16
  let c := (x % 16) ^^^ b
  ((List.range 4).map fun k => bitsOf c k 1 * 2 ^ (7 - 2 * k) + bitsOf b k 1 * 2 ^ (6 - 2 * k)).sum

/-- A component of three. -/
def comp3 (c : Nat) (v : Nat × Nat × Nat) : Nat := if c = 0 then v.1 else if c = 1 then v.2.1 else v.2.2

/-- Drive of one colour (R228): matrix row times light, gain, brightness, dither, and the limit of the type. -/
def drive1 (m : Nat → Int) (v : Nat × Nat × Nat) (g br r maxDrive : Nat) (is12 : Bool) : Nat :=
  let y := max 0 (min ((m 0 * v.1 + m 1 * v.2.1 + m 2 * v.2.2) / 16777216) 16777215)
  let z := y.toNat * g / 32768 * br / 32768
  if is12 then min ((z + 16 * r + 8) / 4096) (maxDrive / 16) else min ((z + r) / 256) maxDrive

namespace State

/-- Entry i of the Lamp map. -/
def lampEntry (s : State) (i : Nat) : Nat := s.tab pLmp (0x20 + i / 2 ^ 24) (i % 2 ^ 24)

/-- Store a value in an entry. -/
def putLamp (s : State) (i v : Nat) : State := s.setTab pLmp (0x20 + i / 2 ^ 24) (i % 2 ^ 24) (v % 2 ^ 24)

/-- An entry is written by host software, TABLE_LOAD or a sweep: an uncorrectable error in it ends (R230). -/
def writeLamp (s : State) (i v : Nat) : State :=
  let s := s.putLamp i v
  if i ∈ s.lmp.ue then { s with lmp := { s.lmp with ue := s.lmp.ue.filter (· ≠ i) } } else s

/-- DEPTH12 of the mode in force. -/
def depth12 (s : State) : Bool := s.bit pLnd O.LND_MODE_CUR 20

/-- Is a tile driven with 12 bits? -/
def drives12 (s : State) (e : TileCfg) : Bool := e.fmt36 || s.depth12

/-- Dither value r of a wall position in a slot (R229). -/
def dither (s : State) (x y slot : Nat) : Nat :=
  if s.bit pLmp O.LMP_DITHER_CFG 0 then
    (ditherAt x y + 107 * ((s.tim.wframe * s.slotsPerFrame + slot) % 256)) % 256
  else ditherAt x y

/-- Drive of a lamp pixel (i, j) of a tile for a Landing value in a slot (R225, R228-R230). -/
def lampDrive (s : State) (e : TileCfg) (i j slot : Nat) (v : Nat × Nat × Nat) : Nat × Nat × Nat :=
  let n := e.lmbase + j * e.w + i
  if n ∈ s.lmp.ue then (0, 0, 0)
  else
    let q := e.lampPos i j
    let r := s.dither (e.x + q.1) (e.y + q.2) slot
    let w := s.lampEntry n
    let d (c : Nat) : Nat := drive1 (fun k => s.tileMat e.typ c k) v (lampGain (codeOf w c)) s.lmp.br r e.maxDrive (s.drives12 e)
    (d 0, d 1, d 2)

/-- Drive of a lamp pixel, by its raster index, for the feed in a slot. -/
def pixelDrive (s : State) (e : TileCfg) (feed slot n : Nat) : Nat × Nat × Nat :=
  let i := n % max 1 e.w
  let j := n / max 1 e.w
  let q := e.lampPos i j
  s.lampDrive e i j slot (s.landingValue feed (e.x + q.1) (e.y + q.2))

/-- A write of BRIGHTNESS takes effect at the SYNC stand time of a slot; values above 1.0 act as 1.0 (R228). -/
def takeBrightness (s : State) : State :=
  { s with lmp := { s.lmp with br := min 0x8000 (s.rd pLmp O.LMP_BRIGHTNESS) } }

/-! ## Tile identity (R231) -/

/-- TILE_STAT(t). -/
def tstat (t : Nat) : Nat := O.LMP_TILE_STAT + 4 * t
/-- TILE_STAT(t).STATE: 0 EMPTY, 1 ABSENT, 2 MISMATCH, 3 UNVALIDATED, 4 CONFIRMED. -/
def tileState (s : State) (t : Nat) : Nat := s.fld pLmp (tstat t) 29 3
/-- VALID(t). -/
def tileValid (s : State) (t : Nat) : Bool := s.bit pLmp (tstat t) 28
/-- Set VALID(t). -/
def setValid (s : State) (t : Nat) (b : Bool) : State := s.setBit pLmp (tstat t) 28 b
/-- Offset of a register of tile block p of a JLK page. -/
def tbr (off p : Nat) : Nat := off + 0x20 * p
/-- The port side of a Jelek port. -/
def jport (s : State) (p : Nat) : JPort := sget (fun _ => {}) s.jports p
/-- Set the port side of a Jelek port. -/
def setJport (s : State) (p : Nat) (j : JPort) : State := { s with jports := sset (fun _ => {}) s.jports p j }
/-- Change the port side of a Jelek port. -/
def modJport (s : State) (p : Nat) (f : JPort → JPort) : State := s.setJport p (f (s.jport p))

/-- Is a tile enumerated at a chain position? -/
def enumerated (s : State) (p pos : Nat) : Bool := s.bit (pJlk + p) (tbr O.JLK_T_MODE pos) 31

/-- State that Table 9.4 gives an entry. -/
def identity (s : State) (t : Nat) : Nat :=
  if !s.tileEn t then 0
  else
    let e := s.tile t
    let g := s.rd (pJlk + e.port) (tbr O.JLK_T_GEOM e.pos)
    if !s.enumerated e.port e.pos then 1
    else if s.rd pLmp (O.LMP_TILE_SEEN + 4 * t) ≠ s.rd pLmp (O.LMP_TILE_EXP + 4 * t) ∨ bitsOf g 16 16 ≠ e.w
        ∨ bitsOf g 0 16 ≠ e.h ∨ decide (e.pos ∈ (s.jport e.port).fmt36) ≠ e.fmt36 then 2
    else if s.tileValid t then 4 else 3

/-- AUTO_EN of a port. -/
def autoEn (s : State) (p : Nat) : Bool := bitOf (s.rd64 pLmp O.LMP_AUTO_EN_LO) p

/-- An entry's state is fixed afresh, with what a change of state sets off (R231, R233). -/
def evalTile (s : State) (t : Nat) : State :=
  let e := s.tile t
  let s := if s.tileEn t && s.enumerated e.port e.pos then
      s.wr pLmp (O.LMP_TILE_SEEN + 4 * t) (s.rd (pJlk + e.port) (tbr O.JLK_T_SERIAL e.pos)) else s
  let old := s.tileState t
  let new := s.identity t
  if new = old then s
  else
    let s := s.setFld pLmp (tstat t) 29 3 new
    let s := if new = 2 then (s.setValid t false).incr pLmp O.LMP_CNT_MISMATCH else s
    let s := if old = 4 then s.setCause pLmp 8 else s
    let s := if new = 4 then s.setCause pLmp 4 else s
    if (new = 2 ∨ new = 3) ∧ s.autoEn e.port then
      ((s.setBit pLmp (tstat t) 26 true).setBit pLmp (tstat t) 25 false).setCause pLmp 0x40
    else s

/-- Bucking entries that are enabled or whose state is not EMPTY. -/
def evalList (s : State) : List Nat := (List.range 4032).filter fun t => s.tileEn t || s.tileState t ≠ 0

/-- Every entry is evaluated. -/
def evalAll (s : State) : State := s.evalList.foldl (fun s t => s.evalTile t) s

/-- The entries of a port are evaluated, after an enumeration of its chain. -/
def evalPort (s : State) (p : Nat) : State :=
  (s.evalList.filter fun t => (s.tile t).port = p).foldl (fun s t => s.evalTile t) s

/-- Is a tile confirmed? -/
def confirmed (s : State) (t : Nat) : Bool := s.tileState t = 4

/-- Exchange the copies of the bucking and tile-type tables that the bits of `m` name (R48, R226): VALID clears for every
entry whose PORT, POS, TYPE or LMBASE changes, and every entry is evaluated. -/
def swapTables (s : State) (m : Nat) : State :=
  let t := { s with lmpActive := s.lmpActive ^^^ m }
  let moved := (List.range 4032).filter fun n =>
    let a := s.tile n
    let b := t.tile n
    s.tileValid n && (a.port ≠ b.port || a.pos ≠ b.pos || a.typ ≠ b.typ || a.lmbase ≠ b.lmbase)
  let t := moved.foldl (fun s n => s.setValid n false) t
  let t := { t with mem := { t.mem with
    badTiles := if bitOf m 0 then [] else t.mem.badTiles, badTypes := if bitOf m 1 then [] else t.mem.badTypes } }
  t.evalAll.setCause pLmp 1

/-- Entry that a Lamp map index belongs to. -/
def lampTile (s : State) (i : Nat) : Option Nat :=
  (s.tiles.find? fun e => e.lmbase ≤ i ∧ i < e.lmbase + e.lamps).map (·.t)

/-- An uncorrectable entry is found (R230). -/
def lampUe (s : State) (i : Nat) : State :=
  if i ∈ s.lmp.ue then s
  else
    let s := { s with lmp := { s.lmp with ue := i :: s.lmp.ue } }
    let s := (s.incr pLmp O.LMP_CNT_LAMP_UE).containedFault pLmp 0x0100 0 i
    let s := match s.lampTile i with
      | some t => s.setFld pLmp (tstat t) 0 16 (min 0xFFFF (s.fld pLmp (tstat t) 0 16 + 1))
      | none => s
    s.setCause pLmp 2

/-- What a soft reset of LMP does to tile identity (R250). -/
def lampReset (s : State) : State :=
  let ts := (List.range 4032).filter fun t => s.rd pLmp (tstat t) ≠ 0
  let s := ts.foldl (fun s t =>
    s.wr pLmp (tstat t) (s.rd pLmp (tstat t) &&& 0xE1000000)) s
  { s with lmp := { s.lmp with busy := none, asked := [], ports := 0, br := 0x8000 } }.evalAll

end State

/-! ## The commands -/

/-- BRIGHTNESS_WRITE (R228), a PW write applied as it arrives; the drive follows at the next SYNC stand time. -/
def execBrightnessWrite (v : W32) : State → Out := act .lmp fun s =>
  s.pwWrite pLmp (·.wr pLmp O.LMP_BRIGHTNESS (bitsOf v.toNat 0 16))

/-- LAMP_UE (R230). -/
def execLampUe (i : Fin 67108864) : State → Out := actFault .lmp pLmp 0x0100 0 (·.lampUe i)

end Sys2Proof.Machine
end

