-- ==== Sys2Proof/Machine/Tally.lean ====
section
/-! DEFINITION. The Tally: dose records, sampling, sweeps, derating, the ledger; TILE_CONFIRM, which sets records; and
Cruise with its Snags (chapter 09, R232, R235-R251). -/
namespace Sys2Proof.Machine

/-- A dose record (Table 9.6): doses, baselines, and EXH; by colour, 0 red. -/
structure Dose where
  d : Nat × Nat × Nat
  b : Int × Int × Int
  exh : Nat
deriving DecidableEq, Repr

/-- Baseline value of a Snag. -/
def snagB : Int := -256

/-- A colour of three integers. -/
def icomp3 (c : Nat) (v : Int × Int × Int) : Int := if c = 0 then v.1 else if c = 1 then v.2.1 else v.2.2

/-- Three values made by colour. -/
def tri {α : Type} (f : Nat → α) : α × α × α := (f 0, f 1, f 2)

/-- Words of a record as bytes. -/
def Dose.bytes (r : Dose) : List Byte :=
  leBytes 4 r.d.1 ++ leBytes 4 r.d.2.1 ++ leBytes 4 r.d.2.2
    ++ leBytes 4 (toBits 9 r.b.1 * 2 ^ 23 + toBits 9 r.b.2.1 * 2 ^ 14 + toBits 9 r.b.2.2 * 2 ^ 5 + r.exh)

/-- A record read from bytes. -/
def doseOf (l : List Byte) : Dose :=
  let w := leWord l 12
  ⟨(leWord l 0, leWord l 4, leWord l 8), (signed 9 (w / 2 ^ 23), signed 9 (w / 2 ^ 14), signed 9 (w / 2 ^ 5)), w % 8⟩

/-- EXH of a colour. -/
def Dose.isExh (r : Dose) (c : Nat) : Bool := bitOf r.exh (2 - c)

/-- comp of an efficiency in Q1.15, at least 0x0100 (R240). -/
def compOf (eta : Nat) : Int :=
  roundHalf (-512 * ratLog2 ((eta : Rat) / 32768) + ratClamp (-(1 / 64)) (1 / 64) (Config.compError eta))

/-- The points of a curve up to the one that ends it (R239), and the efficiency at a dose (R240). -/
def curvePoints : List (Nat × Nat) → List (Nat × Nat)
  | [] => []
  | [p] => [p]
  | p :: q :: r => if q.1 ≤ p.1 then [p] else p :: curvePoints (q :: r)

/-- Efficiency at a dose, not rounded. -/
def etaAt (dose : Nat) : List (Nat × Nat) → Rat
  | [] => 0
  | [p] => p.2
  | p :: q :: r =>
    if dose < 65536 * q.1 then p.2 + ((q.2 : Rat) - p.2) * ((dose : Rat) - 65536 * p.1) / (65536 * (q.1 - p.1) : Nat)
    else etaAt dose (q :: r)

namespace State

/-! ## Records (R235, R240) -/

/-- HBM address of a record. -/
def doseAddr (s : State) (i : Nat) : Nat := s.rd64 pTly O.TLY_DOSE_BASE_LO + 16 * i
/-- A lamp pixel's record. -/
def dose (s : State) (i : Nat) : Dose := doseOf (s.hbmBytes (s.doseAddr i) 16)
/-- Write a record. -/
def setDose (s : State) (i : Nat) (r : Dose) : State := s.setHbm (s.doseAddr i) r.bytes

/-- Points of the curve of a type for a colour: knot and efficiency. -/
def curve (s : State) (typ c : Nat) : List (Nat × Nat) :=
  (List.range 16).map fun p =>
    let a := s.tab pTly 0 (32 * typ + 2 * p)
    let b := s.tab pTly 0 (32 * typ + 2 * p + 1)
    (bitsOf a 0 16, if c = 0 then bitsOf a 16 16 else if c = 1 then bitsOf b 0 16 else bitsOf b 16 16)

/-- comp(D) of a colour of a tile type. -/
def comp (s : State) (typ c dose : Nat) : Int :=
  compOf (max 0x0100 (roundHalf (etaAt dose (curvePoints (s.curve typ c)))).toNat)

/-- Baselines that codes at doses stand for (R236). -/
def baseOf (s : State) (typ w : Nat) (d : Nat × Nat × Nat) : Int × Int × Int :=
  tri fun c => if codeOf w c = 0 then snagB else max (-255) (min 255 ((codeOf w c : Int) - s.comp typ c (comp3 c d)))

/-- Tile type of the tile that a Lamp map index belongs to; 0 for an index of no tile. -/
def lampType (s : State) (i : Nat) : Nat := ((s.lampTile i).map fun t => (s.tile t).typ).getD 0

/-- A write of a Lamp map entry by host software (R236). -/
def hostLamp (s : State) (i v : Nat) : State :=
  let s := s.writeLamp i v
  if s.running pTly then
    let r := s.dose i
    s.setDose i ⟨r.d, s.baseOf (s.lampType i) v r.d, 0⟩
  else s

/-- Give every lamp pixel of a tile a dose, and baselines from its codes at it. -/
def resetDoses (s : State) (e : TileCfg) (d : Nat × Nat × Nat) : State :=
  (List.range e.lamps).foldl (fun s n =>
    s.setDose (e.lmbase + n) ⟨d, s.baseOf e.typ (s.lampEntry (e.lmbase + n)) d, 0⟩) s

/-! ## Starting and stopping (R236, R239) -/

/-- The first enabled tile type whose curve does not start at knot 0. -/
def curveBad (s : State) : Option Nat :=
  (List.range 64).find? fun k => bitOf (s.tab pLmp 1 (16 * k)) 31 && decide (bitsOf (s.tab pTly 0 (32 * k)) 0 16 ≠ 0)

/-- INIT: every record of every enabled tile is rewritten. -/
def tallyInit (s : State) : State :=
  if s.bit pTly O.TLY_CFG 30 then s.tiles.foldl (fun s e => s.resetDoses e (0, 0, 0)) s else s

/-! ## Sampling (R237, R238) -/

/-- K of a sample that stands for `w` samples. -/
def tallyK (s : State) (w : Nat) : Nat :=
  let secs : Rat := (w * s.fld pTly O.TLY_INTERVAL 0 16 * s.feeds * s.frateDen : Nat) / (s.frateNum * s.slotsPerFrame : Nat)
  (roundHalf (secs * 8 * 65536 / 65535)).toNat

/-- Did a port send BLACK in place of the slot in progress? -/
def slotBlack (s : State) (p : Nat) : Bool :=
  s.portDark p || (s.tim.hole && s.slotIdx ≠ 0) || decide (p ∈ s.lnd.dark) || bitOf (s.rd64 pLnd O.LND_MODE_BLACK_LO) p

/-- Drive of a tile's lamp pixel as sampled: 16 bits, 0 where the tile was sent BLACK. -/
def sampleDrive (s : State) (e : TileCfg) (feed slot n : Nat) : Nat × Nat × Nat :=
  if s.slotBlack e.port || !s.confirmed e.t || decide (e.t ∈ s.mem.badTiles) || decide (e.typ ∈ s.mem.badTypes) then (0, 0, 0)
  else
    let d := s.pixelDrive e feed slot n
    if s.drives12 e then tri fun c => 16 * comp3 c d else d

/-- Increment of one colour, with the free value u. -/
def increment (s : State) (k drive u : Nat) : Nat :=
  (drive * k + (Config.freeValue (s.freeCtr + u)).toNat % 65536) / 65536

/-- Lamp pixels whose increments may be staged at a time (R238). -/
def stagedMax : Nat := 65536

/-- Take a sample of every lamp (R237): the increments of the first 65,536 lamp pixels are staged, the others wait (R238). -/
def takeSample (s : State) (slot : Nat) : State :=
  let feed := s.tly.n % max 1 s.feeds
  let k := s.tallyK (1 + s.tly.deferred)
  let lamps := s.tiles.flatMap fun e => (List.range e.lamps).map fun n => (e, n)
  let incs := lamps.zipIdx.map fun q =>
    let d := s.sampleDrive q.1.1 feed slot q.1.2
    (q.1.1.lmbase + q.1.2, s.increment k d.1 (3 * q.2), s.increment k d.2.1 (3 * q.2 + 1), s.increment k d.2.2 (3 * q.2 + 2))
  { s with freeCtr := s.freeCtr + 3 * lamps.length
           tly := { s.tly with fold := some (incs.take stagedMax), rest := incs.drop stagedMax, live := true
                               n := s.tly.n + 1, deferred := 0 } }

/-- A port sends BLACK in the slot in progress, of which a sample may be staged: its lamps' drive counts as 0 (R237). -/
def darken (s : State) (p : Nat) : State :=
  if s.lnd.slot.isNone ∨ p ∈ s.lnd.dark then s
  else
    let off (e : Nat × Nat × Nat × Nat) : Nat × Nat × Nat × Nat :=
      if (s.lampTile e.1).any fun t => (s.tile t).port = p then (e.1, 0, 0, 0) else e
    let s := { s with lnd := { s.lnd with dark := p :: s.lnd.dark } }
    if !s.tly.live then s
    else { s with tly := { s.tly with fold := s.tly.fold.map (·.map off), rest := s.tly.rest.map off } }

/-- The slot in progress is over: what a sample of it stages is settled. -/
def sampleSettled (s : State) : State := if s.tly.live then { s with tly := { s.tly with live := false } } else s

/-- A sampled wall frame, in the slot of the feed whose turn it is; deferred while the fold before it lasts. -/
def tallySample (s : State) : State :=
  let iv := s.fld pTly O.TLY_INTERVAL 0 16
  match s.lnd.slot with
  | none => s
  | some slot =>
    if !s.running pTly ∨ iv = 0 ∨ s.tim.wframe % iv ≠ 0 ∨ slot ≠ s.tly.n % max 1 s.feeds
        ∨ s.tly.last = some s.tim.wframe ∨ Cond.pwrFail ∈ s.black.glob then s
    else
      let s := { s with tly := { s.tly with last := some s.tim.wframe } }
      if s.tly.fold.isSome then
        ({ s with tly := { s.tly with deferred := s.tly.deferred + 1 } }.incr pTly O.TLY_CNT_DEFERRED).setCause pTly 1
      else s.takeSample slot

/-- Add to a dose; one that reaches the top counts (R235). -/
def addDose (a : Nat × Nat) (e : Nat) : Nat × Nat :=
  let n := min 0xFFFFFFFF (a.1 + e)
  (n, if n = 0xFFFFFFFF ∧ a.1 ≠ 0xFFFFFFFF then a.2 + 1 else a.2)

/-- Fold one lamp pixel's increments. -/
def foldOne (s : State) (x : Nat × Nat × Nat × Nat) : State :=
  let r := s.dose x.1
  let a := addDose (r.d.1, 0) x.2.1
  let b := addDose (r.d.2.1, a.2) x.2.2.1
  let c := addDose (r.d.2.2, b.2) x.2.2.2
  (s.setDose x.1 { r with d := (a.1, b.1, c.1) }).addReg pTly O.TLY_CNT_DOSE_SAT c.2

/-- The increments that are staged are folded; the next of the sample are staged, and with the last the sample is folded
(R238). -/
def foldStaged (s : State) : State :=
  match s.tly.fold with
  | none => s
  | some l =>
    let s := l.foldl foldOne s
    if s.tly.rest.isEmpty then { s.incr pTly O.TLY_CNT_SAMPLES with tly := { s.tly with fold := none } }
    else { s with tly := { s.tly with fold := some (s.tly.rest.take stagedMax), rest := s.tly.rest.drop stagedMax } }

/-- FOLD_DONE: no fold of a sample ends within the slot that the sample is of, whose drive is known only at its end (R237). -/
def foldDone (s : State) : State := if s.tly.live then s else s.foldStaged

/-- Power fails: the staged increments are folded, what is not staged is dropped, and FOLDED is set (R245). -/
def foldPwrFail (s : State) : State :=
  let s := { s with tly := { s.tly with rest := [], live := false } }.foldStaged
  (s.setBit pTly O.TLY_FLAGS 2 true).setCause pTly 0x10

/-! ## Sweeps (R241-R243) -/

/-- DERATE(t) of a colour. -/
def derateOf (s : State) (t c : Nat) : Nat := codeOf (s.rd pTly (O.TLY_DERATE + 4 * t)) c

/-- Tile whose footprint contains a wall position. -/
def tileOver (s : State) (x y : Int) : Option Nat :=
  (s.tiles.find? fun e => (e.x : Int) ≤ x ∧ x < e.x + e.fw ∧ (e.y : Int) ≤ y ∧ y < e.y + e.fh).map (·.t)

/-- x_eff of a lamp of a tile (R243). -/
def xEff (s : State) (w : SweepSt) (e : TileCfg) (n c : Nat) : Int :=
  if !w.derate then 0
  else
    let q := e.lampPos (n % max 1 e.w) (n / max 1 e.w)
    let x : Int := e.x + q.1
    let y : Int := e.y + q.2
    let edges : List (Nat × Int × Int) :=
      [(q.1, (e.x : Int) - 1, y), (e.fw - 1 - q.1, (e.x : Int) + e.fw, y), (q.2, x, (e.y : Int) - 1),
        (e.fh - 1 - q.2, x, (e.y : Int) + e.fh)]
    let near := edges.foldl (fun (a : Nat × Int × Int) b => if b.1 < a.1 then b else a) (q.1, (e.x : Int) - 1, y)
    let xt := s.derateOf e.t c
    if w.feather ≤ near.1 then xt
    else
      let xn := ((s.tileOver near.2.1 near.2.2).map fun t => s.derateOf t c).getD xt
      roundHalf ((xt : Rat) + ((xn : Rat) - xt) * (w.feather - near.1 : Nat) / (2 * w.feather : Nat))

/-- Code, EXH and shortfall of one colour of a lamp pixel in a sweep. -/
def sweepColour (s : State) (w : SweepSt) (e : TileCfg) (r : Dose) (n c : Nat) : Nat × Bool × Nat :=
  let b := icomp3 c r.b
  if b = snagB then (0, false, 0)
  else
    let need := b + s.comp e.typ c (comp3 c r.d)
    let t := need - s.xEff w e n c
    ((max 1 (min 255 t)).toNat, decide (255 < t), (need - 255).toNat)

/-- One lamp pixel of a sweep: entry and record rewritten where they change (R241); the sweep's counts, and the largest
shortfalls of the tile so far. -/
def sweepLamp (ue : List Nat) (e : TileCfg) (a : State × SweepSt × (Nat × Nat × Nat)) (n : Nat) :
    State × SweepSt × (Nat × Nat × Nat) :=
  let s := a.1
  let w := a.2.1
  let i := e.lmbase + n
  if i ∈ ue then ((s.incr pTly O.TLY_CNT_DOSE_UE).errCapture pTly 0x0100 0 i, w, a.2.2)
  else
    let r := s.dose i
    let v : (Nat × Bool × Nat) × (Nat × Bool × Nat) × (Nat × Bool × Nat) := tri fun c => s.sweepColour w e r n c
    let code := v.1.1 * 2 ^ 16 + v.2.1.1 * 2 ^ 8 + v.2.2.1
    let exh := b2n v.1.2.1 * 4 + b2n v.2.1.2.1 * 2 + b2n v.2.2.2.1
    let s := if code ≠ s.lampEntry i ∨ i ∈ s.lmp.ue then s.writeLamp i code else s
    let s := if exh ≠ r.exh then s.setDose i { r with exh := exh } else s
    let snags := ([0, 1, 2].filter fun c => icomp3 c r.b = snagB).length
    let w := { w with
      exhNew := w.exhNew || decide (exh &&& (7 ^^^ r.exh) ≠ 0)
      exh := w.exh + (setBitsOf exh 3).length, snag := w.snag + snags }
    (s, w, (max a.2.2.1 v.1.2.2, max a.2.2.2.1 v.2.1.2.2, max a.2.2.2.2 v.2.2.2.2))

/-- The settings a sweep starts with. -/
def newSweep (s : State) : SweepSt :=
  { derate := s.bit pTly O.TLY_CFG 31, dmax := s.fld pTly O.TLY_CFG 16 8, feather := s.fld pTly O.TLY_CFG 8 8 }

/-- End of a sweep: the derates it found come into force, and it reports. -/
def endSweep (s : State) (w : SweepSt) : State :=
  let s := (List.range 4032).foldl (fun s t =>
    let v := sget (fun _ => 0) w.found t
    if s.rd pTly (O.TLY_DERATE + 4 * t) = v then s else s.wr pTly (O.TLY_DERATE + 4 * t) v) s
  let s := (s.wr pTly O.TLY_EXH_LAMPS w.exh).wr pTly O.TLY_SNAG_LAMPS w.snag
  let s := { s.incr pTly O.TLY_CNT_SWEEPS with tly := { s.tly with sweep := none } }
  (if w.exhNew then s.setCause pTly 4 else s).setCause pTly 2

/-- The next tile of a sweep, or its end (R241). -/
def sweepTile (s : State) (ue : List Nat) (w : SweepSt) : State :=
  match s.tiles.find? fun e => w.next ≤ e.t with
  | none => s.endSweep w
  | some e =>
    let r := (List.range e.lamps).foldl (sweepLamp ue e) (s, w, ((0, 0, 0) : Nat × Nat × Nat))
    let lim (v : Nat) : Nat := min v w.dmax
    let x := lim r.2.2.1 * 2 ^ 16 + lim r.2.2.2.1 * 2 ^ 8 + lim r.2.2.2.2
    let w2 := { r.2.1 with next := e.t + 1, found := if w.derate then sset (fun _ => 0) w.found e.t x else w.found }
    { r.1 with tly := { r.1.tly with sweep := some w2 } }

/-- A sweep goes on by a tile; one starts when none is in progress. -/
def sweepStep (s : State) (ue : List Nat) : State :=
  if !s.running pTly ∨ s.bit pTly O.TLY_SWEEP_CTL 1 then s
  else match s.tly.sweep with
    | some w => s.sweepTile ue w
    | none => if s.fld pTly O.TLY_SWEEP_PERIOD 0 16 = 0 then s else s.sweepTile ue s.newSweep

/-- SWEEP_CTL.NOW: a sweep starts at once, unless one is in progress. -/
def sweepNow (s : State) : State :=
  if s.running pTly ∧ s.tly.sweep.isNone then { s with tly := { s.tly with sweep := some s.newSweep } } else s

/-- A write of SWEEP_CTL. -/
def sweepCtl (s : State) (v : Nat) : State :=
  let s := s.setBit pTly O.TLY_SWEEP_CTL 1 (bitOf v 1)
  if bitOf v 0 then s.sweepNow else s

/-! ## The ledger (R246) -/

/-- The summary of a tile (Table 9.8). -/
def ledgerRec (s : State) (e : TileCfg) : List Byte :=
  let rs := (List.range e.lamps).map fun n => s.dose (e.lmbase + n)
  let top (f : Dose → Nat) : Nat := rs.foldl (fun a r => max a (f r)) 0
  let mean (f : Dose → Nat) : Nat := (rs.map f).sum / max 1 rs.length
  let cnt (f : Dose → Bool) : Nat := min 0xFFFF (rs.filter f).length
  let snag (r : Dose) : Bool := decide (r.b.1 = snagB ∨ r.b.2.1 = snagB ∨ r.b.2.2 = snagB)
  let ws := [0x544C0100, s.rd pTly O.TLY_LEDGER_SEQ, s.tim.time % 2 ^ 32, s.tim.time / 2 ^ 32,
    s.rd pLmp (O.LMP_TILE_EXP + 4 * e.t), top (·.d.1), top (·.d.2.1), top (·.d.2.2),
    mean (·.d.1), mean (·.d.2.1), mean (·.d.2.2),
    cnt (fun r => r.exh ≠ 0) * 2 ^ 16 + cnt snag, s.rd pTly (O.TLY_DERATE + 4 * e.t), 0, 0]
  let b := (ws.map (leBytes 4)).flatten
  b ++ leBytes 4 (crcIeee b)

/-- A ledger period ends. -/
def ledgerExpiry (s : State) : State :=
  if !s.running pTly ∨ s.fld pTly O.TLY_LEDGER_PERIOD 0 8 = 0 then s
  else
    let s := s.incr pTly O.TLY_LEDGER_SEQ
    let s := s.tiles.foldl (fun s e => s.setHbm (s.rd64 pTly O.TLY_LEDGER_BASE_LO + 64 * e.t) (s.ledgerRec e)) s
    s.setCause pTly 8

/-! ## TILE_CONFIRM (R232) -/

/-- ADOPT on an entry with a tile. -/
def adopt (s : State) (t : Nat) : State :=
  if s.tileState t = 0 ∨ s.tileState t = 1 then s
  else
    let s := s.wr pLmp (O.LMP_TILE_EXP + 4 * t) (s.rd pLmp (O.LMP_TILE_SEEN + 4 * t))
    s.resetDoses (s.tile t)
      (s.rd pLmp O.LMP_ADOPT_DOSE_R, s.rd pLmp O.LMP_ADOPT_DOSE_G, s.rd pLmp O.LMP_ADOPT_DOSE_B)

/-- A write of TILE_CONFIRM: ADOPT, VALIDATE, REVOKE in that order; one while BUSY is set is discarded. -/
def tileConfirm (s : State) (v : Nat) : State :=
  let t := bitsOf v 0 12
  if s.lmp.busy.isSome then s.lockedWrite pLmp
  else if 4032 ≤ t then s
  else
    let s := if bitOf v 31 then s.adopt t else s
    let s := if bitOf v 30 then s.setValid t true else s
    let s := if bitOf v 29 then s.setValid t false else s
    let s := (s.setBit pLmp (tstat t) 27 true).evalTile t
    { s with lmp := { s.lmp with busy := some t } }

/-- The engine finishes a TILE_CONFIRM. -/
def confirmDone (s : State) : State :=
  match s.lmp.busy with
  | none => s
  | some t => { s.setBit pLmp (tstat t) 27 false with lmp := { s.lmp with busy := none } }

/-! ## TALLY_SNAPSHOT (R244) -/

/-- Up to `k` more records of a range of lamp pixels to the job's data areas; the job ends with the last one. -/
def tallySnapshot (s : State) (r : JobRef) (j : Job) (k : Nat) : State :=
  let n := j.dw 7
  if lampCount < j.dw 6 + n ∨ j.length ≠ 16 * n then s.finishSt r stBadParam
  else
    let done := j.moved / 16
    let k := min k (n - done)
    let b := s.hbmBytes (s.doseAddr (j.dw 6 + done)) (16 * k)
    let s := ((s.putJobData (areasFrom j.moved j.pieces) b).jobBytes r (16 * k)).setJob r fun j =>
      { j with moved := j.moved + 16 * k, taken := true }
    if done + k = n then s.finish r { status := stSuccess, result := 16 * n } else s

/-! ## Cruise (R248, R249) -/

/-- CRUISE_STAT.STATE: 0 IDLE, 1 RUNNING, 2 WAIT, 3 DONE, 4 TIMEOUT, 5 ABORTED. -/
def cruiseState (s : State) : Nat := s.fld pLmp O.LMP_CRUISE_STAT 28 4
/-- Does Cruise run or wait? -/
def cruising (s : State) : Bool := s.cruiseState = 1 || s.cruiseState = 2
/-- Set CRUISE_STAT. -/
def setCruise (s : State) (st : Nat) : State :=
  s.wr pLmp O.LMP_CRUISE_STAT (st * 2 ^ 28 + s.lmp.asked.length % 4096)
/-- RUNNING, or WAIT while a running Landing has no maintenance slot. -/
def cruiseMode (s : State) : State :=
  if s.cruising then s.setCruise (if s.running pLnd ∧ !s.maintEn then 2 else 1) else s
/-- Cruise ends. -/
def cruiseEnd (s : State) (st : Nat) : State :=
  if s.cruising then (s.setCruise st).setCause pLmp 0x20 else s

/-- CRUISE_CTL.START. -/
def cruiseStart (s : State) (snag : Bool) : State :=
  if s.cruising then s.lockedWrite pLmp
  else
    let ports := s.rd64 pLmp O.LMP_CRUISE_PORTS_LO
    let asked := (s.tiles.filter fun e => bitOf ports e.port && s.confirmed e.t).map (·.t)
    let s := { s with lmp := { s.lmp with run := (s.lmp.run + 1) % 256, apply := snag, ports := ports, asked := asked } }
    let s := (s.setCruise 1).cruiseMode
    if asked.isEmpty then s.cruiseEnd 3 else s

/-- A write of CRUISE_CTL. -/
def cruiseCtl (s : State) (v : Nat) : State :=
  let s := if bitOf v 31 then s.cruiseStart (bitOf v 29) else s
  if bitOf v 30 then s.cruiseEnd 5 else s

/-- A colour of a lamp pixel becomes a Snag (R249); a write by Cruise ends no darkness of R230. -/
def snagLamp (s : State) (i c : Nat) (isOpen : Bool) : State :=
  let s := s.putLamp i (putBits (s.lampEntry i) (16 - 8 * c) 8 0)
  let r := s.dose i
  let b : Int × Int × Int := tri fun k => if k = c then snagB else icomp3 k r.b
  let s := s.setDose i { r with b := b, exh := putBits r.exh (2 - c) 1 0 }
  s.incr pLmp (if isOpen then O.LMP_CNT_CRUISE_OPEN else O.LMP_CNT_CRUISE_SHORT)

/-- One 6-bit result: into the map, and Snags under APPLY. -/
def cruiseResult (s : State) (i v : Nat) : State :=
  let s := s.setHbm (s.rd64 pLmp O.LMP_CRUISE_BASE_LO + i) [BitVec.ofNat 8 v]
  if !s.lmp.apply then s
  else [0, 1, 2].foldl (fun s c =>
    let k := bitsOf v (4 - 2 * c) 2
    if k = 2 ∨ k = 3 then s.snagLamp i c (k = 2) else s) s

/-- A LAMP_REPORT body from a tile (Table 10.14): bits 0-3983 hold the results, bit 0 the top bit of byte 0. -/
def lampReport (s : State) (e : TileCfg) (offset : Nat) (body : List Byte) : State :=
  let bits := beNat (body.take 498)
  let run := (body.getD 498 0).toNat
  if !s.cruising ∨ run ≠ s.lmp.run then s
  else
    let n := min 664 (e.lamps - offset)
    let s := (List.range n).foldl (fun s k => s.cruiseResult (e.lmbase + offset + k) (bitsOf bits (3984 - 6 - 6 * k) 6)) s
    if !bitOf (body.getD 499 0).toNat 7 then s
    else
      let s : State := { s with lmp := { s.lmp with asked := s.lmp.asked.filter (· ≠ e.t) } }
      if s.lmp.asked.isEmpty then s.cruiseEnd 3 else s.setCruise s.cruiseState

/-- What a soft reset of TLY drops. -/
def tallyReset (s : State) : State := { s with tly := {} }

end State

/-! ## The commands -/

/-- ADOPT (R232): a TILE_CONFIRM write with ADOPT. -/
def execAdopt (t : Fin 4096) : State → Out := act .lmp (·.tileConfirm (2 ^ 31 + t))
/-- VALIDATE (R232). -/
def execValidate (t : Fin 4096) : State → Out := act .lmp (·.tileConfirm (2 ^ 30 + t))
/-- REVOKE (R232). -/
def execRevoke (t : Fin 4096) : State → Out := act .lmp (·.tileConfirm (2 ^ 29 + t))
/-- TILE_CONFIRM_DONE (R232). -/
def execTileConfirmDone : State → Out := act .lmp (·.confirmDone)
/-- TALLY_SAMPLE (R237). -/
def execTallySample : State → Out := act .tly (·.tallySample)
/-- FOLD_DONE (R238). -/
def execFoldDone : State → Out := act .tly (·.foldDone)
/-- SWEEP (R241): the sweep's next tile; `ue` are the lamp pixels whose record cannot be read. -/
def execSweep (ue : List (Fin 67108864)) : State → Out := act .tly (·.sweepStep (ue.map (·.val)))
/-- NOW (R241), a PW write of SWEEP_CTL applied as it arrives. -/
def execSweepNow : State → Out := act .tly fun s => s.pwWrite pTly (·.sweepNow)
/-- PAUSE (R241). -/
def execSweepPause (on : Bool) : State → Out := act .tly fun s => s.pwWrite pTly (·.setBit pTly O.TLY_SWEEP_CTL 1 on)
/-- LEDGER_PERIOD_EXPIRY (R246). -/
def execLedgerPeriodExpiry : State → Out := act .tly (·.ledgerExpiry)
/-- TALLY_SNAPSHOT (R244): up to `j.n` records more. -/
def execTallySnapshot (j : JobPart) : State → Out := act .tly fun s =>
  match s.findJob j.ref with
  | some b => when (s.skdMoves && b.op = 0x41 && b.out.isNone) (·.withHbm (·.withHost (·.tallySnapshot j.ref b j.n))) s
  | none => s
/-- START (R248). -/
def execCruiseStart (snag : Bool) : State → Out := act .lmp fun s => s.pwWrite pLmp (·.cruiseStart snag)
/-- ABORT (R248). -/
def execCruiseAbort : State → Out := act .lmp fun s => s.pwWrite pLmp (·.cruiseEnd 5)
/-- CRUISE_TIMEOUT (R248): CRUISE_T s since START. -/
def execCruiseTimeout : State → Out := act .lmp (·.cruiseEnd 4)

end Sys2Proof.Machine
end

