-- ==== Sys2Proof/Machine/YarderProg.lean ====
section
/-! DEFINITION. Channel programs as the standard control-store image runs them (chapter 11): subchannels, commands,
operations on the two paths, status records, and the image's routines. -/
namespace Sys2Proof.Machine

namespace ChCmd

/-- COMMAND. -/
def code (c : ChCmd) : Nat := bitsOf c.w0 24 8
/-- LINK. -/
def link (c : ChCmd) : Bool := bitOf c.w0 23
/-- NOTE. -/
def note (c : ChCmd) : Bool := bitOf c.w0 22
/-- PAUSE. -/
def pause (c : ChCmd) : Bool := bitOf c.w0 21
/-- SPAN. -/
def span (c : ChCmd) : Bool := bitOf c.w0 20
/-- LIST. -/
def list (c : ChCmd) : Bool := bitOf c.w0 19
/-- DISCARD. -/
def discard (c : ChCmd) : Bool := bitOf c.w0 18
/-- SHORT_OK. -/
def shortOk (c : ChCmd) : Bool := bitOf c.w0 17
/-- COUNT. -/
def count (c : ChCmd) : Nat := bitsOf c.w0 0 16
/-- A bit of PARAM. -/
def parBit (c : ChCmd) (b : Nat) : Bool := bitOf c.w3 (16 + b)
/-- ARG. -/
def arg (c : ChCmd) : Nat := bitsOf c.w3 16 8
/-- TIMEOUT, 10 µs. -/
def timeout (c : ChCmd) : Nat := bitsOf c.w3 0 16

/-- Is the command code in Table 11.4? -/
def known (c : ChCmd) : Bool := [0x01, 0x02, 0x03, 0x04, 0x08, 0x0C, 0x10, 0x20].contains c.code
/-- READ, WRITE, CONTROL or SENSE. -/
def moves (c : ChCmd) : Bool := 1 ≤ c.code && c.code ≤ 4
/-- The engine function of CONTROL with LOCAL, 0 for none. -/
def local_ (c : ChCmd) : Nat := if c.code = 3 ∧ c.parBit 15 then c.arg else 0
/-- READ or SENSE, which bring data in. -/
def isIn (c : ChCmd) : Bool := c.code = 2 || c.code = 4

/-- PARAM bits and ARG as Table 11.5 allows them. -/
def paramOk (c : ChCmd) (direct : Bool) : Bool :=
  let loc := c.parBit 15
  let bulk := c.parBit 14
  (!loc || c.code = 3) && (!bulk || (c.code = 1 && !direct)) && (!c.parBit 13 || bulk) && (!c.parBit 10 || bulk)
    && (!c.parBit 12 || c.moves) && (!c.parBit 11 || c.code = 2) && bitsOf c.w3 24 2 = 0
    && (if c.code = 3 then
          (if loc then c.arg = 1 || (direct && (c.arg = 2 || c.arg = 3)) else c.arg = 0 && !direct)
        else if c.code = 0x0C then c.arg < 16
        else if c.code = 0x20 || bulk then true
        else c.arg = 0)

/-- COUNT as Tables 11.4 and 11.6 allow it. -/
def countOk (c : ChCmd) (direct : Bool) : Bool :=
  if c.code = 1 then c.count ≠ 0 || (direct && !c.parBit 14)
  else if c.code = 2 || c.code = 4 then c.count ≠ 0
  else if c.code = 0x0C || c.code = 0x10 then c.count = 0
  else if c.code = 0x20 then 1 ≤ c.count && c.count ≤ 64
  else if c.local_ = 1 then c.count = 8
  else if c.local_ ≠ 0 then c.count = 0
  else true

/-- The program-error code that a command meets by itself (Table 11.7), 0 for none. -/
def check (c : ChCmd) (direct : Bool) : Nat :=
  if c.addr % 16 ≠ 0 then 0x45
  else if !c.known then 0x41
  else if c.code = 8 then 0
  else if bitOf c.w0 16 || (c.discard && !c.isIn) || (c.span && !c.moves)
      || (c.list && (c.code = 0x0C || c.code = 0x10 || c.local_ = 2 || c.local_ = 3)) then 0x42
  else if !c.paramOk direct then 0x43
  else if !c.countOk direct then 0x44
  else if c.list && !c.discard && decide (c.data % 16 ≠ 0) then 0x45
  else 0

end ChCmd

/-- First command of an operation. -/
def ChOp.head (o : ChOp) : ChCmd := o.cmds.headD ⟨0, 0, 0, 0⟩
/-- Last command of an operation. -/
def ChOp.tail (o : ChOp) : ChCmd := o.cmds.getLastD ⟨0, 0, 0, 0⟩

/-- END codes (Table 11.8). -/
def endDone : Nat := 0
def endMatched : Nat := 1
def endShort : Nat := 2
def endDevice : Nat := 3
def endProgram : Nat := 4
def endHost : Nat := 5
def endBuffer : Nat := 6
def endMicro : Nat := 7
def endHalted : Nat := 8

namespace State

/-! ## Subchannels -/

/-- A subchannel. -/
def subOf (s : State) (n : Nat) : Sub := sget (fun _ => {}) s.subs n
/-- Set a subchannel. -/
def setSub (s : State) (n : Nat) (b : Sub) : State := { s with subs := sset (fun _ => {}) s.subs n b }
/-- Change a subchannel. -/
def modSub (s : State) (n : Nat) (f : Sub → Sub) : State := s.setSub n (f (s.subOf n))
/-- The operation in progress of a subchannel whose sequencer runs: in FAULT its subchannels stand still (R338). -/
def liveOp (s : State) (n : Nat) : Option ChOp := if s.running (pYsq + n / 512) then (s.subOf n).op else none
/-- Change the operation in progress. -/
def modOp (s : State) (n : Nat) (f : ChOp → ChOp) : State := s.modSub n fun b => { b with op := b.op.map f }
/-- YSQ page of a subchannel. -/
def ysqOf (n : Nat) : Nat := pYsq + n / 512
/-- SCH_STAT of a subchannel. -/
def schOff (n : Nat) : Nat := O.YSQ_SCH_STAT + 4 * (n % 512)
/-- Is the path DIRECT? -/
def isDirect (n : Nat) : Bool := n % 64 = 0
/-- STATE: 0 IDLE, 1 ACTIVE, 2 SUSPENDED, 3 HALTING, 4 ROUTINE. -/
def schState (s : State) (n : Nat) : Nat := s.fld (ysqOf n) (schOff n) 29 3
/-- Set STATE. -/
def setSch (s : State) (n st : Nat) : State := s.setFld (ysqOf n) (schOff n) 29 3 st
/-- Set WAITING. -/
def setWaiting (s : State) (n : Nat) (b : Bool) : State := s.setBit (ysqOf n) (schOff n) 27 b
/-- A sequencer. -/
def seqOf (s : State) (k : Nat) : Seq := sget (fun _ => {}) s.seqs k
/-- Change a sequencer. -/
def modSeq (s : State) (k : Nat) (f : Seq → Seq) : State :=
  { s with seqs := sset (fun _ => {}) s.seqs k (f (s.seqOf k)) }
/-- The image has taken what its queues hold for a subchannel (R348). -/
def takeQueued (s : State) (n : Nat) : State :=
  s.modSeq (n / 512) fun q => { q with
    cmds := q.cmds.filter fun c => c.2.1 ≠ n % 512, reps := q.reps.filter fun c => c.1 ≠ n % 512
    bodies := q.bodies.filter fun c => c.1 ≠ n % 512 }

/-- A channel command in host memory. -/
def fetchCmd (s : State) (a : Nat) : ChCmd :=
  let b := s.hostBytes a 16
  ⟨a, leWord b 0, leNat ((b.drop 4).take 8), leWord b 12⟩

/-! ## Status records (R310, R311) -/

/-- Write a status record (Table 11.8); only then STATUS_MAP, SCH_STAT and INT_CAUSE follow (R311). -/
def postNow (s : State) (p : Post) : State :=
  let n := p.sub
  let y := ysqOf n
  let seq := (s.fld y (schOff n) 0 16 + 1) % 65536
  let rec_ := leBytes 2 seq ++ leBytes 1 (p.kind * 64 + min 63 p.retries) ++ leBytes 1 p.reason
    ++ leBytes 1 (p.endc * 16 + b2n (p.noted || p.kind = 1) * 8) ++ [0] ++ leBytes 2 (min 65535 p.resid) ++ leBytes 8 p.next
  let s := s.setHost (s.rd64 pYcs O.YCS_STAT_BASE_LO + 16 * n) rec_
  let q := n % 512
  let s := s.setBit y (O.YSQ_STATUS_MAP + 4 * (q / 32)) (q % 32) true
  let s := (s.setFld y (schOff n) 0 16 seq).setFld y (schOff n) 16 8 p.reason
  let s := s.setCause y (1 + (if p.endc = endDevice then 2 else 0) + (if p.endc = endProgram then 4 else 0))
  match p.after with
  | some st => s.setSch n st
  | none => s

/-- Post status: KIND 0 FINAL, 1 NOTE, 2 SUSPENDED, with NEXT_ADDR, and the state that follows. While host memory cannot be
reached, the posting waits (R85, R488). -/
def postStatus (s : State) (n kind next : Nat) (after : Option Nat) : State :=
  let b := s.subOf n
  let p : Post := { sub := n, kind := kind, next := next, endc := b.endc, reason := b.reason, resid := b.resid
                    retries := b.retries, noted := b.noted, after := after }
  if s.hostReady then s.postNow p else { s with posts := s.posts ++ [p] }

/-- Does a posting wait that ends or suspends a subchannel's program? -/
def postHeld (s : State) (n : Nat) : Bool := s.posts.any fun p => decide (p.sub = n) && p.after.isSome

/-- The program ends: final status, IDLE. -/
def endProgramAt (s : State) (n next : Nat) : State :=
  ((s.modSub n fun b => { b with op := none }).setWaiting n false).postStatus n 0 (next % 2 ^ 64) (some 0)

/-- Record a command's outcome. -/
def setEnd (s : State) (n last endc reason resid retries : Nat) (noted : Bool) : State :=
  let s := s.modSub n fun b => { b with
    last := last, endc := endc, reason := reason, resid := resid, retries := retries, noted := noted, goto_ := false
    skip := false, devErr := if endc = endDevice then reason else b.devErr }
  let s := if endc = endDevice then s.incr (ysqOf n) O.YSQ_CNT_DEVICE_ERROR else s
  if endc = endProgram then s.incr (ysqOf n) O.YSQ_CNT_PROGRAM_ERROR else s

/-- The operation in progress ends with an outcome (R300): the next command follows, or the program ends. -/
def endOp (s : State) (n endc reason : Nat) : State :=
  match (s.subOf n).op with
  | none => s
  | some o =>
    let last := o.tail.addr
    let s := s.setEnd n last endc reason (o.total - o.moved) o.retries (o.cmds.any (·.note))
    let next := last + (if endc = endMatched then 32 else 16)
    if (endc = endDone ∨ endc = endMatched) ∧ o.tail.link then
      (s.modSub n fun b => { b with pc := next % 2 ^ 64, op := none }).setWaiting n false
    else s.endProgramAt n next

/-- A program error at a command (R299). -/
def programError (s : State) (n at_ reason : Nat) : State :=
  (s.setEnd n at_ endProgram reason 0 0 false).endProgramAt n (at_ + 16)

/-- A device error ends the operation. -/
def deviceError (s : State) (n reason : Nat) : State := s.endOp n endDevice reason

/-- A program is halted (R295): what is in progress is abandoned. The subchannel is HALTING until the status is posted, which is
at once while host memory can be reached. -/
def haltSub (s : State) (n : Nat) : State :=
  if s.postHeld n then s
  else
    let b := s.subOf n
    let o := b.op.getD { cmds := [] }
    let last := if b.op.isSome then o.tail.addr else b.last
    let s := s.setEnd n last endHalted 0 (o.total - o.moved) o.retries (o.cmds.any (·.note))
    (s.setSch n 3).endProgramAt n (last + 16)

/-! ## Data areas (R301-R303) -/

/-- Areas of a scatter list; `none` for a LIST_ERROR. -/
def listAreas (s : State) : Nat → Nat → Nat → Option (List (Nat × Nat))
  | _, _, 0 => some []
  | 0, _, _ => none
  | fuel + 1, a, count =>
    let e := s.hostBytes a 16
    let len := leWord e 8
    if len = 0 ∨ 65535 < len ∨ leWord e 12 ≠ 0 then none
    else (s.listAreas fuel (a + 16) (count - len)).map fun r => (leNat (e.take 8), min len count) :: r

/-- Areas of a command; ADDRESS is ignored under DISCARD (R302). -/
def cmdAreas (s : State) (c : ChCmd) : Option (List (Nat × Nat)) :=
  if c.discard then some [(0, c.count)] else if c.list then s.listAreas 65536 c.data c.count else some [(c.data, c.count)]

/-- The commands that continue a span from an address (R301), or the error met. -/
def spanFrom (s : State) (direct : Bool) (code : Nat) : Nat → Nat → Sum Nat (List ChCmd)
  | 0, _ => .inl 0x48
  | fuel + 1, a =>
    let c := s.fetchCmd a
    if a % 16 ≠ 0 then .inl 0x45
    else if c.code = 8 then
      (if c.data % 16 ≠ 0 then .inl 0x45
       else if (s.fetchCmd c.data).code = 8 then .inl 0x46
       else s.spanFrom direct code fuel c.data)
    else if c.code ≠ code ∨ c.pause then .inl 0x48
    else if c.check direct ≠ 0 then .inl (c.check direct)
    else if c.span then (s.spanFrom direct code fuel (a + 16)).map id (c :: ·)
    else .inr [c]

/-- The operation a command starts, or the error met. -/
def opFrom (s : State) (direct : Bool) (c : ChCmd) : Sum Nat ChOp :=
  match if c.span then s.spanFrom direct c.code 4096 (c.addr + 16) else .inr [] with
  | .inl e => .inl e
  | .inr r =>
    let cs := c :: r
    let as := cs.map s.cmdAreas
    if as.any (·.isNone) then .inl 0x47
    else .inr { cmds := cs, areas := (as.map (·.getD [])).flatten, total := (cs.map (·.count)).sum }

/-- Post the notes of the commands of the span that the transfer has reached (R306). -/
def postNotes (s : State) (n : Nat) : State :=
  match (s.subOf n).op with
  | none => s
  | some o =>
    let starts := (List.range o.cmds.length).map fun i => ((o.cmds.take i).map (·.count)).sum
    let reached := (o.cmds.zip starts).drop o.noted |>.takeWhile fun e => e.2 ≤ o.moved
    let s := reached.foldl (fun (s : State) (e : ChCmd × Nat) => if e.1.note then s.postStatus n 1 ((e.1.addr + 16) % 2 ^ 64) none else s) s
    s.modOp n fun p => { p with noted := o.noted + reached.length }

/-- Bytes of an operation's outgoing data. -/
def opData (s : State) (o : ChOp) : List Byte := (o.areas.map fun e => s.hostBytes e.1 e.2).flatten

/-- Store incoming data after what has moved, unless the command discards it. -/
def storeIn (s : State) (o : ChOp) (l : List Byte) : State :=
  if o.head.discard then s else s.putJobData (areasFrom o.moved o.areas) l

/-- Advance the device address (R313). -/
def advanceDev (s : State) (n by_ : Nat) : State := s.modSub n fun b => { b with addr := (b.addr + by_) % 2 ^ 32 }

/-! ## Path faults (R323) -/

/-- PATH_STAT of a port. -/
def pathOff (p : Nat) : Nat := O.YSQ_PATH_STAT + 4 * (p % 8)
/-- YSQ page of a port. -/
def ysqPort (p : Nat) : Nat := pYsq + p / 8
/-- Is the DIRECT path of a port faulted? -/
def pathFaulted (s : State) (p : Nat) : Bool := s.bit (ysqPort p) (pathOff p) 31

/-- The path becomes faulted with a code. -/
def pathFault (s : State) (p code : Nat) : State :=
  let old := s.pathFaulted p
  let s := (s.setBit (ysqPort p) (pathOff p) 31 true).setFld (ysqPort p) (pathOff p) 16 8 code
  if old then s else s.setCause (ysqPort p) 8

/-- The path's fault clears. -/
def pathClear (s : State) (p : Nat) : State :=
  (s.setBit (ysqPort p) (pathOff p) 31 false).setFld (ysqPort p) (pathOff p) 16 8 0

/-- SENSE code of a port as every rule but the report reads it (R285). -/
def senseEff (s : State) (p : Nat) : Nat :=
  if s.bit (pJlk + p) O.JLK_PORT_CTL 5 then 2 else s.fld (pJlk + p) O.JLK_PORT_STAT 0 3

/-! ## BRIDGED paths (R275, R314) -/

/-- Reason that a BRIDGED path is not usable, 0 when it is. -/
def bridgeFault (s : State) (n : Nat) : Nat :=
  if s.lstate (n / 64) ≠ 4 then 0x10
  else if s.fld (pJlk + n / 64) O.JLK_PORT_STAT 16 7 ≤ n % 64 - 1 then 0x0F else 0

/-- Body of the next MGMT_DOWN of an operation (Table 10.11). -/
def mgmtBody (s : State) (n : Nat) (o : ChOp) (tid len : Nat) : List Byte :=
  let b := s.subOf n
  let op := if o.head.code = 0x20 then 2 else o.head.code
  let adr := if o.head.code = 4 then b.addr + o.moved else b.addr
  let data := if op = 1 ∨ op = 3 then ((s.opData o).drop o.moved).take len else []
  padTo 500 (beBytes 2 n ++ leBytes 1 tid ++ leBytes 1 op ++ leBytes 1 b.target ++ leBytes 1 b.dev ++ [0, 0]
    ++ beBytes 4 (adr % 2 ^ 32) ++ beBytes 2 len ++ beBytes 2 (cdiv o.head.timeout 100) ++ data)

/-- Send the next request of an operation, or wait for room in the Jelek queue and for host memory. -/
def sendReq (s : State) (n : Nat) : State :=
  match (s.subOf n).op with
  | none => s
  | some o =>
    if !s.jaccept (n / 64) true ∨ !s.hostReady then s.modOp n fun p => { p with wait := 6 }
    else
      let tid := (s.subOf n).tid
      let len := min 480 (o.total - o.moved)
      let s := s.jput (n / 64) { mgmt := true, tile := n % 64 - 1, body := s.mgmtBody n o tid len }
      let s := { s with mgmt := (n, tid) :: s.mgmt }
      let s := s.modSub n fun b => { b with tid := (tid + 1) % 256 }
      s.modOp n fun p => { p with wait := 1, tid := tid, len := len }

/-- Start the requests of an operation, if the path is usable. -/
def bridgeStart (s : State) (n : Nat) : State :=
  if s.bridgeFault n ≠ 0 then s.deviceError n (s.bridgeFault n) else s.sendReq n

/-- Wait for a backoff, or end the command (R319). -/
def refused (s : State) (n : Nat) : State :=
  match (s.subOf n).op with
  | none => s
  | some o =>
    if o.head.code = 0x20 then (s.modOp n fun p => { p with wait := 3 }).setWaiting n true
    else if !o.head.parBit 12 then s.deviceError n 1
    else if 8 ≤ o.retries then s.deviceError n 3
    else (s.modOp n fun p => { p with wait := 2 }).setWaiting n true

/-- Do data match VALUE under MASK (R305)? -/
def polled (s : State) (o : ChOp) (data : List Byte) : Bool :=
  let c := o.head
  let areas : List (Nat × Nat) := (s.cmdAreas { c with w0 := putBits c.w0 0 16 (2 * c.count) }).getD []
  let vm := (areas.map fun e => s.hostBytes e.1 e.2).flatten
  ((padTo c.count data).zip (vm.zip (vm.drop c.count))).all fun (e : Byte × Byte × Byte) =>
    decide (e.1 &&& e.2.2 = e.2.1 &&& e.2.2)

/-- A read of POLL_MATCH ends. -/
def pollEnd (s : State) (n : Nat) (data : List Byte) : State :=
  match (s.subOf n).op with
  | none => s
  | some o =>
    if s.polled o data then (s.modOp n fun p => { p with moved := p.total }).endOp n endMatched 0
    else (s.modOp n fun p => { p with wait := 3 }).setWaiting n true

/-- Bytes of a request or transaction have moved; a transfer of all is DONE, one that falls short ends (R300). -/
def movedBy (s : State) (n got : Nat) : State :=
  match (s.subOf n).op with
  | none => s
  | some o =>
    let s := if o.head.code = 4 then s else s.advanceDev n got
    let s := (s.modOp n fun p => { p with moved := o.moved + got }).postNotes n
    if got < o.len then s.endOp n (if o.tail.shortOk then endDone else endShort) 0
    else if o.total ≤ o.moved + got then s.endOp n endDone 0
    else s.sendReq n

/-- A reply for a subchannel's request: STATUS, LEN, data (Table 10.12). -/
def bridgeReply (s : State) (n tid status len : Nat) (data : List Byte) : State :=
  match s.liveOp n with
  | none => s
  | some o =>
    if o.wait ≠ 1 ∨ o.tid ≠ tid then s
    else match status with
      | 0 =>
        if o.head.code = 0x20 then s.pollEnd n data
        else
          let got := min len o.len
          let s := if o.head.isIn then s.storeIn o (padTo got data) else s
          s.movedBy n got
      | 1 => s.refused n
      | 2 => if 7 ≤ o.busy then s.deviceError n 0x0C
        else (s.modOp n fun p => { p with busy := p.busy + 1, wait := 8 }).setWaiting n true
      | 3 => s.deviceError n 0x0B
      | 4 => s.deviceError n 0x0E
      | 5 => s.deviceError n 0x0A
      | _ => s.deviceError n 0x0D

/-! ## BULK (R276, R315) -/

/-- Body of a BULK cell (Table 10.13). -/
def bulkBody (stream : Nat) (first last : Bool) (data : List Byte) : List Byte :=
  padTo 500 (leBytes 1 stream ++ leBytes 1 (b2n first * 2 + b2n last) ++ beBytes 2 data.length
    ++ List.replicate 16 0 ++ data)

/-- Hand BULK cells to the Jelek queue while it accepts them. -/
def bulkFill : Nat → Nat → State → State
  | 0, _, s => s
  | fuel + 1, n, s =>
    match (s.subOf n).op with
    | none => s
    | some o =>
      if o.total ≤ o.moved ∨ !s.jaccept (n / 64) false ∨ !s.hostReady then s
      else
        let c := o.head
        let adr := (s.subOf n).addr
        let len := min 480 (o.total - o.moved)
        let last := o.moved + len = o.total && c.parBit 10
        let s := s.jput (n / 64) { mgmt := false, tile := if c.parBit 13 then 63 else n % 64 - 1, offset := adr % 2 ^ 20
                                   body := bulkBody c.arg (adr = 0) last (((s.opData o).drop o.moved).take len)
                                   sub := some n }
        bulkFill fuel n (((s.advanceDev n 1).modOp n fun p =>
          { p with moved := o.moved + len, cells := p.cells + 1 }).postNotes n)

/-- A BULK cell of a subchannel has been sent. -/
def bulkSent (s : State) (n : Nat) : State :=
  match s.liveOp n with
  | none => s
  | some o =>
    if o.wait ≠ 7 then s
    else
      let s := s.modOp n fun p => { p with cells := p.cells - 1 }
      if o.cells ≤ 1 ∧ o.total ≤ o.moved then s.endOp n endDone 0 else s

/-- Room has come up in a port's Jelek queue. -/
def yarderRoom (s : State) (p : Nat) : State :=
  (List.range 64).foldl (fun s q =>
    let n := 64 * p + q
    match s.liveOp n with
    | some o => if o.wait = 6 then s.sendReq n else if o.wait = 7 then bulkFill 8 n s else s
    | none => s) s

/-- A port leaves READY: requests outstanding on it end (Table 11.9). -/
def yarderLinkDown (s : State) (p : Nat) : State :=
  (List.range 64).foldl (fun s q =>
    let n := 64 * p + q
    match s.liveOp n with
    | some o => if q ≠ 0 ∧ (o.wait = 1 ∨ o.wait = 6 ∨ o.wait = 7) then s.deviceError n 0x10 else s
    | none => s) s

/-! ## DIRECT paths (R317-R323) -/

/-- Record of a transaction on the bus: speed and levels in PATH_STAT, a bus clear counted. -/
def busUsed (s : State) (n : Nat) (a : ChAns) : State :=
  let p := n / 64
  let s := s.setFld (ysqPort p) (pathOff p) 8 2 (s.subOf n).speed
  let s := s.setFld (ysqPort p) (pathOff p) 0 2 (b2n a.scl * 2 + b2n a.sda)
  let s := if p ∈ s.cleared then s
    else { s.incr (ysqPort p) O.YSQ_CNT_BUS_CLEAR with cleared := p :: s.cleared }
  if a.clear then s.incr (ysqPort p) O.YSQ_CNT_BUS_CLEAR else s

/-- A line fault ends the command and faults the path; a timeout only ends it (R320-R322). -/
def lineFault (s : State) (n code : Nat) : State :=
  if 4 ≤ code ∧ code ≤ 8 then (s.pathFault (n / 64) code).deviceError n code else s.deviceError n 0x0A

/-- Why a DIRECT command cannot start: SENSE, or a faulted path; 0 when it can. -/
def directFault (s : State) (n : Nat) : Nat :=
  let c := s.senseEff (n / 64)
  if c = 3 ∨ c = 4 then 0x0F else if c ≠ 2 then 0x11 else if s.pathFaulted (n / 64) then 9 else 0

/-- A transaction of Table 11.10. -/
def directRun (s : State) (n : Nat) (a : ChAns) : State :=
  match (s.subOf n).op with
  | none => s
  | some o =>
    if s.directFault n ≠ 0 then s.deviceError n (s.directFault n)
    else
      let b := s.subOf n
      let s := s.busUsed n a
      let isRd := o.head.code ≠ 1
      let adr := beBytes (min 4 b.alen) b.addr
      let s := s.emit (.i2c (n / 64) b.dev isRd (adr ++ if isRd then [] else s.opData o))
      let s := s.modOp n fun p => { p with len := o.total }
      match a.fault with
      | some c => s.lineFault n c
      | none =>
        if !a.addrAck then s.refused n
        else if o.head.code = 0x20 then s.pollEnd n a.data
        else if isRd then (s.storeIn o (padTo o.total a.data)).movedBy n o.total
        else if a.wrote < o.total then
          ((s.advanceDev n a.wrote).modOp n fun p => { p with moved := a.wrote }).deviceError n 2
        else s.movedBy n o.total

/-- Sense bytes of a DIRECT path (R318). -/
def senseBytes (s : State) (n : Nat) (a : ChAns) : List Byte :=
  let p := n / 64
  leBytes 1 (s.subOf n).devErr ++ leBytes 1 (s.fld (ysqPort p) (pathOff p) 16 8)
    ++ leBytes 2 (s.rd (pJlk + p) O.JLK_SENSE_MV) ++ leBytes 1 (s.fld (pJlk + p) O.JLK_PORT_STAT 0 3)
    ++ leBytes 1 (b2n a.scl * 2 + b2n a.sda) ++ [0, 0]

/-! ## Starting a command (R299, R306, R307) -/

/-- The program stops before a command with PAUSE. -/
def suspendAt (s : State) (n a : Nat) : State :=
  s.postStatus n 2 a (some 2)

/-- The memory accesses of a command failed, or its buffer did (R300); `false` for neither. -/
def memEnd (s : State) (n : Nat) (m : ChMem) : Option State :=
  match m with
  | .dataFails => some (s.endOp n endHost 0)
  | .bufferUe => some (s.endOp n endBuffer 0)
  | _ => none

/-- May a subchannel execute its next command? -/
def chReady (s : State) (n : Nat) : Bool :=
  s.schState n = 1 && s.running (ysqOf n) && (s.subOf n).op.isNone && !s.postHeld n

/-- The next command of a subchannel begins, if it is of the row's kind: suspension, checks, its operation and note. While host
memory cannot be reached it waits for its fetch (R85, R488; log 128). -/
def chBegin (kind : ChCmd → Bool) (go : State → State) (s : State) (n : Nat) (a : ChAns) : State :=
  if !s.chReady n ∨ !s.hostReady then s
  else
    let b := s.subOf n
    let direct := isDirect n
    let begun := s.wakeLink.takeQueued n
    match a.mem with
    | .fetchFails => (begun.setEnd n b.last endHost 0 0 0 false).endProgramAt n b.pc
    | .busError => (begun.setEnd n b.last endMicro 0 0 0 false).endProgramAt n (b.last + 16)
    | _ =>
      let c := s.fetchCmd b.pc
      if !(kind c || !c.known) then s
      else
      let s := begun
      if c.pause ∧ c.code ≠ 8 ∧ !b.skip ∧ !s.bit (ysqOf n) (schOff n) 28 then s.suspendAt n b.pc
      else
        let s := if c.pause ∧ c.code ≠ 8 ∧ !b.skip then s.setBit (ysqOf n) (schOff n) 28 false else s
        let e := c.check direct
        if e ≠ 0 then s.programError n b.pc e
        else if c.code = 8 then
          (if c.data % 16 ≠ 0 then s.programError n b.pc 0x45
           else if b.goto_ ∨ (s.fetchCmd c.data).code = 8 then s.programError n b.pc 0x46
           else s.modSub n fun b => { b with pc := c.data, goto_ := true })
        else match s.opFrom direct c with
          | .inl e => s.programError n b.pc e
          | .inr o =>
            let s := (s.modSub n fun b => { b with op := some o, goto_ := false, skip := false }).postNotes n
            match s.memEnd n a.mem with
            | some t => t
            | none => go s

/-- The transfer of a WRITE, READ, CONTROL, SENSE or POLL_MATCH. -/
def transfer (n : Nat) (a : ChAns) (s : State) : State :=
  if isDirect n then s.directRun n a else s.bridgeStart n

/-- SEEK (R313). -/
def seek (n : Nat) (s : State) : State :=
  match (s.subOf n).op with
  | none => s
  | some o =>
    let b := s.opData o
    let g (i : Nat) : Nat := (b.getD i 0).toNat
    let direct := isDirect n
    if 16 ≤ g 0 ∨ (direct ∧ g 0 ≠ 0) ∨ 128 ≤ g 1 ∨ 8 ≤ g 2 ∨ (direct ∧ 4 < g 2) ∨ 4 ≤ g 3 ∨ (direct ∧ g 3 = 3) then
      s.programError n o.tail.addr 0x43
    else
      let s := s.modSub n fun x => { x with
        target := g 0, dev := g 1, alen := g 2, speed := g 3, addr := leNat ((b.drop 4).take 4) }
      (s.modOp n fun p => { p with moved := p.total }).endOp n endDone 0

/-- BUS_CLEAR (R320). -/
def runClear (n : Nat) (a : ChAns) (s : State) : State :=
  let s := (s.busUsed n { a with clear := false }).incr (ysqOf n) O.YSQ_CNT_BUS_CLEAR
  match a.fault with
  | some c => s.lineFault n c
  | none => s.endOp n endDone 0

/-- PROBE (R322), at 100 kHz: its reference device is addressed for write with no data once the lines are found sound. -/
def runProbe (n : Nat) (a : ChAns) (s : State) : State :=
  let s := (s.busUsed n a).setFld (ysqPort (n / 64)) (pathOff (n / 64)) 8 2 0
  match a.fault with
  | some c => s.lineFault n c
  | none =>
    let s := s.emit (.i2c (n / 64) (s.subOf n).dev false [])
    if a.addrAck then (s.pathClear (n / 64)).endOp n endDone 0 else s.deviceError n 1

/-- SENSE (R318). -/
def runSense (n : Nat) (a : ChAns) (s : State) : State :=
  if !isDirect n then s.bridgeStart n
  else match (s.subOf n).op with
    | none => s
    | some o =>
      let s := s.storeIn o (padTo o.total (s.senseBytes n a))
      (s.modOp n fun p => { p with moved := p.total }).endOp n endDone 0

/-- BULK WRITE (R315). -/
def runBulk (n : Nat) (s : State) : State :=
  if s.bridgeFault n ≠ 0 then s.deviceError n (s.bridgeFault n)
  else bulkFill 8 n (s.modOp n fun p => { p with wait := 7 })

/-- The oldest frame delivered to a subchannel and not yet taken. -/
def frameFor (s : State) (n : Nat) : Option Nat := (s.yrx.ring.find? fun e => e.2 = n).map (·.1)

/-- READ with NETRX (R316): take a frame, or wait for one. -/
def runNetrx (n : Nat) (s : State) : State :=
  match (s.subOf n).op, s.frameFor n with
  | some o, some b =>
    let f := sget (fun _ => []) s.yrx.bufs b
    let got := min o.total f.length
    let s := s.storeIn o (f.take got)
    let s := { s with yrx := { s.yrx with ring := s.yrx.ring.filter fun e => e.1 ≠ b } }.yrxFree b
    let s := (s.modOp n fun p => { p with moved := got }).postNotes n
    s.endOp n (if got < o.total ∧ !o.tail.shortOk then endShort else endDone) 0
  | some _, none => (s.modOp n fun p => { p with wait := 5 }).setWaiting n true
  | none, _ => s

/-- WAIT_EVENT (R305): the latch is taken first, and what no one waited for is discarded. -/
def runWait (n : Nat) (s : State) : State :=
  ((s.wr (ysqOf n) O.YSQ_EVT_LATCH 0).modOp n fun p => { p with wait := 4 }).setWaiting n true

/-- Complete every WAIT_EVENT of a sequencer whose event is latched (R334). -/
def chEvents (s : State) (k : Nat) : State :=
  let l := s.rd (pYsq + k) O.YSQ_EVT_LATCH
  let ns := (s.subs.map (·.1)).filter fun n => decide (n / 512 = k) &&
    (s.liveOp n).any fun o => decide (o.wait = 4) && bitOf l (bitsOf o.head.arg 0 4)
  let used := ns.map fun n => bitsOf (((s.subOf n).op.map (·.head.arg)).getD 0) 0 4
  let s := if ns.isEmpty then s
    else s.wr (pYsq + k) O.YSQ_EVT_LATCH (clrMask l (used.foldl (fun m j => m ||| 2 ^ j) 0))
  ns.foldl (fun s n => s.endOp n endMatched 0) s

/-- A raise of an EIC source, with what it completes (R305, R333). -/
def raiseSource (s : State) (src : Nat) : State :=
  let s := s.eicRaise src
  if isProgEvent src then s.chEvents (src / 32) else s

/-! ## Waits that end -/

/-- A refused or BUSY request is sent, or its transaction run, again (R319, Table 11.9). -/
def backoffRetry (s : State) (n : Nat) (a : ChAns) : State :=
  match s.liveOp n with
  | none => s
  | some o =>
    if !s.hostReady then s
    else if o.wait = 2 then
      let s := (s.incr (ysqOf n) O.YSQ_CNT_BACKOFF).setWaiting n false
      transfer n a (s.modOp n fun p => { p with wait := 0, retries := p.retries + 1 })
    else if o.wait = 8 then ((s.modOp n fun p => { p with wait := 0 }).setWaiting n false).bridgeStart n
    else s

/-- A POLL_MATCH reads again. -/
def pollAgain (s : State) (n : Nat) (a : ChAns) : State :=
  match s.liveOp n with
  | none => s
  | some o => if o.wait = 3 ∧ s.hostReady then transfer n a ((s.modOp n fun p => { p with wait := 0 }).setWaiting n false) else s

/-- A command's TIMEOUT runs out (R305, R312, R316). -/
def chTimeout (s : State) (n : Nat) : State :=
  match s.liveOp n with
  | none => s
  | some o =>
    if o.wait = 3 ∨ (o.wait = 1 ∧ o.head.code = 0x20) then s.endOp n endDone 0
    else if o.wait = 4 then (if o.head.timeout = 0 then s else s.endOp n endDone 0)
    else if o.wait = 5 then (if o.head.timeout = 0 then s else s.deviceError n 0x0A)
    else if o.wait = 1 ∨ o.wait = 6 ∨ o.wait = 7 then s.deviceError n 0x0A
    else s

/-- No reply within TIMEOUT + 2 ms (R275): the request ends, and a later reply to it is discarded. -/
def mgmtTimeout (s : State) (n : Nat) : State :=
  match s.liveOp n with
  | none => s
  | some o =>
    if o.wait ≠ 1 ∨ (n, o.tid) ∉ s.mgmt then s
    else
      let s := { s with mgmt := s.mgmt.filter fun e => e ≠ (n, o.tid) }
      (s.incr (ysqOf n) O.YSQ_CNT_MGMT_TIMEOUT).bridgeReply n o.tid 5 0 []

/-! ## CHAN_START, CHAN_RESUME, CHAN_HALT (R294, R295) -/

/-- A command reaches its sequencer's CMD_POP and raises source 32k (R348). -/
def pushCmd (s : State) (n kind addr : Nat) : State :=
  (s.modSeq (n / 512) fun q => { q with cmds := q.cmds ++ [(kind, n % 512, addr)] }).eicRaise (32 * (n / 512))

/-- Has CMD_POP room? -/
def cmdRoom (s : State) (n : Nat) : Bool := (s.seqOf (n / 512)).cmds.length < 64

/-- CHAN_START. -/
def chanStart (s : State) (r : JobRef) (j : Job) : State :=
  let n := bitsOf (j.dw 6) 0 12
  let a := j.dw 7 + j.dw 8 * 2 ^ 32
  if a % 16 ≠ 0 then s.finishSt r stBadParam
  else if !s.running (ysqOf n) then s.finishSt r stBadState
  else if s.schState n ≠ 0 then s.finishDet r stSubchannelBusy (s.schState n)
  else if !s.cmdRoom n then s
  else
    let s := s.setSub n { pc := a, last := (a + 2 ^ 64 - 16) % 2 ^ 64, tid := (s.subOf n).tid }
    let s := (s.wr (ysqOf n) (schOff n) (2 ^ 29)).incr (ysqOf n) O.YSQ_CNT_STARTS
    (s.pushCmd n 0 a).finish r { status := stSuccess, result := n }

/-- CHAN_RESUME. -/
def chanResume (s : State) (r : JobRef) (j : Job) : State :=
  let n := bitsOf (j.dw 6) 0 12
  let st := s.schState n
  if s.pstate (ysqOf n) = 4 then s.finishSt r stBadState
  else if st = 2 then
    (if !s.cmdRoom n then s
     else (((s.modSub n fun b => { b with skip := true }).setSch n 1).pushCmd n 1 0).finish r
       { status := stSuccess, result := n })
  else if st = 1 then (s.setBit (ysqOf n) (schOff n) 28 true).finish r { status := stSuccess, result := n, detail := 1 }
  else s.finishDet r stSubchannelBusy st

/-- CHAN_HALT; SUCCESS follows the posting of the final status, so that it waits while host memory cannot be reached. -/
def chanHalt (s : State) (r : JobRef) (j : Job) : State :=
  let n := bitsOf (j.dw 6) 0 12
  let st := s.schState n
  if s.pstate (ysqOf n) = 4 then s.finishSt r stBadState
  else if st = 1 ∨ st = 2 then
    (if !s.cmdRoom n ∨ !s.hostReady then s
     else ((s.pushCmd n 2 0).haltSub n).finish r { status := stSuccess, result := n })
  else if st = 0 then s.finish r { status := stSuccess, result := n, detail := 1 }
  else s.finishDet r stSubchannelBusy st

/-! ## Routines of the image (R324-R326) -/

/-- BRIDGED subchannel of an entry's tile. -/
def tileSub (s : State) (t : Nat) : Nat := (s.tile t).port * 64 + (s.tile t).pos + 1

/-- The later of two ledger copies by R247, among those whose CRC is good; `none` where neither is. -/
def ledgerCopies (l : List Byte) : Option (List Byte) × Option (List Byte) :=
  let ok (c : List Byte) : Option (List Byte) := if crcIeee (c.take 60) = leWord c 60 then some c else none
  (ok (padTo 64 (l.take 64)), ok (padTo 64 (l.drop 64)))

/-- Is SEQ a later than SEQ b? -/
def seqLater (a b : Nat) : Bool := a ≠ b && (a + 2 ^ 32 - b) % 2 ^ 32 < 2 ^ 31

/-- Mean doses of the later valid copy, or 0. -/
def ledgerDose (l : List Byte) : Nat × Nat × Nat :=
  let m (c : List Byte) : Nat × Nat × Nat := (leWord c 32, leWord c 36, leWord c 40)
  match ledgerCopies l with
  | (some a, some b) => if seqLater (leWord b 4) (leWord a 4) then m b else m a
  | (some a, none) => m a
  | (none, some b) => m b
  | (none, none) => (0, 0, 0)

/-- Entries of a calibration image of n lamp pixels, as far as the CRC of its blocks is good, with its length; `none` where a
block's CRC is bad. -/
def calEntries : Nat → Nat → List Byte → List Nat × Option Nat
  | _, 0, _ => ([], some 0)
  | 0, _, _ => ([], none)
  | fuel + 1, n, l =>
    let k := min n 1023
    if crcIeee (padTo (4 * k) l) ≠ leWord l (4 * k) then ([], none)
    else
      let r := calEntries fuel (n - k) (l.drop (4 * k + 4))
      ((List.range k).map (fun i => leWord l (4 * i)) ++ r.1, r.2.map (4 * k + 4 + ·))

/-- The tag's bytes from an address on, as read `k` of the routine finds them; `none` where the tag stays busy. -/
def tagRead (a : TagAns) (k addr : Nat) : Option (List Byte) :=
  if a.busy.any (·.val = k) then none else some (a.tag.drop addr)

/-- Does the identity block admit the tile (R233, R325)? Magic, version, CRC, calibration data present, and the serial and size
that the tile reported and its type has. -/
def identOk (s : State) (t : Nat) (id : List Byte) : Bool :=
  let e := s.tile t
  let w (i : Nat) : Nat := leWord id (4 * i)
  decide (bitsOf (w 0) 16 16 = 0x4A54 ∧ bitsOf (w 0) 8 8 = 1 ∧ crcIeee (padTo 60 id) = w 15 ∧ bitOf (w 3) 1 = true
    ∧ w 1 = s.rd pLmp (O.LMP_TILE_SEEN + 4 * t) ∧ w 1 = s.rd (pJlk + e.port) (tbr O.JLK_T_SERIAL e.pos)
    ∧ w 2 = s.rd (pJlk + e.port) (tbr O.JLK_T_GEOM e.pos) ∧ bitsOf (w 2) 16 16 = e.w ∧ bitsOf (w 2) 0 16 = e.h)

/-- Automatic admission ends without success. -/
def admitFail (s : State) (t : Nat) : State :=
  let s := (s.setBit pLmp (tstat t) 26 false).setBit pLmp (tstat t) 25 true
  (s.setCause pLmp 0x10).incr pYcs O.YCS_CNT_ADMIT_FAIL

/-- Write a run of Lamp map entries as host software does. -/
def hostLamps : Nat → List Nat → State → State
  | _, [], s => s
  | i, v :: r, s => hostLamps (i + 1) r (s.hostLamp i (v % 2 ^ 24))

/-- The routine of an admission runs to its end (R325): each block of the calibration image, which stands at CAL_ADDR (R234), is
written as soon as its CRC is found good, so that a later failure leaves the blocks before it written. -/
def admitRun (s : State) (t : Nat) (a : TagAns) : State :=
  let id := (tagRead a 0 0).getD []
  if !s.identOk t id then s.admitFail t
  else match tagRead a 1 (leWord id 16) with
    | none => s.admitFail t
    | some img =>
      let e := s.tile t
      let r := calEntries (e.lamps + 1) e.lamps img
      let s := hostLamps e.lmbase r.1 s
      match tagRead a 2 0x40 with
      | none => s.admitFail t
      | some led =>
        if r.2 ≠ some (leWord id 20) then s.admitFail t
        else
          let d := ledgerDose led
          let s := (s.wr pLmp O.LMP_ADOPT_DOSE_R d.1).wr pLmp O.LMP_ADOPT_DOSE_G d.2.1
          let s := s.wr pLmp O.LMP_ADOPT_DOSE_B d.2.2
          let s := (s.tileConfirm (2 ^ 31 + 2 ^ 30 + t)).setBit pLmp (tstat t) 26 false
          s.incr pYcs O.YCS_CNT_ADMIT_OK

/-- Automatic admission of a tile (R324, R325): the routine claims the subchannel, and later ends with what the tag gave; a path
that is not usable ends it (R314). It waits while another tile's TILE_CONFIRM is in progress. -/
def admission (s : State) (t : Nat) (a : Option TagAns) : State :=
  let n := s.tileSub t
  if !s.bit pLmp (tstat t) 26 ∨ !s.running (ysqOf n) then s
  else match a with
    | none => if s.schState n = 0 then s.setSch n 4 else s
    | some a =>
      if s.schState n ≠ 4 ∨ s.lmp.busy.isSome then s
      else (if s.bridgeFault n ≠ 0 then s.admitFail t else s.admitRun t a).setSch n 0

/-- Entry whose tile a BRIDGED subchannel reaches. -/
def subTile (s : State) (n : Nat) : Option Nat :=
  if n % 64 = 0 then none else (s.tileAt (n / 64) (n % 64 - 1)).map (·.t)

/-- Ledger writes that a sequencer runs (R324): its subchannels in ROUTINE whose tile waits for no admission. -/
def ledgerRuns (s : State) (k : Nat) : Nat :=
  ((List.range 512).filter fun i => s.schState (512 * k + i) = 4
    && (s.subTile (512 * k + i)).any fun t => !s.bit pLmp (tstat t) 26).length

/-- The ledger write of a tile (R326, R247): a CONFIRMED one, or one whose TAG_BUSY still asks for it; it waits for a free
subchannel, and for one of the writes that the sequencer runs at once (R324). -/
def ledgerWrite (s : State) (t : Nat) (a : Option LedgerAns) : State :=
  let n := s.tileSub t
  if !(s.confirmed t || s.bit pLmp (tstat t) 24) ∨ !s.running (ysqOf n) then s
  else match a with
    | none => if s.schState n = 0 ∧ s.ledgerRuns (n / 512) < max 1 (s.fld pYcs O.YCS_ROUTINE_CFG 0 8) then s.setSch n 4 else s
    | some a =>
      if s.schState n ≠ 4 then s
      else
        let s := s.setSch n 0
        match if s.bridgeFault n ≠ 0 then none else a.before with
        | none => s.setBit pLmp (tstat t) 24 true
        | some l =>
          let toB := match ledgerCopies l with
            | (some x, some y) => seqLater (leWord x 4) (leWord y 4)
            | (some _, none) => true
            | _ => false
          let rec_ := s.hbmBytes (s.rd64 pTly O.TLY_LEDGER_BASE_LO + 64 * t) 64
          let s := s.emit (.tag t (if toB then 0x80 else 0x40) rec_)
          if a.first = some rec_ then
            (s.setBit pLmp (tstat t) 24 false).incr pYcs O.YCS_CNT_LEDGER_WRITES
          else if a.first.isNone then s.setBit pLmp (tstat t) 24 true
          else
            let s := s.emit (.tag t (if toB then 0x80 else 0x40) rec_)
            if a.second = some rec_ then (s.setBit pLmp (tstat t) 24 false).incr pYcs O.YCS_CNT_LEDGER_WRITES
            else if a.second.isNone then s.setBit pLmp (tstat t) 24 true
            else (s.incr pYcs O.YCS_CNT_LEDGER_FAIL).setBit pLmp (tstat t) 24 true

/-! ## Stopping and resetting a sequencer's subchannels (R329, R338) -/

/-- The page stops: its programs are halted, and its routines end. -/
def haltAll (s : State) (k : Nat) : State :=
  (List.range 512).foldl (fun s i =>
    let n := 512 * k + i
    let st := s.schState n
    if st = 1 ∨ st = 2 then s.haltSub n
    else if st = 4 then
      let s := s.setSch n 0
      match s.subTile n with
      | some t => if s.bit pLmp (tstat t) 26 then s.admitFail t else s.setBit pLmp (tstat t) 24 true
      | none => s
    else s) s

/-- Soft reset of a YSQ page: subchannels IDLE without a posting, paths unfaulted, queues, stacks, latch and the
private sources 0-15 cleared. -/
def ysqReset (s : State) (k : Nat) : State :=
  let s := { s with subs := skeep (fun n => n / 512 ≠ k) s.subs, posts := s.posts.filter fun p => p.sub / 512 ≠ k, mgmt := s.mgmt.filter fun e => e.1 / 512 ≠ k
                    cleared := s.cleared.filter fun p => p / 8 ≠ k }
  let s := s.modSeq k fun q => { lines := q.lines, buf := q.buf, ctxs := q.ctxs, speed := q.speed }
  (List.range 16).foldl (fun s i => s.setTab pEic 0 (2 * (32 * k + i) + 1) 0) s

end State

/-! ## The commands -/

/-- CHAN_START (R294); may be given again while CMD_POP has no room. -/
def execChanStart (j : JobRef) : State → Out := act .ysq fun s => s.withJob j 0x30 (fun b s => s.chanStart j b)
/-- CHAN_RESUME (R295). -/
def execChanResume (j : JobRef) : State → Out := act .ysq fun s => s.withJob j 0x31 (fun b s => s.chanResume j b)
/-- CHAN_HALT (R295). -/
def execChanHalt (j : JobRef) : State → Out := act .ysq fun s => s.withJob j 0x32 (fun b s => s.chanHalt j b)

/-- WRITE (R313). -/
def execChanWrite (sub : Fin 4096) (ans : ChAns) : State → Out := act .ysq fun s =>
  s.chBegin (fun c => c.code = 1 && !c.parBit 14) (State.transfer sub ans) sub ans
/-- BULK_WRITE (R315). -/
def execBulkWrite (sub : Fin 4096) (ans : ChAns) : State → Out := act .ysq fun s =>
  s.chBegin (fun c => c.code = 1 && c.parBit 14) (State.runBulk sub) sub ans
/-- CHANNEL_READ (R314). -/
def execChannelRead (sub : Fin 4096) (ans : ChAns) : State → Out := act .ysq fun s =>
  s.chBegin (fun c => c.code = 2 && !c.parBit 11) (State.transfer sub ans) sub ans
/-- NETRX_READ (R316); given again, a read that waits looks for its frame once more. -/
def execNetrxRead (sub : Fin 4096) (ans : ChAns) : State → Out := act .ysq fun s =>
  if ((s.liveOp sub).map (·.wait)) = some 5 then (if s.hostReady then State.runNetrx sub (s.setWaiting sub false) else s)
  else s.chBegin (fun c => c.code = 2 && c.parBit 11) (State.runNetrx sub) sub ans
/-- CONTROL (R297). -/
def execChanControl (sub : Fin 4096) (ans : ChAns) : State → Out := act .ysq fun s =>
  s.chBegin (fun c => c.code = 3 && (c.local_ = 0 || 3 < c.local_)) (State.transfer sub ans) sub ans
/-- SEEK (R313). -/
def execChanSeek (sub : Fin 4096) (ans : ChAns) : State → Out := act .ysq fun s =>
  s.chBegin (fun c => c.local_ = 1) (State.seek sub) sub ans
/-- BUS_CLEAR (R320). -/
def execBusClear (sub : Fin 4096) (ans : ChAns) : State → Out := act .ysq fun s =>
  s.chBegin (fun c => c.local_ = 2) (State.runClear sub ans) sub ans
/-- PROBE (R322). -/
def execChanProbe (sub : Fin 4096) (ans : ChAns) : State → Out := act .ysq fun s =>
  s.chBegin (fun c => c.local_ = 3) (State.runProbe sub ans) sub ans
/-- SENSE (R318). -/
def execChanSense (sub : Fin 4096) (ans : ChAns) : State → Out := act .ysq fun s =>
  s.chBegin (fun c => c.code = 4) (State.runSense sub ans) sub ans
/-- GOTO (R304). -/
def execChanGoto (sub : Fin 4096) (ans : ChAns) : State → Out := act .ysq fun s =>
  s.chBegin (fun c => c.code = 8) id sub ans
/-- WAIT_EVENT (R305); given again, a wait looks at the latch once more. -/
def execWaitEvent (sub : Fin 4096) (ans : ChAns) : State → Out := act .ysq fun s =>
  if ((s.liveOp sub).map (·.wait)) = some 4 then s.chEvents (sub / 512)
  else s.chBegin (fun c => c.code = 0x0C) (State.runWait sub) sub ans
/-- CHANNEL_NOP (R297). -/
def execChannelNop (sub : Fin 4096) (ans : ChAns) : State → Out := act .ysq fun s =>
  s.chBegin (fun c => c.code = 0x10) (fun s => s.endOp sub endDone 0) sub ans
/-- POLL_MATCH (R305). -/
def execPollMatch (sub : Fin 4096) (ans : ChAns) : State → Out := act .ysq fun s =>
  s.chBegin (fun c => c.code = 0x20) (State.transfer sub ans) sub ans
/-- POLL_INTERVAL_EXPIRY (R305). -/
def execPollIntervalExpiry (sub : Fin 4096) (ans : ChAns) : State → Out := act .ysq fun s => s.pollAgain sub ans
/-- BACKOFF_RETRY (R319). -/
def execBackoffRetry (sub : Fin 4096) (ans : ChAns) : State → Out := act .ysq fun s => s.backoffRetry sub ans
/-- COMMAND_TIMEOUT (R312). -/
def execCommandTimeout (sub : Fin 4096) : State → Out := act .ysq fun s => s.chTimeout sub
/-- MGMT_TIMEOUT (R275). -/
def execMgmtTimeout (sub : Fin 4096) : State → Out := act .ysq fun s => s.mgmtTimeout sub
/-- AUTOMATIC_ADMISSION (R325): without an answer the routine claims its subchannel, with one it ends. -/
def execAutomaticAdmission (t : Fin 4032) (ans : Option TagAns) : State → Out := act .ysq fun s => s.admission t ans
/-- LEDGER_ROUTINE (R326). -/
def execLedgerRoutine (t : Fin 4032) (ans : Option LedgerAns) : State → Out := act .ysq fun s => s.ledgerWrite t ans
/-- TAG_BUSY_RETRY (R326): the hourly retry of a tile whose write is pending. -/
def execTagBusyRetry (t : Fin 4032) (ans : Option LedgerAns) : State → Out := act .ysq fun s =>
  when (s.bit pLmp (State.tstat t) 24) (·.ledgerWrite t ans) s
/-- JELEK_QUEUE_RELEASE (R381), with what waits for room in the queue. -/
def execJelekQueueRelease (port : Fin 64) : State → Out := act .chk fun s => (s.jrelease port).yarderRoom port
/-- EIC_DOORBELL (R333). -/
def execEicDoorbell (v : W32) : State → Out := access fun s => s.raiseSource (bitsOf v.toNat 0 10)

end Sys2Proof.Machine
end

