-- ==== Sys2Proof/Machine/Jelek.lean ====
section
/-! DEFINITION. The Jelek ports: cells and their coding, what a port sends in a cell slot, what it does with the cells it
receives, bring-up, enumeration, and its faults (chapter 10, engine side). -/
namespace Sys2Proof.Machine

/-! ## Cells (R263) -/

/-- HCRC. -/
def crc16 (l : List Byte) : Nat := crcMsb 16 0x1021 0xFFFF l
/-- CRC of a cell's trailer. -/
def crcCell (l : List Byte) : Nat := crcMsb 32 0x04C11DB7 0xFFFFFFFF l ^^^ 0xFFFFFFFF

/-- Header bytes 0-5 of a cell (Table 10.3). -/
def Cell.head (c : Cell) : List Byte :=
  beBytes 6 (c.typ % 16 * 2 ^ 44 + c.feed % 8 * 2 ^ 41 + c.tile % 64 * 2 ^ 35 + c.offset % 2 ^ 20 * 2 ^ 15
    + c.seq % 2 ^ 15)

/-- The 512 bytes of a cell. -/
def Cell.bytes (c : Cell) : List Byte :=
  let b := c.head ++ beBytes 2 (crc16 c.head) ++ padTo 500 c.body
  b ++ beBytes 4 (crcCell b)

/-- A cell read from bytes. -/
def cellOf (l : List Byte) : Cell :=
  let v := beNat (padTo 6 l)
  { typ := bitsOf v 44 4, feed := bitsOf v 41 3, tile := bitsOf v 35 6, offset := bitsOf v 15 20, seq := bitsOf v 0 15
    body := padTo 500 (l.drop 8) }

/-- Is HCRC correct? -/
def headOk (l : List Byte) : Bool := crc16 (padTo 6 l) = beNat (padTo 2 (l.drop 6))
/-- Is a cell valid (R264)? -/
def cellOk (l : List Byte) : Bool := headOk l && crcCell (padTo 508 l) = beNat (padTo 4 (l.drop 508))

/-- Cell types of Table 10.4. -/
def tyIdle : Nat := 0
def tyPixel : Nat := 1
def tySync : Nat := 2
def tyBlack : Nat := 3
def tyMgmtDown : Nat := 4
def tyBulk : Nat := 5
def tyHello : Nat := 6
def tyStatus : Nat := 8
def tyMgmtUp : Nat := 9
def tyLamp : Nat := 10

/-- Field of a body, most significant byte first. -/
def Cell.be (c : Cell) (off n : Nat) : Nat := beNat ((c.body.drop off).take n)
/-- A byte of a body. -/
def Cell.byte (c : Cell) (off : Nat) : Nat := (c.body.getD off 0).toNat

/-- Pack 12-bit values, most significant bit first. -/
def pack12 : List Nat → List Byte
  | a :: b :: r => beBytes 3 (a % 4096 * 4096 + b % 4096) ++ pack12 r
  | [a] => beBytes 2 (a % 4096 * 16)
  | [] => []

/-- Body of a BLACK cell (Table 10.7). -/
def blackBody (frame slot : Nat) (now : Bool) : List Byte :=
  beBytes 6 (frame % 2 ^ 48) ++ leBytes 1 (slot % 16 * 16 + b2n now * 8)

/-- MODE field of a SYNC for an MN_CFG value (Table 10.6). -/
def modeWord (cfg : Nat) : Nat :=
  bitsOf cfg 0 4 * 2 ^ 28 + bitsOf cfg 28 1 * 2 ^ 27 + bitsOf cfg 24 3 * 2 ^ 24 + bitsOf cfg 20 1 * 2 ^ 23

/-- Slot period of a mode, ns, rounded down. -/
def periodNs (cfg num den : Nat) : Nat := den * 1000000000 / max 1 (num * max 1 (bitsOf cfg 0 4 + bitsOf cfg 28 1))

namespace State

/-- Page of a port. -/
def jp (p : Nat) : Nat := pJlk + p

/-! ## The SYNC of a slot (R269) -/

/-- The next mode identifier; 0 is never one. -/
def nextModeId (s : State) : Nat := s.lnd.modeId % 255 + 1

/-- Mode a port announces, with its identifier: the armed one, or the one it is late for (R195, R196). -/
def pendMode (s : State) (p : Nat) : Option (ModeNext × Nat) :=
  match s.lnd.armed with
  | some m => some (m, s.nextModeId)
  | none => if bitOf (s.rd64 pLnd O.LND_MODE_BLACK_LO) p then s.lnd.ann.map fun m => (m, s.lnd.modeId) else none

/-- CRUISE_MASK of a port: the positions of its CONFIRMED tiles. -/
def cruiseMask (s : State) (p : Nat) : Nat :=
  ((s.portTiles p).filter fun e => s.confirmed e.t).foldl (fun m e => m ||| 2 ^ e.pos) 0

/-- SYNC body but for T_SYNC; `free` is a Cruise SYNC while the Landing is stopped. -/
def syncBody (s : State) (p frame slot : Nat) (maint cruise free : Bool) (tsync disp : Nat) : List Byte :=
  let cfg := s.rd pLnd O.LND_MODE_CUR
  let pd := s.pendMode p
  let pm := (pd.map (·.1)).getD ⟨0, 1, 1, 0, 0, false⟩
  let per := if free then 1000000 else periodNs cfg s.frateNum s.frateDen
  beBytes 6 (frame % 2 ^ 48) ++ leBytes 1 (slot % 16 * 16 + b2n maint * 8 + b2n cruise * 4 + b2n pd.isSome * 2)
    ++ leBytes 1 s.lnd.modeId ++ beBytes 8 tsync ++ beBytes 8 disp ++ beBytes 4 (modeWord cfg) ++ beBytes 4 (per % 2 ^ 32)
    ++ leBytes 1 ((pd.map (·.2)).getD 0) ++ leBytes 1 s.lmp.run
    ++ beBytes 4 (if pd.isSome then pm.epoch else 0) ++ beBytes 4 (if pd.isSome then modeWord pm.cfg else 0)
    ++ beBytes 4 (if pd.isSome then periodNs pm.cfg pm.num pm.den % 2 ^ 32 else 0)
    ++ beBytes 8 (if cruise then s.cruiseMask p else 0)

/-- Put T_SYNC, and for a free Cruise SYNC its DISP, into a SYNC body. -/
def stampSync (body : List Byte) (tsync : Nat) (free : Bool) : List Byte :=
  body.take 8 ++ beBytes 8 tsync ++ (if free then beBytes 8 (tsync + 2000000) else (body.drop 16).take 8) ++ body.drop 24

/-- Does a port's Cruise run in this slot? -/
def cruisePort (s : State) (p : Nat) : Bool := s.cruiseState = 1 && bitOf s.lmp.ports p

/-- Is a port's content withheld for a whole slot of a feed by a condition of narrower scope? -/
def feedDark (s : State) (feed : Nat) : Bool := (s.wfeed feed).cur.isNone

/-- Can a port send SYNC, BLACK and PIXEL cells (R277)? -/
def portSends (s : State) (p : Nat) : Bool := s.running (jp p) && [2, 3, 4].contains (s.lstate p)

/-- Is a tile withheld under a bad table entry (Table 15.2)? -/
def tileBad (s : State) (e : TileCfg) : Bool := decide (e.t ∈ s.mem.badTiles) || decide (e.typ ∈ s.mem.badTypes)

/-- Is a port BLACK under a condition whose scope is the whole port? -/
def portWide (s : State) (p : Nat) : Bool := s.portDark p || bitOf (s.rd64 pLnd O.LND_MODE_BLACK_LO) p

/-- The cells of a slot that starts are made ready for a port: SYNC, then BLACK or PIXEL cells (R270, R272). -/
def queueSlot (s : State) (p slot : Nat) (maint : Bool) (disp : Nat) : State :=
  let cruise := maint && s.cruisePort p
  let sync : Cell := { typ := tySync, feed := if maint then 0 else slot
                       body := s.syncBody p s.tim.wframe slot maint cruise false 0 disp }
  let black (tile : Nat) : Cell := { typ := tyBlack, tile := tile, body := blackBody s.tim.wframe slot false }
  let wide := s.portWide p
  let all := wide || maint || (s.tim.hole && slot ≠ 0) || decide (p ∈ s.lnd.dark) || s.feedDark slot
  let ts := s.portTiles p
  let lone := if all then [] else ts.filter fun e => s.tileState e.t = 2 || s.tileState e.t = 3
    || (s.confirmed e.t && s.tileBad e)
  let lit := if all then [] else ts.filter fun e => s.confirmed e.t && !s.tileBad e
  let s := if wide then s.incr (jp p) O.JLK_BLACK_SLOTS else s
  let left := if s.portSends p then (s.jport p).black else []
  let s := if all && !maint then s.darken p else s
  s.modJport p fun j => { j with
    sync := some (sync, false, false)
    black := left ++ if all then [black 63] else lone.map fun e => black e.pos
    pix := lit.flatMap fun e => (List.range e.cells).map fun i => (e.t, i * e.perCell) }

/-- A port sends BLACK for the rest of the slot in progress. -/
def slotBlackNow (s : State) (p : Nat) : State :=
  let c : Cell := { typ := tyBlack, body := blackBody s.tim.wframe (s.lnd.slot.getD 0) false }
  (s.modJport p fun j => { j with black := if s.portSends p then j.black ++ [c] else j.black, pix := [] }).darken p

/-- A port that still waits for pixels of the slot in progress sends BLACK for it (R14, R220, R389). -/
def slotDark (s : State) (p : Nat) : State := if (s.jport p).pix.isEmpty then s else s.slotBlackNow p

/-- Does a port wait for pixels of the slot in progress? -/
def portWaits (s : State) (p : Nat) : Bool := s.portSends p && !(s.jport p).pix.isEmpty

/-! ## Sending (R265, R266) -/

/-- A port sends a cell; every cell but IDLE is numbered and counted. -/
def sendCell (s : State) (p : Nat) (c : Cell) : State :=
  if c.typ = tyIdle then s.emit (.cell p 0 false c.bytes)
  else
    let n := (s.jport p).seq
    let s := (s.modJport p fun j => { j with seq := (n + 1) % 2 ^ 15 }).addReg64 (jp p) O.JLK_CELLS_TX_LO 1
    s.emit (.cell p 0 false { c with seq := n }.bytes)

/-- Body of a PIXEL cell (Table 10.5). -/
def pixelBody (s : State) (e : TileCfg) (feed slot off : Nat) : List Byte :=
  let vals := (List.range (min e.perCell (e.lamps - off))).flatMap fun k =>
    let d := s.pixelDrive e feed slot (off + k)
    [d.1, d.2.1, d.2.2]
  padTo 500 (if e.fmt36 then pack12 vals
    else (vals.map fun v => beBytes 2 (if s.depth12 then 16 * v else v)).flatten)

/-- FEED of the SYNC last sent. -/
def syncFeed (s : State) (p : Nat) : Nat := ((s.jport p).last.map (·.feed)).getD 0

/-- The BLACK cell with NOW = 1 that a port owes joins its queue (R458). -/
def takeNow (s : State) (p : Nat) : State :=
  if p ∈ s.black.nowDue then
    let c : Cell := { typ := tyBlack, body := blackBody s.tim.wframe (s.lnd.slot.getD 0) true }
    let s := { s with black := { s.black with nowDue := s.black.nowDue.filter (· ≠ p) } }
    if s.portSends p then (s.modJport p fun j => { j with black := c :: j.black, pix := [] }).darken p else s
  else s

/-- Cells handed over by the Choker and not yet sent, with the slots each has waited. -/
def joutOf (s : State) (p : Nat) : List (JCell × Nat) := sget (fun _ => []) s.jout p
/-- Set them. -/
def setJout (s : State) (p : Nat) (l : List (JCell × Nat)) : State := { s with jout := sset (fun _ => []) s.jout p l }

/-- The management or bulk cell that goes next: one that has waited 127 slots, if asked for; else MGMT_DOWN first. -/
def joutPick (l : List (JCell × Nat)) (old : Bool) : Option (JCell × Nat) :=
  if old then l.find? fun e => 127 ≤ e.2
  else match l.find? fun e => e.1.mgmt with
    | some e => some e
    | none => l.head?

/-- Send a management or bulk cell. -/
def sendJout (s : State) (p : Nat) (e : JCell × Nat) : State :=
  let s := s.setJout p ((s.joutOf p).erase e)
  let s := s.sendCell p { typ := if e.1.mgmt then tyMgmtDown else tyBulk, tile := e.1.tile, offset := e.1.offset
                          body := e.1.body }
  match e.1.sub with
  | some n => s.bulkSent n
  | none => s

/-- Every management or bulk cell has waited one slot more. -/
def joutWaits (s : State) (p : Nat) : State :=
  if (s.joutOf p).isEmpty then s else s.setJout p ((s.joutOf p).map fun e => (e.1, e.2 + 1))

/-- Drop the PIXEL cells that may no longer be sent. -/
def trimPix (s : State) (p : Nat) : State :=
  let j := s.jport p
  if j.pix.isEmpty then s
  else if s.portWide p then (s.setJport p { j with pix := [] }).darken p
  else s.setJport p { j with pix := j.pix.filter fun e => s.confirmed e.1 && !s.tileBad (s.tile e.1) }

/-- The highest-priority waiting cell, IDLE if there is none (R266). `t` is stand time at the balls. -/
def nextCell (s : State) (p t : Nat) : State :=
  let j := s.jport p
  match j.sync with
  | some (c, free, rep) =>
    let tsync := (10 * t + s.fld (jp p) O.JLK_TRACE_ADJ 0 16) / 10
    let c := if rep then c else { c with body := stampSync c.body tsync free }
    let s := s.setJport p { j with sync := none, last := if rep then j.last else some c }
    s.sendCell p c
  | none => match j.black with
    | c :: r => (s.setJport p { j with black := r }).sendCell p c
    | [] => match j.hello with
      | c :: r => (s.setJport p { j with hello := r }).sendCell p c
      | [] => match joutPick (s.joutOf p) true with
        | some e => s.sendJout p e
        | none => match j.pix with
          | (t, off) :: r =>
            let e := s.tile t
            let f := s.syncFeed p
            (s.setJport p { j with pix := r }).sendCell p { typ := tyPixel, feed := f, tile := e.pos, offset := off
                                                            body := s.pixelBody e f (s.lnd.slot.getD 0) off }
          | [] => match joutPick (s.joutOf p) false with
            | some e => s.sendJout p e
            | none => s.sendCell p { typ := tyIdle, tile := 0 }

/-- A downstream cell slot of a port (R266, R277): nothing in DOWN and HS_FAULT, IDLE in SENSE_WAIT, SENSE_FAULT and
REVERSED. -/
def cellSlot (s : State) (p t : Nat) : State :=
  let st := s.lstate p
  if !s.running (jp p) ∨ st = 0 ∨ st = 7 then s
  else if !s.portSends p then s.sendCell p { typ := tyIdle, tile := 0 }
  else (((s.takeNow p).trimPix p).nextCell p t).joutWaits p

/-- A cell slot in DEVICE_FATAL (R460): the BLACK cell owed, then IDLE. -/
def cellSlotFatal (s : State) (p : Nat) : State :=
  if !s.portSends p then s
  else if p ∈ s.black.nowDue then
    let s := { s with black := { s.black with nowDue := s.black.nowDue.filter (· ≠ p) } }
    s.sendCell p { typ := tyBlack, body := blackBody s.tim.wframe (s.lnd.slot.getD 0) true }
  else s.sendCell p { typ := tyIdle, tile := 0 }

/-- A repeat of the slot's SYNC (R270). -/
def syncRepeat (s : State) (p : Nat) : State :=
  let j := s.jport p
  if !s.portSends p ∨ !s.running pLnd ∨ s.slotFx ≤ 8000000 * fxNs ∨ s.lnd.slot.isNone ∨ j.sync.isSome then s
  else match j.last with
    | some c =>
      let b6 := c.byte 6
      let c := { c with body := c.body.take 6 ++ leBytes 1 (if b6 % 2 = 0 then b6 + 1 else b6) ++ c.body.drop 7 }
      s.setJport p { j with sync := some (c, false, true) }
    | none => s

/-- A Cruise SYNC while the Landing is stopped (R270). -/
def cruiseSync (s : State) (p : Nat) : State :=
  let j := s.jport p
  if !s.portSends p ∨ !s.stopped pLnd ∨ !s.cruisePort p then s
  else
    let frame := (j.last.map fun c => c.be 0 6).getD s.tim.wframe
    s.setJport p { j with sync := some ({ typ := tySync, body := s.syncBody p frame 0 true true true 0 0 }, true, false) }

/-! ## Link states (R277) -/

/-- A port is BLACK until it is enumerated again, with no cell that could say so (Table 18.3: SENSE, REVERSED, HS_FAULT). -/
def linkBlack (s : State) (p : Nat) : State :=
  { (s.startPort p .link) with black := { (s.startPort p .link).black with nowDue := s.black.nowDue.filter (· ≠ p) } }

/-- Set LSTATE. -/
def setLstate (s : State) (p st : Nat) : State :=
  let old := s.lstate p
  if old = st then s
  else
    let s := s.setFld (jp p) O.JLK_PORT_STAT 28 4 st
    let s := if old = 3 then s.modJport p fun j => { j with phase := 0, wait := [] } else s
    let s := if [2, 3, 4].contains st then s
      else s.modJport p fun j => { j with sync := none, black := [], hello := [], pix := [] }
    let s := if [1, 5, 6, 7].contains st then s.linkBlack p else s
    let s := if old = 4 then (s.setCause (jp p) 2).yarderLinkDown p else s
    if st = 4 then s.setCause (jp p) 1 else s

/-- Rate that TRAIN tries. -/
def trainRate (s : State) (p : Nat) : Nat :=
  let r := s.fld (jp p) O.JLK_PORT_CTL 0 2
  if r = 3 then (s.jport p).tries / 2 % 3 else r

/-- Enter TRAIN, at the rate last run if that is kept. -/
def enterTrain (s : State) (p : Nat) (same : Bool) : State :=
  let s := s.setLstate p 2
  s.modJport p fun j => { j with tries := if same then 2 * s.fld (jp p) O.JLK_PORT_STAT 24 2 else 0 }

/-- REVERSED is posted (R286). -/
def enterReversed (s : State) (p : Nat) : State := (s.setLstate p 5).setCause (jp p) 4

/-- A fault of SENSE with a code (R285). -/
def enterSenseFault (s : State) (p code : Nat) : State :=
  ((s.setLstate p 6).containedFault (jp p) 0x0101 code 0).setCause (jp p) 8

/-- Has SENSE a state, three samples having agreed, that is a fault: SHORT_GND, SHORT_SUPPLY or UNKNOWN? -/
def senseBad (s : State) (p : Nat) : Bool :=
  let c := s.senseEff p
  c = 1 || c = 5 || (c = 0 && (s.jport p).sense = (0, 3))

/-- Enter SENSE_WAIT, and leave it at once where SENSE already stands at another state than OPEN. -/
def enterSenseWait (s : State) (p : Nat) : State :=
  let s := s.setLstate p 1
  if s.senseEff p = 2 then s.enterTrain p false
  else if s.senseEff p = 3 then s.enterReversed p
  else if s.senseBad p then s.enterSenseFault p (s.senseEff p) else s

/-- The page reaches RUNNING. -/
def portUp (s : State) (p : Nat) : State :=
  if s.lstate p ≠ 0 then s
  else if s.bit (jp p) O.JLK_PORT_CTL 5 then s.enterTrain p false else s.enterSenseWait p

/-- SENSE has changed to a state, as the rules read it (Table 10.16, R285, R286, R323). -/
def senseTo (s : State) (p code : Nat) : State :=
  let fault := code = 1 ∨ code = 5 ∨ code = 0
  let s := if fault then s.pathFault p 0x11
    else if code = 2 ∧ s.pathFaulted p ∧ s.fld (ysqPort p) (pathOff p) 16 8 = 0x11 then s.pathClear p else s
  let st := s.lstate p
  if st = 0 then s
  else if fault then s.enterSenseFault p code
  else if code = 2 then (if st = 1 ∨ st = 5 ∨ st = 6 then s.enterTrain p false else s)
  else if st = 1 ∨ st = 2 ∨ st = 3 ∨ st = 4 then
    (if code = 3 then (s.setLstate p 1).enterReversed p else s.setLstate p 1)
  else s

/-- SENSE state of a voltage in mV (Table 10.15a). -/
def senseCode (mv : Nat) : Nat :=
  if mv < 150 then 1 else if 350 ≤ mv ∧ mv ≤ 650 then 2 else if 1400 ≤ mv ∧ mv ≤ 1900 then 3
  else if 2500 ≤ mv ∧ mv ≤ 3000 then 4 else if 3100 < mv then 5 else 0

/-- A SENSE sample (R285): the state changes after three samples that agree. -/
def senseSample (s : State) (p mv : Nat) : State :=
  let s := s.wr (jp p) O.JLK_SENSE_MV mv
  let c := senseCode mv
  let old := (s.jport p).sense
  let n := if old.2 ≠ 0 ∧ old.1 = c then min 3 (old.2 + 1) else 1
  let s := s.modJport p fun j => { j with sense := (c, n) }
  if n < 3 ∨ (s.fld (jp p) O.JLK_PORT_STAT 0 3 = c ∧ old.2 = 3) then s
  else
    let same := s.fld (jp p) O.JLK_PORT_STAT 0 3 = c ∧ c ≠ 0
    let s := s.setFld (jp p) O.JLK_PORT_STAT 0 3 c
    if same ∨ s.bit (jp p) O.JLK_PORT_CTL 5 then s else s.senseTo p c

/-! ## Enumeration (R278, R279) -/

/-- The engine advances ENUM_ID and sends ENUM with HOP 0. -/
def startEnum (s : State) (p : Nat) : State :=
  let s := s.setLstate p 3
  let id := (s.fld (jp p) O.JLK_PORT_STAT 8 8 + 1) % 256
  let s := (s.setFld (jp p) O.JLK_PORT_STAT 8 8 id).setFld (jp p) O.JLK_CHAIN_INFO 0 10 0
  s.modJport p fun j => { j with
    phase := 1, descs := [], wait := []
    hello := [{ typ := tyHello, tile := 63, body := padTo 500 ([0] ++ leBytes 1 id) }] }

/-- d_p of a position, units of 2⁻⁴ ns, from the answers so far (R279). -/
def delayOf (ds : List DescIn) (d : DescIn) : Nat :=
  let skew : Int := ((ds.filter fun e => e.pos < d.pos).map fun e => ((e.dn : Int) - e.up) * 16).sum
  toBits 32 (((d.rtt : Int) - d.turn * 16 + skew) / 2)

/-- Collection closes: an ASSIGN goes to every position that answered. -/
def closeEnum (s : State) (p : Nat) : State :=
  let j := s.jport p
  if j.phase ≠ 1 then s
  else
    let id := s.fld (jp p) O.JLK_PORT_STAT 8 8
    let s := j.descs.foldl (fun s d => s.wr (jp p) (tbr O.JLK_T_DELAY d.pos) (delayOf j.descs d)) s
    let cells := j.descs.map fun d => ({ typ := tyHello, tile := d.pos
                                         body := padTo 500 (leBytes 1 1 ++ leBytes 1 id ++ leBytes 1 d.pos
                                           ++ leBytes 1 j.descs.length ++ beBytes 4 (delayOf j.descs d)) } : Cell)
    s.modJport p fun j => { j with phase := 2, wait := j.descs.map (·.pos), hello := j.hello ++ cells }

/-- Enumeration is complete: READY, with every tile of the port evaluated (R231). -/
def enumDone (s : State) (p : Nat) : State :=
  let j := s.jport p
  if j.phase ≠ 2 ∨ !j.wait.isEmpty then s
  else
    let held := (j.descs.map (·.pos)).filter fun q => s.bit (jp p) (tbr O.JLK_T_MODE q) 31
    let s := (List.range 63).foldl (fun s q =>
      if q ∈ held then s.wr (jp p) (tbr O.JLK_T_ERR q) 0
      else if s.rd (jp p) (tbr O.JLK_T_MODE q) = 0 then s else s.wr (jp p) (tbr O.JLK_T_MODE q) 0) s
    let s := s.setFld (jp p) O.JLK_PORT_STAT 16 7 held.length
    let s := (s.modJport p fun j => { j with phase := 0 }).setLstate p 4
    let s := (((s.incr (jp p) O.JLK_ENUMS).setCause (jp p) 0x40).endPort p .jlk).endPort p .link
    s.evalPort p

/-- Tiles that did not report ASSIGNED in time are left without a position. -/
def assignTimeout (s : State) (p : Nat) : State :=
  let j := s.jport p
  if j.phase ≠ 2 ∨ j.wait.isEmpty then s
  else
    let s := j.wait.foldl (fun s q =>
      (s.wr (jp p) (tbr O.JLK_T_MODE q) 0).incr (jp p) O.JLK_STATUS_MISS) s
    (s.modJport p fun j => { j with wait := [] }).enumDone p

/-- A DESC (R278). -/
def descIn (s : State) (p : Nat) (c : Cell) (rtt : Nat) : State :=
  let b2 := c.byte 2
  if bitOf b2 7 then (if s.lstate p = 3 ∨ s.lstate p = 4 then s.enterReversed p else s)
  else if (s.jport p).phase ≠ 1 ∨ c.byte 1 ≠ s.fld (jp p) O.JLK_PORT_STAT 8 8 then s
  else if bitOf b2 5 then ((s.setBit (jp p) O.JLK_CHAIN_INFO 9 true).setCause (jp p) 0x200).closeEnum p
  else
    let q := c.byte 3
    if 63 ≤ q then s
    else
      let s := (s.wr (jp p) (tbr O.JLK_T_SERIAL q) (c.be 4 4)).wr (jp p) (tbr O.JLK_T_GEOM q) (c.be 8 4)
      let s := (s.wr (jp p) (tbr O.JLK_T_INFO q) (c.be 20 4)).wr (jp p) (tbr O.JLK_T_FW q) (c.be 24 4)
      let m := s.rd (jp p) (tbr O.JLK_T_MODE q)
      let s := s.wr (jp p) (tbr O.JLK_T_MODE q) (putBits (putBits m 31 1 1) 16 3 (bitsOf b2 0 3))
      let s := s.setFld (jp p) O.JLK_CHAIN_INFO 0 6 q
      let d : DescIn := { pos := q, rtt := rtt, turn := c.be 12 4, dn := c.be 16 2, up := c.be 18 2 }
      let s := s.modJport p fun j => { j with
        descs := j.descs.filter (fun e => e.pos ≠ q) ++ [d]
        fmt36 := if bitOf b2 4 then q :: j.fmt36.filter (· ≠ q) else j.fmt36.filter (· ≠ q)
        outLock := sset (fun _ => none) j.outLock q none }
      if bitOf b2 6 then (s.setBit (jp p) O.JLK_CHAIN_INFO 8 true).closeEnum p else s

/-! ## Receiving (R264, R265) -/

/-- Lost cells by SEQ, counted for the originating tile. -/
def seqUp (s : State) (p : Nat) (c : Cell) : State :=
  let e := sget (fun _ => none) (s.jport p).exp c.tile
  let lost := match e with
    | some n => (c.seq + 2 ^ 15 - n) % 2 ^ 15
    | none => 0
  let s := s.modJport p fun j => { j with exp := sset (fun _ => none) j.exp c.tile (some ((c.seq + 1) % 2 ^ 15)) }
  if lost = 0 then s else s.addReg (jp p) O.JLK_SEQ_GAP_UP lost

/-- A cell arrives at a port; a valid one of the row's type is acted on. -/
def cellIn (typ : Nat) (f : Cell → State → State) (s : State) (p : Nat) (l : List Byte) : State :=
  if !s.running (jp p) ∨ (s.lstate p ≠ 3 ∧ s.lstate p ≠ 4) then s
  else if !cellOk l then s.incr (jp p) O.JLK_CRC_ERR_UP
  else
    let c := cellOf l
    if c.typ = tyIdle then s
    else if !([tyHello, tyStatus, tyMgmtUp, tyLamp].contains c.typ) ∨ (c.typ = tyHello ∧ c.byte 0 ≠ 2) then
      (s.seqUp p c).incr (jp p) O.JLK_BAD_TYPE
    else if c.typ ≠ typ then s
    else f c (s.seqUp p c)

/-- HI_ERR_LIMIT in force. -/
def uncorrLimit (s : State) (p : Nat) : Nat := max 1 (s.fld (jp p) O.JLK_PORT_CTL 16 8)

/-- The port's error count reaches the limit (R288). -/
def hiErrCheck (s : State) (p : Nat) : State :=
  if (s.jport p).errs < s.uncorrLimit p ∨ (p, Cond.hiErr) ∈ s.black.port then s
  else
    let s := (s.modJport p fun j => { j with quiet := 0 }).startPort p .hiErr
    (s.incr (jp p) O.JLK_HI_ERR_EVENTS).setCause (jp p) 0x20

/-- A tile acknowledges the pending mode (R195). -/
def modeAck (s : State) (p q ack : Nat) : State :=
  match s.pendMode p, s.tileAt p q with
  | some (_, id), some e =>
    let k := id * 4096 + e.t
    if ack = id ∧ s.confirmed e.t ∧ k ∉ s.lnd.acks then { s with lnd := { s.lnd with acks := k :: s.lnd.acks } } else s
  | _, _ => s

/-- A STATUS_UP (R274). -/
def statusIn (s : State) (p : Nat) (c : Cell) : State :=
  let q := c.tile
  if 63 ≤ q then s
  else
    let b3 := c.byte 3
    let s := s.wr (jp p) (tbr O.JLK_T_STAT q) (b3 * 2 ^ 24 + c.byte 16 * 2 ^ 16 + c.be 18 2)
    let er := s.rd (jp p) (tbr O.JLK_T_ERR q)
    let s := s.wr (jp p) (tbr O.JLK_T_ERR q)
      (min 0xFFFF (bitsOf er 16 16 + c.be 10 2) * 2 ^ 16 + min 0xFFFF (bitsOf er 0 16 + c.be 12 2))
    let s := (s.setFld (jp p) (tbr O.JLK_T_MODE q) 8 8 (c.byte 1)).setFld (jp p) (tbr O.JLK_T_MODE q) 0 8 (c.byte 2)
    let s := (s.modeAck p q (c.byte 1)).modJport p fun j => { j with errs := j.errs + c.be 10 2 }
    let s := s.hiErrCheck p
    let s := if bitOf b3 7 ∧ c.byte 0 = s.fld (jp p) O.JLK_PORT_STAT 8 8 then
        s.modJport p fun j => { j with wait := j.wait.filter (· ≠ q) } else s
    let old := sget (fun _ => none) (s.jport p).outLock q
    let s := s.modJport p fun j => { j with outLock := sset (fun _ => none) j.outLock q (some (bitOf b3 4)) }
    if old = some (!bitOf b3 4) then
      let s := s.setCause (jp p) 0x80
      if s.lstate p = 4 then s.startEnum p else s
    else s

/-- The sequencer's reply queue takes a management answer (R348). -/
def queueReply (s : State) (n tid : Nat) (body : List Byte) : State :=
  if 512 ≤ (s.seqOf (n / 512)).reps.length then s
  else s.modSeq (n / 512) fun q => { q with reps := q.reps ++ [(n % 512, tid)], bodies := q.bodies ++ [(n % 512, body)] }

/-- The management answer `tid` of subchannel `n` is no longer awaited. -/
def mgmtTake (s : State) (n tid : Nat) : State :=
  { s with mgmt := s.mgmt.filter fun e => !(e.1 == n && e.2 == tid) }

/-- The program of a subchannel takes the body of a MGMT_UP (Table 10.12). -/
def replyTaken (s : State) (n tid : Nat) (b : List Byte) : State :=
  s.bridgeReply n tid (b.getD 4 0).toNat (beNat ((b.drop 12).take 2)) ((b.drop 16).take 480)

/-- A MGMT_UP for subchannel `n` (R275, R348): queued for its sequencer, and taken by the program that waits for it, which it
does once host memory can be reached (R488); while the page does not run it stays in the queue. -/
def mgmtFor (s : State) (n tid : Nat) (c : Cell) : State :=
  let s := ((s.mgmtTake n tid).queueReply n tid c.body).eicRaise (32 * (n / 512) + 1)
  if s.schState n = 0 ∨ s.schState n = 4 ∨ !s.hostReady ∨ !s.running (ysqOf n) then s
  else (s.takeQueued n).replyTaken n tid c.body

/-- The programs whose requests have been answered, or that wait for room, go on once host memory can be reached again, after
the status postings that waited (R488). -/
def yarderResumes (s : State) : State :=
  if !s.hostReady then s
  else
    let s := s.posts.foldl postNow { s with posts := [] }
    let s := (List.range 8).foldl (fun s k => ((s.seqOf k).bodies.filter fun e => decide (s.schState (512 * k + e.1) = 1) && s.running (pYsq + k)).foldl
      (fun s e => (s.takeQueued (512 * k + e.1)).replyTaken (512 * k + e.1) (e.2.getD 2 0).toNat e.2) s) s
    (List.range 64).foldl yarderRoom s

/-- A MGMT_UP arrives (R275): one that answers nothing outstanding is discarded. -/
def mgmtIn (s : State) (c : Cell) : State :=
  if s.mgmt.contains (c.be 0 2 % 4096, c.byte 2) then s.mgmtFor (c.be 0 2 % 4096) (c.byte 2) c else s

/-! ## Faults (R277, R287, R288) -/

/-- The receiver locks (R258). -/
def markerLock (s : State) (p : Nat) (inverted : Bool) : State :=
  if !s.running (jp p) then s
  else
    let s := ((s.setBit (jp p) O.JLK_PORT_FLAGS 7 inverted).setBit (jp p) O.JLK_PORT_FLAGS 2 true).setBit (jp p) O.JLK_PORT_FLAGS 1 true
    if s.lstate p ≠ 2 then s
    else (s.setFld (jp p) O.JLK_PORT_STAT 24 2 (s.trainRate p)).startEnum p

/-- The receiver loses lock (R258). -/
def lockLost (s : State) (p : Nat) (signal : Bool) : State :=
  if !s.bit (jp p) O.JLK_PORT_FLAGS 2 then s
  else
    let s := ((s.setBit (jp p) O.JLK_PORT_FLAGS 2 false).setBit (jp p) O.JLK_PORT_FLAGS 1 signal).incr (jp p) O.JLK_LOCK_LOSS
    if s.lstate p = 4 then s.enterTrain p true else s

/-- No lock within 150 ms. -/
def trainTimeout (s : State) (p : Nat) : State :=
  if s.lstate p ≠ 2 then s
  else
    let s := (s.incr (jp p) O.JLK_TRAIN_FAIL).errCapture (jp p) 0x0102 (s.trainRate p) 0
    s.modJport p fun j => { j with tries := (j.tries + 1) % 6 }

/-- A high-speed pair fault. -/
def hsFault (s : State) (p pairs : Nat) : State :=
  if s.lstate p = 0 ∨ pairs = 0 then s
  else
    let s := (s.setLstate p 7).modJport p fun j => { j with clean := 0 }
    (s.containedFault (jp p) 0x0100 pairs 0).setCause (jp p) 0x10

/-- A 100 ms check of a faulted pair. -/
def hsCheck (s : State) (p : Nat) (clean : Bool) : State :=
  if s.lstate p ≠ 7 then s
  else
    let n := if clean then (s.jport p).clean + 1 else 0
    let s := s.modJport p fun j => { j with clean := n }
    if 3 ≤ n then s.enterSenseWait p else s

/-- End of a 10 ms error interval. -/
def hiErrInterval (s : State) (p corr uncorr : Nat) : State :=
  if !s.running (jp p) then s
  else
    let s := (s.addReg (jp p) O.JLK_FEC_CORR_UP corr).addReg (jp p) O.JLK_FEC_UNCORR_UP uncorr
    let n := (s.jport p).errs + uncorr
    let s := (s.modJport p fun j => { j with errs := n }).hiErrCheck p
    let q := if n = 0 then (s.jport p).quiet + 1 else 0
    let s := s.modJport p fun j => { j with errs := 0, quiet := min q 10 }
    if 10 ≤ q then s.endPort p .hiErr else s

/-- PORT_CMD: RETRAIN, REENUM. -/
def portCmd (s : State) (p v : Nat) : State :=
  if bitOf v 1 then (if s.lstate p = 0 then s else s.enterTrain p false)
  else if bitOf v 0 ∧ s.lstate p = 4 then s.startEnum p else s

/-- A host stop of the page is applied (R289): one BLACK cell with NOW = 1, and DOWN. -/
def portDown (s : State) (p : Nat) : State :=
  let s := if [2, 3, 4].contains (s.lstate p) then
      s.sendCell p { typ := tyBlack, body := blackBody s.tim.wframe (s.lnd.slot.getD 0) true } else s
  let s := { s with black := { s.black with nowDue := s.black.nowDue.filter (· ≠ p) } }
  ((s.setLstate p 0).startPort p .jlk).setFld (jp p) O.JLK_PORT_FLAGS 1 2 0

end State

/-! ## The commands -/

/-- CELL_SLOT (R266): a downstream cell slot of a port; `t` is the stand time its first bit leaves the balls. -/
def execCellSlot (port : Fin 64) (t : W64) : State → Out := outside fun s =>
  match s.flt.life with
  | .up => s.cellSlot port t.toNat
  | .fatal => s.cellSlotFatal port
  | _ => s
/-- SYNC_REPEAT (R270). -/
def execSyncRepeat (port : Fin 64) : State → Out := act .jlk fun s => s.syncRepeat port
/-- CRUISE_SYNC (R270). -/
def execCruiseSync (port : Fin 64) : State → Out := act .jlk fun s => s.cruiseSync port
/-- BLACK_NOW (R272): the cell goes ahead of every other BLACK cell. -/
def execBlackNow (port : Fin 64) : State → Out := act .jlk fun s => s.takeNow port
/-- MARKER_LOCK (R258). -/
def execMarkerLock (port : Fin 64) (inverted : Bool) : State → Out := act .jlk fun s => s.markerLock port inverted
/-- LOCK_LOSS (R258). -/
def execLockLoss (port : Fin 64) (signal : Bool) : State → Out := act .jlk fun s => s.lockLost port signal
/-- DESC (R278); `rtt` in 2⁻⁴ ns. -/
def execDescRx (port : Fin 64) (cell : List Byte) (rtt : W32) : State → Out := act .jlk fun s =>
  s.cellIn tyHello (fun c s => s.descIn port c rtt.toNat) port cell
/-- ENUM_COLLECTION_CLOSE (R278). -/
def execEnumCollectionClose (port : Fin 64) : State → Out := act .jlk fun s => s.closeEnum port
/-- ENUM_COMPLETE (R278). -/
def execEnumComplete (port : Fin 64) : State → Out := act .jlk fun s => s.enumDone port
/-- ENUM_ASSIGN_TIMEOUT (R278). -/
def execEnumAssignTimeout (port : Fin 64) : State → Out := act .jlk fun s => s.assignTimeout port
/-- STATUS_UP (R274). -/
def execStatusUp (port : Fin 64) (cell : List Byte) : State → Out := act .jlk fun s =>
  s.cellIn tyStatus (fun c s => s.statusIn port c) port cell
/-- STATUS_MISS (R274). -/
def execStatusMiss (port : Fin 64) (pos : Fin 63) : State → Out := act .jlk fun s =>
  when (s.lstate port = 4 ∧ s.enumerated port pos)
    (fun s => ((s.incr (State.jp port) O.JLK_STATUS_MISS).setCause (State.jp port) 0x100).startEnum port) s
/-- MGMT_UP (R275). -/
def execMgmtUpRx (port : Fin 64) (cell : List Byte) : State → Out := act .jlk fun s =>
  s.cellIn tyMgmtUp (fun c s => s.mgmtIn c) port cell
/-- LAMP_REPORT_RX (R249). -/
def execLampReportRx (port : Fin 64) (cell : List Byte) : State → Out := act .jlk fun s =>
  s.cellIn tyLamp (fun c s => match s.tileAt port c.tile with
    | some e => s.lampReport e c.offset c.body
    | none => s) port cell
/-- RETRAIN (R277), a PW write applied as it arrives. -/
def execRetrain (port : Fin 64) : State → Out := act .jlk fun s => s.pwWrite (State.jp port) (·.portCmd port 2)
/-- REENUM (R277). -/
def execReenum (port : Fin 64) : State → Out := act .jlk fun s => s.pwWrite (State.jp port) (·.portCmd port 1)
/-- TRAIN_TIMEOUT (R277). -/
def execTrainTimeout (port : Fin 64) : State → Out := act .jlk fun s => s.trainTimeout port
/-- SENSE_SAMPLE (R285), mV. -/
def execSenseSample (port : Fin 64) (mv : BitVec 12) : State → Out := act .jlk fun s => s.senseSample port mv.toNat
/-- HS_FAULT (R287); bit 0 the transmit pair, bit 1 the receive pair. -/
def execHsFault (port : Fin 64) (pairs : BitVec 2) : State → Out := act .jlk fun s => s.hsFault port pairs.toNat
/-- HS_FAULT_CHECK (R287). -/
def execHsFaultCheck (port : Fin 64) (clean : Bool) : State → Out := act .jlk fun s => s.hsCheck port clean
/-- HI_ERR_INTERVAL (R288), with the codewords that the port's receiver corrected and could not correct in it. -/
def execHiErrInterval (port : Fin 64) (corr uncorr : W32) : State → Out := act .jlk fun s =>
  s.hiErrInterval port corr.toNat uncorr.toNat

end Sys2Proof.Machine
end

