-- ==== Sys2Proof/Machine/Memory.lean ====
section
/-! DEFINITION. The memories: SRAM correction and repair, the HBM address map, HBM errors, lanes and post-package repair,
self-test and self-refresh (chapter 15). -/
namespace Sys2Proof.Machine

/-! ## Address mapping (R395, R396) -/

/-- Parity of a number below 2⁴⁸. -/
def parity48 (n : Nat) : Bool := (List.range 48).foldl (fun p b => p != bitOf n b) false
/-- Lowest set bit of a mask below 2⁴⁸. -/
def homeBit (m : Nat) : Nat := ((List.range 48).find? fun b => bitOf m b).getD 48
/-- Bits of a[35:6] that are no home bit, ascending. -/
def restBits (masks : List Nat) : List Nat :=
  ((List.range 30).map (· + 6)).filter fun b => !(masks.map homeBit).contains b

/-- Where an HBM address lies (R395): stack, the row packed as PPR_LIST packs it (Table 15.8), and the column. -/
def hbmPlace (masks : List Nat) (a : Nat) : Nat × Nat × Nat :=
  let sel (f : Nat) : Nat := b2n (parity48 (a &&& masks.getD f 0))
  let rest := restBits masks
  let take (l : List Nat) : Nat := (l.zipIdx.map fun e => b2n (bitOf a e.1) * 2 ^ e.2).sum
  let ch := sel 0 + 2 * sel 1 + 4 * sel 2 + 8 * sel 3
  let bg := sel 7 + 2 * sel 8
  let ba := sel 9 + 2 * sel 10
  (sel 5, ch * 2 ^ 26 + sel 4 * 2 ^ 25 + sel 6 * 2 ^ 24 + bg * 2 ^ 22 + ba * 2 ^ 20 + take (rest.drop 4), take (rest.take 4))

/-- The address at a place: the inverse of the mapping; a home bit makes its function's parity right. -/
def hbmAddr (masks : List Nat) (stack row col : Nat) : Nat :=
  let rest := restBits masks
  let base := (rest.zipIdx.map fun e =>
    b2n (if e.2 < 4 then bitOf col e.2 else bitOf row (e.2 - 4)) * 2 ^ e.1).sum
  let want (f : Nat) : Bool :=
    if f < 4 then bitOf row (26 + f) else if f = 4 then bitOf row 25 else if f = 5 then bitOf stack 0
    else if f = 6 then bitOf row 24 else if f < 9 then bitOf row (22 + (f - 7)) else bitOf row (20 + (f - 9))
  (List.range 11).foldl (fun a f =>
    let m := masks.getD f 0
    if want f != parity48 (base &&& m) then a + 2 ^ homeBit m else a) base

/-- First function whose mask is refused (R396). -/
def mapFault (masks : List Nat) : Option Nat :=
  (List.range 11).find? fun f =>
    let m := masks.getD f 0
    let h := homeBit m
    m = 0 || m % 64 ≠ 0 || 2 ^ 36 ≤ m || h = 34 || h = 35
      || ((List.range 11).any fun g => g ≠ f && bitOf (masks.getD g 0) h)

/-! ## The yard (R387) -/

/-- First byte of each region of Table 15.1, and the end of the yard. -/
def yardStarts : List Nat :=
  [0, 0x400000, 0x800000, 0x900000, 0xA00000, 0xB00000, 0xC00000, 0x1000000, 0x2000000, 0x3800000, 0x4000000]

/-- Region of a yard offset: 0 Flume heads and tails, 1 rule hash tables, 2 ingress buffers, 3 Yarder, 4 engine tables,
5 Tally staging, 6 transmit buffer, 7 codec caches, 8 Landing, 9 host staging area. -/
def yardRegion (a : Nat) : Nat := (yardStarts.filter fun b => b ≤ a).length - 1

/-- May a word of that use lie at a yard offset (Tables 15.1 and 15.2)? -/
def yardLies (u : YardUse) (a : Nat) : Bool :=
  match u with
  | .none => true
  | .flume c => a / 8192 = c
  | .rule _ _ => yardRegion a = 1
  | .bucking _ | .tileType _ => yardRegion a = 4
  | .ingress i => yardRegion a = 2 ∧ (a - 0x800000) / 0x80000 = i / 4
  | .transmit _ => yardRegion a = 6
  | .landing _ => yardRegion a = 8
  | .tally _ => yardRegion a = 5
  | .table p _ _ => yardRegion a = (if p.val = pYcs then 3 else if p.val = pDbk then 1 else 4)
  | .staging _ => yardRegion a = 9

/-- Rows beside a row, up to a distance, that exist (R398). -/
def rowsBeside (radius row : Nat) : List Nat :=
  (List.range (2 * radius + 1)).filterMap fun i =>
    let r := row + i
    if i = radius ∨ r < radius ∨ 24576 ≤ r - radius then none else some (r - radius)

namespace State

/-! ## SRAM (R388-R391) -/

/-- Page of a memory: 0 YRD, 1 HBM0, 2 HBM1. -/
def memPage (m : Nat) : Nat := if m = 0 then pYrd else pHbm + (m - 1)

/-- Number of an SRAM row. -/
def sramRow (lamp : Bool) (addr : Nat) : Nat := addr / 1024 + (if lamp then 65536 else 0)

/-- Coppice class of an SRAM row. -/
def sramClass (row : Nat) : Nat := if row < 65536 then 5 else 6

/-- A row moves to its group's spare (R390). -/
def repairRow (s : State) (row : Nat) : State :=
  let g := row / 32
  let s := { s with mem := { s.mem with rows := s.mem.rows.filter fun e => e.1 ≠ row } }
  if g ∈ s.mem.groups then
    let s := (s.errCapture pYrd 0x0101 0 (row % 65536 * 1024)).setCause pYrd 4
    (s.copLose (sramClass row)).faultLog 0 false true pYrd 0x0101 0
  else
    let s := { s with mem := { s.mem with groups := g :: s.mem.groups } }
    let s := (s.incr pYrd O.YRD_CNT_REPAIR).setFld pYrd O.YRD_SPARE_LEFT 0 16 (s.fld pYrd O.YRD_SPARE_LEFT 0 16 - 1)
    ((s.copTake (sramClass row)).setCause pYrd 1).faultLog 0 true false pYrd 0 0

/-- A row is hit by a corrected error: its count, and its place in the table of 64 rows. -/
def hitRow (s : State) (row : Nat) : State :=
  let n := ((s.mem.rows.find? fun e => e.1 = row).map (·.2)).getD 0 + 1
  let s := { s with mem := { s.mem with rows := ((row, n) :: s.mem.rows.filter fun e => e.1 ≠ row).take 64 } }
  let lim := s.fld pYrd O.YRD_ECC_CFG 8 8
  if lim ≠ 0 ∧ lim ≤ n then s.repairRow row else s

/-- A single-bit error is corrected (R388). -/
def sramCe (s : State) (lamp : Bool) (addr : Nat) : State :=
  let s := (s.incr pYrd O.YRD_CNT_CE).wr pYrd O.YRD_CE_ADDR (b2n lamp * 2 ^ 31 + addr)
  s.hitRow (sramRow lamp addr)

/-- What the owner of an uncorrectable yard word does by itself (Table 15.2); the Skidder halts, in its own chapter. -/
def yardUe (s : State) : YardUse → State
  | .none | .staging _ => s
  | .flume c => s.loseDgram c cFull 0 none
  | .rule t e => { s with mem := { s.mem with badRules := (t.val, e.val) :: s.mem.badRules } }
  | .bucking t => { s with mem := { s.mem with badTiles := t.val :: s.mem.badTiles } }
  | .tileType y => { s with mem := { s.mem with badTypes := y.val :: s.mem.badTypes } }
  | .ingress i => (s.incr (netPage i) (netReg O.NET_RX_OVF i)).setCause (netPage i) 0x10
  | .transmit n => match s.chk.frames[n]? with
    | some f => ({ s with chk := { s.chk with frames := s.chk.frames.eraseIdx n } }.incr pChk O.CHK_CNT_BUF_DROP).queueDrop f
    | none => s
  | .landing ps => (ps.map (·.val)).foldl (fun s p => if s.portWaits p then s.slotDark p else s) s
  | .table p t i => { s with mem := { s.mem with poor := tabKey p t (s.activeCopy p t) i :: s.mem.poor } }
  | .tally ls => match s.tly.fold with
    | some l =>
      let keep (l : List (Nat × Nat × Nat × Nat)) := l.filter fun e => !(ls.map (·.val)).contains e.1
      { s with tly := { s.tly with fold := some (keep l), rest := keep s.tly.rest } }
    | none => s

/-- An uncorrectable SRAM error (R389); in DEVICE_FATAL it reaches no page but YRD's own (R460). -/
def sramUe (s : State) (lamp : Bool) (addr : Nat) (use : YardUse) : State :=
  let up : Bool := s.flt.life = .up
  let s := s.incr pYrd O.YRD_CNT_UE
  let s :=
    if lamp then (if up then s.lampUe addr else s.faultLog 1 false false pLmp 0x0100 0)
    else
      let s := (s.containedFault pYrd 0x0100 0 addr).setCause pYrd 2
      if up ∧ yardLies use addr then s.yardUe use else s
  s.repairRow (sramRow lamp addr)

/-- Tables that lie in the SRAM. -/
def sramTable (p : Nat) : Bool := p = pEic || p = pYcs || p = pChk || p = pDbk || p = pFlm || p = pLmp

/-- The SRAM is zeroed. -/
def zeroSram (s : State) : State :=
  { s with
    tables := skeep (fun k => !sramTable (k / 2 ^ 24 / 2 / 256)) s.tables
    yard := [], yrx := { s.yrx with bufs := [] }
    chk := { s.chk with frames := s.chk.frames.map fun f => { f with bytes := f.bytes.map fun _ => 0 } }
    flumes := smap (fun _ => {}) (fun f => { f with
      tail := f.tail.map fun _ => 0
      pkt := f.pkt.map fun p => { p with content := p.content.map fun _ => 0 } }) s.flumes
    seqs := smap (fun _ => {}) (fun q => { q with buf := [], ctxs := [] }) s.seqs
    lmp := { s.lmp with ue := [] }
    mem := { s.mem with badRules := [], badTiles := [], badTypes := [], poor := [] } }

/-- Power-on SRAM test and zero fill (R391): rows with hard faults are repaired. -/
def sramInit (s : State) (rows : List Nat) : State :=
  if s.bit pYrd O.YRD_MEM_STAT 0 ∨ s.bit pYrd O.YRD_MEM_STAT 2 then s
  else ((rows.foldl repairRow s).zeroSram).setBit pYrd O.YRD_MEM_STAT 0 true

/-! ## HBM (R392-R402) -/

/-- A stack's contents are zero-filled. -/
def zeroStack (s : State) (n : Nat) : State :=
  { s with hbm := skeep (fun a => (hbmPlace s.mem.masks a).1 ≠ n) s.hbm }

/-- A failing lane is replaced by a spare of its channel; with none left it stays in service (R401). -/
def repairLane (s : State) (n ch : Nat) (ca : Bool) : State :=
  let p := pHbm + n
  let key := (n * 16 + ch) * 2 + b2n ca
  let used := sget (fun _ => 0) s.mem.lanesUsed key
  let cls := 7 + 2 * n + b2n ca
  if used < (if ca then 1 else 2) then
    let s := { s with mem := { s.mem with lanesUsed := sset (fun _ => 0) s.mem.lanesUsed key (used + 1) } }
    (((s.incr p O.HBM_CNT_LANE_REPAIR).setCause p 4).copTake cls).faultLog 0 true false p 0 ch
  else ((s.errCapture p 0x0103 ch 0).copLose cls).faultLog 0 false true p 0x0103 ch

/-- Bring-up of a stack after power-on (R393): lanes that fail are repaired; failure is DEVICE_FATAL. -/
def hbmInit (s : State) (n : Nat) (failed : Option Nat) (lanes : List (Nat × Bool)) : State :=
  let p := pHbm + n
  if s.bit p O.HBM_MEM_STAT 0 ∨ s.bit p O.HBM_MEM_STAT 2 then s
  else match failed with
    | some ch => (s.errCapture p 0x0101 ch 0).fatal 0x0100 ch
    | none =>
      let short := lanes.find? fun l =>
        decide ((if l.2 then 1 else 2) < sget (fun _ => 0) s.mem.lanesUsed ((n * 16 + l.1) * 2 + b2n l.2) + lanes.count l)
      match short with
      | some l => (s.errCapture p 0x0101 l.1 0).fatal 0x0100 l.1
      | none => ((lanes.foldl (fun s l => s.repairLane n l.1 l.2) s).zeroStack n).setBit p O.HBM_MEM_STAT 0 true

/-- A row becomes a candidate for repair, if the list has room (R402). -/
def addCandidate (s : State) (n row : Nat) (ue : Bool) : State :=
  let p := pHbm + n
  let ent (e : Nat) : Nat := s.rd p (O.HBM_PPR_LIST + 4 * e)
  let held := (List.range 16).filter fun e => bitOf (ent e) 31
  match held.find? fun e => bitsOf (ent e) 0 30 = row with
  | some e => if ue then s.setBit p (O.HBM_PPR_LIST + 4 * e) 30 true else s
  | none => match (List.range 16).find? fun e => !bitOf (ent e) 31 with
    | some e => ((s.wr p (O.HBM_PPR_LIST + 4 * e) (2 ^ 31 + b2n ue * 2 ^ 30 + row)).setFld p O.HBM_PPR_STAT 0 5
        (held.length + 1)).setCause p 2
    | none => s

/-- A corrected HBM read (R400): the fourth of a row makes it a candidate. -/
def hbmCe (s : State) (a : Nat) : State :=
  let q := hbmPlace s.mem.masks a
  let key := q.1 * 2 ^ 30 + q.2.1
  let n := sget (fun _ => 0) s.mem.hbmCe key + 1
  let s := { s with mem := { s.mem with hbmCe := sset (fun _ => 0) s.mem.hbmCe key n } }.incr (pHbm + q.1) O.HBM_CNT_CE
  if n = 4 then s.addCandidate q.1 q.2.1 false else s

/-- What the requester of poisoned data does by itself (Table 15.4): a layer of the slot in progress shows its fallback. -/
def hbmUser (s : State) : HbmUser → State
  | .none => s
  | .sceneStore k =>
    let s := if s.lnd.slot = some k.val then (List.range 64).foldl slotBlackNow s else s
    (s.setScene k none).containedFault pLnd 0x0101 k 0
  | .skidder _ _ => s
  | .layer i => match s.lnd.slot.bind fun k => (s.wfeed k).cur, s.lnd.sel[i]? with
    | some c, some v =>
      let z := s.fallbackSel (c.lay i) v.mat
      { s with lnd := { s.lnd with sel := s.lnd.sel.set i z } }.incr pLnd O.LND_CNT_FALLBACK
    | _, _ => s
  | .encWork c => s.faultCtx c 1

/-- An uncorrectable HBM read (R400); in DEVICE_FATAL it reaches no page but the stack's own (R460). -/
def hbmUe (s : State) (a : Nat) (u : HbmUser) : State :=
  let q := hbmPlace s.mem.masks a
  let p := pHbm + q.1
  let s := ((s.incr p O.HBM_CNT_UE).containedFault p 0x0100 0 a).setCause p 1
  let t := s.addCandidate q.1 q.2.1 true
  if s.flt.life = .up then t.hbmUser u else t

/-- The masks as HBM0 holds them. -/
def mapMasks (s : State) : List Nat := (List.range 11).map fun f => s.rd64 pHbm (O.HBM_MAP_MASK + 8 * f)

/-- HBM0 runs with new masks: every address names another place, so the contents are re-scattered (R396). -/
def takeMasks (s : State) : State :=
  let new := s.mapMasks
  if new = s.mem.masks then s
  else
    let moved (a : Nat) : Nat :=
      let q := hbmPlace s.mem.masks (a / 64 * 64)
      hbmAddr new q.1 q.2.1 q.2.2 + a % 64
    { s with
      hbm := s.hbm.foldl (fun m e => sset (fun _ => 0) m (moved e.1) e.2) []
      mem := { s.mem with masks := new } }

/-! ## Neighbour refresh (R398) -/

/-- Refreshes that a pseudo-channel has scheduled, oldest first. -/
def nrefs (s : State) (n pc : Nat) : List Nat := sget (fun _ => []) s.mem.nref (n * 32 + pc)
/-- Set them. -/
def setNrefs (s : State) (n pc : Nat) (l : List Nat) : State :=
  { s with mem := { s.mem with nref := sset (fun _ => []) s.mem.nref (n * 32 + pc) l } }

/-- An activate schedules a neighbour refresh; one that would be the ninth waits. -/
def nrefDraw (s : State) (n pc row : Nat) : State :=
  if (s.nrefs n pc).length < 8 then s.setNrefs n pc (s.nrefs n pc ++ [row]) else s

/-- The oldest scheduled neighbour refresh of a pseudo-channel is carried out. -/
def nrefDo (s : State) (n pc : Nat) : State :=
  match s.nrefs n pc with
  | [] => s
  | r :: l =>
    let p := pHbm + n
    let rows := rowsBeside (if s.bit p O.HBM_DIST_CFG 8 then 2 else 1) (r % 32768)
    ((s.setNrefs n pc l).incr p O.HBM_CNT_NREF).emit (.rowRefresh n pc (r / 32768) rows)

/-- Every scheduled neighbour refresh of a stack is carried out (R399). -/
def nrefAll (s : State) (n : Nat) : State :=
  (List.range 32).foldl (fun s pc => (s.nrefs n pc).foldl (fun s _ => s.nrefDo n pc) s) s

/-- PPR_CTL.GO (R402). -/
def pprGo (s : State) (n e : Nat) : State :=
  let p := pHbm + n
  let w := s.rd p (O.HBM_PPR_LIST + 4 * e)
  let put (s : State) (c : Nat) : State := s.setFld p O.HBM_PPR_STAT 28 4 c
  if !s.stopped p then put s 4
  else if s.fld p O.HBM_PPR_STAT 28 4 = 1 then s
  else if !bitOf w 31 then put s 3
  else if n * 1024 + bitsOf w 20 10 ∈ s.mem.banks then
    ((put s 5).copLose (11 + n)).faultLog 0 false true p 0 0
  else
    let s := (put s 1).setBit p O.HBM_MEM_STAT 3 true
    { s with mem := { s.mem with ppr := sset (fun _ => none) s.mem.ppr n (some e) } }

/-- The 64-byte bursts of a row hold zeros. -/
def zeroRow (s : State) (n row : Nat) : State :=
  { s with hbm := skeep (fun a =>
      let q := hbmPlace s.mem.masks a
      !(q.1 = n && q.2.1 = row)) s.hbm }

/-- A post-package repair ends (R402). -/
def pprDone (s : State) (n : Nat) : State :=
  let p := pHbm + n
  match sget (fun _ => none) s.mem.ppr n with
  | none => s
  | some e =>
    let w := s.rd p (O.HBM_PPR_LIST + 4 * e)
    let s := { s with mem := { s.mem with
      ppr := sset (fun _ => none) s.mem.ppr n none
      banks := (n * 1024 + bitsOf w 20 10) :: s.mem.banks
      hbmCe := sset (fun _ => 0) s.mem.hbmCe (n * 2 ^ 30 + bitsOf w 0 30) 0 } }
    let s := (s.zeroRow n (bitsOf w 0 30)).wr p (O.HBM_PPR_LIST + 4 * e) 0
    let s := (s.setFld p O.HBM_PPR_STAT 0 5 (s.fld p O.HBM_PPR_STAT 0 5 - 1)).setFld p O.HBM_PPR_STAT 28 4 2
    (((s.setBit p O.HBM_MEM_STAT 3 false).setCause p 8).copTake (11 + n)).faultLog 0 true false p 0 0

/-! ## Self-test (R403) -/

/-- Offset of BIST_STAT on a memory's page. -/
def bistStat (m : Nat) : Nat := if m = 0 then O.YRD_BIST_STAT else O.HBM_BIST_STAT

/-- BIST_CTL.GO. -/
def bistGo (s : State) (m : Nat) : State :=
  let p := memPage m
  if !s.stopped p then s.setFld p (bistStat m) 28 4 4
  else if s.bit p O.YRD_MEM_STAT 2 ∨ !s.bit p O.YRD_MEM_STAT 0 then s
  else ((s.wr p (bistStat m) (2 ^ 28)).setBit p O.YRD_MEM_STAT 2 true).setBit p O.YRD_MEM_STAT 0 false

/-- A self-test ends: the memory is zeroed, failing rows are repaired (YRD) or listed (HBM). -/
def bistDone (s : State) (m : Nat) (pass : Bool) (rows : List Nat) : State :=
  let p := memPage m
  if !s.bit p O.YRD_MEM_STAT 2 then s
  else
    let count (s : State) : Nat := if m = 0 then s.rd pYrd O.YRD_CNT_REPAIR else s.fld p O.HBM_PPR_STAT 0 5
    let was := count s
    let s := if m = 0 then (rows.foldl (fun s r => s.repairRow (r % 131072)) s).zeroSram
      else (rows.foldl (fun s r => s.addCandidate (m - 1) r false) s).zeroStack (m - 1)
    let n := (count s + 2 ^ 32 - was) % 65536
    let s := (s.setBit p O.YRD_MEM_STAT 2 false).setBit p O.YRD_MEM_STAT 0 true
    (s.wr p (bistStat m) ((if pass then 2 else 3) * 2 ^ 28 + n)).setCause p (if m = 0 then 8 else 0x10)

/-- PWR_FAIL_N ends an HBM self-test with FAIL, and self-refresh (R399, R403). -/
def memPwrFail (s : State) : State :=
  [1, 2].foldl (fun s m =>
    (s.bistDone m false []).setBit (memPage m) O.HBM_MEM_STAT 4 false) s

end State

/-! ## The commands -/

/-- SRAM_CE (R388): a Lamp map index or a yard offset. -/
def execSramCe (lamp : Bool) (addr : Fin 67108864) : State → Out := act .yrd fun s => s.sramCe lamp addr
/-- YARD_SCRUB (R388): the words it corrects. -/
def execYardScrub (ce : List (Fin 67108864)) : State → Out := act .yrd fun s =>
  when (s.bit pYrd O.YRD_ECC_CFG 0) (ce.foldl (fun s a => s.sramCe false a)) s
/-- SRAM_INIT (R391): the rows that fail the power-on test. -/
def execSramInit (rows : List (Fin 131072)) : State → Out := act .yrd fun s => s.sramInit (rows.map (·.val))
/-- HBM_INIT (R393): a channel that cannot be trained, or the lanes that fail, each with whether it is command-address. -/
def execHbmInit (stack : Fin 2) (failed : Option (Fin 16)) (lanes : List (Fin 16 × Bool)) : State → Out := act .hbm fun s =>
  s.hbmInit stack (failed.map (·.val)) (lanes.map fun l => (l.1.val, l.2))
/-- REFRESH (R397): it keeps the contents. -/
def execHbmRefresh (_stack : Fin 2) : State → Out := act .hbm fun s => s
/-- NEIGHBOUR_REFRESH (R398): an activate of a row (its stack ID, bank and row as PPR_LIST packs them) on a pseudo-channel
draws a refresh, or the oldest one scheduled there is carried out. -/
def execNeighbourRefresh (e : NearRefresh) : State → Out := act .hbm fun s =>
  match e.row with
  | some r => s.nrefDraw e.stack e.pc r.toNat
  | none => s.nrefDo e.stack e.pc
/-- SELF_REFRESH_ENTRY (R399). -/
def execSelfRefreshEntry (stack : Fin 2) : State → Out := act .hbm fun s =>
  let p := pHbm + stack
  when (s.bit p O.HBM_SR_CFG 31 && s.bit p O.HBM_MEM_STAT 0 && !s.bit p O.HBM_MEM_STAT 4 && !s.running pLnd) (fun s =>
    ((s.nrefAll stack).setBit p O.HBM_MEM_STAT 4 true).incr p O.HBM_CNT_SR_ENTRY) s
/-- SELF_REFRESH_EXIT (R399). -/
def execSelfRefreshExit (stack : Fin 2) : State → Out := act .hbm fun s => s.setBit (pHbm + stack) O.HBM_MEM_STAT 4 false
/-- HBM_CE (R400). -/
def execHbmCe (addr : Fin 51539607552) : State → Out := act .hbm fun s => s.hbmCe addr
/-- HBM_SCRUB (R400): the addresses it corrects, and those it cannot. -/
def execHbmScrub (stack : Fin 2) (ce ue : List (Fin 51539607552)) : State → Out := act .hbm fun s =>
  when (s.fld (pHbm + stack) O.HBM_SCRUB_CFG 0 16 ≠ 0) (fun s =>
    ue.foldl (fun s a => s.hbmUe a .none) (ce.foldl (fun s a => s.hbmCe a) s)) s
/-- HBM_RETRAIN (R401): the lanes whose margin is too low. -/
def execHbmRetrain (stack : Fin 2) (lanes : List (Fin 16 × Bool)) : State → Out := act .hbm fun s =>
  when (s.bit (pHbm + stack) O.HBM_MEM_STAT 0) (fun s =>
    lanes.foldl (fun s l => s.repairLane stack l.1 l.2) (s.incr (pHbm + stack) O.HBM_CNT_RETRAIN)) s
/-- PPR_GO (R402), a PW write applied as it arrives. -/
def execPprGo (stack : Fin 2) (entry : Fin 16) : State → Out := act .hbm fun s => s.pwWrite (pHbm + stack) (·.pprGo stack entry)
/-- PPR_DONE (R402). -/
def execPprDone (stack : Fin 2) : State → Out := act .hbm fun s => s.pprDone stack
/-- BIST_GO (R403): 0 YRD, 1 HBM0, 2 HBM1; a PW write applied as it arrives. -/
def execBistGo (mem : Fin 3) : State → Out := act .hbm fun s => s.pwWrite (State.memPage mem) (·.bistGo mem)
/-- BIST_DONE (R403): the rows that fail. -/
def execBistDone (mem : Fin 3) (pass : Bool) (rows : List (BitVec 30)) : State → Out := act .hbm fun s =>
  s.bistDone mem pass (rows.map (·.toNat))

end Sys2Proof.Machine
end

