-- ==== Sys2Proof/Machine/Skidder.lean ====
section
/-! DEFINITION. The Skidder: descriptors, bursts, peripheral pacing, commands, and the halt on a transfer error
(chapter 13). -/
namespace Sys2Proof.Machine

/-- Bytes of a swap unit (Table 13.3). -/
def swapUnit (m : Nat) : Nat := [1, 2, 4, 8, 4, 8].getD m 1

/-- Source offset of the byte written at offset i of a descriptor (Table 13.3). -/
def swapFrom (m i : Nat) : Nat :=
  let u := swapUnit m
  let r := i % u
  i - r + (if m = 4 ∨ m = 5 then (u - 2 - r / 2 * 2) + r % 2 else u - 1 - r)

/-- Bytes of an address space (Table 13.1). -/
def spaceSize (sp : Nat) : Nat :=
  if sp = 0 then 2 ^ 64 else if sp = 1 then 0xC00000000 else 0x800000

/-- A descriptor's words (Table 13.2). -/
structure SkDesc where
  ws : List Nat
deriving DecidableEq, Repr

namespace SkDesc

/-- Word i. -/
def w (d : SkDesc) (i : Nat) : Nat := d.ws.getD i 0
/-- END. -/
def last (d : SkDesc) : Bool := bitOf (d.w 0) 30
/-- SWAP. -/
def swap (d : SkDesc) : Nat := bitsOf (d.w 0) 24 3
/-- REQ. -/
def req (d : SkDesc) : Nat := bitsOf (d.w 0) 16 7
/-- Source space. -/
def sspace (d : SkDesc) : Nat := bitsOf (d.w 0) 14 2
/-- Destination space. -/
def dspace (d : SkDesc) : Nat := bitsOf (d.w 0) 12 2
/-- LENGTH. -/
def len (d : SkDesc) : Nat := d.w 1
/-- SRC. -/
def src (d : SkDesc) : Nat := d.w 2 + d.w 3 * 2 ^ 32
/-- DST. -/
def dst (d : SkDesc) : Nat := d.w 4 + d.w 5 * 2 ^ 32
/-- NEXT. -/
def next (d : SkDesc) : Nat := d.w 6 + d.w 7 * 2 ^ 32

/-- Code of Table 13.4, the lowest that a descriptor meets; 0 for none. -/
def fault (d : SkDesc) : Nat :=
  let past (sp a : Nat) : Bool := decide (spaceSize sp < a + d.len)
  if bitOf (d.w 0) 31 ∨ bitOf (d.w 0) 23 ∨ bitsOf (d.w 0) 0 12 ≠ 0 ∨ 6 ≤ d.swap ∨ 65 ≤ d.req then 1
  else if d.len = 0 ∨ d.len % swapUnit d.swap ≠ 0 then 2
  else if d.sspace = 3 ∨ (d.dspace = 3 ∧ d.req = 0) ∨ (d.dspace ≠ 3 ∧ d.req ≠ 0) then 3
  else if past d.sspace d.src ∨ (d.dspace ≠ 3 ∧ past d.dspace d.dst) then 4
  else if !d.last ∧ d.next % 32 ≠ 0 then 5
  else 0

end SkDesc

namespace State

/-- A Skidder channel. -/
def skc (s : State) (n : Nat) : SkCh := sget (fun _ => {}) s.skch n
/-- Set a Skidder channel. -/
def setSkc (s : State) (n : Nat) (c : SkCh) : State := { s with skch := sset (fun _ => {}) s.skch n c }
/-- Change a Skidder channel. -/
def modSkc (s : State) (n : Nat) (f : SkCh → SkCh) : State := s.setSkc n (f (s.skc n))
/-- Offset of a register of channel block n. -/
def skr (off n : Nat) : Nat := off + 0x40 * n
/-- CH_STAT.STATE: 0 IDLE, 1 ACTIVE, 2 WAIT_REQ, 3 ERROR, 4 HALTED. -/
def skState (s : State) (n : Nat) : Nat := s.fld pSkd (skr O.SKD_CH_STAT n) 29 3
/-- Set CH_STAT.STATE. -/
def setSkState (s : State) (n st : Nat) : State := s.setFld pSkd (skr O.SKD_CH_STAT n) 29 3 st
/-- SKD_STAT.HALTED. -/
def skHalted (s : State) : Bool := s.bit pSkd O.SKD_STAT 31
/-- SKD_STAT.DRAINING. -/
def skDraining (s : State) : Bool := s.bit pSkd O.SKD_STAT 30
/-- Bytes of the current descriptor written. -/
def skDone (s : State) (n : Nat) : Nat := s.rd pSkd (skr O.SKD_CH_DONE_BYTES n)

/-! ## Spaces -/

/-- Bytes of a space (Table 13.1). -/
def spaceBytes (s : State) (sp a n : Nat) : List Byte :=
  if sp = 0 then s.hostBytes a n else if sp = 1 then s.hbmBytes a n else sgetList (fun _ => 0) s.yard a n
/-- Write bytes of a space. -/
def setSpace (s : State) (sp a : Nat) (l : List Byte) : State :=
  if sp = 0 then s.setHost a l else if sp = 1 then s.setHbm a l else { s with yard := ssetList (fun _ => 0) s.yard a l }

/-- Data of bytes `at_` to `at_ + n` of a descriptor, in destination order (R360). -/
def descData (s : State) (d : SkDesc) (at_ n : Nat) : List Byte :=
  if d.swap = 0 then s.spaceBytes d.sspace (d.src + at_) n
  else
    let u := swapUnit d.swap
    let lo := at_ / u * u
    let l := s.spaceBytes d.sspace (d.src + lo) (n + 2 * u)
    (List.range n).map fun i => l.getD (swapFrom d.swap (at_ + i) - lo) 0

/-! ## Commands (R366) -/

/-- A command that is ignored. -/
def skIgnored (s : State) : State := s.setCause pSkd 8

/-- GO. -/
def skGo (s : State) (n : Nat) : State :=
  let st := s.skState n
  if s.skHalted ∨ (st ≠ 0 ∧ st ≠ 3 ∧ st ≠ 4) then s.skIgnored
  else
    let s := (s.modSkc n fun c => { c with desc := none, flight := none, parked := [] }).wr64 pSkd (skr O.SKD_CH_CUR_LO n)
      (s.rd64 pSkd (skr O.SKD_CH_DESC_LO n))
    (s.wr pSkd (skr O.SKD_CH_STAT n) (2 ^ 29)).wr pSkd (skr O.SKD_CH_DONE_BYTES n) 0

/-- RESUME: from ERROR the descriptor is fetched again, from HALTED it goes on where it stood. -/
def skResume (s : State) (n : Nat) : State :=
  let st := s.skState n
  if s.skHalted ∨ (st ≠ 3 ∧ st ≠ 4) then s.skIgnored
  else if st = 3 then (s.modSkc n fun c => { c with desc := none }).setSkState n 1
  else s.setSkState n 1

/-- Queue a BULK cell of a channel (R364). -/
def skCell (s : State) (n : Nat) (d : SkDesc) (data : List Byte) : State :=
  let b := s.rd pSkd (skr O.SKD_CH_BULK n)
  let ofs := s.rd pSkd (skr O.SKD_CH_BULK_OFS n)
  let done := s.skDone n + data.length
  let last := bitOf (d.w 0) 27 && decide (done = d.len)
  let body := leBytes 1 b ++ leBytes 1 (b2n (decide (ofs = 0)) * 2 + b2n last) ++ beBytes 2 data.length ++ padTo 16 [] ++ data
  let s := s.jput (d.req - 1) { mgmt := false, tile := bitsOf b 8 6, body := padTo 500 body, offset := ofs }
  let s := (s.wr pSkd (skr O.SKD_CH_BULK_OFS n) ((ofs + 1) % 2 ^ 20)).wr pSkd (skr O.SKD_CH_DONE_BYTES n) done
  s.addReg64 pSkd (skr O.SKD_CH_BYTES_LO n) data.length

/-- A burst whose read has started ends, its cell queued, if the queue can accept it. -/
def skLand (s : State) (n : Nat) : State :=
  match (s.skc n).flight, (s.skc n).desc with
  | some l, some ws =>
    if s.jaccept ((⟨ws⟩ : SkDesc).req - 1) false then (s.modSkc n fun c => { c with flight := none }).skCell n ⟨ws⟩ l else s
  | _, _ => s

/-- ABORT: the started burst completes, parked data are discarded, nothing is written back. -/
def skAbort (s : State) (n : Nat) : State :=
  if s.skState n = 0 then s.skIgnored
  else
    let s := (s.skLand n).modSkc n fun c => { c with desc := none, flight := none, parked := [] }
    let st := s.rd pSkd (skr O.SKD_CH_STAT n)
    s.wr pSkd (skr O.SKD_CH_STAT n) (putBits (putBits (putBits st 29 3 0) 28 1 1) 0 10 0)

/-- A command of a host channel; those of a job channel are discarded (R356). -/
def skCommand (s : State) (n : Nat) (f : State → State) : State := if n < 4 then s.lockedWrite pSkd else f s

/-- A CH_CTL write (R366): one command bit and no more. -/
def skCtl (s : State) (n v : Nat) : State :=
  s.skCommand n fun s =>
    match bitsOf v 29 3 with
    | 4 => s.skGo n
    | 2 => s.skResume n
    | 1 => s.skAbort n
    | 0 => s
    | _ => s.skIgnored

/-! ## Descriptors and bursts (R359-R365) -/

/-- Space of a channel's descriptors: HOST or HBM. -/
def descSpace (s : State) (n : Nat) : Nat := b2n (s.bit pSkd (skr O.SKD_CH_CFG n) 16)

/-- May a channel move data? -/
def skMoves (s : State) (n : Nat) : Bool := s.skdMoves && s.skState n = 1

/-- An access of a channel to its spaces: one of them the host's waits while no host request may be issued, and takes the
link out of L1 (R84, R85, R488); HBM and the yard stall until they serve requests (R393, R394). -/
def skAccess (s : State) (spaces : List Nat) (f : State → State) : State :=
  if spaces.contains 1 ∧ !s.hbmReady ∨ spaces.contains 2 ∧ !s.sramReady then s
  else if spaces.contains 0 then s.withHost f else f s

/-- Fetch and check of a descriptor (R359, R361). -/
def skFetch (s : State) (n : Nat) : State :=
  if !s.skMoves n ∨ (s.skc n).desc.isSome then s
  else s.skAccess [s.descSpace n] fun s =>
    let l := s.spaceBytes (s.descSpace n) (s.rd64 pSkd (skr O.SKD_CH_CUR_LO n)) 32
    let d : SkDesc := ⟨(List.range 8).map fun i => leWord l (4 * i)⟩
    let s := s.wr pSkd (skr O.SKD_CH_DONE_BYTES n) 0
    if d.fault = 0 then s.modSkc n fun c => { c with desc := some d.ws }
    else ((s.setSkState n 3).setFld pSkd (skr O.SKD_CH_STAT n) 16 8 d.fault).setCause pSkd 4

/-- Bytes of the next burst (R362): a read of host memory is no longer than Max_Read_Request_Size; a cell takes as many as
it needs. -/
def burstLen (s : State) (n : Nat) (d : SkDesc) : Nat :=
  let done := s.skDone n
  let left := d.len - done
  if d.dspace = 3 then min 480 left
  else
    let b := 64 * 2 ^ s.fld pSkd O.SKD_CFG 0 2
    let b := if d.sspace = 0 then min b s.hif.maxRead else b
    min left (min b (min (4096 - (d.src + done) % 4096) (4096 - (d.dst + done) % 4096)))

/-- Move one burst to memory. -/
def skMove (s : State) (n : Nat) (d : SkDesc) : State :=
  let done := s.skDone n
  let k := s.burstLen n d
  let s := s.setSpace d.dspace (d.dst + done) (s.descData d done k)
  (s.wr pSkd (skr O.SKD_CH_DONE_BYTES n) (done + k)).addReg64 pSkd (skr O.SKD_CH_BYTES_LO n) k

/-- A burst starts; a JBULK burst may stay in flight until its cell is queued. -/
def skBurst (s : State) (n : Nat) (inFlight : Bool) : State :=
  if !s.skMoves n then s
  else
    let s := s.skLand n
    match (s.skc n).desc with
    | none => s
    | some ws =>
      let d : SkDesc := ⟨ws⟩
      if d.len ≤ s.skDone n ∨ (s.skc n).flight.isSome then s
      else if d.dspace ≠ 3 then s.skAccess [d.sspace, d.dspace] fun s => s.skMove n d
      else if !s.jaccept (d.req - 1) false then s
      else s.skAccess [d.sspace] fun s =>
        let l := s.descData d (s.skDone n) (s.burstLen n d)
        if inFlight then s.modSkc n fun c => { c with flight := some l } else s.skCell n d l

/-- The last data are written: write-back, completion signal, and the next descriptor (R359). -/
def skDescDone (s : State) (n : Nat) : State :=
  if !s.skMoves n then s
  else
    let s := s.skLand n
    match (s.skc n).desc with
    | none => s
    | some ws =>
      let d : SkDesc := ⟨ws⟩
      if s.skDone n < d.len then s
      else s.skAccess [s.descSpace n] fun s =>
        let cur := s.rd64 pSkd (skr O.SKD_CH_CUR_LO n)
        let s := (s.setSpace (s.descSpace n) cur (leBytes 4 (putBits (d.w 0) 28 1 1))).incr pSkd O.SKD_CNT_DESC
        let s := if bitOf (d.w 0) 29 then (s.setBit pSkd O.SKD_CH_DONE_MAP n true).setCause pSkd 1 else s
        let s := s.modSkc n fun c => { c with desc := none }
        if d.last then s.setSkState n 0
        else (s.wr64 pSkd (skr O.SKD_CH_CUR_LO n) d.next).wr pSkd (skr O.SKD_CH_DONE_BYTES n) 0

/-- Port that paces a channel's descriptor. -/
def skPort (s : State) (n : Nat) : Option Nat :=
  (s.skc n).desc.bind fun ws => if (⟨ws⟩ : SkDesc).req = 0 then none else some ((⟨ws⟩ : SkDesc).req - 1)

/-- A channel waits for its request; data read and not queued are parked. -/
def skPark (s : State) (n : Nat) : State :=
  let s := s.setSkState n 2
  match (s.skc n).flight with
  | none => s
  | some l =>
    let s := s.modSkc n fun c => { c with flight := none, parked := l }
    (s.setFld pSkd (skr O.SKD_CH_STAT n) 0 10 l.length).incr pSkd O.SKD_CNT_PARKS

/-- The request of a port is withdrawn (R365). -/
def skWithdrawn (s : State) (p : Nat) : State :=
  if s.jaccept p false then s
  else (List.range 32).foldl (fun s n => if s.skState n ≠ 1 ∨ s.skPort n ≠ some p then s else s.skPark n) s

/-- RUN = 0: each channel finishes its started burst, whose cell is queued, or parked while the request is withdrawn
(R370). -/
def skSettle (s : State) : State :=
  (List.range 32).foldl (fun s n =>
    let s := s.skLand n
    if (s.skc n).flight.isSome then s.skPark n else s) s

/-- Is no access of the Skidder outstanding (R370)? -/
def skQuiet (s : State) : Bool := !s.skDraining && (List.range 32).all fun n => (s.skc n).flight.isNone

/-- The request of a port is asserted (R364, R365): parked data go first. -/
def skAsserted (s : State) (p : Nat) : State :=
  (List.range 32).foldl (fun s n =>
    if s.skState n ≠ 2 ∨ s.skPort n ≠ some p ∨ !s.jaccept p false then s
    else
      let s := s.setSkState n 1
      match (s.skc n).parked, (s.skc n).desc with
      | b :: l, some ws =>
        let s := (s.modSkc n fun c => { c with parked := [] }).setFld pSkd (skr O.SKD_CH_STAT n) 0 10 0
        s.skCell n ⟨ws⟩ (b :: l)
      | _, _ => s) s

/-! ## Job channels (R73, R356) -/

/-- Does a job still need its channel? One that only waits for its epoch does not (R68). -/
def jobMoving (s : State) (r : JobRef) : Bool :=
  s.jobOpen r && match s.lnd.loads.find? fun l => l.ref = r with
    | some l => decide (l.written < l.words) && (isStandby l.page l.table || l.late)
    | none => true

/-- Lowest free job channel. -/
def freeChannel (s : State) : Option Nat :=
  (List.range 4).find? fun n => match (s.skc n).job with
    | some r => !s.jobMoving r
    | none => true

/-- A job's data transfer takes a job channel. -/
def takeChannel (s : State) (r : JobRef) : State :=
  match s.freeChannel with
  | some n => (s.modSkc n fun c => { c with job := some r }).setSkState n 1
  | none => s

/-! ## The halt (R367-R369) -/

/-- Outcome of a job whose transfer a halt ends (Table 13.7): bytes or words written. -/
def haltOut (s : State) (r : JobRef) : Nat :=
  match s.findJob r with
  | some j => if j.op = 0x10 then j.moved else if j.op = 0x11 then 0 else
      match s.lnd.loads.find? fun l => l.ref = r with
      | some l => l.written
      | none => j.moved
  | none => 0

/-- A job on a job channel ends with HOST_ACCESS. -/
def haltJob (s : State) (n : Nat) : State :=
  match (s.skc n).job with
  | none => s
  | some r =>
    let s := s.modSkc n fun c => { c with job := none }
    if !s.jobMoving r then s.setSkState n 0
    else
      let out := s.haltOut r
      let frame := (s.findJob r).bind fun j => if j.op = 0x11 ∧ (s.ctx j.ctx).isOpen then some j.ctx else none
      let s := s.finish r { status := stHostAccess, result := out, detail := 1 }
      let s := { s with lnd := { s.lnd with loads := s.lnd.loads.filter fun l => l.ref ≠ r } }
      match frame with
      | some c => (s.abortFlights c).tryClose c
      | none => s

/-- A transfer error (R367). -/
def skError (s : State) (n : Nat) (isDesc isRead : Bool) (space cause addr : Nat) : State :=
  if s.skHalted then (if s.skDraining then s.setBit pSkd O.ERR_CAPTURE 30 true else s)
  else
    let ch := if isRead ∧ space = 0 then 0x1F else n
    let info := ch * 256 + b2n isDesc * 128 + b2n isRead * 64 + space % 4 * 16 + cause
    let s := (s.containedFault pSkd 0x0100 info addr).setFld pSkd O.SKD_STAT 30 2 3
    let s := (s.incr pSkd O.SKD_CNT_HALTS).setCause pSkd 2
    let s := (List.range 4).foldl haltJob s
    (List.range 32).foldl (fun s n =>
      if (s.skc n).flight.isNone ∧ (s.skc n).parked.isEmpty then s
      else (s.modSkc n fun c => { c with flight := none, parked := [] }).setFld pSkd (skr O.SKD_CH_STAT n) 0 10 0) s

/-- No access remains outstanding. -/
def skDrained (s : State) : State :=
  if !s.skDraining then s
  else (List.range 32).foldl (fun s n => if s.skState n = 1 ∨ s.skState n = 2 then s.setSkState n 4 else s)
    (s.setBit pSkd O.SKD_STAT 30 false)

/-- A write of 1 to HALT_CLR (R368). -/
def skHaltClr (s : State) : State :=
  if s.skDraining ∨ !s.skHalted then s
  else (List.range 4).foldl (fun s n => s.setSkState n 0) (s.setBit pSkd O.SKD_STAT 31 false)

/-- Soft reset of the Skidder (R370): every channel IDLE, no halt. -/
def skReset (s : State) : State := { s with skch := smap (fun _ => {}) (fun c => { job := c.job }) s.skch }

/-- CH_STAT.STATE as it reads: a job channel is ACTIVE while its job moves, once SKD runs, and IDLE otherwise. -/
def chState (s : State) (n : Nat) : Nat :=
  let own := s.skState n
  if 4 ≤ n ∨ own = 4 then own
  else if (s.skc n).job.any fun r => s.jobMoving r then (if s.running pSkd then 1 else own) else 0

/-- Channels ACTIVE or WAIT_REQ, as SKD_STAT shows them. -/
def skBusy (s : State) : Nat := ((List.range 32).filter fun n => s.chState n = 1 || s.chState n = 2).length

end State

/-! ## Memory errors that the Skidder meets (Tables 15.2 and 15.4) -/

namespace State

/-- An uncorrectable SRAM error, the Skidder's own among them. -/
def sramErr (s : State) (lamp : Bool) (a : Nat) (use : YardUse) : State :=
  let t := s.sramUe lamp a use
  match use with
  | .staging n => if !lamp ∧ t.flt.life = .up ∧ yardLies use a then t.skError n false true 2 4 (a - 0x3800000) else t
  | _ => t

/-- An uncorrectable HBM read, the Skidder's own among them. -/
def hbmErr (s : State) (a : Nat) (u : HbmUser) : State :=
  let t := s.hbmUe a u
  match u with
  | .skidder n d => if t.flt.life = .up then t.skError n d true 1 4 a else t
  | _ => t

end State

/-- SRAM_UE (R389). -/
def execSramUe (lamp : Bool) (addr : Fin 67108864) (use : YardUse) : State → Out := act .yrd fun s => s.sramErr lamp addr use
/-- HBM_UE (R400). -/
def execHbmUe (addr : Fin 51539607552) (user : HbmUser) : State → Out := act .hbm fun s => s.hbmErr addr user

/-! ## The commands -/

/-- GO (R366). -/
def execChGo (n : Fin 32) : State → Out := act .skd fun s => s.skCommand n (·.skGo n)
/-- RESUME (R366). -/
def execChResume (n : Fin 32) : State → Out := act .skd fun s => s.skCommand n (·.skResume n)
/-- CHANNEL_ABORT (R366). -/
def execChannelAbort (n : Fin 32) : State → Out := act .skd fun s => s.skCommand n (·.skAbort n)
/-- DESCRIPTOR_FETCH (R359). -/
def execDescriptorFetch (n : Fin 32) : State → Out := act .skd fun s => when (4 ≤ n.val) (·.skFetch n) s
/-- BURST (R362, R363); `inFlight` tells that a JBULK cell is not yet queued. -/
def execSkdBurst (n : Fin 32) (inFlight : Bool) : State → Out := act .skd fun s => when (4 ≤ n.val) (·.skBurst n inFlight) s
/-- DESCRIPTOR_DONE (R359). -/
def execDescriptorDone (n : Fin 32) : State → Out := act .skd fun s => when (4 ≤ n.val) (·.skDescDone n) s
/-- REQUEST_ASSERTED (R364). -/
def execRequestAsserted (port : Fin 64) : State → Out := act .skd fun s => when s.skdMoves (·.skAsserted port) s
/-- REQUEST_WITHDRAWN (R365). -/
def execRequestWithdrawn (port : Fin 64) : State → Out := act .skd fun s => when s.skdMoves (·.skWithdrawn port) s
/-- TRANSFER_ERROR (R367); a write to host memory can fail on a member of a stand only (R75): channel, descriptor access or data, read or write, space, cause of Table 13.6, address. -/
def execTransferError (n : Fin 32) (isDesc isRead : Bool) (space : Fin 4) (cause : Fin 5) (addr : W64) : State → Out :=
  act .skd fun s => when (isRead || decide (space.val ≠ 0) || s.isMember) (·.skError n isDesc isRead space cause addr.toNat) s
/-- DRAIN_COMPLETE (R367). -/
def execDrainComplete : State → Out := act .skd (·.skDrained)
/-- HALT_CLR (R368). -/
def execHaltClr : State → Out := act .skd (·.skHaltClr)

end Sys2Proof.Machine
end

