-- ==== Sys2Proof/Machine/Stand.lean ====
section
/-! DEFINITION. Stands and the Cororn links: flits and replay, discovery, stand time of a member, beacons, isolation, and
shared pictures (chapter 16). The stand's mode change is in Modes, its reset in Resets. -/
namespace Sys2Proof.Machine

/-! ## Flits (R407) -/

/-- Header of a flit as a number. -/
def flitHead (l : List Byte) : Nat := beNat (padTo 8 l)
/-- CLASS: 0 FLOW, 1 TIME, 2 CTRL, 3 REG, 4 SHARE. -/
def flitClass (l : List Byte) : Nat := bitsOf (flitHead l) 61 3
/-- BCAST. -/
def flitBcast (l : List Byte) : Bool := bitOf (flitHead l) 58
/-- DEST. -/
def flitDest (l : List Byte) : Nat := bitsOf (flitHead l) 52 6
/-- SEQ. -/
def flitSeq (l : List Byte) : Nat := bitsOf (flitHead l) 34 12
/-- Is HCRC correct? -/
def flitHeadOk (l : List Byte) : Bool := crc16 (padTo 6 l) = bitsOf (flitHead l) 0 16
/-- Is the CRC-32 correct? -/
def flitCrcOk (l : List Byte) : Bool := crcCell (padTo 60 l) = beNat (padTo 4 (l.drop 60))

/-- A flit with a SEQ of its own, its HCRC and CRC-32 made afresh; a bad CRC stays bad. -/
def flitWith (l : List Byte) (seq : Nat) (bad : Bool) : List Byte :=
  let h := beBytes 6 (putBits (flitHead l) 34 12 seq / 65536)
  let b := h ++ beBytes 2 (crc16 h) ++ padTo 52 (l.drop 8)
  b ++ beBytes 4 (crcCell b ^^^ (if bad then 1 else 0))

/-- SOM: the first flit of a message. -/
def flitSom (l : List Byte) : Bool := bitOf (flitHead l) 60

/-- Put a flit among those that wait (R408): TIME and CTRL pass REG and SHARE, REG passes SHARE at message boundaries. -/
def queueFlit (f : List Byte × Bool) (q : List (List Byte × Bool)) : List (List Byte × Bool) :=
  let stays (g : List Byte × Bool) : Bool :=
    if flitClass f.1 < 3 then flitClass g.1 < 3
    else if flitClass f.1 = 3 then !(flitClass g.1 = 4 && flitSom g.1) else true
  q.takeWhile stays ++ f :: q.dropWhile stays

/-! ## Numbering (R410-R412) -/

/-- An engine of the stand in the order of its number: its label among the cables, its parent's number and link, its own link
to the parent, and its hops. -/
structure StandNode where
  label : Nat
  parent : Nat
  link : Nat
  up : Nat
  hops : Nat
deriving DecidableEq, Repr

/-- The cables of an engine, by its links: its own link, the engine at the other end, and the link there. -/
def peersOf (cs : List Cable) (x : Nat) : List (Nat × Nat × Nat) :=
  (List.range 4).filterMap fun l => cs.findSome? fun c =>
    if c.a = x ∧ c.aLink.val = l then some (l, c.b, c.bLink.val)
    else if c.b = x ∧ c.bLink.val = l then some (l, c.a, c.aLink.val) else none

/-- Number the stand breadth-first: engine i's peers that have no number yet take the next ones, link by link; a 65th takes
none. -/
def numberFrom (cs : List Cable) : Nat → Nat → List StandNode → List StandNode
  | 0, _, ns => ns
  | fuel + 1, i, ns =>
    match ns[i]? with
    | none => ns
    | some n => numberFrom cs fuel (i + 1) ((peersOf cs n.label).foldl (fun ns e =>
        if ns.length < 64 ∧ !(ns.any fun m => m.label = e.2.1) then ns ++ [⟨e.2.1, i, e.1, e.2.2, n.hops + 1⟩] else ns) ns)

/-- The numbered engines of a stand whose lead has label 0. -/
def standNodes (cs : List Cable) : List StandNode := numberFrom cs 64 0 [⟨0, 0, 0, 0, 0⟩]

/-- Link of engine `e` towards an engine below it. -/
def downLink (ns : List StandNode) (e : Nat) : Nat → Nat → Option Nat
  | 0, _ => none
  | fuel + 1, d =>
    match ns[d]? with
    | none => none
    | some n => if d = 0 then none else if n.parent = e then some n.link else downLink ns e fuel n.parent

/-- Link by which engine `e` reaches each other engine (R411): down its branch, or towards the lead. -/
def routesOf (ns : List StandNode) (e : Nat) : List (Nat × Nat) :=
  ((List.range ns.length).filter (· ≠ e)).map fun d =>
    (d, (downLink ns e 64 d).getD ((ns[e]?.map (·.up)).getD 0))

/-- What discovery finds for one Cororn link (R410-R412): LSTATE, peer engine and link, and whether it is a parent link, of
the tree, or standby. -/
structure LinkFound where
  lstate : Nat
  peer : Nat := 0
  peerLink : Nat := 0
  parent : Bool := false
  tree : Bool := false
  standby : Bool := false
deriving DecidableEq, Repr

/-- Link l of engine `e`: in conflict with another lead candidate, in training, to an engine without a number, or between two
engines of the stand. -/
def linkOf (d : Discovered) (ns : List StandNode) (e l : Nat) : LinkFound :=
  if d.conflict.any fun x => x.val = l then { lstate := 3 }
  else match (peersOf d.cables d.own).find? fun c => c.1 = l with
    | none => { lstate := 1 }
    | some c => match ns.findIdx? fun n => n.label = c.2.1 with
      | none => { lstate := 4, peerLink := c.2.2 }
      | some p =>
        let above : Bool := e ≠ 0 && ns[e]?.any fun n => n.parent = p && n.up = l
        let below : Bool := p ≠ 0 && ns[p]?.any fun n => n.parent = e && n.link = l
        { lstate := 2, peer := p, peerLink := c.2.2, parent := above, tree := above || below, standby := !(above || below) }

namespace State

/-- Page of a link. -/
def cp (k : Nat) : Nat := pCrn + k
/-- A Cororn link. -/
def crn (s : State) (k : Nat) : CrnSt := sget (fun _ => {}) s.stand.links k
/-- Set a Cororn link. -/
def setCrn (s : State) (k : Nat) (c : CrnSt) : State :=
  { s with stand := { s.stand with links := sset (fun _ => {}) s.stand.links k c } }
/-- LINK_STAT.LSTATE: 0 DOWN, 1 TRAIN, 2 UP, 3 CONFLICT, 4 OVER. -/
def crnState (s : State) (k : Nat) : Nat := s.fld (cp k) O.CRN_LINK_STAT 28 4
/-- Is a link part of the tree, and up? -/
def crnTree (s : State) (k : Nat) : Bool := s.crnState k = 2 && s.bit (cp k) O.CRN_LINK_FLAGS 3
/-- Is a link the parent link? -/
def crnParent (s : State) (k : Nat) : Bool := s.bit (cp k) O.CRN_LINK_STAT 0

/-- STD_STAT.STATE: 0 ALONE, 1 DISCOVERING, 2 FORMED, 3 ISOLATED. -/
def stdState (s : State) : Nat := s.fld pStd O.STD_STAT 30 2
/-- Set STD_STAT.STATE. -/
def setStdState (s : State) (v : Nat) : State := s.setFld pStd O.STD_STAT 30 2 v
/-- Is this engine the lead of a formed stand? -/
def isLead (s : State) : Bool := s.bit pStd O.STD_FLAGS 1
/-- Engines of the stand. -/
def engines (s : State) : Nat := s.fld pStd O.STD_STAT 8 7
/-- PRESENT. -/
def present (s : State) : Nat := s.rd64 pStd O.STD_PRESENT_LO
/-- Number of engines present. -/
def presentN (s : State) : Nat := (setBitsOf s.present 64).length
/-- T, ns (R419). -/
def castTime (s : State) : Nat := 1000 + 240 * s.fld pStd O.STD_STAT 0 6

/-! ## Link layer (R407-R409) -/

/-- A flit leaves on a link; all but FLOW are held for replay. -/
def putFlit (s : State) (k : Nat) (l : List Byte) (bad : Bool) : State :=
  let c := s.crn k
  let flow := flitClass l = 0
  let f := flitWith l c.tx bad
  let s := if flow then s else s.setCrn k { c with tx := (c.tx + 1) % 4096, held := c.held ++ [(c.tx, f)] }
  (s.addReg64 (cp k) O.CRN_TX_FLITS_LO 1).emit (.flit k f)

/-- Send a flit on a link: at once, or behind those that wait for room in the replay buffer (R408, R409). -/
def sendFlit (s : State) (k : Nat) (l : List Byte) (bad : Bool) : State :=
  let c := s.crn k
  if flitClass l = 0 ∨ c.wait.isEmpty ∧ c.held.length < 1024 then s.putFlit k l bad
  else s.setCrn k { c with wait := queueFlit (l, bad) c.wait }

/-- Flits that wait leave while the replay buffer has room. -/
def drainFlits (s : State) (k : Nat) : Nat → State
  | 0 => s
  | n + 1 =>
    let c := s.crn k
    match c.wait with
    | [] => s
    | f :: r => if c.held.length < 1024 then ((s.setCrn k { c with wait := r }).putFlit k f.1 f.2).drainFlits k n else s

/-- Forward a flit along the tree (R408, R411): a broadcast to every branch, another to the branch of its destination. -/
def forwardFlit (s : State) (k : Nat) (l : List Byte) (bad : Bool) : State :=
  if flitBcast l then
    ((List.range 4).filter fun i => i ≠ k && s.crnTree i && !s.crnParent i).foldl (fun s i => s.sendFlit i l bad) s
  else if flitDest l = s.ownEngine then s
  else match (s.stand.routes.find? fun e => e.1 = flitDest l).map (·.2) with
    | some i => if i ≠ k ∧ s.crnTree i then s.sendFlit i l bad else s
    | none => s

/-- A flit to be discarded: a replay is requested from the first flit lacking. -/
def askReplay (s : State) (k : Nat) : State := s.emit (.replay k (s.crn k).rx)

/-- The peer acknowledges flits up to a SEQ: others take their room. -/
def ackFlits (s : State) (k n : Nat) : State :=
  let c := s.crn k
  (s.setCrn k { c with held := c.held.filter fun e => 2048 ≤ (n + 4096 - e.1) % 4096 }).drainFlits k 1024

/-- A link leaves UP, or is taken down; this engine's parent link is remembered until another path is taken. -/
def crnDown (s : State) (k : Nat) : State :=
  let up := s.crnState k = 2
  let s := if s.crnParent k then { s with stand := { s.stand with lostParent := some k } } else s
  let s := (s.wr (cp k) O.CRN_LINK_STAT 0).wr (cp k) O.CRN_LINK_FLAGS 0
  let s := s.setCrn k {}
  if up then s.setCause (cp k) 2 else s

/-- A flit has been replayed 8 times, or not acknowledged in time: the sender takes the link down (R409). -/
def replayFail (s : State) (k : Nat) : State :=
  ((s.containedFault (cp k) 0x0100 0 0).setCause (cp k) 4).crnDown k

/-- The peer asks for a replay from a SEQ; the flit of that SEQ is replayed no ninth time. -/
def replayFlits (s : State) (k n : Nat) : State :=
  let c := s.crn k
  let s := s.incr (cp k) O.CRN_CNT_REPLAY
  let l := c.held.dropWhile fun e => e.1 ≠ n
  if l.isEmpty then s
  else
    let m := if c.tries.1 = n then c.tries.2 else 0
    if 8 ≤ m then s.replayFail k
    else l.foldl (fun s e => (s.addReg64 (cp k) O.CRN_TX_FLITS_LO 1).emit (.flit k e.2))
      (s.setCrn k { c with tries := (n, m + 1) })

/-- A flit arrives on a link (R408, R409); what a FLOW flit acknowledges or asks for is given beside it. -/
def flitIn (s : State) (k : Nat) (l : List Byte) (ack again : Option Nat) : State :=
  let st := s.crnState k
  if !s.running (cp k) ∨ (st ≠ 2 ∧ st ≠ 4) then s
  else if !flitHeadOk l then (s.incr (cp k) O.CRN_CNT_CRC).askReplay k
  else if flitClass l = 0 then
    if !flitCrcOk l then s.incr (cp k) O.CRN_CNT_CRC
    else
      let s := s.addReg64 (cp k) O.CRN_RX_FLITS_LO 1
      let s := match ack with | some n => s.ackFlits k n | none => s
      match again with | some n => s.replayFlits k n | none => s
  else if st = 4 then s
  else if flitSeq l ≠ (s.crn k).rx then s.askReplay k
  else
    let good := flitCrcOk l
    let s := if flitClass l = 2 then s.forwardFlit k l (!good) else s
    if !good then (s.incr (cp k) O.CRN_CNT_CRC).askReplay k
    else
      let s := (s.setCrn k { s.crn k with rx := (flitSeq l + 1) % 4096 }).addReg64 (cp k) O.CRN_RX_FLITS_LO 1
      if flitClass l = 3 ∨ flitClass l = 4 then s.forwardFlit k l false else s

/-! ## Discovery (R410-R413) -/

/-- What discovery finds on a link. -/
def linkFound (s : State) (k : Nat) (f : LinkFound) : State :=
  if !s.running (cp k) ∨ !s.bit (cp k) O.CRN_LINK_CFG 31 then s
  else
    let old := s.crnState k
    let up := f.lstate = 2
    let s := s.wr (cp k) O.CRN_LINK_STAT (f.lstate * 2 ^ 28 + f.peer * 2 ^ 16 + f.peerLink * 2 ^ 8 + b2n f.parent)
    let s := s.wr (cp k) O.CRN_LINK_FLAGS
      (b2n f.standby * 16 + b2n f.tree * 8 + b2n up * 4 + (if f.lstate = 0 then 0 else 3))
    let s := if old ≠ 2 then s.setCrn k {} else s
    let s := if up && old ≠ 2 then s.setCause (cp k) 1 else if !up && old = 2 then s.setCause (cp k) 2 else s
    let s := if old = 2 ∧ !up then s.incr (cp k) O.CRN_CNT_LOCK_LOSS else s
    if f.lstate = 3 ∧ old ≠ 3 then (s.errCapture (cp k) 0x0102 0 0).setCause (cp k) 8 else s

/-- Discovery completes (R410): the engines are numbered, and this one takes its number, its links and its routes; one that
gets no number stays as it is. -/
def discovered (s : State) (d : Discovered) : State :=
  let member : Bool := s.flt.bootMode = 2
  let st := s.pstate pStd
  let ns := standNodes d.cables
  match ns.findIdx? fun n => n.label = d.own with
  | none => s
  | some e =>
    if (st ≠ 1 ∧ st ≠ 2) ∨ member ≠ decide (e ≠ 0) then s
    else
      let hops := (ns[e]?.map (·.hops)).getD 0
      let h := (ns.map (·.hops)).foldl max 0
      let s := (List.range 4).foldl (fun s l => s.linkFound l (linkOf d ns e l)) s
      let s := s.wr pStd O.STD_STAT (2 * 2 ^ 30 + hops * 2 ^ 24 + e * 2 ^ 16 + ns.length * 2 ^ 8 + h)
      let s := s.setFld pStd O.STD_FLAGS 0 2 (b2n (!member) * 2 + 1)
      let s := if member then s else s.wr64 pStd O.STD_PRESENT_LO (2 ^ ns.length - 1)
      let s := s.wr pStd O.STD_OP_SEQ 0
      let s := { s with stand := { s.stand with
        routes := routesOf ns e, committed := 0, lastEpoch := 0, noBeacon := 0, joined := false, lostParent := none } }
      let s := s.setCause pStd 1
      match s.stand.redisc with
      | some r => { s with stand := { s.stand with redisc := none } }.finish r { status := stSuccess, result := s.presentN }
      | none => s

/-- A control store is copied down the stand (R413): into this engine once it is numbered, or into a child of it, from a lead
with CS_COPY or from a member that has its own copy. -/
def copyStore (s : State) (child : Nat) (words : List Nat) (check : Nat) (checkEn : Bool) : State :=
  if s.bit pStd O.STD_FLAGS 0 ∧ child = s.ownEngine ∧ s.isMember then
    if s.running pYcs ∨ s.bit pYcs O.YCS_CS_CTL 0 then s
    else
      let s := (words.take 65536).zipIdx.foldl (fun s e => s.setTab pYcs 0 e.2 e.1) s
      let s := (s.wr pYcs O.YCS_CS_CHECK check).setBit pYcs O.YCS_CS_CTL 1 checkEn
      { s.setFld pYcs O.YCS_CS_SRC 0 2 3 with stand := { s.stand with csDone := true } }
  else if s.stdState = 2 ∧ (if s.isMember then s.stand.csDone else s.bit pStd O.STD_CFG 30) then
    s.emit (.csCopy child ((List.range 65536).map fun i => s.tab pYcs 0 i) (s.rd pYcs O.YCS_CS_CHECK) (s.bit pYcs O.YCS_CS_CTL 1))
  else s

/-! ## Stand time of a member (R416-R418) -/

/-- A delay is measured on a link (R416); the stamps are in 2⁻⁸ ns. -/
def measure (s : State) (k : Nat) (t1 t2 t3 t4 : Int) : State :=
  if s.crnState k ≠ 2 then s
  else
    let c := s.crn k
    let l := (((t4 - t1) - (t3 - t2)) / 2 :: c.delays).take 16
    let d := rdiv l.sum l.length + signed 32 (s.rd (cp k) O.CRN_DELAY_ADJ)
    let s := (s.setCrn k { c with delays := l }).wr (cp k) O.CRN_LINK_DELAY (toBits 32 d)
    if s.crnParent k ∧ s.stand.measures ≠ 0 then
      let m := s.stand.measures - 1
      let s := { s with stand := { s.stand with measures := m } }
      if m = 0 then s.setBit pStd O.STD_FLAGS 2 false else s
    else s

/-- This engine has missed the stand's state (R425): BLACK until it is resynchronised. -/
def missedOp (s : State) : State :=
  if s.bit pStd O.STD_FLAGS 3 then s
  else
    let s := (((s.setBit pStd O.STD_FLAGS 3 true).incr pStd O.STD_CNT_MISSED).startGlob .missed).setCause pStd 8
    s.emit (.missedReport s.ownEngine)

/-- Stand time in 2⁻¹⁶ ns is set. -/
def setFx (s : State) (t : Int) : State :=
  { s with tim := { s.tim with time := toBits 64 (t / 65536), frac := (t % 65536).toNat } }

/-- Within what the slew limit of 100 ppm allows in 10 µs: a free amount of at most 1 ns either way (R416). -/
def freeSlew (s : State) : Int := (s.freeVal.toNat % 131073 : Nat) - 65536

/-- The parent's stand time arrives (R416, R418): `own` is this engine's at the arrival, in ns. -/
def correct (s : State) (k parent frac own : Nat) : State :=
  if !s.isMember ∨ !s.crnParent k ∨ s.crnState k ≠ 2 then s
  else
    let s := s.reachTime own
    let target : Int := parent * 65536 + frac + signed 32 (s.rd (cp k) O.CRN_LINK_DELAY) * 256
    let err := s.nowFx - target
    let s := s.wr pStd O.STD_TIME_ERR (toBits 32 (err / 256))
    if !s.stand.joined then { s.setFx target with stand := { s.stand with joined := true } }
    else if 1000 * fxNs < err.natAbs then
      let us := min 0xFFFFFFFF (err.natAbs / (1000 * 65536))
      ((s.setFx target).containedFault pStd 0x0101 us 0).missedOp
    else if s.stand.measures ≠ 0 then s
    else (s.setFx (s.nowFx + s.freeSlew)).freeTaken

/-! ## Beacons, lost links and isolation (R425, R426) -/

/-- A BEACON is broadcast by the lead. -/
def beacon (s : State) : State :=
  if s.isLead ∧ s.stdState = 2 then s.emit
    (.beacon s.tim.wframe s.stand.committed s.stand.lastEpoch (s.bit pTim O.TIM_FLAGS 3)) else s

/-- A BEACON arrives: an operation whose epoch is reached and that this engine has not applied is missed; the lead's
exceeded holdover is the member's, and ends with it (R450). -/
def beaconIn (s : State) (frame opSeq epoch : Nat) (exceeded : Bool) : State :=
  if !s.isMember ∨ s.stdState ≠ 2 then s
  else
    let s := { s with stand := { s.stand with noBeacon := 0 } }
    let s := if !exceeded then s.endExceeded
      else if s.bit pTim O.TIM_FLAGS 3 then s else s.holdExceeded
    let behind := (s.rd pStd O.STD_OP_SEQ + 2 ^ 32 - opSeq) % 2 ^ 32 ≠ 0
    let reached := signed 32 (epoch + 2 ^ 32 - frame % 2 ^ 32) ≤ 0
    if behind ∧ (reached ∨ 1 < (opSeq + 2 ^ 32 - s.rd pStd O.STD_OP_SEQ) % 2 ^ 32) then s.missedOp else s

/-- This engine finds no path to the lead. -/
def isolate (s : State) : State :=
  if !s.isMember ∨ s.stdState ≠ 2 then s
  else
    let s := { s with stand := { s.stand with lostParent := none } }
    let s := (s.setStdState 3).setBit pStd O.STD_FLAGS 4 true
    ((s.setBit pStd O.STD_FLAGS 2 true).incr pStd O.STD_CNT_ISOLATED).setCause pStd 0x10

/-- A standby link becomes the parent link: stand time holds until the path has been measured 16 times. -/
def newParent (s : State) (k : Nat) : State :=
  let s := (s.setBit (cp k) O.CRN_LINK_STAT 0 true).setFld (cp k) O.CRN_LINK_FLAGS 3 2 1
  { s.setBit pStd O.STD_FLAGS 2 true with stand := { s.stand with measures := 16, lostParent := none } }

/-- Engines that the lead can no longer reach. -/
def loseEngines (s : State) (lost : Nat) : State :=
  let gone := s.present &&& lost
  if !s.isLead ∨ gone = 0 then s
  else (s.wr64 pStd O.STD_PRESENT_LO (s.present - gone)).setCause pStd 4

/-- A link of the tree goes down (R426): the parent link of this engine, or that of the engines below it. -/
def treeDown (s : State) (k : Nat) (path : Option Nat) (lost : Nat) : State :=
  let parent := s.crnParent k || decide (s.stand.lostParent = some k)
  let s := if s.crnState k = 2 then s.incr (cp k) O.CRN_CNT_LOCK_LOSS else s
  let s := s.crnDown k
  if !parent then s.loseEngines lost
  else match path with
    | some i => if i ≠ k ∧ s.crnState i = 2 ∧ s.bit (cp i) O.CRN_LINK_FLAGS 4 then s.newParent i else s.isolate
    | none => s.isolate

/-- A wall frame passes without a BEACON: the third in a row isolates. -/
def beaconMissed (s : State) : State :=
  if !s.isMember ∨ s.stdState ≠ 2 then s
  else
    let n := s.stand.noBeacon + 1
    let s := { s with stand := { s.stand with noBeacon := n } }.incr pStd O.STD_CNT_BEACON_MISS
    if 3 ≤ n then s.isolate else s

/-- A path returns (R426): this engine rejoins as one that has missed, or the lead marks one present. -/
def rejoin (s : State) (engine k : Nat) : State :=
  if s.isMember then
    if engine ≠ s.ownEngine ∨ s.stdState ≠ 3 then s
    else
      let s := ((s.setStdState 2).setBit pStd O.STD_FLAGS 4 false).newParent k
      let s := { s with stand := { s.stand with noBeacon := 0 } }
      ((s.setCause pStd 0x20).missedOp).endGlob .isolated
  else if s.isLead ∧ engine < s.engines ∧ !bitOf s.present engine then
    (s.wr64 pStd O.STD_PRESENT_LO (s.present + 2 ^ engine)).setCause pStd 2
  else s

/-- A FATAL broadcast arrives (R427); the lead sends it on to the whole stand, or without FATAL_SPREAD takes the engine as
lost. -/
def fatalIn (s : State) (engine : Nat) : State :=
  if s.isLead ∧ !s.bit pStd O.STD_CFG 31 then s.loseEngines (2 ^ engine)
  else
    let s := s.setCause pStd 0x80
    let s := if s.isLead then s.emit (.fatalBroadcast engine) else s
    s.fatal 0x0104 engine

/-! ## Shared pictures (R428-R430) -/

/-- A register of share block n. -/
def shr (off n : Nat) : Nat := off + 0x20 * n
/-- SH_CFG, SH_RING and the counters of a share block. -/
def shCfg (s : State) (n : Nat) : Nat := s.rd pStd (shr O.STD_SH_CFG n)
/-- Sink ring of a share. -/
def shareRing (s : State) (n : Nat) : Ctx := sget (fun _ => {}) s.shares n
/-- Set the sink ring of a share. -/
def setShareRing (s : State) (n : Nat) (x : Ctx) : State := { s with shares := sset (fun _ => {}) s.shares n x }

/-- A share's ring is EMPTY. -/
def emptyShare (s : State) (n : Nat) : State :=
  let x := s.shareRing n
  let s := if x.isOpen then s.ringWord0 x false false else s
  s.setShareRing n {}

/-- Ring of a sink for pictures of a declared size (R136, R429). -/
def sinkRing (s : State) (n : Nat) (p : SharePic) : Ctx :=
  let pitch := pitchOf p.fmt p.width
  { st := 1, width := p.width, height := p.height, pitch := pitch, slotBytes := slotBytesOf pitch p.height
    desc := [BitVec.ofNat 32 (p.fmt % 4 * 2 ^ 24), BitVec.ofNat 32 (s.rd pStd (shr O.STD_SH_RING n)),
      BitVec.ofNat 32 (s.rd pStd (shr O.STD_SH_RING_HI n))] }

/-- May a slot of a sink's ring be replaced (R139)? -/
def sinkFree (s : State) (n : Nat) (x : Ctx) (slot : Nat) : Bool :=
  !(s.holds.any fun h => h.2.1 = 512 + n ∧ h.2.2 = slot)
    && !(s.sstate x slot = 2 && s.newestReady x s.nextDisplay = some slot)

/-- Slot that a shared picture takes. -/
def sinkSlot (s : State) (n : Nat) (x : Ctx) : Option Nat :=
  let ks := (List.range (ringSlots x)).filter fun k => s.sinkFree n x k
  match ks.find? fun k => s.sstate x k = 0 with
  | some k => some k
  | none => ks.foldl (fun b k => match b with
      | none => some k
      | some i => if s.slotPts x k < s.slotPts x i then some k else b) none

/-- A shared picture is discarded. -/
def shareDrop (s : State) (n : Nat) : State :=
  (s.incr pStd (shr O.STD_SH_DROP n)).incr pStd O.STD_CNT_SH_DROP

/-- Does a picture that becomes READY now serve a slot already started? -/
def shareLate (s : State) (x : Ctx) (pts : Nat) : Bool :=
  let disp := s.syncTime s.slotIdx + s.displayDelay
  s.lnd.on && decide ((pts : Int) ≤ disp) && (match s.newestReady x disp with
    | some k => decide (s.slotPts x k < pts)
    | none => true)

/-- A shared picture becomes READY in the sink's ring. -/
def sharePut (s : State) (n slot : Nat) (x : Ctx) (p : SharePic) : State :=
  let w (i : Nat) : Nat := (p.entry.getD i 0).toNat
  let late := s.shareLate x (w 2 + w 3 * 2 ^ 32)
  let s := s.putLines x slot p.lines
  let s := (s.setHbm (entAddr x slot) ((List.range 8).map fun i => leBytes 4 (w i)).flatten).setEntW x slot 0
    (putBits (putBits (w 0) 30 2 2) 29 1 0)
  let s := (s.ringWord0 x true true).setShareRing n x
  let s := s.incr pStd (shr O.STD_SH_PICS n)
  if late then (s.incr pStd (shr O.STD_SH_LATE n)).incr pStd O.STD_CNT_SH_LATE else s

/-- A shared picture, or the CLOSE of its share, arrives from the source (R429). -/
def shareIn (s : State) (n src : Nat) (pic : Option SharePic) : State :=
  let c := s.shCfg n
  if !bitOf c 31 ∨ !bitOf c 30 ∨ bitsOf c 16 6 ≠ src ∨ !s.running pStd then s
  else match pic with
    | none => s.emptyShare n
    | some p =>
      let x := s.sinkRing n p
      let s := if (s.shareRing n).isOpen then s else s.ringWord0 x false true
      match s.sinkSlot n x with
      | none => s.shareDrop n
      | some slot => if p.complete then s.sharePut n slot x p else s.shareDrop n

/-- A READY picture of the source context is sent, or CLOSE once the context has closed (R428). -/
def shareOut (s : State) (n : Nat) (slot : Option Nat) : State :=
  let c := s.shCfg n
  let x := s.ctx (bitsOf c 0 9)
  if !bitOf c 31 ∨ bitOf c 30 ∨ !s.running pStd then s
  else match slot with
    | none => if x.isOpen then s else s.emit (.shareClose n)
    | some k =>
      if !x.isOpen ∨ x.typ = 3 ∨ ringSlots x ≤ k ∨ s.sstate x k ≠ 2 then s
      else
        let lines := (List.range x.height).map fun i =>
          s.hbmBytes (picAddr x k + i * x.pitch) (lineBytes (ringFormat x) x.width)
        let head := (List.range 8).map fun i => s.entW x k i
        (s.incr pStd (shr O.STD_SH_PICS n)).emit (.share n (s.rd64 pStd (shr O.STD_SH_DEST_LO n)) (head ++ [x.width, x.height, ringFormat x]) lines)

/-! ## Stand operations without an epoch (R420, R422, R423) -/

/-- DW6 [7:0] of a STAND_OP, and how the checks that every one meets come out (R420): the outcome, if it fails. -/
def standCheck (s : State) (j : Job) (op argLen : Nat) : Option JobOut :=
  let code := bitsOf (j.dw 6) 0 8
  if s.isMember ∨ !s.isLead ∨ !s.running pStd then some { status := stBadState }
  else if code = 0 ∨ 5 < code then some { status := stBadParam }
  else if j.length ≠ argLen then some { status := stBadParam }
  else if op ≠ 2 ∧ s.stand.redisc.isSome then some { status := stBadState, detail := 2 }
  else none

/-- Does the job name this operation, or one that no row carries out? -/
def standIs (j : Job) (op : Nat) : Bool :=
  let code := bitsOf (j.dw 6) 0 8
  code = op || code = 0 || decide (5 < code)

/-- Carry out a STAND_OP whose checks pass. -/
def standJob (s : State) (r : JobRef) (op argLen : Nat) (f : Job → State → State) : State :=
  s.withJob r 0x50 fun j s =>
    if !standIs j op then s
    else match s.standCheck j op argLen with
      | some o => s.finish r o
      | none => f j s

/-- Jobs that are open on a queue of the lead, apart from one. -/
def openJobs (s : State) (r : JobRef) : List JobRef :=
  (List.range 528).flatMap fun q => if h : q < 528 then
      ((s.sqOf q).started.filter fun j => j.out.isNone && !decide (q = r.q.val ∧ isJob r j)).map fun j =>
        ⟨⟨q, h⟩, j.first, j.gen⟩
    else []

/-- A member's side of BARRIER (R422): it replies once every administrative job is closed that was open as the broadcast
arrived. -/
def barrierCast (s : State) (r : JobRef) : State :=
  if !s.isMember ∨ s.stdState ≠ 2 then s
  else
    let l := s.stand.barrierIn.getD ((s.openJobs r).filter fun x => decide (512 ≤ x.q.val))
    if l.any fun x => s.jobOpen x then { s with stand := { s.stand with barrierIn := some l } }
    else { s with stand := { s.stand with barrierIn := none } }.emit (.standReply s.ownEngine 2 0)

/-- BARRIER (R422): broadcast once the jobs started before it are closed, and complete with the replies of the members. -/
def barrier (s : State) (r : JobRef) (replied : Bool) : State :=
  let send (s : State) (jobs : List JobRef) : State :=
    let wait := jobs.any fun x => s.jobOpen x
    let s := { s with stand := { s.stand with
      barriers := ⟨r, jobs, !wait⟩ :: s.stand.barriers.filter fun x => x.ref ≠ r } }
    if wait then s else s.emit (.standRound 1 2 [])
  match s.stand.barriers.find? fun b => b.ref = r with
  | some b =>
    if !b.sent then send s b.jobs
    else if !replied then s
    else { s with stand := { s.stand with barriers := s.stand.barriers.filter fun x => x.ref ≠ r } }.finish r
      { status := stSuccess, result := s.presentN }
  | none => s.standJob r 2 0 fun _ s => send (s.takeJob r) (s.openJobs r)

/-- SNAPSHOT (R423): the time must lie T + 10 µs ahead. -/
def snapshotOp (s : State) (r : JobRef) (ok : Bool) : State :=
  s.standJob r 3 8 fun j s =>
    if !ok then s.finishSt r stHostAccess
    else s.withHost fun s =>
      let t := leNat ((s.jobData j).take 8)
      if (t : Int) - s.tim.time < s.castTime + 10000 then s.finishSt r stLateEpoch
      else (s.takeJob r).emit (.standRound 2 3 [t])

/-- Every engine has written its snapshot. -/
def snapshotDone (s : State) (r : JobRef) (n : Nat) : State :=
  match s.findJob r with
  | some j => if j.op = 0x50 ∧ bitsOf (j.dw 6) 0 8 = 3 ∧ j.taken ∧ j.out.isNone then
      s.finish r { status := stSuccess, result := n } else s
  | none => s

/-- REDISCOVER (R410). -/
def rediscover (s : State) (r : JobRef) : State :=
  s.standJob r 5 0 fun _ s => (({ s with stand := { s.stand with redisc := some r } }.takeJob r).setStdState 1)

end State

/-! ## The commands -/

/-- FLIT_RECEIVED (R409). -/
def execFlitReceived (link : Fin 4) (flit : List Byte) (ack again : Option (BitVec 12)) : State → Out := act .crn fun s =>
  s.flitIn link flit (ack.map (·.toNat)) (again.map (·.toNat))
/-- REPLAY_FAIL (R409). -/
def execReplayFail (link : Fin 4) : State → Out := act .crn fun s =>
  when (s.crnState link = 2) (·.replayFail link) s
/-- DISCOVERY (R410). -/
def execDiscovery (d : Discovered) : State → Out := act .std fun s => s.discovered d
/-- CS_COPY (R413). -/
def execCsCopy (child : Fin 64) (words : List W32) (check : W32) (checkEn : Bool) : State → Out := act .std fun s =>
  s.copyStore child (words.map (·.toNat)) check.toNat checkEn
/-- TIME_EXCHANGE (R416); stamps in 2⁻⁸ ns. -/
def execTimeExchange (link : Fin 4) (t1 t2 t3 t4 : W64) : State → Out := act .crn fun s =>
  s.measure link t1.toNat t2.toNat t3.toNat t4.toNat
/-- TIME_CORRECTION (R416). -/
def execTimeCorrection (link : Fin 4) (parent : W64) (parentFrac : BitVec 16) (own : W64) : State → Out := act .tim fun s =>
  s.correct link parent.toNat parentFrac.toNat own.toNat
/-- BEACON (R425). -/
def execBeaconSend : State → Out := act .std (·.beacon)
/-- BEACON_RX (R425). -/
def execBeaconRx (frame : BitVec 48) (opSeq epoch : W32) (exceeded : Bool) : State → Out := act .std fun s =>
  s.beaconIn frame.toNat opSeq.toNat epoch.toNat exceeded
/-- PARENT_LINK_DOWN (R426): the standby path taken, if there is one; on the lead the engines it can no longer reach. -/
def execParentLinkDown (link : Fin 4) (path : Option (Fin 4)) (lost : W64) : State → Out := act .std fun s =>
  s.treeDown link (path.map (·.val)) lost.toNat
/-- BEACON_MISS (R426). -/
def execBeaconMiss : State → Out := act .std (·.beaconMissed)
/-- ISO_HOLD_EXPIRY (R426). -/
def execIsoHoldExpiry : State → Out := act .std fun s => when (s.stdState = 3) (·.startGlob .isolated) s
/-- REJOIN (R426). -/
def execStandRejoin (engine : Fin 64) (link : Fin 4) : State → Out := act .std fun s => s.rejoin engine link
/-- FATAL_BROADCAST (R427). -/
def execFatalBroadcast (engine : Fin 64) : State → Out := act .std fun s => s.fatalIn engine
/-- SHARE_SEND (R428). -/
def execShareSend (n : Fin 256) (slot : Option (Fin 64)) : State → Out := act .std fun s => s.shareOut n (slot.map (·.val))
/-- SHARE_RECEIVE (R429). -/
def execShareReceive (n : Fin 256) (src : Fin 64) (pic : Option SharePic) : State → Out := act .std fun s => s.shareIn n src pic
/-- STAND_OP_BARRIER (R422): its broadcast on a member, or the lead's job. -/
def execStandOpBarrier (j : JobRef) (replied : BarrierSide) : State → Out := act .wqm fun s =>
  if replied.cast then s.barrierCast j else s.barrier j replied.replied
/-- STAND_OP_SNAPSHOT (R423), and its end with the engines captured. -/
def execStandOpSnapshot (j : JobRef) (ok : Bool) (captured : Option (Fin 65)) : State → Out := act .wqm fun s =>
  match captured with
  | some n => s.snapshotDone j n
  | none => s.snapshotOp j ok
/-- REDISCOVER (R410). -/
def execRediscover (j : JobRef) : State → Out := act .wqm fun s => s.rediscover j

end Sys2Proof.Machine
end

