-- ==== Sys2Proof/Machine/Modes.lean ====
section
/-! DEFINITION. The mode: validation, arming, its application at the epoch and the ports that are late for it (R192-R198);
TABLE_LOAD and the exchange of tables at an epoch (R68, R226, R13); and the stand operations that wait for an epoch
(R420, R421, R424). -/
namespace Sys2Proof.Machine
namespace State

/-! ## Validation (Table 8.1) -/

/-- The MN_ registers as a mode. -/
def nextMode (s : State) : ModeNext :=
  { cfg := s.rd pLnd O.LND_MN_CFG, num := s.rd pLnd O.LND_MN_FRATE_NUM, den := s.rd pLnd O.LND_MN_FRATE_DEN
    colour := s.rd pLnd O.LND_MN_COLOUR, epoch := s.rd pLnd O.LND_MN_EPOCH, stand := false }

/-- Slots per wall frame of a mode. -/
def modeSlots (m : ModeNext) : Nat := bitsOf m.cfg 0 4 + bitsOf m.cfg 28 1

/-- RANGE: a field outside its range. -/
def modeRange (m : ModeNext) : Bool :=
  bitsOf m.cfg 0 4 = 0 || decide (8 < bitsOf m.cfg 0 4) || decide (bitsOf m.cfg 24 4 < 2) || decide (4 < bitsOf m.cfg 24 4)
    || m.den = 0 || decide (65535 < m.den) || decide (m.num * 1001 < 24000 * m.den) || decide (240 * m.den < m.num)
    || bitsOf m.colour 0 12 = 0 || bitsOf m.colour 16 12 = 0

/-- SLOT_RATE: more than 1,920 slots a second. -/
def modeFast (m : ModeNext) : Bool := decide (1920 * m.den < modeSlots m * m.num)

/-- Copy of an LMP table that will be in force at an epoch: a pending load of an epoch that comes no later exchanges it. -/
def copyAt (s : State) (t e : Nat) : Nat :=
  let a := s.activeCopy pLmp t
  if s.lnd.loads.any fun l => l.page = pLmp ∧ l.table = t ∧ !l.late ∧ s.jobOpen l.ref
      ∧ 0 ≤ signed 32 (e + 2 ^ 32 - l.epoch % 2 ^ 32) then 1 - a else a

/-- Does a mode keep R11, R12 and R266 with the tables of its epoch? -/
def modeFits (s : State) (m : ModeNext) : Bool :=
  s.ratesFit (s.tilesIn (s.copyAt 0 m.epoch) (s.copyAt 1 m.epoch)) ⟨modeSlots m, m.num, m.den⟩

/-- Reasons that every validation has: RANGE, SLOT_RATE, PIXEL_RATE. -/
def modeReason (s : State) (m : ModeNext) : Option Nat :=
  if modeRange m then some 1 else if modeFast m then some 2 else if !s.modeFits m then some 3 else none

/-- Reason for which a local arm is refused, in the order of Table 8.1. -/
def armReason (s : State) (m : ModeNext) : Option Nat :=
  match s.modeReason m with
  | some r => some r
  | none => if !s.leadOk m.epoch 2 then some 4 else if s.lnd.armed.isSome then some 5
      else if 1 < s.engines then some 6 else none

/-! ## Arming (R193-R195) -/

/-- A mode is armed: every port announces it from its next SYNC. -/
def armMode (s : State) (m : ModeNext) : State :=
  let id := s.lnd.modeId
  { s.wr pLnd O.LND_MODE_STAT (2 * 2 ^ 28) with
    lnd := { s.lnd with armed := some m, acks := s.lnd.acks.filter fun k => k / 4096 = id } }

/-- MODE_CTL.ARM. -/
def modeArm (s : State) : State :=
  let s := s.wr64 pLnd O.LND_MODE_LATE_LO 0
  match s.armReason s.nextMode with
  | some r => (s.wr pLnd O.LND_MODE_STAT (4 * 2 ^ 28 + r)).setCause pLnd 0x80
  | none => s.armMode s.nextMode

/-- MODE_CTL.CANCEL: ignored within the lead, and for a committed mode of the stand. -/
def modeCancel (s : State) : State :=
  match s.lnd.armed with
  | some m => if !m.stand ∧ s.leadOk m.epoch 2 then
      { s.wr pLnd O.LND_MODE_STAT (5 * 2 ^ 28) with lnd := { s.lnd with armed := none } } else s
  | none => s

/-! ## Application (R195-R198) -/

/-- R267, and the choice of ports of R13, as each slot starts: a change of L, of a port's rate or of the ports that are BLACK
for another reason acts from the first slot after it (Table 18.8). -/
def rateCheck (s : State) : State :=
  let s := (List.range 64).foldl (fun s p => s.portRateCheck p) s
  let bare := { s with black := { s.black with port := s.black.port.filter fun e => e.2 ≠ Cond.rate } }
  let dark := bare.ratePorts
  (List.range 64).foldl (fun s p => if dark.contains p then s.startPort p .rate else s.endPort p .rate) s

/-- A mode comes into force: registers, identifier, and what is computed from them. -/
def loadMode (s : State) (m : ModeNext) : State :=
  let s := (s.wr pLnd O.LND_MODE_CUR m.cfg).wr pLnd O.LND_COLOUR_CUR m.colour
  let s := (s.wr pLnd O.LND_FRATE_NUM_CUR m.num).wr pLnd O.LND_FRATE_DEN_CUR m.den
  let s := { s with
    lnd := { s.lnd with modeId := s.nextModeId }, tim := { s.tim with num := m.num, den := m.den } }
  let s := (List.range 8).foldl (fun s k => s.setCost k) s
  s.cruiseMode

/-- Does a mode alter F? -/
def rateChanges (s : State) (m : ModeNext) : Bool := m.num * s.frateDen ≠ s.frateNum * m.den

/-- F has changed: the pulse history empties, P_est is the new nominal period (R449), and the taps count anew (R165). -/
def newRate (s : State) : State :=
  let s := { s with tim := { s.tim with
    hist := [], run := 0, refFrame := s.tim.wframe, moveFx := 0, slewDue := none
    pEstFx := if s.tim.onGrid then s.tim.pEstFx else s.nominalFx.toNat } }
  (s.ctxs.map (·.1)).foldl (fun s c => if (s.ctx c).typ = 3 ∧ (s.ctx c).ecfg.tap then
    s.modCtx c fun x => { x with enc := { x.enc with tapN := 0, tapW0 := s.tim.wframe } } else s) s

/-- The stop, change and restart of a mode is over: the pages show RUNNING again, and the mode is APPLIED (R196). -/
def modeSettled (s : State) : State :=
  match s.lnd.passing with
  | none => s
  | some _ => { (s.wr pLnd O.LND_MODE_STAT (3 * 2 ^ 28)).setCause pLnd 0x40 with lnd := { s.lnd with passing := none } }

/-- The pages that restart for a mode go on to their next state: STOPPING, STOPPED, STARTING, RUNNING. -/
def modePasses (s : State) (ready : Bool) : State :=
  match s.lnd.passing, ready with
  | some 3, false => { s with lnd := { s.lnd with passing := some 0 } }
  | some 0, false => { s with lnd := { s.lnd with passing := some 1 } }
  | some 1, true => s.modeSettled
  | _, _ => s

/-- The armed mode's epoch is reached (R196). One that breaks R11 or R12 by then is refused (R13), but not a mode of the stand,
which every engine has committed to. -/
def modeApply (s : State) : State :=
  match s.lnd.armed with
  | none => s
  | some m =>
    if m.epoch ≠ s.tim.wframe % 2 ^ 32 then s
    else
      let chg := s.rateChanges m
      let s := { s with lnd := { s.lnd with armed := none } }
      if !m.stand ∧ !s.modeFits m then (s.wr pLnd O.LND_MODE_STAT (4 * 2 ^ 28 + 3)).setCause pLnd 0x80
      else
      let s := { s with lnd := { s.lnd with ann := some m } }.loadMode m
      let s := if chg then s.newRate else s
      { s with lnd := { s.lnd with passing := some 3 } }

/-- Has a port applied the mode in force (R195)? -/
def portApplied (s : State) (p : Nat) : Bool :=
  s.running (pJlk + p) && (s.portTiles p).all fun e => !s.confirmed e.t || s.lnd.acks.contains (s.lnd.modeId * 4096 + e.t)

/-- A set of ports as bits. -/
def portBits (l : List Nat) : Nat := l.foldl (fun m p => m ||| 2 ^ p) 0

/-- At slot 0 of a wall frame the ports that have not applied the mode are judged (R196, R25). -/
def judgeMode (s : State) : State :=
  let fresh := s.lnd.ann.any fun m => m.epoch = s.tim.wframe % 2 ^ 32
  let ports := if fresh then List.range 64
    else setBitsOf (s.rd64 pLnd O.LND_MODE_BLACK_LO) 64
  let late := ports.filter fun p => !s.portApplied p
  let s := if fresh then s.wr64 pLnd O.LND_MODE_LATE_LO (portBits late) else s
  let s := if fresh && !late.isEmpty then s.setCause pLnd 0x20 else s
  let s := s.wr64 pLnd O.LND_MODE_BLACK_LO (portBits late)
  (List.range 64).foldl (fun s p => if late.contains p then s.startPort p .mode else s.endPort p .mode) s

/-- LND becomes ready: the MN_ registers are the mode in force (R192). A mode out of range, or of more than 1,920 slots a
second, does not become so: R192 names no check of a start (DESIGN CHOICE: log 120). -/
def landReady (s : State) : Bool := !modeRange s.nextMode && !modeFast s.nextMode

/-- LND enters RUNNING with the MN_ registers as its mode, one that breaks R11 or R12 among them: the rules give no outcome for
that start, and ports go BLACK under R13 and R267 (DESIGN CHOICE: log 120). Slots start at the next boundary the timing source gives: of
the new rate if F changes, which off the grid of R446 is the one already due (R192, R198). No scene is in force (R202). -/
def landStart (s : State) : State :=
  let m := s.nextMode
  let chg := s.rateChanges m
  let due := s.nextBoundary
  let s := s.loadMode m
  let s := if chg then
      let t := s.newRate
      { t with tim := { t.tim with stepTo := some (if t.tim.onGrid then t.gridAfter t.nowFx else due) } }
    else s
  let s := s.wr64 pLnd O.LND_MODE_BLACK_LO 0
  let s := (List.range 64).foldl (fun s p => s.endPort p .mode) s
  let s := (List.range 8).foldl (fun s k => s.setScene k none) s
  { s with lnd := { s.lnd with ann := none, on := false, slot := none, next := 0, dark := [] } }

/-- Start of the wall frame of an armed mode that alters F, while the grid is that of R446: the first boundary of the new
rate at or after the end of the frame in progress (R198). -/
def gapTo (s : State) : Option Int :=
  match s.lnd.armed with
  | some m =>
    if m.epoch = (s.tim.wframe + 1) % 2 ^ 32 ∧ s.rateChanges m ∧ s.tim.onGrid ∧ Cond.realign ∉ s.black.glob then
      let b := s.nextBoundary
      let t := s.gridFirst (max 1 m.num) (max 1 m.den) (-((-b) / fxNs)) * fxNs
      if b < t then some t else none
    else none
  | none => none

/-- The end of a wall frame: the next starts, or a gap of BLACK cells comes before it (R198). -/
def boundary (s : State) : State :=
  match s.gapTo with
  | some t =>
    let s := s.reachTime (rdiv s.nextBoundary fxNs)
    { s with tim := { s.tim with stepTo := some t, hole := true } }.startGlob .realign
  | none =>
    let s := s.frameBoundary.endGlob .realign
    let s := s.wr64 pLnd O.LND_WFRAME_LO s.tim.wframe
    { s with lnd := { s.lnd with applied := false, next := 0, on := s.running pLnd, slot := none } }

/-! ## Table writes (R46-R48) -/

/-- A word of a table is written, by the window or by a TABLE_LOAD: an uncorrectable error of its entry ends. -/
def putTable (s : State) (p t i v : Nat) : State :=
  if p = pLmp ∧ 0x20 ≤ t then s.hostLamp ((t - 0x20) * 2 ^ 24 + i) (v % 2 ^ 24)
  else if p = pEic ∧ i % 2 = 1 then s
  else
    let s := s.setTabAt p t (s.writeCopy p t) i v
    let m := { s.mem with poor := s.mem.poor.filter (· ≠ tabKey p t (s.writeCopy p t) i) }
    if p = pLmp ∧ t = 0 then { s with mem := { m with badTiles := m.badTiles.filter (· ≠ i / 4) } }
    else if p = pLmp then { s with mem := { m with badTypes := m.badTypes.filter (· ≠ i / 16) } }
    else if p = pDbk ∧ t < 2 then { s with mem := { m with badRules := m.badRules.filter (· ≠ (t, i / 16)) } }
    else
      let s := { s with mem := m }
      if p = pYcs then s.setFld pYcs O.YCS_CS_SRC 0 2 2 else s

/-- Is an epoch load of a table pending (R68)? -/
def loadPending (s : State) (p t : Nat) : Bool :=
  s.lnd.loads.any fun l => l.page = p && l.table = t && s.jobOpen l.ref

/-! ## TABLE_LOAD (R68) -/

/-- Page, table and first word that a TABLE_LOAD names, and whether it names an epoch. -/
def loadPage (j : Job) : Nat := bitsOf (j.dw 6) 16 9
def loadTab (j : Job) : Nat := bitsOf (j.dw 6) 0 8
def loadEpochEn (j : Job) : Bool := bitOf (j.dw 9) 0

/-- Status with which a TABLE_LOAD fails its checks. -/
def loadCheck (s : State) (j : Job) : Option Nat :=
  let p := loadPage j
  let t := loadTab j
  match tabInfo p t with
  | none => some stBadTable
  | some (size, c) =>
    if c = .ro then some stBadTable
    else if j.length % 4 ≠ 0 ∨ size < j.dw 7 + j.length / 4 then some stBadParam
    else if c = .rl ∧ (!s.stopped p ∨ (p = pYcs ∧ s.bit pYcs O.YCS_CS_CTL 0)) then some stBadState
    else if c = .rl ∧ loadEpochEn j then some stBadParam
    else if s.loadPending p t then some stTableBusy
    else if loadEpochEn j ∧ !s.leadOk (j.dw 8) 1 then some stLateEpoch
    else none

/-- Write words `a` to `a + n` of a load's data. -/
def loadWrite (s : State) (j : Job) (a n : Nat) : State :=
  let d := s.jobData j
  (List.range n).foldl (fun s i => s.putTable (loadPage j) (loadTab j) (j.dw 7 + a + i) (leWord d (4 * (a + i)))) s

/-- Does the job hold a data channel, now that it may take one (R73, R356)? -/
def withChannel (s : State) (r : JobRef) : State :=
  if (s.jobChannel r).isSome then s else s.takeChannel r

/-- The job moves up to `n` words of a load that names no epoch. -/
def loadPlain (s : State) (r : JobRef) (j : Job) (n : Nat) : State :=
  let words := j.length / 4
  let p := loadPage j
  if (tabInfo p (loadTab j)).any (fun x => x.2 = .rl) ∧ !s.stopped p then
    s.finish r { status := stBadState, result := j.moved, detail := 1 }
  else if words ≠ j.moved ∧ !s.hostReady then s
  else
    let k := min n (words - j.moved)
    let s := ((s.wakeLink.loadWrite j j.moved k).jobBytes r (4 * k)).setJob r fun j => { j with moved := j.moved + k }
    if j.moved + k = words then s.finish r { status := stSuccess, result := words } else s

/-- Words that a pending epoch load has written: its RESULT (Table 3.14). -/
def loadWritten (s : State) (r : JobRef) : Nat := ((s.lnd.loads.find? fun l => l.ref = r).map (·.written)).getD 0

/-- Drop a load from those pending. -/
def dropLoad (s : State) (r : JobRef) : State :=
  { s with lnd := { s.lnd with loads := s.lnd.loads.filter fun l => l.ref ≠ r } }

/-- The job moves up to `n` words of an epoch load: into the standby copy, or from the epoch into a Live table. -/
def loadEpoch (s : State) (r : JobRef) (j : Job) (l : TabLoad) (n : Nat) : State :=
  let live := !isStandby l.page l.table
  if live ∧ !l.late ∨ (l.written ≠ l.words ∧ !s.hostReady) then s
  else
    let s := s.wakeLink.withChannel r
    if (s.jobChannel r).isNone then s
    else
      let k := min n (l.words - l.written)
      let w := l.written + k
      let s := (s.loadWrite j l.written k).jobBytes r (4 * k)
      let s := { s with lnd := { s.lnd with
        loads := s.lnd.loads.map fun x => if x.ref = r then { x with written := w } else x } }
      if w = l.words ∧ l.late then
        (s.dropLoad r).finish r { status := if live then stSuccess else stLateEpoch, result := w }
      else s

/-- TABLE_LOAD: its checks as it starts, then its data, `n` words at a time. -/
def tableLoad (s : State) (r : JobRef) (n : Nat) : State :=
  match s.findJob r with
  | none => s
  | some j =>
    if j.op ≠ 0x40 ∨ j.out.isSome ∨ !s.skdMoves ∨ (sramTable (loadPage j) ∧ !s.sramReady) then s
    else if j.taken then
      if !loadEpochEn j then s.loadPlain r j n
      else match s.lnd.loads.find? fun l => l.ref = r with
        | some l => s.loadEpoch r j l n
        | none => s
    else match s.loadCheck j with
      | some st => s.finishSt r st
      | none =>
        if !loadEpochEn j then (s.takeJob r).loadPlain r j n
        else
          let l : TabLoad := { page := loadPage j, table := loadTab j, first := j.dw 7, words := j.length / 4
                               epoch := j.dw 8, ref := r, written := 0 }
          ({ s with lnd := { s.lnd with loads := s.lnd.loads ++ [l] } }.takeJob r (some (j.dw 8))).loadEpoch r j l n

/-! ## Tables at their epoch (R22 step 3, R68, R226, R13) -/

/-- Does an armed mode fit with the tables as an exchange of `m` would leave them (R194)? -/
def armedFits (s : State) (m : Nat) : Bool :=
  let t := { s with lmpActive := s.lmpActive ^^^ m }
  match t.lnd.armed with
  | some a => t.modeFits a
  | none => true

/-- Outcome of an exchange of the tables in `m`: nothing, or the status and detail it fails with. -/
def swapFault (s : State) (m : Nat) : Option (Nat × Nat) :=
  let k (t : Nat) : Nat := if bitOf m t then 1 - s.activeCopy pLmp t else s.activeCopy pLmp t
  match s.tableFault (k 0) (k 1) with
  | some (code, t) => some (stBadParam, code * 256 + t % 256)
  | none =>
    if !s.ratesFit (s.tilesIn (k 0) (k 1)) s.slotRate ∨ !s.armedFits m then some (stPixelRate, 0) else none

/-- Exchange the tables of the complete loads `due`, or fail them all. -/
def swapDue (s : State) (due : List TabLoad) : State :=
  if due.isEmpty then s
  else
    let m := due.foldl (fun m l => m ||| 2 ^ l.table) 0
    let s := due.foldl (fun s l => s.dropLoad l.ref) s
    match s.swapFault m with
    | some (st, det) => due.foldl (fun s l => s.finish l.ref { status := st, detail := det, result := l.words }) s
    | none =>
      let s := s.swapTables m
      let s := (List.range 8).foldl (fun s k => s.setCost k) s
      due.foldl (fun s l => s.finish l.ref { status := stSuccess, result := l.words }) s

/-- The table loads of this wall frame's epoch. -/
def tableSwaps (s : State) : State :=
  let e := s.tim.wframe % 2 ^ 32
  let live := s.lnd.loads.filter fun l => s.jobOpen l.ref
  let due := live.filter fun l => l.epoch = e && !l.late
  let done := due.filter fun l => isStandby l.page l.table && l.written = l.words
  let open_ (l : TabLoad) : Bool := l.epoch = e && !l.late && !(isStandby l.page l.table && l.written = l.words)
  let s := { s with lnd := { s.lnd with loads := live.map fun l => if open_ l then { l with late := true } else l } }
  let s := due.foldl (fun s l => s.setJob l.ref fun j => { j with epoch := none }) s
  s.swapDue done

/-! ## Stand operations with an epoch (R420, R421, R424) -/

/-- A mode as a stand operation carries it. -/
def standModeOf (cfg num den colour epoch : Nat) : ModeNext :=
  { cfg := cfg &&& 0x1F10000F, num := num, den := den, colour := colour &&& 0x8FFF0FFF, epoch := epoch, stand := true }

/-- An operation is committed and waits for its epoch. -/
def standPend (s : State) (reset : Bool) (epoch : Nat) (ref : Option JobRef) (missed : Nat) : State :=
  { s with stand := { s.stand with pend := some ⟨reset, epoch, ref, missed⟩ } }

/-- The lead commits an operation: it counts it and broadcasts it. -/
def standCommit (s : State) (r : JobRef) (reset : Bool) (epoch missed : Nat) (args : List Nat) : State :=
  let s := (s.standPend reset epoch (some r) missed).takeJob r (some epoch)
  let s := { s with stand := { s.stand with committed := s.stand.committed + 1, lastEpoch := epoch } }
  s.emit (.standRound 2 (if reset then 4 else 1) args)

/-- What an operation with an epoch fails with before its rounds: another pending, or its epoch too near. -/
def epochCheck (s : State) (epoch : Nat) : Option JobOut :=
  if s.stand.pend.isSome then some { status := stBadState, detail := 1 }
  else if !s.leadOk epoch 4 then some { status := stLateEpoch } else none

/-- STAND_OP MODE on the lead: its own validation, the refusal of the lowest engine, and the commit. -/
def standMode (s : State) (r : JobRef) (ok : Bool) (refused : Option (Nat × Nat)) (missed : Nat) : State :=
  s.standJob r 1 16 fun j s =>
    match s.epochCheck (j.dw 7) with
    | some o => s.finish r o
    | none =>
      if !ok then s.finishSt r stHostAccess
      else if !s.hostReady then s
      else
        let s := s.wakeLink
        let d := s.jobData j
        let w (i : Nat) : Nat := leWord d (4 * i)
        let m := standModeOf (w 0) (w 1) (w 2) (w 3) (j.dw 7)
        let s := s.emit (.standRound 1 1 [w 0, w 1, w 2, w 3, j.dw 7])
        match (match s.modeReason m with | some x => some (0, x) | none => refused) with
        | some (e, x) =>
          (s.emit (.standRound 3 1 [])).finishDet r (if x = 3 then stPixelRate else stBadParam) (x % 256 * 256 + e)
        | none => ((s.wr64 pLnd O.LND_MODE_LATE_LO 0).armMode m).standCommit r false (j.dw 7) missed [j.dw 7]

/-- A member validates the mode of a prepare round and replies, or holds the commit of one (R421). -/
def memberMode (s : State) (m : StandMode) : State :=
  let n := standModeOf m.cfg.toNat m.num.toNat m.den.toNat m.colour.toNat m.epoch.toNat
  if !s.isMember ∨ s.stdState ≠ 2 then s
  else if m.prepare then s.emit (.standReply s.ownEngine 1 ((s.modeReason n).getD 0))
  else if (s.modeReason n).isSome then s
  else ((s.wr64 pLnd O.LND_MODE_LATE_LO 0).armMode n).standPend false n.epoch none 0

/-- STAND_RESET on the lead. -/
def standResetOp (s : State) (r : JobRef) (missed : Nat) : State :=
  s.standJob r 4 0 fun j s =>
    match s.epochCheck (j.dw 7) with
    | some o => s.finish r o
    | none => (s.emit (.standRound 1 4 [j.dw 7])).standCommit r true (j.dw 7) missed [j.dw 7]

/-- A member holds the commit of a STAND_RESET. -/
def memberReset (s : State) (epoch : Nat) : State :=
  if !s.isMember ∨ s.stdState ≠ 2 then s else s.standPend true epoch none 0

/-- The pending operation has been applied at its epoch. -/
def standApplied (s : State) : State :=
  match s.stand.pend with
  | none => s
  | some o =>
    let s := { s with stand := { s.stand with pend := none } }.incr pStd O.STD_OP_SEQ
    match o.ref with
    | some r => s.finish r { status := stSuccess, result := o.missed }
    | none => s

end State

/-! ## The commands -/

/-- TABLE_LOAD (R68): its checks and acceptance, and `n` words of its data. -/
def execTableLoad (j : JobRef) (n : Nat) : State → Out := act .wqm fun s => s.tableLoad j n
/-- MODE_ARM (R193), a PW write of MODE_CTL applied as it arrives. -/
def execModeArm : State → Out := act .lnd fun s => s.pwWrite pLnd (·.modeArm)
/-- MODE_CANCEL (R194). -/
def execModeCancel : State → Out := act .lnd fun s => s.pwWrite pLnd (·.modeCancel)
/-- STAND_OP_MODE (R421): the job on the lead, with the refusal of the lowest other engine and the engines that missed the
commit; or the commit as a member holds it. -/
def execStandOpMode (j : JobRef) (ok : Bool) (refused : Option (Fin 64 × BitVec 8)) (missed : Fin 64)
    (commit : Option StandMode) : State → Out := act .wqm fun s =>
  match commit with
  | some m => s.memberMode m
  | none => s.standMode j ok (refused.map fun e => (e.1.val, e.2.toNat)) missed
/-- STAND_RESET (R424): the job on the lead, or the epoch of the commit as a member holds it. -/
def execStandReset (j : JobRef) (missed : Fin 64) (commit : Option W32) : State → Out := act .wqm fun s =>
  match commit with
  | some e => s.memberReset e.toNat
  | none => s.standResetOp j missed

end Sys2Proof.Machine
end

