-- ==== Sys2Proof/Machine/Pages.lean ====
section
/-! DEFINITION. Page states: starting, stopping, the limits, and the soft reset of a page (R31-R34), with what each
block's chapter makes of them; and retirement by request (R465). -/
namespace Sys2Proof.Machine
namespace State

/-! ## Jobs that wait for an epoch (R61, R77) -/

/-- Minimum lead of Table 1.5 of a waiting job's operation, in wall frames. -/
def minLead (op : Nat) : Nat := if op = 0x50 then 4 else 1

/-- What a job waits with is withdrawn before it takes effect: its table load, its scene, or its stand operation with
the mode that this armed (R68, R77, Table 3.16). -/
def withdrawHeld (s : State) (r : JobRef) : State :=
  let s := s.dropLoad r
  let drop (f : Feed) : Feed := { f with pend := f.pend.filter fun e => e.2 ≠ r, wait := f.wait.filter (· ≠ r) }
  let s := { s with lnd := { s.lnd with feeds := smap (fun _ => {}) drop s.lnd.feeds } }
  let s := (List.range 8).foldl sceneFlags s
  if s.stand.pend.any fun o => o.ref = some r then
    let op := if s.stand.pend.any (·.reset) then 4 else 1
    let s := { s with stand := { s.stand with pend := none, committed := s.stand.committed - 1 } }
    let s := s.emit (.standRound 3 op [])
    if s.lnd.armed.any (·.stand) then
      { s.wr pLnd O.LND_MODE_STAT (5 * 2 ^ 28) with lnd := { s.lnd with armed := none } } else s
  else s

/-- A job that waits for an epoch beyond its minimum lead completes with CANCELLED; the words a load has written stay
(R68). An epoch exactly the minimum lead away counts as beyond it (DESIGN CHOICE: log 117); a stand operation withdrawn
after its commit is aborted at the members too (DEDUCED: log 118). -/
def withdrawJob (s : State) (r : JobRef) (j : Job) : State :=
  match j.epoch with
  | some e => if j.out.isNone ∧ s.leadOk e (minLead j.op) then
      let w := s.loadWritten r
      (s.withdrawHeld r).finish r { status := stCancelled, result := w } else s
  | none => s

/-- Every such job of a queue is withdrawn. -/
def withdrawQueue (s : State) (q : Nat) : State :=
  if h : q < 528 then
    ((s.sqOf q).started ++ (s.sqOf q).ghosts).foldl (fun s j => s.withdrawJob ⟨⟨q, h⟩, j.first, j.gen⟩ j) s
  else s

/-- WQM stops: the waiting jobs of every queue are withdrawn. -/
def withdrawAll (s : State) : State := (List.range 528).foldl withdrawQueue s

/-- What a WQM soft reset makes of one queue (Table 3.10). -/
def wqmResetQueue (s : State) (q : Nat) : State :=
  let v := s.sqOf q
  let s := (s.setSq q { gen := v.gen + 1, shut := v.shut.map (fun _ => 0), ghosts := v.ghosts ++ v.started.filter fun j => j.out.isNone }).withdrawQueue q
  if s.bit pWqm (sqr O.WQM_QCFG q) 31 then
    let s := s.wr pWqm (sqr O.WQM_QERR q) (2 ^ 31 + 0x0B * 2 ^ 16 + s.qHead q)
    (s.setQState q 3).setQerrMap q true
  else s.setQState q 0

/-- What a WQM soft reset does to the queues. -/
def wqmReset (s : State) : State := { (List.range 528).foldl wqmResetQueue s with arb := 0 }

/-! ## Blocks and their pages -/

/-- Kind and number of a codec core's page. -/
def coreOfPage (p : Nat) : Option (Nat × Nat) :=
  match blkOf p with
  | some .dec => some (0, p - pDec)
  | some .xsd => some (1, p - pXsd)
  | some .enc => some (3, p - pEnc)
  | _ => none

/-- Do LND and LMP run, so that the BLACK of a reset ends (Table 18.3)? -/
def wallRuns (s : State) : State := if s.running pLnd && s.running pLmp then s.endGlob .reset else s

/-- What leaving RUNNING means to a block (R192, R250, R289, R87, R431). -/
def leaveRunning (s : State) (b : Blk) (p : Nat) : State :=
  match b with
  | .lnd => s.modeSettled.landingStops.startGlob .lnd
  | .lmp => s.startGlob .lmp
  | .jlk => s.portDown (p - pJlk)
  | .net => s.wr p O.NET_LINK_FLAGS 0
  | .crn =>
    let parent := s.crnParent (p - pCrn)
    let s := s.crnDown (p - pCrn)
    if parent then s.isolate else s
  | _ => s

/-- What entering RUNNING means to a block (R128, R192, R250, R289, R396). -/
def enterRunning (s : State) (b : Blk) (p : Nat) : State :=
  match b with
  | .lnd => (s.landStart.endGlob .lnd).wallRuns.cruiseMode
  | .lmp => (s.endGlob .lmp).wallRuns
  | .jlk => s.portUp (p - pJlk)
  | .flm => s.flmRuns
  | .hbm => if p = pHbm then s.takeMasks else s
  | _ => s

/-- The 262,144 bytes of the control store. -/
def storeBytes (s : State) : List Byte := (List.range 65536).flatMap fun i => leBytes 4 (s.tab pYcs 0 i)

/-- A fault that a block finds while it starts: code and ERR_INFO (R87, R239, R350, R396). -/
def startFault (s : State) (b : Blk) (p : Nat) : Option (Nat × Nat) :=
  match b with
  | .net => if s.fld p O.NET_PORT_CFG 0 2 = 3 then some (0x0100, 0) else none
  | .hbm => if p = pHbm then (mapFault s.mapMasks).map fun f => (0x0102, f) else none
  | .tly => s.curveBad.map fun k => (0x0101, k)
  | .ycs => if s.bit p O.YCS_CS_CTL 1 ∧ s.rd p O.YCS_CS_CRC ≠ s.rd p O.YCS_CS_CHECK then some (0x0100, 0) else none
  | _ => none

/-- What a block does before it is ready (R347, R350, R236); a NET port takes its mode (R184). -/
def prepare (s : State) (b : Blk) (p : Nat) : State :=
  match b with
  | .net => s.egressCheck
  | .ycs => if s.bit p O.YCS_CS_CTL 1 then s.wr p O.YCS_CS_CRC (crcIeee s.storeBytes) else s
  | .tly => if s.curveBad.isNone then s.tallyInit else s
  | .ysq =>
    let s := (s.wr p O.YSQ_UPC (s.fld p O.YSQ_START_VEC 0 14)).wr p O.YSQ_SEQ_FLAGS 0
    let s := (s.wr p O.YSQ_PSTK0 0).wr p O.YSQ_PSTK1 0
    let s := { s with cleared := s.cleared.filter fun q => q / 8 ≠ p - pYsq }
    (List.range 4).foldl (fun s i => s.wr p (O.YSQ_USTK + 4 * i) 0) s
  | _ => s

/-- Is a starting block ready, as far as the model can tell (R192, R347, R352, R394, R413, R432)? What remains is the
block's own time. -/
def blockReady (s : State) (b : Blk) (p : Nat) : Bool :=
  match b with
  | .lnd => s.landReady
  | .hbm => s.bit p O.HBM_MEM_STAT 0
  | .yrd => s.bit p O.YRD_MEM_STAT 0
  | .ysq => s.running pYcs
  | .ycs => s.flt.bootMode ≠ 2 || s.stand.csDone || s.fld p O.YCS_CS_SRC 0 2 = 2
  | .std => if s.isMember then s.bit p O.STD_FLAGS 0 else s.stdState = 2
  | _ => true

/-- Is a stopping block quiescent (R156, R236, R352, R370, R432)? A sequencer is only once it executes HALT (R347). -/
def blockQuiet (s : State) (b : Blk) (p : Nat) : Bool :=
  match b with
  | .ysq => false
  | .ycs => (List.range 8).all fun k => s.pstate (pYsq + k) = 0 || s.pstate (pYsq + k) = 4
  | .tly => s.tly.fold.isNone
  | .flm => (List.range 512).all fun c => s.owed c = 0
  | .skd => s.skQuiet
  | .std => s.stand.pend.isNone && s.stand.redisc.isNone && s.stand.barriers.isEmpty
  | _ => match coreOfPage p with
    | some (typ, k) => (s.onCore typ k).isEmpty
    | none => true

/-! ## RUN (Table 2.7) -/

/-- Is RUN only recorded on a page: FAULT, RETIRED, or a SPARE core (R33, R156)? -/
def runIdle (s : State) (p : Nat) : Bool :=
  s.pstate p = 4 || s.pstate p = 5 || (coreOfPage p).any fun t => s.role t.1 t.2 = 1

/-- STARTING is entered; a lead candidate discovers afresh (R410). -/
def startPage (s : State) (p : Nat) : State :=
  let s := s.setPstate p 1
  if p = pStd ∧ !s.isMember then s.setStdState 1 else s

/-- RUN = 0 reaches a sequencer: STOPREQ is set, and its programs are halted (R347, R329). -/
def ysqStop (s : State) (k : Nat) : State :=
  ((s.setBit (pYsq + k) O.YSQ_SEQ_FLAGS 9 true).haltAll k).setPstate (pYsq + k) 3

/-- RUN applied to a sequencer's page. -/
def ysqRun (s : State) (k : Nat) (run : Bool) : State :=
  let p := pYsq + k
  let s := s.setBit p O.PAGE_CTL 0 run
  if s.pstate p = 0 ∧ run then s.startPage p else if s.pstate p = 2 ∧ !run then s.ysqStop k else s

/-- Cruise waits or runs as the Landing's page lets it (R248). -/
def cruiseFollows (s : State) (b : Blk) : State := if b = .lnd then s.cruiseMode else s

/-- STOPPING is entered from RUNNING, with what RUN = 0 means to the block. -/
def stopPage (s : State) (b : Blk) (p : Nat) : State :=
  match b with
  | .ysq => s.ysqStop (p - pYsq)
  | .ycs => ((List.range 8).foldl (fun s k => s.ysqRun k false) s).setPstate p 3
  | .wqm => s.withdrawAll.setPstate p 3
  | .skd => s.skSettle.setPstate p 3
  | _ => match coreOfPage p with
    | some (typ, k) => (s.rehomeAll startMigFor true typ k).encServeAll.setPstate p 3
    | none => ((s.leaveRunning b p).setPstate p 3).cruiseFollows b

/-- An applied RUN value. -/
def applyRun (s : State) (p : Nat) (run : Bool) : State :=
  match blkOf p with
  | none => s
  | some b =>
    let s := s.setBit p O.PAGE_CTL 0 run
    if s.runIdle p then s
    else if s.pstate p = 0 ∧ run then s.startPage p
    else if s.pstate p = 2 ∧ !run then s.stopPage b p
    else s

/-- A fault contained to a block: recorded, and the page enters FAULT. -/
def pageFault (s : State) (b : Blk) (p code info : Nat) : State :=
  if s.pstate p = 5 then s
  else
    let run := s.running p
    let s := (s.containedFault p code info 0).setPstate p 4
    if run then (s.leaveRunning b p).cruiseFollows b else s

/-- A starting block becomes ready, or faults; `passed` is a codec core's self-test (R156). -/
def pageReady (s : State) (p : Nat) (passed : Bool) (bad : List Nat) : State :=
  match blkOf p with
  | none => s
  | some b =>
    if p = pLnd ∧ s.lnd.passing.isSome then s.modePasses true
    else if s.pstate p ≠ 1 ∨ !s.blockReady b p then s
    else match coreOfPage p, passed with
      | some (typ, k), false => (s.coreFail typ k 0x0102 bad).encServeAll
      | _, _ =>
        let s := s.prepare b p
        match s.startFault b p with
        | some f => s.pageFault b p f.1 f.2
        | none =>
          if s.bit p O.PAGE_CTL 0 then (s.setPstate p 2).enterRunning b p
          else if b = .ysq then s.ysqStop (p - pYsq) else s.setPstate p 3

/-- A stopping block is quiescent. -/
def settlePage (s : State) (p : Nat) : State := if s.bit p O.PAGE_CTL 0 then s.startPage p else s.setPstate p 0

/-! ## Retirement by request (R465) -/

/-- Kind of core of a Coppice class. -/
def classTyp (c : Nat) : Nat := if c = 1 then 0 else if c = 2 then 1 else 3

/-- A core leaves for good, by request. -/
def retireQuiet (s : State) (typ k : Nat) (spare noSpare : Bool) : State :=
  let p := corePage typ k
  let s := (((s.setRole typ k 2).setPstate p 5).setCause p 4).setCause pDev 2
  s.faultLog 0 spare noSpare p 0 k

/-- The core that is being retired holds no context any more: RETIRED. -/
def retireEnds (s : State) (typ k : Nat) : State :=
  let s := s.retireQuiet typ k false false
  { s.wr pDev O.DEV_RETIRE_STAT (2 * 2 ^ 28) with flt := { s.flt with retiring := none } }

/-- A request to retire a core: a SPARE at once, one in service after its contexts have moved. -/
def retireCoreReq (s : State) (c k : Nat) (bad : List Nat) : State :=
  let typ := classTyp c
  if s.role typ k = 1 then ((s.copTake c).retireQuiet typ k true false).wr pDev O.DEV_RETIRE_STAT (2 * 2 ^ 28)
  else
    let s := { s.wr pDev O.DEV_RETIRE_STAT (2 ^ 28) with flt := { s.flt with retiring := some (c, k) } }
    match s.promote typ bad 37 with
    | (s, some j) => ((s.onCore typ k).foldl (fun s n =>
        s.startMigFor n ((s.ctx n).cores.map fun i => if i = k then j else i)) s).encServeAll
    | (s, none) => ((s.copLose c).rehomeAll startMigFor true typ k).encServeAll

/-- A request to retire a lane: a spare at once, one in service at the next slot boundary; the spare that is to replace it
runs its self-test first (R464, R465). -/
def retireLaneReq (s : State) (n : Nat) (bad : List Nat) : State :=
  if !s.laneIn n then ((s.laneShow n 0 0 true false).laneTake).wr pDev O.DEV_RETIRE_STAT (2 * 2 ^ 28)
  else
    let s := s.laneTests bad s.lanes 8
    let s := { s.wr pDev O.DEV_RETIRE_STAT (2 ^ 28) with flt := { s.flt with retiring := some (4, n) } }
    if s.lnd.on && s.running pLnd then s else s.laneReqDue

/-- RETIRE_REQ (R465), with the reasons for which it is refused. -/
def retireReq (s : State) (v : Nat) (bad : List Nat) : State :=
  let c := bitsOf v 24 8
  let i := bitsOf v 0 8
  let refuse (n : Nat) : State := s.wr pDev O.DEV_RETIRE_STAT (3 * 2 ^ 28 + n)
  let gone : Bool := if c = 4 then s.bit pLnd (O.LND_LANE_RETIRED + 4 * (i / 32)) (i % 32) else s.role (classTyp c) i = 2
  if c = 0 ∨ 4 < c then refuse 1
  else if (if c = 4 then 104 else coreCount (classTyp c)) ≤ i then refuse 2
  else if gone then refuse 3
  else if s.flt.retiring.isSome then refuse 4
  else if s.flt.life ≠ .up then refuse 5
  else if c = 4 then s.retireLaneReq i bad
  else s.retireCoreReq c i bad

/-- A stopping block, or a core that is being retired, becomes quiescent. -/
def pageQuiet (s : State) (p : Nat) : State :=
  match blkOf p with
  | none => s
  | some b =>
    match coreOfPage p with
    | some (typ, k) =>
      if s.flt.retiring = some (coreClass typ, k) then
        (if (s.onCore typ k).isEmpty then s.retireEnds typ k else s)
      else if s.pstate p = 3 ∧ s.blockQuiet b p then s.settlePage p else s
    | none => if p = pLnd ∧ s.lnd.passing.isSome then s.modePasses false
        else if s.pstate p = 3 ∧ s.blockQuiet b p then s.settlePage p else s

/-- Is the time of STARTING limited: a member's STD waits without a limit, and a sequencer for YCS (R347, R432)? -/
def startLimit (s : State) (b : Blk) : Bool :=
  match b with
  | .std => !s.isMember
  | .ysq => s.running pYcs
  | _ => true

/-- The STARTING limit passes. -/
def startTimeout (s : State) (p : Nat) : State :=
  match blkOf p with
  | none => s
  | some b => if s.pstate p = 1 ∧ s.startLimit b then s.pageFault b p 1 0 else s

/-- The STOPPING limit passes; a sequencer records its UPC (R338). -/
def stopTimeout (s : State) (p : Nat) : State :=
  match blkOf p with
  | none => s
  | some b => if s.pstate p = 3 then s.pageFault b p 2 (if b = .ysq then s.fld p O.YSQ_UPC 0 14 else 0) else s

/-! ## Soft reset (R34) -/

/-- Read-only registers that a soft reset leaves: they tell what it does not end. -/
def softKept (b : Blk) : List Nat :=
  match b with
  | .wqm => [O.WQM_QSTAT, O.WQM_CQSTAT, O.WQM_CQHEAD]
  | .chk => [O.CHK_HTX_HEAD]
  | .ycs => [O.YCS_CS_SRC]
  | .dbk => [O.DBK_SPQ_STAT]
  | .flm => [O.FLM_WR, O.FLM_COMMIT, O.FLM_RD, O.FLM_BLAZE, O.FLM_REL, O.FLM_HWM, O.FLM_FSTAT]
  | .hbm => [O.HBM_MEM_STAT, O.HBM_PPR_STAT, O.HBM_BIST_STAT, O.HBM_TEMP, O.HBM_PPR_LIST]
  | .yrd => [O.YRD_MEM_STAT, O.YRD_CNT_REPAIR, O.YRD_SPARE_LEFT, O.YRD_BIST_STAT]
  | .tim => [O.TIM_FLAGS, O.TIM_SRC_STAT]
  | .lnd => [O.LND_LANES, O.LND_LANE_RETIRED]
  | .lmp => [O.LMP_TILE_STAT, O.LMP_TILE_SEEN]
  | .std => [O.STD_FLAGS, O.STD_STAT, O.STD_PRESENT_LO, O.STD_PRESENT_HI, O.STD_OP_SEQ]
  | .dec | .xsd => [O.DEC_CORE_STAT]
  | .enc => [O.ENC_CORE_STAT]
  | .jlk => [O.JLK_PORT_STAT, O.JLK_SENSE_MV]
  | _ => []

/-- Does a register of a page keep its value across a soft reset? R34 names RW and RL; that PW configuration is kept too,
as R437 says for TIM alone, is the model's choice for the other pages (DEDUCED: log 16). -/
def softKeeps (b : Blk) (p off : Nat) : Bool :=
  if off < 0x100 then [O.INT_MASK, O.INT_ROUTE, O.IND_SEL, O.IND_CTL].contains off
  else match regDesc? p off with
    | none => false
    | some d => match d.acc with
      | .rw | .rl | .pw => true
      | .w1c | .wo => false
      | .ro => (softKept b).contains d.off

/-- A soft reset of TIM (R437): the source starts again. -/
def timReset (s : State) : State :=
  let s := { s with tim := { s.tim with txts := [], his := [] } }.emptyHist
  if s.srcState = 0 then s else s.acquire

/-- A soft reset of LND: scenes and what the slots hold are gone, and the jobs of waiting scenes fail. -/
def lndReset (s : State) : State :=
  let refs := (List.range 8).flatMap fun k => (s.liveScenes k).map (·.2) ++ (s.wfeed k).wait
  let s := refs.foldl (fun s r => s.finishSt r stBadState) s
  let s := (List.range 64).foldl (fun s p => s.endPort p .mode) s
  let armed := s.lnd.armed.filter (·.stand)
  let s := { s with lnd := {
    serial := s.lnd.serial, modeId := s.lnd.modeId, acks := s.lnd.acks, loads := s.lnd.loads, armed := armed } }
  if armed.isSome then s.wr pLnd O.LND_MODE_STAT (2 * 2 ^ 28) else s

/-- A soft reset of a Jelek port. -/
def jlkReset (s : State) (k : Nat) : State :=
  let p := pJlk + k
  let s := s.wr p O.JLK_PORT_STAT (s.fld p O.JLK_PORT_STAT 0 3)
  let s := s.setJport k { sense := (s.jport k).sense }
  (s.setJout k []).endPort k .hiErr

/-- A soft reset of STD: shares and the operations without an epoch end. -/
def stdReset (s : State) : State :=
  let refs := s.stand.redisc.toList ++ s.stand.barriers.map (·.ref)
  let s := refs.foldl (fun s r => s.finishSt r stBadState) s
  let s := (List.range 256).foldl emptyShare s
  { s with stand := { s.stand with redisc := none, barriers := [] } }

/-- What a soft reset clears of a block beside its registers. -/
def softState (s : State) (b : Blk) (p : Nat) : State :=
  match b with
  | .wqm => s.wqmReset
  | .skd => s.skReset
  | .chk => s.chokerReset
  | .ysq => s.ysqReset (p - pYsq)
  | .dbk => { s with yrx := {}, chk := { s.chk with meter := [], mlive := [] } }
  | .flm => s.emptyFlumes
  | .tim => s.timReset
  | .lnd => s.lndReset
  | .lmp => s.lampReset
  | .tly => s.tallyReset
  | .std => s.stdReset
  | .crn => s.setCrn (p - pCrn) {}
  | .jlk => s.jlkReset (p - pJlk)
  | _ => s

/-- The registers of a page after a soft reset: STOPPED, or RETIRED as before, with no sticky bit. Of the window, R34 keeps
the IND registers; that the half of an access in progress is dropped and the END state kept is the model's choice
(DEDUCED: log 16). -/
def softRegs (s : State) (b : Blk) (p : Nat) : State :=
  let gone := s.pstate p = 5
  let busy := s.postBusy p
  let s := { s with regs := skeep (fun k => k / 0x10000 ≠ p || softKeeps b p (k % 0x10000)) s.regs }
  let s := s.wr p O.PAGE_STAT (b2n busy * 2 ^ 8 + (if gone then 5 else 0))
  let s := s.wr p O.PAGE_CTL 0
  let w := s.window p
  s.setWindow p { w with phase := .low, held := 0 }

/-- SOFT_RESET applied to a page. -/
def softReset (s : State) (p : Nat) : State :=
  match blkOf p with
  | none | some .dev | some .clk | some .hif => s
  | some b =>
    let s := match coreOfPage p with
      | some (typ, k) => (s.rehomeAll faultMig false typ k).encServeAll
      | none => if s.running p then s.leaveRunning b p else s
    ((s.softRegs b p).softState b p).cruiseFollows b

end State

/-! ## The commands -/

/-- An event of the block of a page. -/
def onPage (p : Nat) (f : State → State) (s : State) : Out :=
  match blkOf p with
  | some b => act b f s
  | none => .next s

/-- PAGE_CTL_RUN (R33): the applied RUN value. -/
def execPageCtlRun (p : Fin 512) (run : Bool) : State → Out := onPage p (·.applyRun p run)
/-- SOFT_RESET (R34): a write of PAGE_CTL, applied as it arrives. -/
def execSoftReset (p : Fin 512) : State → Out := onPage p fun s => s.pwWrite p (·.softReset p)
/-- PAGE_READY (R33); `passed` and `badSpares` tell how the self-tests of codec cores end. -/
def execPageReady (p : Fin 512) (passed : Bool) (badSpares : List Nat) : State → Out :=
  onPage p (·.pageReady p passed badSpares)
/-- PAGE_QUIESCENT (R33). -/
def execPageQuiescent (p : Fin 512) : State → Out := onPage p (·.pageQuiet p)
/-- START_TIMEOUT (R33). -/
def execStartTimeout (p : Fin 512) : State → Out := onPage p (·.startTimeout p)
/-- STOP_TIMEOUT (R33). -/
def execStopTimeout (p : Fin 512) : State → Out := onPage p (·.stopTimeout p)
/-- RETIRE_REQ (R465); `badSpares` are the spare cores that fail their self-test. -/
def execRetireReq (v : W32) (badSpares : List Nat) : State → Out := access (·.retireReq v.toNat badSpares)
/-- QCFG_EN_WRITE (R58-R61, R77). -/
def execQcfgEnWrite (q : Fin 528) (v : W32) : State → Out := act .wqm (·.qcfgWrite State.withdrawQueue q v.toNat)

end Sys2Proof.Machine
end

