-- ==== Sys2Proof/Machine/Apply.lean ====
section
/-! DEFINITION. Posted writes: what the application of a PW write does (R31, R40). -/
namespace Sys2Proof.Machine
namespace State

/-- A PAGE_CTL write takes effect; SOFT_RESET comes before the RUN it carries (R31). An alias write changes one bit. -/
def applyPageCtl (s : State) (p v : Nat) (bit : Option Nat) : State :=
  match bit with
  | some 0 => s.applyRun p (bitOf v 0)
  | some 1 => s.softReset p
  | some _ => s
  | none => if bitOf v 1 then s.softReset p else s.applyRun p (bitOf v 0)

/-- A PW write of a block register takes effect. -/
def applyBlock (s : State) (p off : Nat) (d : W64) : State :=
  let v := d.toNat % 2 ^ 32
  match blkOf p with
  | some .lnd =>
    if off = O.LND_MODE_CTL then
      let s := if bitOf v 0 then s.modeArm else s
      if bitOf v 1 then s.modeCancel else s
    else s
  | some .hbm =>
    if off = O.HBM_PPR_CTL then (if bitOf v 31 then s.pprGo (p - pHbm) (bitsOf v 0 4) else s)
    else if off = O.HBM_BIST_CTL then (if bitOf v 0 then s.bistGo (1 + (p - pHbm)) else s) else s
  | some .yrd => if off = O.YRD_BIST_CTL ∧ bitOf v 0 then s.bistGo 0 else s
  | some .jlk => if off = O.JLK_PORT_CMD then s.portCmd (p - pJlk) v else s
  | some .lmp =>
    if off = O.LMP_BRIGHTNESS then s.wr p off (v % 65536) else if off = O.LMP_CRUISE_CTL then s.cruiseCtl v else s
  | some .tly => if off = O.TLY_SWEEP_CTL then s.sweepCtl v else s
  | some .tim =>
    if off = O.TIM_SRC_CFG then s.applySrcCfg v else if off = O.TIM_STEP_LO then s.applyStep d
    else if off = O.TIM_ADJ_FREQ then s.applyAdj v else s
  | _ => s

/-- The posted write of a page is applied, and POST_BUSY clears (R40). -/
def applyPosted (s : State) (p : Nat) : State :=
  match sget (fun _ => none) s.posted p with
  | none => s
  | some w =>
    let s := { s with posted := sset (fun _ => none) s.posted p none }.setBit p O.PAGE_STAT 8 false
    if w.off = O.PAGE_CTL then s.applyPageCtl p w.data.toNat w.bit else s.applyBlock p w.off w.data

end State

/-! ## The commands -/

/-- POSTED_WRITE_APPLY (R40). -/
def execPostedWriteApply (p : Fin 512) : State → Out := onPage p (·.applyPosted p)

end Sys2Proof.Machine
end

