-- ==== Sys2Proof/Machine/Resets.lean ====
section
/-! DEFINITION. Warm reset, Function Level Reset, power-on reset, and the power failure warning (R436-R441, R466, R471). -/
namespace Sys2Proof.Machine
namespace State

/-! ## Warm reset and FLR (R437-R439, R461) -/

/-- Blocks whose registers a warm reset or FLR keeps (Table 17.4). -/
def resetKeeps (flr : Bool) (b : Blk) : Bool :=
  match b with
  | .dev | .clk | .tim | .hbm | .yrd | .std | .crn => true
  | .hif => !flr
  | _ => false

/-- Does a register keep its value: kept pages, link reports, the lock, and what tells which units are retired? -/
def resetKeepsReg (flr : Bool) (key : Nat) : Bool :=
  let off := key % 0x10000
  match blkOf (key / 0x10000) with
  | none => false
  | some b => resetKeeps flr b || match b with
    | .hif => [O.HIF_PM_STAT, O.HIF_LINK_STAT, O.HIF_LINK_RECOV].contains off
    | .ycs => off = O.YCS_CS_CTL
    | .lnd => off = O.LND_LANES || (O.LND_LANE_RETIRED ≤ off && off < O.LND_LANE_RETIRED + 16)
    | .dec | .xsd => off = O.DEC_CORE_STAT
    | .enc => off = O.ENC_CORE_STAT
    | _ => false

/-- Pages of the codec cores. -/
def corePages : List (Nat × Nat) := [0, 1, 3].flatMap fun typ => (List.range (coreCount typ)).map fun k => (typ, k)

/-- Conditions of BLACK that a reset does not end. -/
def resetBlack (s : State) (fatal : Bool) : BlackSt :=
  { glob := [.lnd, .lmp, .reset] ++ (if fatal then [Cond.fatal] else [])
      ++ s.black.glob.filter fun c => [Cond.pwrFail, .holdover, .missed, .isolated, .realign].contains c
    port := s.black.port.filter fun e => e.2 = .jlk }

/-- Fault state after a reset: DEVICE_FATAL ends, but for HBM_TRAIN (R461). -/
def resetFlt (s : State) (fatal : Bool) : Flt :=
  { s.flt with
    life := if fatal then .fatal else .up, fatalCode := if fatal then s.flt.fatalCode else 0, retiring := none }

/-- What is kept, with everything else at its reset value (Table 17.4). -/
def resetParts (s : State) (flr fatal : Bool) : State :=
  { State.reset with
    pending := s.pending
    regs := skeep (resetKeepsReg flr) s.regs
    tables := s.tables, host := s.host, hbm := s.hbm
    windows := skeep (fun p => (blkOf p).any (resetKeeps flr)) s.windows
    hif := if flr then {} else { s.hif with held := [] }
    black := s.resetBlack fatal
    tim := s.tim
    flt := s.resetFlt fatal
    lmpActive := s.lmpActive
    shares := s.shares
    lmp := { ue := s.lmp.ue }
    jports := smap (fun _ => {}) (fun j => { sense := j.sense }) s.jports
    tilesOf := s.tilesOf
    seqs := smap (fun _ => {}) (fun q => { buf := q.buf, ctxs := q.ctxs }) s.seqs
    yard := s.yard
    mem := s.mem
    stand := { s.stand with
      redisc := none, barriers := [], pend := s.stand.pend.map fun o => { o with ref := none } }
    freeCtr := s.freeCtr
    out := s.out }

/-- The pages are reset (step 6 of R438). -/
def resetPages (s : State) (flr : Bool) : State :=
  let fatal : Bool := s.flt.life = .fatal && s.flt.fatalCode = 0x0100
  let s := s.resetParts flr fatal
  let s := if fatal then s else s.setBit pDev O.DEV_FLAGS 0 false
  let s := s.wr pYcs O.YCS_CS_CTL (s.fld pYcs O.YCS_CS_CTL 0 1)
  let s := corePages.foldl (fun s t =>
    let s := s.setFld (corePage t.1 t.2) O.DEC_CORE_STAT 0 30 0
    if s.role t.1 t.2 = 2 then s.wr (corePage t.1 t.2) O.PAGE_STAT 5 else s) s
  let s := s.wr pHif O.HIF_HELD_CQE 0
  if flr then s.setFld pHif O.HIF_PM_STAT 2 2 0 else s

/-- Every running Jelek port sends BLACK with NOW = 1 (step 2 of R438). -/
def portsDark (s : State) : State :=
  (List.range 64).foldl (fun s k => if s.running (pJlk + k) then s.portDown k else s) (s.startGlob .reset)

/-- A warm reset or FLR, in the order of R438. -/
def warm (s : State) (flr : Bool) : State :=
  let act := s.alive .lnd
  let s := if act then s.portsDark else s
  let s := (s.posted.map (·.1)).foldl (fun s p => if (blkOf p).any s.alive then s.applyPosted p else s) s
  let s := if act then { s with tly := { s.tly with rest := [], live := false } }.foldStaged else s
  let s := match s.flt.retiring with
    | some (4, _) => s.laneReqDue
    | some (c, k) => s.retireEnds (classTyp c) k
    | none => s
  (s.resetPages flr).wr pClk O.CLK_RST_CAUSE (if flr then 8 else 4)

/-- The reset is broadcast to the members by a lead (R436). -/
def castReset (s : State) (flr : Bool) : State := if s.isLead then s.emit (.resetBroadcast flr) else s

/-- A write of RST_CTL. -/
def rstCtl (s : State) (v : Nat) : State :=
  if bitsOf v 16 16 = 0x5752 ∧ bitOf v 0 then (if bitOf v 1 then s.castReset false else s).warm false else s

/-! ## Power-on reset (R441, R456, R466, R471) -/

/-- What outlasts a power-on reset: what lies outside the engine, what the HBM stacks hold, and without a loss of supply
FATAL_REC and REFCLK_LOST_SEEN. The stacks hold the repairs, not the failures that LOST counts (DEDUCED from "USED is
read from the stack": log 131). -/
def porBase (s : State) (supply : Bool) : State :=
  let keep : List Nat := (List.range 4).map fun i => O.DEV_FATAL_REC + 4 * i
  let seen := s.fld pClk O.CLK_FLAGS 2 1
  let t : State := { State.reset with
    pending := s.pending, host := s.host, tilesOf := s.tilesOf, freeCtr := s.freeCtr, out := s.out
    regs := if supply then [] else skeep (fun k => k / 0x10000 = pDev && keep.contains (k % 0x10000)) s.regs
    mem := { banks := s.mem.banks, lanesUsed := s.mem.lanesUsed }
    flt := { cop := smap (fun _ => (0, 0)) (fun e => (e.1, 0)) (skeep (fun c => 7 ≤ c && c ≤ 12) s.flt.cop) } }
  if supply ∨ seen = 0 then t else t.setBit pClk O.CLK_FLAGS 2 true

/-- Number of a codec core in the list of cores. -/
def coreNo (typ k : Nat) : Nat := (if typ = 0 then 0 else if typ = 1 then 36 else 45) + k
/-- Cores of a kind in service at power-on. -/
def coreService (typ : Nat) : Nat := if typ = 0 then 32 else if typ = 1 then 8 else 16

/-- Roles of the cores of a kind: the lowest-numbered that pass are in service (R158, R187). -/
def porCores (s : State) (bad : List Nat) (typ : Nat) : State :=
  let fails (k : Nat) : Bool := bad.contains (coreNo typ k)
  (List.range (coreCount typ)).foldl (fun s k =>
    let p := corePage typ k
    if fails k then
      let s := (s.wr p O.DEC_CORE_STAT (2 * 2 ^ 30)).wr p O.PAGE_STAT 5
      if s.copLeft (coreClass typ) = 0 then s.copLose (coreClass typ) else s.copTake (coreClass typ)
    else
      let n := ((List.range k).filter fun i => !fails i).length
      s.wr p O.DEC_CORE_STAT (if n < coreService typ then 0 else 2 ^ 30)) s

/-- Lanes that fail their self-test: a spare each, and L falls when there is none. -/
def porLanes (s : State) (bad : List Nat) : State :=
  let ls := (List.range 104).filter fun n => bad.contains n
  ls.foldl (fun s n =>
    let p := pLnd
    let spares := s.fld p O.LND_LANES 16 4
    let s := s.setBit p (O.LND_LANE_RETIRED + 4 * (n / 32)) (n % 32) true
    let s := s.setFld p O.LND_LANES 24 8 (s.fld p O.LND_LANES 24 8 + 1)
    if spares ≠ 0 then (s.setFld p O.LND_LANES 16 4 (spares - 1)).copTake 4
    else (s.setFld p O.LND_LANES 0 7 (s.fld p O.LND_LANES 0 7 - 1)).copLose 4) s

/-- Release of power-on reset: held without REFCLK100 or with a hot junction, else up to the step at 0.1 ms; a class of
spares that the stacks' repairs leave empty is out at once (R463, R466). -/
def powerOn (s : State) (x : PowerOn) : State :=
  let s := s.porBase x.supply
  let s := { s with flt := { s.flt with bootMode := x.bootMode } }
  if !x.refclk || x.hot then { s with flt := { s.flt with life := .held } }
  else
    let s := s.wr pClk O.CLK_RST_CAUSE (if x.supply then 1 else 2)
    let s := s.setBit pClk O.CLK_FLAGS 3 x.pwrFail
    let s := s.wr pClk O.CLK_REFCLK_KHZ x.khz
    let s := s.wr pClk O.CLK_BOOT_STAT (x.bootMode * 2 ^ 30 + (if x.bootMode.val = 3 then 6 else 0))
    let s := [0, 1, 3].foldl (fun s typ => s.porCores (x.badCores.map (·.val)) typ) s
    let s := s.porLanes (x.badLanes.map (·.val))
    let s := if (List.range 6).any fun i => s.copLeft (7 + i) = 0 then s.coppiceOut else s
    if x.pwrFail then s.startGlob .pwrFail else s

/-- Power-on reset asserts: the engine halts, and its state is lost. -/
def porAsserted (s : State) (supply : Bool) : State :=
  let s := s.porBase supply
  { s with flt := { s.flt with life := .held } }

/-! ## Power failure warning (R440) -/

/-- PWR_FAIL_N is recognised as asserted. -/
def pwrFail (s : State) : State :=
  let s := ((s.setBit pClk O.CLK_FLAGS 3 true).incr pClk O.CLK_CNT_PWR_FAIL).setCause pClk 1
  let s := s.startGlob .pwrFail
  (if s.alive .tly then s.foldPwrFail else s).memPwrFail

/-- PWR_FAIL_N has been deasserted for 10 ms. -/
def pwrBack (s : State) : State := (s.setBit pClk O.CLK_FLAGS 3 false).endGlob .pwrFail

end State

/-! ## The commands -/

/-- WARM (R438): a write of RST_CTL. -/
def execWarmReset (v : W32) : State → Out := access (·.rstCtl v.toNat)
/-- FUNCTION_LEVEL_RESET (R438). -/
def execFunctionLevelReset : State → Out := act .hif fun s => (s.castReset true).warm true
/-- POWER_ON_RESET (R441). -/
def execPowerOnReset (x : PowerOn) : State → Out := outside (·.powerOn x)
/-- POWER_ON_RESET_ASSERTED (R471); `supply` tells that a rail has left its limits, and not PERST_N alone. -/
def execPowerOnResetAsserted (supply : Bool) : State → Out := outside (·.porAsserted supply)
/-- PWR_FAIL_ASSERT (R440). -/
def execPwrFailAssert : State → Out := act .clk (·.pwrFail)
/-- PWR_FAIL_RELEASE (R440). -/
def execPwrFailRelease : State → Out := act .clk (·.pwrBack)

/-- D0_RETURN (R85): held completions, then pending messages, then fetching. -/
def execD0Return : State → Out := act .hif fun s =>
  when (s.bit pHif O.HIF_PM_STAT 2)
    (fun s => (s.setFld pHif O.HIF_PM_STAT 2 2 0).hostReturns.yarderResumes) s

/-- LINK_UP (R488): negotiated width and speed, then what waited; narrower than x4, the link is degraded (R55). A link
that is up already has been through Recovery, which LINK_RECOV counts (R56, log 15). The base address
registers and Max_Read_Request_Size are as configuration software leaves them (R26, R362, log 14). A member's interface is
not used, and reports LINK_UP 0 (R415). -/
def execLinkUp (width : Fin 64) (speed : LinkSpeed) : State → Out := act .hif fun s =>
  if s.isMember then s else
  let up := s.bit pHif O.HIF_PM_STAT 0
  let s := if up then s.incrSat pHif O.HIF_LINK_RECOV else s.setBit pHif O.HIF_PM_STAT 0 true
  let s := { s with hif := { s.hif with maxRead := 128 * 2 ^ speed.mrrs.val } }
  let s := (s.setBars speed.bars).wr pHif O.HIF_LINK_STAT (width * 16 + speed.speed)
  let s := if width.val < 4 then s.setCause pHif 4 else s
  if up then s else s.hostReturns.yarderResumes

end Sys2Proof.Machine
end

