-- ==== Sys2Proof/Machine/Access.lean ====
section
/-! DEFINITION. Accesses to the register map: reads with what they show and remove, writes with what they set off,
aliases, the indirect window, and the agents that make them (chapter 02). -/
namespace Sys2Proof.Machine

/-- What an access comes to: the state after it, the data it returns, and the cause of its bus error. -/
structure Acc2 where
  st : State
  val : Nat := 0
  err : Option BusCause := none

namespace State

/-! ## What registers read (R6, R35) -/

/-- PENDING of 32 EIC sources (Table 12.15). -/
def pendMap (s : State) (w : Nat) : Nat :=
  ((List.range 32).map fun b => b2n (bitOf (s.tab pEic 0 (2 * (32 * w + b) + 1)) 31) * 2 ^ b).sum

/-- Channels in ERROR. -/
def errMap (s : State) : Nat := ((List.range 32).map fun n => b2n (s.skState n = 3) * 2 ^ n).sum

/-- FSTAT with FILL, the fill in 1/256 of the ring (Table 5.3, R102). -/
def fillStat (s : State) (c : Nat) : Nat := putBits (s.rd pFlm (flr O.FLM_FSTAT c)) 0 8 (s.fill c)

/-- The context of the picture in flight on a core. -/
def coreCtx (s : State) (typ k : Nat) : Option Nat :=
  (s.onCore typ k).find? fun c => if typ = 3 then (s.ctx c).enc.pic.any (·.started)
    else (s.ctx c).flight.any fun f => f.core = k && !f.done

/-- CORE_FLAGS (Tables 6.8, 7.10). -/
def coreFlags (s : State) (typ k : Nat) : Nat :=
  let busy := s.coreCtx typ k
  let loading : Bool := s.ctxs.any fun e => e.2.typ = typ && e.2.isOpen && e.2.mig.any fun m => m.cores.contains k
  let again : Bool := typ = 3 && busy.any fun c => (s.ctx c).enc.pic.any fun p => p.pass = 2 || p.pass = 3
  b2n again * 8 + b2n loading * 2 + b2n busy.isSome

/-- CORE_STAT: the role, the contexts on the core and its load, rounded down. -/
def coreStat (s : State) (typ k : Nat) : Nat :=
  let load : Rat := s.coreLoad typ k none / coreCap typ * 65536
  s.role typ k * 2 ^ 30 + (s.onCore typ k).length % 1024 * 2 ^ 16 + min 65535 load.floor.toNat

/-- CUR_CTX. -/
def curCtx (s : State) (typ k : Nat) : Nat :=
  match s.coreCtx typ k with
  | some c => 2 ^ 31 + (s.ctx c).cepoch % 16 * 2 ^ 12 + c
  | none => 0

/-- PORT_FLAGS: lane state, port-wide BLACK, and the bits kept in the register (Table 10.17). -/
def portFlags (s : State) (k : Nat) : Nat :=
  let st := s.lstate k
  let own := s.rd (pJlk + k) O.JLK_PORT_FLAGS
  let hiErr : Bool := s.black.port.contains (k, Cond.hiErr)
  b2n (st = 7) * 512 + b2n (st = 6) * 256 + (own &&& 0x86)
    + b2n (s.running (pJlk + k) && s.portWide k) * 64 + b2n hiErr * 32 + b2n (st = 5) * 16 + b2n (st = 4) * 8
    + b2n (st ≠ 0 && st ≠ 7)

/-- Words that the pop registers of a sequencer show (R348). -/
def cmdHead (s : State) (k : Nat) : Nat :=
  match (s.seqOf k).cmds with
  | [] => 0
  | c :: _ => 2 ^ 31 + c.1 * 2 ^ 28 + c.2.1
def replyHead (s : State) (k : Nat) : Nat :=
  match (s.seqOf k).reps with
  | [] => 0
  | r :: _ => 2 ^ 31 + r.2 % 256 * 2 ^ 16 + r.1
def timerHead (s : State) (k : Nat) : Nat :=
  match (s.seqOf k).tims with
  | [] => 0
  | q :: _ => 2 ^ 31 + q

/-- The oldest command leaves CMD_POP; the address of a START is latched (R348). -/
def popCmd (s : State) (k : Nat) : State :=
  match (s.seqOf k).cmds with
  | [] => s
  | c :: r =>
    let s := s.modSeq k fun q => { q with cmds := r }
    if c.1 = 0 then s.wr64 (pYsq + k) O.YSQ_CMD_ADDR_LO c.2.2 else s
/-- The oldest reply leaves REPLY_POP. -/
def popReply (s : State) (k : Nat) : State := s.modSeq k fun q => { q with reps := q.reps.drop 1 }
/-- The oldest expiry leaves TIMER_POP. -/
def popTimer (s : State) (k : Nat) : State := s.modSeq k fun q => { q with tims := q.tims.drop 1 }

/-- PAGE_STAT as it reads: the pages that a mode restarts pass through their states (R196). -/
def pageStat (s : State) (b : Blk) (p : Nat) : Nat :=
  let own := s.rd p O.PAGE_STAT
  match s.lnd.passing with
  | some z => if (b = .lnd ∨ b = .lmp ∨ b = .jlk) ∧ s.running p then putBits own 0 3 z else own
  | none => own

/-- Registers whose value the block works out when they are read. -/
def shown (s : State) (b : Blk) (p off : Nat) : Nat :=
  let own := if off = O.PAGE_STAT then s.pageStat b p else s.rd p off
  match b with
  | .dev => if off = O.DEV_DIE_ID_LO then Config.dieId.toNat % 2 ^ 32
      else if off = O.DEV_DIE_ID_HI then Config.dieId.toNat / 2 ^ 32 else own
  | .eic => if 0x100 ≤ off ∧ off < 0x180 then s.pendMap ((off - 0x100) / 4) else own
  | .skd => if off = O.SKD_CH_ERR_MAP then s.errMap
      else if off = O.SKD_STAT then putBits own 0 6 s.skBusy
      else if O.SKD_CH_STAT ≤ off ∧ off < O.SKD_CH_STAT + 0x100 ∧ (off - O.SKD_CH_STAT) % 0x40 = 0 then
        putBits own 29 3 (s.chState ((off - O.SKD_CH_STAT) / 0x40))
      else own
  | .chk => if off = O.CHK_BUF_USED then s.bufUsed
      else if 0x2000 ≤ off ∧ off < 0x2810 then s.qDepth ((off - 0x2000) / 4)
      else if 0x3000 ≤ off ∧ off % 16 = 8 then
        let l := s.jcells ((off - 0x3000) / 16)
        (l.filter fun c => !c.mgmt).length * 16 + (l.filter (·.mgmt)).length
      else own
  | .ysq => if off = O.YSQ_CMD_POP then s.cmdHead (p - pYsq) else if off = O.YSQ_REPLY_POP then s.replyHead (p - pYsq)
      else if off = O.YSQ_TIMER_POP then s.timerHead (p - pYsq) else own
  | .dbk => if off = O.DBK_YRX_POP then s.yrxHead else own
  | .flm => if 0x2000 ≤ off ∧ off % 0x20 = 0x18 then s.fillStat ((off - 0x2000) / 0x20) else own
  | .tim => if off = O.TIM_ST_LO then s.tim.time % 2 ^ 32 else if off = O.TIM_TXTS_INFO then s.txtsInfo
      else if off = O.TIM_STEP_LO then s.tim.stepApplied.toNat % 2 ^ 32
      else if off = O.TIM_STEP_HI then s.tim.stepApplied.toNat / 2 ^ 32
      else if off ∈ pairHis then s.pairHi off else own
  | .lnd => if off = O.LND_WFRAME_LO then s.tim.wframe % 2 ^ 32
      else if off = O.LND_WFRAME_HI then s.tim.wframe / 2 ^ 32
      else if off = O.LND_TAP_COUNT then (s.ctxs.filter fun e => e.2.typ = 3 && e.2.isOpen && e.2.ecfg.tap).length else own
  | .lmp => if off = O.LMP_FLAGS then
        b2n s.cruising * 4 + b2n ((List.range 4032).any fun t => s.bit pLmp (tstat t) 26) * 2
          + b2n (s.loadPending pLmp 0 || s.loadPending pLmp 1)
      else own
  | .tly => if off = O.TLY_FLAGS then
        (own &&& 4) + b2n s.tly.sweep.isSome * 2 + b2n s.tly.fold.isSome
      else own
  | .jlk => if off = O.JLK_PORT_FLAGS then s.portFlags (p - pJlk) else own
  | .dec | .xsd | .enc => match coreOfPage p with
    | some (typ, k) => if off = O.DEC_CORE_FLAGS then s.coreFlags typ k else if off = O.DEC_CORE_STAT then s.coreStat typ k
        else if off = O.DEC_CUR_CTX then s.curCtx typ k else own
    | none => own
  | _ => own

/-- What a read of an implemented register word returns, but for IND_DATA. -/
def readReg (s : State) (p off : Nat) : Nat :=
  match blkOf p, regDesc? p off with
  | some b, some d => if d.acc = .wo then 0 else s.shown b p off
  | _, _ => 0

/-- What a read of a register word does: entries leave their queues, and the time is latched (R108, R348, R453). -/
def readDoes (s : State) (p off : Nat) : State :=
  match blkOf p with
  | some .tim => if off = O.TIM_ST_LO then s.latchTime else if off = O.TIM_TXTS_INFO then s.popStamp else s.latchHi off
  | some .dbk => if off = O.DBK_YRX_POP then s.yrxPop else s
  | some .ysq => if off = O.YSQ_CMD_POP then s.popCmd (p - pYsq) else if off = O.YSQ_REPLY_POP then s.popReply (p - pYsq)
      else if off = O.YSQ_TIMER_POP then s.popTimer (p - pYsq) else s
  | _ => s

/-! ## The indirect window (R43-R48) -/

/-- Does an entry of a table, as the window reads it, hold an uncorrectable error: its page, code and address (R47)? -/
def poorEntry (s : State) (p t copy i : Nat) : Option (Nat × Nat × Nat) :=
  let n := (t - 0x20) * 2 ^ 24 + i
  if p = pLmp ∧ 0x20 ≤ t then (if n ∈ s.lmp.ue then some (pLmp, 0x0100, n) else none)
  else if p = pLmp ∧ copy = s.activeCopy p t ∧ (if t = 0 then i / 4 ∈ s.mem.badTiles else i / 16 ∈ s.mem.badTypes)
      ∨ p = pDbk ∧ t < 2 ∧ (t, i / 16) ∈ s.mem.badRules then
    some (pYrd, 0x0100, s.freeVal.toNat % 2 ^ 26)
  else if tabKey p t copy i ∈ s.mem.poor then
    some (if p = pYcs then (pYcs, 0x0101, 0) else (pYrd, 0x0100, s.freeVal.toNat % 2 ^ 26))
  else none

/-- A window read of a table word: 0 with the error latched, or the word. -/
def tableRead (s : State) (p t i : Nat) : State × Nat :=
  let copy := s.windowCopy p t
  match s.poorEntry p t copy i with
  | some e => ((s.errCapture e.1 e.2.1 0 e.2.2).freeTaken, 0)
  | none => (s, s.readTab p t copy i)

/-- Does the access lie in a table of the page? -/
def windowIn (s : State) (p : Nat) : Option TabCond :=
  let a := s.windowIndex p
  match tabInfo p a.1 with
  | some (n, c) => if a.2 + (if s.bit p O.IND_CTL 1 then 1 else 0) < n then some c else none
  | none => none

/-- A read of IND_DATA. -/
def indRead (s : State) (p : Nat) : Acc2 :=
  let w := s.window p
  let a := s.windowIndex p
  if w.ended then { st := s, err := some .table }
  else match w.phase with
  | .writeHigh => { st := s.setWindow p {}, err := some .phase }
  | .readHigh => { st := (s.setWindow p {}).advance p, val := w.held.toNat }
  | .low =>
    if (s.windowIn p).isNone then { st := s, err := some .table }
    else
      let r := s.tableRead p a.1 a.2
      if s.bit p O.IND_CTL 1 then
        let h := r.1.tableRead p a.1 (a.2 + 1)
        { st := h.1.setWindow p { phase := .readHigh, held := BitVec.ofNat 32 h.2 }, val := r.2 }
      else { st := r.1.advance p, val := r.2 }

/-- Does the write condition of a table allow a write (Table 2.13, R350)? -/
def tabWritable (s : State) (p : Nat) (c : TabCond) : Bool :=
  match c with
  | .ro => false
  | .rl => s.stopped p && !(p = pYcs && s.bit pYcs O.YCS_CS_CTL 0)
  | .live | .standby => true

/-- Words of a complete access are written, or discarded while a swap is pending (R48). -/
def tableWrite (s : State) (p t i : Nat) (vs : List Nat) : State :=
  if s.loadPending p t ∧ isStandby p t then s.lockedWrite p
  else vs.zipIdx.foldl (fun s e => s.putTable p t (i + e.2) e.1) s

/-- A write of IND_DATA. -/
def indWrite (s : State) (p v : Nat) : Acc2 :=
  let w := s.window p
  let a := s.windowIndex p
  if w.ended then { st := s, err := some .table }
  else match w.phase with
  | .readHigh => { st := s.setWindow p {}, err := some .phase }
  | ph =>
    if !(s.windowIn p).any (s.tabWritable p) then { st := s, err := some .table }
    else if ph = .writeHigh then
      { st := ((s.tableWrite p a.1 a.2 [w.held.toNat, v]).setWindow p {}).advance p }
    else if s.bit p O.IND_CTL 1 then { st := s.setWindow p { phase := .writeHigh, held := BitVec.ofNat 32 v } }
    else { st := (s.tableWrite p a.1 a.2 [v]).advance p }

/-! ## What writes set off -/

/-- A ring configuration whose other fields are locked while EN is 1 (R58, R106, R383, R428); `free` are not. -/
def lockedCfg (s : State) (p off v mask free : Nat) : State :=
  if s.bit p off 31 then s.maskedWrite p off (mask &&& (free ||| 2 ^ 31)) v else s.maskedWrite p off mask v

/-- A write that would change a field locked by EN = 1 of the register `cfg`, under the rule of R58: QCFG_LOCKED. -/
def lockNotes (s : State) (p cfg off v locked : Nat) : State :=
  if s.bit p cfg 31 ∧ s.rd p off &&& locked ≠ v &&& locked then s.qcfgLocked else s

/-- DEV registers. -/
def writeDev (s : State) (off v : Nat) : State :=
  if off = O.DEV_RETIRE_REQ then s.retireReq v []
  else if off = O.DEV_FATAL_FORCE then (if bitsOf v 16 16 = 0x4654 ∧ bitOf v 0 then s.fatal 0x0105 0 else s)
  else if off = O.DEV_FATAL_REC ∧ bitOf v 31 then (s.wr64 pDev O.DEV_FATAL_REC 0).wr64 pDev (O.DEV_FATAL_REC + 8) 0
  else s

/-- WQM registers (R58-R61, R65, R79). -/
def writeWqm (s : State) (off v : Nat) (d : RegDesc) : State :=
  if 0xD000 ≤ off then s.cqDoorbell ((off - 0xD000) / 4) v
  else if 0xC000 ≤ off then s.sqDoorbell ((off - 0xC000) / 4) v
  else if 0x7000 ≤ off then
    let c := (off - 0x7000) / 0x20
    if d.off = O.WQM_CQ_BASE_LO ∨ d.off = O.WQM_CQ_BASE_HI then s.baseWrite off d.mask v (!s.cActive c)
    else if d.off = O.WQM_CQCFG then s.cqcfgWrite c v
    else if d.off = O.WQM_CQMOD then (s.codeWrite pWqm off v d).remoderate c
    else s.codeWrite pWqm off v d
  else
    let q := (off - 0x2000) / 0x20
    if d.off = O.WQM_SQ_BASE_LO ∨ d.off = O.WQM_SQ_BASE_HI then s.baseWrite off d.mask v (s.qState q = 0)
    else if d.off = O.WQM_QCFG then s.qcfgWrite withdrawQueue q v
    else if d.off = O.WQM_QPTR then s.qptrWrite q v
    else s.codeWrite pWqm off v d

/-- SKD registers (R356, R366). -/
def writeSkd (s : State) (off v : Nat) (d : RegDesc) : State :=
  if off = O.SKD_HALT_CLR then (if bitOf v 0 then s.skHaltClr else s)
  else if off < 0x1000 ∨ d.acc = .ro then s.codeWrite pSkd off v d
  else
    let n := (off - 0x1000) / 0x40
    if n < 4 then s.lockedWrite pSkd
    else if d.off = O.SKD_CH_CTL then s.skCtl n v
    else if s.skState n = 0 ∨ s.skState n = 3 ∨ s.skState n = 4 then s.codeWrite pSkd off v d
    else s.lockedWrite pSkd

/-- CHK registers: enabling a host transmit ring sets its head and tail to 0 (R383). -/
def writeChk (s : State) (off v : Nat) (d : RegDesc) : State :=
  let r := (off - 0x1000) / 0x20
  let cfg := htxr O.CHK_HTX_CFG r
  if d.off = O.CHK_HTX_BASE_LO ∨ d.off = O.CHK_HTX_BASE_HI then
    (if s.bit pChk cfg 31 then s.lockNotes pChk cfg off v d.mask else s.codeWrite pChk off v d)
  else if d.off = O.CHK_HTX_CFG then
    let old := s.bit pChk cfg 31
    let s := (s.lockNotes pChk cfg off v (d.mask &&& 0x3800FFFF)).lockedCfg pChk off v d.mask 0x47FF0000
    if !old && bitOf v 31 then s.htxEnabled r else s
  else s.codeWrite pChk off v d

/-- DBK registers: enabling a slow-path queue sets its head and tail to 0 and PHASE to 1 (R106). -/
def writeDbk (s : State) (off v : Nat) (d : RegDesc) : State :=
  let q := (off - 0x1000) / 0x20
  let cfg := spr O.DBK_SPQ_CFG q
  if off = O.DBK_YRX_FREE then s.yrxFree (bitsOf v 0 6)
  else if d.off = O.DBK_SPQ_HEAD then s.spHead q v
  else if d.off = O.DBK_SPQ_BASE_LO ∨ d.off = O.DBK_SPQ_BASE_HI then
    (if s.bit pDbk cfg 31 then s.lockNotes pDbk cfg off v d.mask else s.codeWrite pDbk off v d)
  else if d.off = O.DBK_SPQ_CFG then
    let old := s.bit pDbk cfg 31
    let s := (s.lockNotes pDbk cfg off v (d.mask &&& 0x3800FFFF)).lockedCfg pDbk off v d.mask 0x47FF0000
    if !old && bitOf v 31 then (s.wr pDbk (spr O.DBK_SPQ_STAT q) (2 ^ 31)).wr pDbk (spr O.DBK_SPQ_HEAD q) 0 else s
  else s.codeWrite pDbk off v d

/-- STD registers: a change of a share block's EN empties its ring (R428, R429). -/
def writeStd (s : State) (off v : Nat) (d : RegDesc) : State :=
  if d.off = O.STD_SH_CFG then
    let old := s.bit pStd off 31
    let s := s.lockedCfg pStd off v d.mask 0
    if old ≠ bitOf v 31 then s.emptyShare ((off - 0x2000) / 0x20) else s
  else s.codeWrite pStd off v d

/-- MSI-X control word (R83). -/
def writeMsix (s : State) (off v : Nat) : State :=
  if bitOf v 0 then s.setBit pHif off 0 true else s.unmaskOne ((off - 0x8000) / 16)

/-- A write of a block register takes its effect. -/
def writeOwn (s : State) (b : Blk) (p off v : Nat) (d : RegDesc) : State :=
  let plain := s.codeWrite p off v d
  match b with
  | .dev => if d.acc = .rw then plain else s.writeDev off v
  | .clk => if off = O.CLK_RST_CTL then s.rstCtl v else plain
  | .hif => if off = O.HIF_BUSERR_LOG then (if bitOf v 31 then s.clearBusLog else s)
      else if d.off = O.HIF_MSIX_CTRL then s.writeMsix off v else plain
  | .wqm => s.writeWqm off v d
  | .eic => if off = O.EIC_DOORBELL then s.raiseSource (bitsOf v 0 10) else plain
  | .ycs => if off = O.YCS_CS_CTL then s.wr p off ((v &&& 3) ||| s.fld p off 0 1) else plain
  | .skd => s.writeSkd off v d
  | .chk => s.writeChk off v d
  | .dbk => s.writeDbk off v d
  | .hbm => if off < 0x858 ∧ d.acc = .rl ∧ !s.stopped (pHbm + 1) then s.lockedWrite p else plain
  | .tim => if off = O.TIM_SRC_CTL then (s.wr p off (v % 2)).applyHold (bitOf v 0)
      else if d.off = O.TIM_CS_CFG then s.camConfig ((off - O.TIM_CS_CFG) / 0x10) fun s => s.codeWrite p off v d
      else plain
  | .lnd => if O.LND_MN_CFG ≤ off ∧ off ≤ O.LND_MN_EPOCH ∧ s.fld p O.LND_MODE_STAT 28 4 = 2 then s.lockedWrite p
      else plain
  | .lmp => if off = O.LMP_TILE_CONFIRM then s.tileConfirm v else plain
  | .std => s.writeStd off v d
  | _ => plain

/-- A 32-bit write of a register word takes its effect, but for IND_DATA. -/
def writeReg (s : State) (b : Blk) (p off v : Nat) (d : RegDesc) : State :=
  if off = O.INT_CAUSE then s.clearCauses p (v &&& causeBits b)
  else if off = O.INT_MASK then s.writeMask p v
  else if off = O.INT_FORCE then s.forceCauses p v
  else if off = O.IND_SEL ∨ off = O.IND_CTL then s.selWrite p off v
  else if off < 0x100 then s.codeWrite p off v d
  else s.writeOwn b p off v d

/-! ## Accesses (R27, R38, R49, R453) -/

/-- Is STEP addressed, which takes 64-bit accesses only? -/
def isStep (p off : Nat) : Bool := p = pTim && (off = O.TIM_STEP_LO || off = O.TIM_STEP_HI)

/-- A read of a page: 32 bits, or a 64-bit pair. -/
def pageRead (s : State) (p off : Nat) (wide : Bool) : Acc2 :=
  match regDesc? p off with
  | none => { st := s, err := some .reserved }
  | some d =>
    if (wide && !d.pairLo) || (!wide && isStep p off) then { st := s, err := some .size }
    else if off = O.IND_DATA then s.indRead p
    else
      let t := s.readDoes p off
      { st := t, val := s.readReg p off + (if wide then t.readReg p (off + 4) * 2 ^ 32 else 0) }

/-- A write to a page: 32 bits, or a 64-bit pair. -/
def pageWrite (s : State) (p off : Nat) (wide : Bool) (data : Nat) : Acc2 :=
  match blkOf p, regDesc? p off with
  | some b, some d =>
    if (wide && !d.pairLo) || (!wide && isStep p off) then { st := s, err := some .size }
    else if off = O.IND_DATA then s.indWrite p data
    else if isStep p off then { st := s.post p ⟨off, BitVec.ofNat 64 data, true, none⟩ }
    else
      let s := s.writeReg b p off (data % 2 ^ 32) d
      if wide then
        match regDesc? p (off + 4) with
        | some e => { st := s.writeReg b p (off + 4) (data / 2 ^ 32) e }
        | none => { st := s }
      else { st := s }
  | _, _ => { st := s, err := some .reserved }

/-- An access to WQP: words inside one push window; reads return 0 (R49, R76). -/
def wqpAccess (s : State) (write : Bool) (off size : Nat) (data : Nat) : Acc2 :=
  if size < 4 ∨ 128 < size ∨ size % 4 ≠ 0 then { st := s, err := some .size }
  else if off % 4 ≠ 0 ∨ 128 < off % 128 + size then { st := s, err := some .align }
  else if write then
    { st := s.pushWrite (off / 128) (off % 128 / 4)
        ((List.range (size / 4)).map fun i => BitVec.ofNat 32 (data / 2 ^ (32 * i))) }
  else { st := s }

/-- An access to BAR0; `wqp` tells whether the push windows exist there (R52). -/
def bar0 (s : State) (wqp write : Bool) (off size : Nat) (allBE : Bool) (data : Nat) : Acc2 :=
  let p := off / 0x10000
  let o := off % 0x10000
  if !write && size = 0 then { st := s }
  else if !allBE then { st := s, err := some .align }
  else if p = 0x100 ∧ wqp then s.wqpAccess write o size data
  else if (blkOf p).isNone then { st := s, err := some .reserved }
  else if size ≠ 4 ∧ size ≠ 8 then { st := s, err := some .size }
  else if o % size ≠ 0 then { st := s, err := some .align }
  else if write then s.pageWrite p o (size = 8) data
  else s.pageRead p o (size = 8)

/-- Writable bits of a flag-window word: those of its block for the cause registers (Table 2.8). -/
def aliasMask (b : Blk) (off : Nat) (d : RegDesc) : Nat :=
  if off = O.INT_CAUSE ∨ off = O.INT_MASK ∨ off = O.INT_FORCE then causeBits b else d.mask

/-- A write to the alias word of one bit, under the code of the bit (Table 2.11). -/
def aliasWrite (s : State) (b : Blk) (p off n : Nat) (v : Bool) (d : RegDesc) : State :=
  if !bitOf (aliasMask b off d) n then s
  else match d.acc with
  | .ro => s
  | .rw => s.writeReg b p off (putBits (s.rd p off) n 1 (b2n v)) d
  | .rl => if s.stopped p then s.writeReg b p off (putBits (s.rd p off) n 1 (b2n v)) d else s.lockedWrite p
  | .pw => if n = 1 && !v then s else s.post p ⟨off, BitVec.ofNat 64 (b2n v * 2 ^ n), false, some n⟩
  | .w1c => if v then s else s.writeReg b p off (2 ^ n) d
  | .wo => if v then s.writeReg b p off (2 ^ n) d else s

/-- An access to BAR2 (R38). -/
def bar2 (s : State) (write : Bool) (off size : Nat) (allBE : Bool) (data : Nat) : Acc2 :=
  let p := off / 0x10000
  let o := off % 0x10000 / 0x80 * 4
  let n := off % 0x80 / 4
  if !write && size = 0 then { st := s }
  else if !allBE then { st := s, err := some .align }
  else if size ≠ 4 then { st := s, err := some .size }
  else if off % 4 ≠ 0 then { st := s, err := some .align }
  else match blkOf p, regDesc? p o with
  | some b, some d =>
    if o = O.IND_DATA then { st := s, err := some .alias2 }
    else if write then { st := s.aliasWrite b p o n (bitOf data 0) d }
    else { st := s, val := b2n (bitOf (s.readReg p o) n) }
  | _, _ => { st := s, err := some .reserved }

/-- An access to the registers through either image. -/
def barAccess (s : State) (img2 wqp write : Bool) (off size : Nat) (allBE : Bool) (data : Nat) : Acc2 :=
  if img2 then s.bar2 write off size allBE data else s.bar0 wqp write off size allBE data

/-- How an access of the host ends: the data of a read go back, and a bus error is logged (R50). -/
def hostEnds (write : Bool) (bar addr : Nat) (req : BitVec 16) (engine : Nat) (r : Acc2) : State :=
  match r.err with
  | some c => r.st.busError write c bar addr req engine
  | none => if write then r.st else r.st.emit (.readData (BitVec.ofNat 64 r.val))

/-- A host write to BAR0 or BAR2. -/
def hostWrite (s : State) (img2 : Bool) (a : HostWrite) : State :=
  hostEnds true (b2n img2) a.off a.req 0 (s.barAccess img2 true true a.off a.size a.allBE a.data.toNat)

/-- A stand-window access (R52, R53, R414): this engine's own registers, or another engine's. -/
def standAccess (s : State) (a : StandAcc) : State :=
  let addr := a.engine * 0x4000000 + b2n a.bar2 * 0x2000000 + a.off
  let stop (c : BusCause) : State := s.busError (!a.isRead) c 2 addr a.req a.engine
  if a.engine.val = 0 then
    hostEnds (!a.isRead) 2 addr a.req 0 (s.barAccess a.bar2 true (!a.isRead) a.off a.size a.allBE a.data.toNat)
  else if s.stdState ≠ 2 ∨ s.engines ≤ a.engine.val then stop .absent
  else if !a.pathOk ∨ !bitOf s.present a.engine then stop .path
  else
    let far := State.reset.barAccess a.bar2 false (!a.isRead) a.off a.size a.allBE a.data.toNat
    let ind : Bool := !a.bar2 && a.off % 0x10000 = O.IND_DATA
    let found : Option BusCause := if ind && far.err ≠ some .reserved && far.err ≠ some .size && far.err ≠ some .align
      then a.refused.map fun b => if b then .phase else .table else far.err
    let s := s.emit (.regForward a.engine a.bar2 a.isRead a.off a.size a.data.toNat)
    match found with
    | some c => s.busError (!a.isRead) c 2 addr a.req a.engine
    | none => if a.isRead then s.emit (.readData a.answer) else s

/-- A REG message: an access to this engine's registers, answered to whoever sent it; or a member's host request (R415). -/
def regMessage (s : State) : RegMsg → State
  | .access img2 isRead off size allBE data _ =>
    let r := s.barAccess img2 false (!isRead) off size allBE data.toNat
    let t := if !isRead ∧ !img2 ∧ off = 0x10000 * pYcs + O.IND_DATA ∧ s.flt.bootMode = 2 ∧ r.err = none
      then r.st.setFld pYcs O.YCS_CS_SRC 0 2 3 else r.st
    match r.err with
    | some c => t.emit (.regError c.code)
    | none => if isRead then t.emit (.regData (leBytes size r.val)) else t
  | .hostRead addr n ok =>
    if !s.isLead ∨ !s.hostReady then s
    else if ok then s.wakeLink.emit (.regData (s.hostBytes addr.toNat n)) else s.wakeLink.emit (.regError 0)
  | .pme => if s.isLead then s.pmeSend else s
  | .hostWrite addr data => if !s.isLead ∨ !s.hostReady then s else s.setHost addr.toNat data

/-! ## The snapshot (R423) -/

/-- The 2,048 bytes of a page in a snapshot: words 0x0800-0x0FFF, reserved ones 0. -/
def snapPage (s : State) (p : Nat) : List Byte :=
  (List.range 512).flatMap fun i => leBytes 4 (s.readReg p (0x800 + 4 * i))

/-- The registers of every page are latched at a stand time, and written to SNAP_BASE; without it nothing is latched. -/
def snapshot (s : State) (t : Nat) : State :=
  let base := s.rd64 pStd O.STD_SNAP_BASE_LO
  if base = 0 then s
  else
    let s := s.reachTime t
    let img := s
    let s := (List.range 512).foldl (fun s p =>
      if (blkOf p).isSome then s.setHbm (base + 2048 * p) (img.snapPage p)
      else s.setHbm (base + 2048 * p) (List.replicate 2048 0)) s
    let s := s.setHbm (base + 2048 * 512) (leBytes 8 img.tim.time ++ leBytes 8 img.tim.wframe)
    (s.setCause pStd 0x40).emit (.snapReply s.ownEngine)

/-- The first ready job of a queue starts; its data transfer takes a job channel (R73, R356). -/
def jobStart (s : State) (q : Nat) (ok : Bool) : State :=
  let head := (s.sqOf q).ready.head?
  let s := s.startJob q ok (s.freeChannel.isSome && s.skdMoves)
  match head with
  | some j => if h : q < 528 then
      (if takesChannel j ∧ s.jobOpen ⟨⟨q, h⟩, j.first, j.gen⟩ then s.takeChannel ⟨⟨q, h⟩, j.first, j.gen⟩ else s)
    else s
  | none => s

/-- A host write of a word of a page's common header; on an unimplemented page it is a bus error (R27). -/
def headWrite (s : State) (p off : Nat) (v : W32) (req : BitVec 16) : State :=
  s.hostWrite false ⟨p * 0x10000 + off, 4, true, v.setWidth 1024, req⟩

end State

/-! ## The commands -/

/-- JOB_START (R73, R74). -/
def execJobStart (q : Fin 528) (ok : Bool) : State → Out := act .wqm (·.jobStart q ok)
/-- REGISTER_WRITE (R7, R41, R49). -/
def execRegisterWrite (a : HostWrite) : State → Out := access (·.hostWrite false a)
/-- ALIAS_WRITE (R38, R39). -/
def execAliasWrite (a : HostWrite) : State → Out := access (·.hostWrite true a)
/-- INT_CAUSE_WRITE (R35). -/
def execIntCauseWrite (p : Fin 512) (v : ReqWord) : State → Out :=
  access (·.headWrite p O.INT_CAUSE v.val v.req)
/-- INT_FORCE_WRITE (R35). -/
def execIntForceWrite (p : Fin 512) (v : ReqWord) : State → Out :=
  access (·.headWrite p O.INT_FORCE v.val v.req)
/-- IND_SEL_WRITE (R43, R44): of IND_SEL, or of IND_CTL. -/
def execIndSelWrite (p : Fin 512) (ctl : Bool) (v : ReqWord) : State → Out :=
  access (·.headWrite p (if ctl then O.IND_CTL else O.IND_SEL) v.val v.req)
/-- IND_DATA_READ (R43-R48). -/
def execIndDataRead (p : Fin 512) (req : BitVec 16) : State → Out := access fun s =>
  State.hostEnds false 0 (p * 0x10000 + O.IND_DATA) req 0 (s.bar0 true false (p * 0x10000 + O.IND_DATA) 4 true 0)
/-- IND_DATA_WRITE (R43-R48). -/
def execIndDataWrite (p : Fin 512) (v : W32) (req : BitVec 16) : State → Out := access (·.headWrite p O.IND_DATA v req)
/-- BUSERR_LOG_CLEAR (R51). -/
def execBuserrLogClear : State → Out := access (·.clearBusLog)
/-- STAND_WINDOW_ACCESS (R52, R53). -/
def execStandWindowAccess (a : StandAcc) : State → Out := access (·.standAccess a)
/-- REG_MESSAGE (R414, R415). -/
def execRegMessage (m : RegMsg) : State → Out := access (·.regMessage m)
/-- SNAPSHOT_LATCH (R423). -/
def execSnapshotLatch (t : W64) : State → Out := act .std (·.snapshot t.toNat)
/-- CMD_POP (R348): a read of the register. -/
def execCmdPop (k : Fin 8) : State → Out := access fun s =>
  (s.popCmd k).emit (.readData (BitVec.ofNat 64 (s.cmdHead k)))
/-- REPLY_POP (R348). -/
def execReplyPop (k : Fin 8) : State → Out := access fun s =>
  (s.popReply k).emit (.readData (BitVec.ofNat 64 (s.replyHead k)))
/-- TIMER_POP (R348). -/
def execTimerPop (k : Fin 8) : State → Out := access fun s =>
  (s.popTimer k).emit (.readData (BitVec.ofNat 64 (s.timerHead k)))

end Sys2Proof.Machine
end

