-- ==== Sys2Proof/Machine/Boot.lean ====
section
/-! DEFINITION. The boot loader: the flash image and its entries (R442-R444). -/
namespace Sys2Proof.Machine

/-- An entry of the flash directory (Table 17.7). -/
structure BootEnt where
  typ : Nat
  off : Nat
  len : Nat
  crc : Nat
deriving DecidableEq, Repr

/-- Entry e of the directory. -/
def bootEnt (f : List Byte) (e : Nat) : BootEnt :=
  { typ := bitsOf (leWord f (16 + 16 * e)) 24 8, off := leWord f (20 + 16 * e), len := leWord f (24 + 16 * e)
    crc := leWord f (28 + 16 * e) }

/-- Number of entries of a good header; `none` where MAGIC, VERSION, ENTRIES or HCRC is wrong. -/
def bootHeader (f : List Byte) : Option Nat :=
  let n := bitsOf (leWord f 4) 8 8
  if leWord f 0 = 0x4B534E42 ∧ bitsOf (leWord f 4) 0 8 = 1 ∧ 1 ≤ n ∧ n ≤ 16 ∧ 16 + 16 * n ≤ f.length
      ∧ crcIeee (f.take 12 ++ (f.drop 16).take (16 * n)) = leWord f 12 then some n else none

/-- The 32-bit words of an entry's data. -/
def bootWords (d : List Byte) : List Nat := (List.range (d.length / 4)).map fun i => leWord d (4 * i)

namespace State

/-- A write of the loader: the state after it, and whether it was accepted. -/
def bootWrite (r : State × Bool) (off v : Nat) : State × Bool :=
  if !r.2 then r
  else
    let a := r.1.bar0 false true off 4 true v
    (a.st, a.err.isNone)

/-- CONTROL_STORE: the store is written, with its check (Table 17.8). -/
def bootStore (s : State) (b : BootEnt) (d : List Byte) : State × Bool :=
  if !s.stopped pYcs || s.bit pYcs O.YCS_CS_CTL 0 then (s, false)
  else
    let s := (bootWords d).zipIdx.foldl (fun s e => s.setTab pYcs 0 e.2 e.1) s
    (((s.wr pYcs O.YCS_CS_CHECK b.crc).setBit pYcs O.YCS_CS_CTL 1 true).setFld pYcs O.YCS_CS_SRC 0 2 1, true)

/-- REG_INIT: pairs of BAR0 offset and value. -/
def bootRegs (s : State) (d : List Byte) : State × Bool :=
  (List.range (d.length / 8)).foldl (fun r i => bootWrite r (leWord d (8 * i)) (leWord d (8 * i + 4))) (s, true)

/-- TABLE: words written through a page's window with AINC. -/
def bootTable (s : State) (d : List Byte) : State × Bool :=
  let p := bitsOf (leWord d 0) 16 9 * 0x10000
  let r := bootWrite (s, true) (p + O.IND_CTL) 1
  let r := bootWrite r (p + O.IND_SEL) (bitsOf (leWord d 0) 0 8 * 2 ^ 24 + leWord d 4 % 2 ^ 24)
  ((bootWords d).drop 2).foldl (fun r v => bootWrite r (p + O.IND_DATA) v) r

/-- An entry is read, checked and applied: the state after it, and the code of its failure. -/
def bootEntry (s : State) (f : List Byte) (b : BootEnt) : State × Nat :=
  let d := (f.drop b.off).take b.len
  let done (r : State × Bool) : State × Nat := (r.1, if r.2 then 0 else 5)
  if f.length < b.off + b.len then (s, 4)
  else if crcIeee d ≠ b.crc then (s, 3)
  else match b.typ with
  | 1 => if b.len = 262144 then done (s.bootStore b d) else (s, 4)
  | 2 => done (s.bootRegs d)
  | 3 => done (s.bootTable d)
  | _ => (s, 4)

/-- BOOT_STAT after the loader: state, entries applied, failing entry, code. -/
def bootStat (s : State) (st applied bad code : Nat) : State :=
  s.wr pClk O.CLK_BOOT_STAT (s.fld pClk O.CLK_BOOT_STAT 30 2 * 2 ^ 30 + st * 2 ^ 28 + applied % 16 * 2 ^ 24 + bad * 2 ^ 16 + code)

/-- Entries in directory order, up to the first failure. -/
def bootRun (f : List Byte) (n : Nat) : Nat → State → State
  | 0, s => s.bootStat 2 n 0 0
  | k + 1, s =>
    let e := n - (k + 1)
    let r := s.bootEntry f (bootEnt f e)
    if r.2 = 0 then bootRun f n k r.1 else r.1.bootStat 3 e e r.2

/-- The boot loader runs, once after power-on reset under BOOT_MODE 01. -/
def boot (s : State) (flash : Option (List Byte)) : State :=
  if s.flt.bootMode ≠ 1 ∨ s.fld pClk O.CLK_BOOT_STAT 28 2 ≠ 0 then s
  else match flash with
  | none => s.bootStat 3 0 0 1
  | some f => match bootHeader f with
    | none => s.bootStat 3 0 0 2
    | some n => bootRun f n n s

end State

/-- BOOT_LOADER (R444); the flash as it reads, or none without an SFDP signature. -/
def execBootLoader (flash : Option (List Byte)) : State → Out := act .clk (·.boot flash)

end Sys2Proof.Machine
end

