-- ==== Sys2Proof/Machine/Slots.lean ====
section
/-! DEFINITION. Wall frames and slots as they run: what applies at an epoch, the start and the end of a slot, a lane fault
within one, and a member's resynchronisation (R14, R22, R191, R196, R220, R424, R425). -/
namespace Sys2Proof.Machine
namespace State

/-- Does a STAND_RESET reach a page (R424)? -/
def standResets (p : Nat) : Bool :=
  match blkOf p with
  | none => false
  | some b => !([Blk.dev, .clk, .hif, .wqm, .hbm, .yrd, .std, .crn].contains b)

/-- STAND_RESET: soft reset of the pages it names. -/
def standSoftReset (s : State) : State :=
  (List.range 0xC0).foldl (fun s p => if standResets p then s.softReset p else s) s

/-- The operations of this wall frame's epoch, in the order of R22. -/
def epochApply (s : State) : State :=
  if s.lnd.applied then s
  else
    let due := s.stand.pend.filter fun o => o.epoch = s.tim.wframe % 2 ^ 32
    let s := if due.any (·.reset) then s.standSoftReset else s
    let s := s.modeApply
    let s := s.tableSwaps
    let s := (List.range 8).foldl applyScene s
    let s := if due.isSome then s.standApplied else s
    { s with lnd := { s.lnd with applied := true } }

/-- The end of a slot period (R14, R166, R219, R221): ports that still wait for pixels send BLACK for the slot, and the
captures of the feed are complete or missed. -/
def slotEnd (s : State) (missed : List Nat) : State :=
  match s.lnd.slot with
  | none => s
  | some k =>
    let late := (List.range 64).filter s.portWaits
    let disp := s.syncTime k + s.displayDelay
    let taps := if k < s.feeds then s.tapsOf k else []
    let s := late.foldl slotDark s
    let s := if late.isEmpty then s
      else ((s.incr pLnd (O.LND_UNDERRUN + 4 * k)).wr64 pLnd O.LND_UNDERRUN_PORTS_LO (portBits late)).setCause pLnd 4
    let s := taps.foldl (fun s c =>
      let lost := !late.isEmpty || missed.contains c
      let s := if lost then s.incr pLnd O.LND_CNT_MISSED_CAPTURE else s
      s.tapEnd c (if lost then 1 else 0) disp) s
    { s.sampleSettled with lnd := { s.lnd with slot := none, dark := [] } }

/-- Contexts whose tap names a feed that the mode in force lacks: their captures are missed (R166). -/
def absentTaps (s : State) (disp : Int) : State :=
  ((s.ctxs.map (·.1)).filter fun c => s.tapDue c && decide (s.feeds ≤ (s.ctx c).ecfg.tapFeed)).foldl
    (fun s c => s.tapEnd c 2 disp) s

/-- The feed of a slot that starts: its pictures are selected, the flash guard measures it, and its taps capture it. -/
def feedStart (s : State) (k : Nat) (disp : Int) : State :=
  let s := (s.selectFeed k disp).flashGuard k
  (s.tapsOf k).foldl (fun s c => s.capture c k) s

/-- The next slot of the wall frame starts (R191). -/
def slotBegin (s : State) : State :=
  let k := s.lnd.next
  if !s.lnd.on ∨ !s.running pLnd ∨ s.slotsPerFrame ≤ k then s
  else
    let s := if k = 0 then s.modeSettled.judgeMode else s
    let t := s.syncTime k
    let disp := t + s.displayDelay
    let s := { s.reachTime t with slotIdx := k, lnd := { s.lnd with slot := some k, next := k + 1, dark := [] } }
    let s := s.rateCheck.takeBrightness
    let s := if k = 0 then s.absentTaps disp else s
    let maint : Bool := !decide (k < s.feeds)
    let s := if maint then { s with lnd := { s.lnd with sel := [] } } else s.feedStart k disp
    let s := (List.range 64).foldl (fun s p =>
      if s.running (pJlk + p) then s.queueSlot p k maint disp.toNat else s) s
    s.tallySample

/-- At a slot boundary a lane that is being retired by request is replaced (R465). -/
def laneSwap (s : State) : State :=
  match s.flt.retiring with
  | some (4, _) => s.laneReqDue
  | _ => s

/-- SLOT_START: the slot before ends, and what an epoch brings applies before slot 0. -/
def slotStart (s : State) : State :=
  if !s.lnd.on ∨ !s.running pLnd then s
  else
    let s := s.slotEnd []
    let s := s.laneSwap
    let s := if s.lnd.next = 0 then s.epochApply else s
    s.slotBegin

/-- The start of a wall frame: nothing of the one before is left. -/
def frameStart (s : State) : State :=
  let s := if s.alive .lnd then (s.slotEnd []).modeSettled.epochApply else s
  s.laneSwap.boundary

/-- Does a port wait for the pixel of a wall point in the slot in progress? -/
def waitsFor (s : State) (x y p : Nat) : Bool :=
  s.portWaits p && (s.portTiles p).any fun e => e.x ≤ x && x < e.x + e.fw && e.y ≤ y && y < e.y + e.fh

/-- A residue mismatch in a lane, at a lamp pixel or at a pixel of a capture (R220): the ports that wait for the lamp pixel send
BLACK for the slot. -/
def laneFault (s : State) (lane : Nat) (pixel : Option (Nat × Nat)) (bad : List Nat) : State :=
  if !s.laneIn lane ∨ 104 ≤ lane then s
  else
    let hit := (List.range 64).filter fun p => pixel.any fun q => s.waitsFor q.1 q.2 p
    let s := hit.foldl slotDark s
    (s.incr pLnd O.LND_CNT_LANE_FAULT).retireLane lane bad

/-- Is a mode the one in force? -/
def modeInForce (s : State) (m : ModeNext) : Bool :=
  s.rd pLnd O.LND_MODE_CUR = m.cfg && s.rd pLnd O.LND_FRATE_NUM_CUR = m.num && s.rd pLnd O.LND_FRATE_DEN_CUR = m.den
    && s.rd pLnd O.LND_COLOUR_CUR = m.colour

/-- A resynchronisation applies on a member (R425): the missed reset, the stand's mode, and MISSED clears. -/
def resync (s : State) (m : StandMode) (reset : Bool) (opSeq : Nat) : State :=
  if !s.isMember ∨ s.stdState ≠ 2 then s
  else
    let n := { standModeOf m.cfg.toNat m.num.toNat m.den.toNat m.colour.toNat 0 with epoch := s.tim.wframe % 2 ^ 32 }
    let s := if reset then s.standSoftReset else s
    let s := { s with stand := { s.stand with pend := none } }
    let s := if s.modeInForce n then s else { s with lnd := { s.lnd with armed := some n } }.modeApply
    let s := (s.setBit pStd O.STD_FLAGS 3 false).endGlob .missed
    s.wr pStd O.STD_OP_SEQ opSeq

end State

/-! ## The commands -/

/-- WALL_FRAME_BOUNDARY (R446). -/
def execWallFrameBoundary : State → Out := act .tim (·.frameStart)
/-- EPOCH_APPLY (R22). -/
def execEpochApply : State → Out := act .lnd (·.epochApply)
/-- SLOT_START (R191). -/
def execSlotStart : State → Out := act .lnd (·.slotStart)
/-- SLOT_END (R14); `missedTaps` are the contexts whose captures are not complete (R219). -/
def execSlotEnd (missedTaps : List (Fin 512)) : State → Out := act .lnd (·.slotEnd (missedTaps.map (·.val)))
/-- LANE_FAULT (R220), at a lamp pixel of the wall or (none) at a pixel of a capture; the spares of `badSpares` fail their
self-test (R464). -/
def execLaneFault (lane : LaneHit) (badSpares : List Nat) : State → Out :=
  actFault .lnd pLnd 0x0100 lane.lane fun s => when (s.running pLnd)
    (·.laneFault lane.lane (lane.pixel.map fun q => (q.1.toNat, q.2.toNat)) badSpares) s
/-- RESYNC (R425). -/
def execResync (mode : StandMode) (reset : Bool) (opSeq : W32) : State → Out :=
  act .std (·.resync mode reset opSeq.toNat)

end Sys2Proof.Machine
end

