-- ==== Sys2Proof/Machine/Tile.lean ====
section
/-! DEFINITION. The tiles of a Jelek chain: forwarding, enumeration, presentation, the watchdog, status, management and
the lamp survey (chapter 10, tile side). -/
namespace Sys2Proof.Machine

/-- Count in a 16-bit counter that saturates. -/
def sat16 (n : Nat) : Nat := min 0xFFFF n

/-- A SYNC body as a tile reads it (Table 10.6). -/
def tsyncOf (c : Cell) (arr : Nat) : TSync :=
  { frame := c.be 0 6, slot := c.byte 6 / 16, feed := c.feed, maint := bitOf (c.byte 6) 3, cruise := bitOf (c.byte 6) 2
    modeId := c.byte 7, tsync := c.be 8 8, disp := c.be 16 8, mode := c.be 24 4, period := c.be 28 4
    run := c.byte 33, mask := c.be 46 8, pend := bitOf (c.byte 6) 1, pendId := c.byte 32, pendMode := c.be 38 4
    arr := arr }

/-- Display instant of a slot in the tile's own time, 2⁻⁴ ns: A + (DISP - T_SYNC) - d_p (R280). -/
def TSync.instant16 (y : TSync) (d : Nat) : Int := 16 * ((y.arr : Int) + y.disp - y.tsync) - d

/-- Lamp pixels of a PIXEL body (Table 10.5). -/
def pixelsOf (fmt36 : Bool) (body : List Byte) : List (Nat × Nat × Nat) :=
  if fmt36 then
    (List.range 110).map fun k =>
      let v := beNat ((body.drop (36 * k / 8)).take 5) / (if k % 2 = 0 then 16 else 1) % 2 ^ 36
      (v / 2 ^ 24, v / 2 ^ 12 % 2 ^ 12, v % 2 ^ 12)
  else
    (List.range 83).map fun k =>
      (beNat ((body.drop (6 * k)).take 2), beNat ((body.drop (6 * k + 2)).take 2), beNat ((body.drop (6 * k + 4)).take 2))

/-- Results of six bits, packed (Table 10.14). -/
def pack6 : List Nat → List Byte
  | a :: b :: c :: d :: r => beBytes 3 (a * 2 ^ 18 + b * 2 ^ 12 + c * 2 ^ 6 + d) ++ pack6 r
  | [a, b, c] => beBytes 3 (a * 2 ^ 18 + b * 2 ^ 12 + c * 2 ^ 6)
  | [a, b] => beBytes 3 (a * 2 ^ 18 + b * 2 ^ 12)
  | [a] => beBytes 3 (a * 2 ^ 18)
  | [] => []

namespace TileSt

/-- Lamp pixels of the tile. -/
def lampsN (t : TileSt) : Nat := t.props.w * t.props.h

/-- Count a cell dropped or discarded for HCRC or CRC. -/
def crcBad (t : TileSt) : TileSt := { t with crcErr := sat16 (t.crcErr + 1) }

/-- SEQ of a cell received on IN (R265). -/
def seqIn (t : TileSt) (n : Nat) : TileSt :=
  let lost := match t.exp with
    | some e => (n + 2 ^ 15 - e) % 2 ^ 15
    | none => 0
  { t with exp := some ((n + 1) % 2 ^ 15), seqGap := sat16 (t.seqGap + lost) }

/-- Is a cell addressed to the tile? -/
def mine (t : TileSt) (c : Cell) : Bool := c.tile = 63 || t.pos = some c.tile

/-- A valid SYNC (R281, R282); the first of a new mode darkens what the tile shows (R197). -/
def syncRx (t : TileSt) (c : Cell) (arr : Nat) : TileSt :=
  let y := tsyncOf c arr
  if bitOf (c.byte 6) 0 then
    (if (t.last.map (·.tsync)) = some y.tsync then { t with fed := arr } else t)
  else
    let stale : Bool := match t.last with
      | some l => decide (y.tsync ≤ l.tsync)
      | none => false
    let held := if stale || t.held.any (fun h => h.sync.modeId ≠ y.modeId) then [] else t.held
    let late : Bool := match t.asg with
      | some a => decide (y.instant16 a.2 < 16 * arr)
      | none => false
    let t := if t.last.any fun l => l.modeId ≠ y.modeId then { t with lamps := [], presenting := false } else t
    { t with last := some y, fed := arr, held := held ++ [{ sync := y, black := late }] }

/-- A valid PIXEL cell of this tile (R268). -/
def pixelRx (t : TileSt) (c : Cell) : TileSt :=
  match t.last with
  | none => t.crcBad
  | some l =>
    if c.feed ≠ l.feed then t.crcBad
    else
      let px := (pixelsOf t.props.fmt36 c.body).take (t.lampsN - c.offset)
      { t with held := t.held.map fun h =>
          if h.sync = l ∧ !h.black ∧ !l.maint then
            { h with pix := ssetList (fun _ => none) h.pix c.offset (px.map some) } else h }

/-- A valid BLACK cell of this tile (R271). -/
def blackRx (t : TileSt) (c : Cell) (arr : Nat) : TileSt :=
  let t := { t with held := t.held.map fun h =>
    if h.sync.frame = c.be 0 6 ∧ h.sync.slot = c.byte 6 / 16 then { h with black := true, pix := [] } else h }
  if bitOf (c.byte 6) 3 then { t with lamps := [], presenting := false, dark := some arr } else t

/-- Does the tile test its lamps in a slot (R283)? -/
def tests (t : TileSt) (y : TSync) : Bool :=
  y.cruise && t.asg.isSome && (match t.pos with | some p => bitOf y.mask p | none => false)

/-- Present a slot (R280-R282): with pixels, or black. -/
def showSlot (t : TileSt) (h : TSlot) : TileSt :=
  let lit := !h.black && !h.sync.maint && !h.pix.isEmpty
  let dark := match t.dark with
    | some a => if lit ∧ a < h.sync.arr then none else some a
    | none => none
  let wd := match t.wd with
    | some a => if a ≤ h.sync.arr then none else some a
    | none => none
  let on := lit && dark.isNone && wd.isNone
  { t with
    cur := some h.sync, dark := dark, wd := wd, presenting := on
    lamps := if on then h.pix.filterMap fun e => match e.2 with
        | some v => if v = (0, 0, 0) then none else some (e.1, v)
        | none => none
      else [] }

/-- Slots whose display instant has come at local time `now`. -/
def due (t : TileSt) (d now : Nat) : List TSlot := t.held.filter fun h => h.sync.instant16 d ≤ 16 * now

/-- A slot for which no SYNC came is presented black, once its instant has passed by the PERIOD of the slot before. -/
def missed (t : TileSt) (d now : Nat) : Bool :=
  match t.cur with
  | some y => y.instant16 d + 16 * (y.period + 20) ≤ 16 * now
  | none => false

/-- The tile presents at local time `now` what is due (R190, R280): nothing without lock or ASSIGN. -/
def present (t : TileSt) (now : Nat) : TileSt :=
  match t.asg with
  | none => t
  | some (_, d) =>
    if !t.inLock then t
    else match (t.due d now).getLast? with
      | some h => { t with held := t.held.filter fun h => !(h.sync.instant16 d ≤ 16 * now) }.showSlot h
      | none => if t.missed d now then { t with lamps := [], presenting := false } else t

/-- Watchdog limit, ns (R282). -/
def wdLimit (t : TileSt) : Nat :=
  match t.last with
  | some y => min (2 * y.period) 20000000
  | none => 20000000

/-- The watchdog blanks. -/
def blank (t : TileSt) (now : Nat) : TileSt := { t with lamps := [], presenting := false, wd := some now }

/-- Can the tile present a pending mode (R274)? -/
def canPresent (t : TileSt) (mode : Nat) : Bool :=
  decide (bitsOf mode 24 3 ≤ t.props.maxLdisp) && (!bitOf mode 23 || t.props.depth12)

/-- STATUS_UP body (Table 10.10). -/
def statusBody (t : TileSt) (e : TileEnv) : List Byte :=
  let ack := match t.last with
    | some y => if y.pend ∧ t.canPresent y.pendMode then y.pendId else 0
    | none => 0
  leBytes 1 ((t.asg.map (·.1)).getD 0) ++ leBytes 1 ack ++ leBytes 1 ((t.cur.map (·.modeId)).getD 0)
    ++ leBytes 1 (b2n t.asg.isSome * 128 + b2n t.presenting * 64 + b2n t.wd.isSome * 32 + b2n t.outLock * 16
      + b2n t.busy * 8)
    ++ beBytes 4 (((t.cur.map (·.frame)).getD 0) % 2 ^ 32)
    ++ beBytes 2 (sat16 e.fecCorr) ++ beBytes 2 (sat16 e.fecUncorr)
    ++ beBytes 2 t.crcErr ++ beBytes 2 t.seqGap
    ++ leBytes 1 e.temp.toNat ++ leBytes 1 e.fault.toNat ++ beBytes 2 e.supply.toNat

/-- DESC body (Table 10.9). -/
def descBody (t : TileSt) (conn last long : Bool) (id hop turn : Nat) : List Byte :=
  let p := t.props
  leBytes 1 2 ++ leBytes 1 id
    ++ leBytes 1 (b2n conn * 128 + b2n last * 64 + b2n long * 32 + b2n p.fmt36 * 16 + p.maxLdisp % 8)
    ++ leBytes 1 hop ++ beBytes 4 p.serial.toNat ++ beBytes 2 p.w ++ beBytes 2 p.h
    ++ beBytes 4 turn ++ beBytes 2 p.fwdDn ++ beBytes 2 p.fwdUp
    ++ beBytes 2 p.vendor.toNat ++ beBytes 2 p.product.toNat ++ beBytes 4 p.fw.toNat
    ++ beBytes 2 p.targets.toNat

/-- Take a position (R278): a new ENUM_ID drops the ASSIGN held. -/
def takePos (t : TileSt) (id hop : Nat) : TileSt :=
  { t with asg := if t.enumId = some id then t.asg else none, enumId := some id, pos := some hop }

/-- An ENUM that gives no position drops what another ENUM_ID gave (R278). -/
def dropPos (t : TileSt) (id : Nat) : TileSt :=
  if t.enumId = some id then t else { t with asg := none, enumId := some id, pos := none }

/-- LAMP_REPORT cells of the results of a survey from lamp pixel `off`. -/
def reports (t : TileSt) (off run : Nat) (last : Bool) (res : List Nat) : List Cell :=
  let n := cdiv res.length 664
  (List.range n).map fun i =>
    { typ := tyLamp, tile := t.pos.getD 63, offset := off + 664 * i
      body := padTo 498 (pack6 ((res.drop (664 * i)).take 664)) ++ leBytes 1 run
        ++ leBytes 1 (b2n (last && i + 1 = n) * 128) }

end TileSt

namespace State

/-- A tile, by port and place in the chain. -/
def tileSt (s : State) (p k : Nat) : TileSt := sget (fun _ => {}) s.tilesOf (p * 128 + k)
/-- Set a tile. -/
def setTileSt (s : State) (p k : Nat) (t : TileSt) : State :=
  { s with tilesOf := sset (fun _ => {}) s.tilesOf (p * 128 + k) t }
/-- Change a tile, and put out the change of its light if there is one. -/
def modTile (s : State) (p k : Nat) (f : TileSt → TileSt) : State :=
  let t := f (s.tileSt p k)
  let u := s.setTileSt p k t
  if t.lamps = (s.tileSt p k).lamps then u else u.emit (.light p k)

/-- A cell leaves a tile, towards the engine or away from it. -/
def tileEmit (s : State) (p k : Nat) (up : Bool) (b : List Byte) : State := s.emit (.cell p (1 + k) up b)

/-- A tile numbers a cell of its own (R265). -/
def tileNumber (s : State) (p k : Nat) (c : Cell) : State × Cell :=
  let n := (s.tileSt p k).seq
  (s.modTile p k fun t => { t with seq := (n + 1) % 2 ^ 15 }, { c with seq := n })

/-- A tile has a cell of its own to send upstream: it goes at once where none waits before it and 64 cell slots have passed since
the last, and waits otherwise (R262, R265). -/
def tileSend (s : State) (p k : Nat) (c : Cell) : State :=
  let r := s.tileNumber p k c
  let t := r.1.tileSt p k
  if t.own = [] ∧ 64 ≤ t.gap then (r.1.setTileSt p k { t with gap := 0 }).tileEmit p k true r.2.bytes
  else r.1.setTileSt p k { t with own := t.own ++ [r.2] }

/-- An ENUM as a tile sends it on: HOP + 1, and the CRC-32 afresh. -/
def enumOn (c : Cell) : Cell := { c with body := c.body.take 2 ++ leBytes 1 (c.byte 2 + 1) ++ c.body.drop 3 }

/-- A tile sends on a cell received on IN whose HCRC is correct (R261); an ENUM only to a locked OUT link, and none
whose HOP is 63 or more (R278). -/
def tileForward (s : State) (p k : Nat) (l : List Byte) : State :=
  let c := cellOf l
  if cellOk l ∧ c.typ = tyHello ∧ c.byte 0 = 0 then
    (if (s.tileSt p k).outLock ∧ c.byte 2 ≤ 62 then s.emit (.cell p (1 + k) false (enumOn c).bytes) else s)
  else s.emit (.cell p (1 + k) false (padTo 512 l))

/-- Is a cell of a type and direction that a tile receives on OUT? -/
def upKind (c : Cell) : Bool := c.typ = tyIdle || (8 ≤ c.typ && c.typ ≤ 10) || (c.typ = tyHello && c.byte 0 = 2)

/-- The bytes of an IDLE cell. -/
def idleBytes : List Byte := ({ typ := tyIdle, tile := 0 } : Cell).bytes

/-- An upstream cell slot of a tile whose IN link is locked (R262): what OUT received is sent on, and an IDLE cell's place goes
to the first of the tile's own cells, 64 slots after the last. -/
def tileSlotUp (s : State) (p k : Nat) (l : List Byte) : State :=
  let t := s.tileSt p k
  let gap := min 64 (t.gap + 1)
  let s := s.setTileSt p k { t with gap := gap }
  if headOk l ∧ (cellOf l).typ ≠ tyIdle then s.tileEmit p k true (padTo 512 l)
  else match t.own with
    | c :: r => if headOk l ∧ gap = 64 then (s.setTileSt p k { t with own := r, gap := 0 }).tileEmit p k true c.bytes
        else s.tileEmit p k true idleBytes
    | [] => s.tileEmit p k true idleBytes

/-- An upstream cell slot of a tile, with what OUT received in it (R260, R262, R264). -/
def tileUp (s : State) (p k : Nat) (l : List Byte) : State :=
  let t := s.tileSt p k
  let bad : Bool := cellOk l && !upKind (cellOf l) && (t.inLock || !(cellOf l).typ = tyHello || !(cellOf l).byte 0 = 0)
  let s := if bad then s.setTileSt p k { t with badType := t.badType + 1 } else s
  if t.inLock then s.tileSlotUp p k l
  else
    let s := s.tileEmit p k true idleBytes
    if t.tx then s.tileEmit p k false idleBytes else s

/-- May a tile act on a cell of this kind received on IN? -/
def downKind (c : Cell) : Bool := (1 ≤ c.typ && c.typ ≤ 5) || (c.typ = tyHello && c.byte 0 ≤ 1)

/-- A tile receives a cell on IN (R261, R264, R265); `f` acts on a valid one of the row's kind. -/
def tileIn (s : State) (p k : Nat) (l : List Byte) (own : Cell → Bool) (f : Cell → State → State) : State :=
  let s := s.modTile p k fun t => { t with inLock := true, tx := true }
  if !headOk l then s.modTile p k (·.crcBad)
  else
    let s := s.tileForward p k l
    let c := cellOf l
    if !cellOk l then s.modTile p k (·.crcBad)
    else if c.typ = tyIdle then s
    else
      let s := s.modTile p k (·.seqIn c.seq)
      if !downKind c then s.modTile p k fun t => { t with badType := t.badType + 1 }
      else if own c then f c s else s

/-- The same, for a cell that is acted on only by the tile it is addressed to. -/
def tileInFor (s : State) (p k : Nat) (l : List Byte) (typ : Nat) (f : Cell → TileSt → TileSt) : State :=
  s.tileIn p k l (fun c => c.typ = typ) fun c s =>
    if (s.tileSt p k).mine c then s.modTile p k (f c) else s

/-- An ENUM on IN (R278). -/
def enumIn (s : State) (p k turn : Nat) (c : Cell) : State :=
  let hop := c.byte 2
  let id := c.byte 1
  if hop ≤ 62 then
    let s := s.modTile p k (·.takePos id hop)
    let t := s.tileSt p k
    s.tileSend p k { typ := tyHello, tile := hop, body := t.descBody false (!t.outLock) false id hop turn }
  else
    let s := s.modTile p k (·.dropPos id)
    let t := s.tileSt p k
    s.tileSend p k { typ := tyHello, tile := 63, body := t.descBody false (!t.outLock) true id hop turn }

/-- A cell on OUT of the ENUM row (R278 step 4): an ENUM is answered out of OUT while IN is not locked. Any other cell is one
that the upstream slot takes. -/
def enumOut (s : State) (p k turn : Nat) (l : List Byte) : State :=
  let t := s.tileSt p k
  let c := cellOf l
  if !t.inLock ∧ cellOk l ∧ c.typ = tyHello ∧ c.byte 0 = 0 then
    let r := s.tileNumber p k
      { typ := tyHello, tile := 63, body := t.descBody true false false (c.byte 1) (c.byte 2) turn }
    r.1.tileEmit p k true r.2.bytes
  else s.tileUp p k l

/-- An ASSIGN (R279): held when it is for the position taken under its ENUM_ID. -/
def assignIn (t : TileSt) (c : Cell) : TileSt :=
  if t.pos = some c.tile ∧ t.enumId = some (c.byte 1) then { t with asg := some (c.byte 1, c.be 4 4) } else t

/-- A management request (R275). -/
def mgmtDownIn (s : State) (p k : Nat) (a : MgmtAns) (c : Cell) : State :=
  if (s.tileSt p k).pos ≠ some c.tile then s
  else
    let n := min a.len (min 480 (c.be 12 2))
    s.tileSend p k { typ := tyMgmtUp, tile := c.tile
                     body := c.body.take 4 ++ leBytes 1 a.status ++ padTo 3 [] ++ (c.body.drop 8).take 4 ++ beBytes 2 n
                       ++ beBytes 2 (c.be 12 2 - n)
                       ++ (if c.byte 3 = 2 ∨ c.byte 3 = 4 then padTo 480 (a.data.take n) else []) }

/-- A BULK cell is placed (R276). -/
def bulkIn (t : TileSt) (c : Cell) : TileSt :=
  { t with bulk := sset (fun _ => []) t.bulk (c.byte 0 * 2 ^ 20 + c.offset) ((c.body.drop 20).take (min 480 (c.be 2 2))) }

/-- A STATUS_UP is sent by a tile that holds an ASSIGN (R274); its error counts start again. -/
def statusSend (s : State) (p k : Nat) (e : TileEnv) : State :=
  let s := s.modTile p k fun t => { t with outLock := e.outLock }
  let t := s.tileSt p k
  if t.asg.isNone ∨ !t.inLock then s
  else (s.tileSend p k { typ := tyStatus, tile := t.pos.getD 63, body := t.statusBody e }).modTile p k fun t =>
    { t with crcErr := 0, seqGap := 0 }

/-- The tile watchdog (R282), or loss of IN lock. -/
def watchdog (t : TileSt) (now : Nat) (lost : Bool) : TileSt :=
  let t := if lost then { t with inLock := false } else t
  if lost ∨ t.fed + t.wdLimit ≤ now then t.blank now else t

/-- A tile tests lamps in a Cruise slot and reports them (R283). -/
def cruiseTest (s : State) (p k : Nat) (res : List Nat) : State :=
  let t := s.tileSt p k
  match t.cur with
  | none => s
  | some y =>
    if !t.tests y ∨ !t.inLock ∨ (t.run = some y.run ∧ !t.busy) then s
    else
      let off := if t.run = some y.run then t.next else 0
      let res := res.take (t.lampsN - off)
      let last := decide (t.lampsN ≤ off + res.length)
      let s := s.modTile p k fun t => { t with run := some y.run, next := off + res.length, busy := !last }
      (t.reports off y.run last res).foldl (fun s c => s.tileSend p k c) s

end State

/-! ## The commands -/

/-- TILE_SYNC_RX (R281); `arr` is the local time of the first bit. -/
def execTileSyncRx (port : Fin 64) (k : Fin 128) (cell : List Byte) (arr : W64) : State → Out := outside fun s =>
  s.tileInFor port k cell tySync fun c t => t.syncRx c arr.toNat
/-- TILE_PIXEL_RX (R268). -/
def execTilePixelRx (port : Fin 64) (k : Fin 128) (cell : List Byte) : State → Out := outside fun s =>
  s.tileIn port k cell (fun c => c.typ = tyPixel) fun c s =>
    if (s.tileSt port k).pos = some c.tile then s.modTile port k (·.pixelRx c) else s
/-- TILE_BLACK_RX (R271). -/
def execTileBlackRx (port : Fin 64) (k : Fin 128) (cell : List Byte) (arr : W64) : State → Out := outside fun s =>
  s.tileInFor port k cell tyBlack fun c t => t.blackRx c arr.toNat
/-- ENUM (R278), on IN or on OUT; what the tile is, whether its OUT link is locked, and TURN in ns. -/
def execEnumRx (port : Fin 64) (k : Fin 128) (cell : List Byte) (onOut : Bool) (props : TileProps) (outLock : Bool)
    (turn : W32) : State → Out := outside fun s =>
  let s := s.modTile port k fun t => { t with props := props, outLock := outLock }
  if onOut then s.enumOut port k turn.toNat cell
  else s.tileIn port k cell (fun c => c.typ = tyHello && c.byte 0 = 0) fun c s => s.enumIn port k turn.toNat c
/-- ASSIGN (R279). -/
def execAssignRx (port : Fin 64) (k : Fin 128) (cell : List Byte) : State → Out := outside fun s =>
  s.tileIn port k cell (fun c => c.typ = tyHello && c.byte 0 = 1) fun c s => s.modTile port k fun t => State.assignIn t c
/-- TILE_STATUS_SEND (R274). -/
def execTileStatusSend (port : Fin 64) (k : Fin 128) (env : TileEnv) : State → Out := outside fun s =>
  s.statusSend port k env
/-- MGMT_DOWN (R275), with the answer the target gives. -/
def execMgmtDownRx (port : Fin 64) (k : Fin 128) (cell : List Byte) (ans : MgmtAns) : State → Out := outside fun s =>
  s.tileIn port k cell (fun c => c.typ = tyMgmtDown) fun c s => s.mgmtDownIn port k ans c
/-- BULK (R276). -/
def execBulkRx (port : Fin 64) (k : Fin 128) (cell : List Byte) : State → Out := outside fun s =>
  s.tileInFor port k cell tyBulk fun c t => State.bulkIn t c
/-- TILE_PRESENT (R280), at the tile's local time `now`. -/
def execTilePresent (port : Fin 64) (k : Fin 128) (now : W64) : State → Out := outside fun s =>
  s.modTile port k (·.present now.toNat)
/-- TILE_WATCHDOG (R282): at local time `now`; `lost` tells that the IN receiver loses lock. -/
def execTileWatchdog (port : Fin 64) (k : Fin 128) (now : W64) (lost : Bool) : State → Out := outside fun s =>
  s.modTile port k fun t => State.watchdog t now.toNat lost
/-- CRUISE_TEST (R283), with what the lamps tested gave. -/
def execCruiseTest (port : Fin 64) (k : Fin 128) (res : List (Fin 64)) : State → Out := outside fun s =>
  s.cruiseTest port k (res.map (·.val))
/-- TILE_UPSTREAM_CELL_RX (R262): an upstream cell slot of a tile; where no OUT link is locked, the cell is an IDLE one. -/
def execTileUpstreamCellRx (port : Fin 64) (k : Fin 128) (cell : List Byte) : State → Out := outside fun s =>
  s.tileUp port k cell

end Sys2Proof.Machine
end

