-- ==== Sys2Proof/Machine/YarderMicro.lean ====
section
/-! DEFINITION. The Yarder's sequencers: the micro-word, its arithmetic, memory and path operations, events, faults, and
the control store's errors (R330-R355). -/
namespace Sys2Proof.Machine

/-! ## The micro-word (Table 12.6) -/

/-- A micro-word: the fields of Table 12.6. -/
structure UWord where
  seq : Nat
  neg : Bool
  cond : Nat
  target : Nat
  dst : Nat
  srca : Nat
  srcb : Nat
  alu : Nat
  bimm : Bool
  fl : Bool
  mem : Nat
  io : Nat
  rsv : Nat
  imm : Nat
  aux : Nat
deriving DecidableEq, Repr

/-- Fields of a 128-bit word. -/
def uDecode (w : Nat) : UWord :=
  { seq := bitsOf w 124 4, neg := bitOf w 123, cond := bitsOf w 119 4, target := bitsOf w 105 14, dst := bitsOf w 100 5
    srca := bitsOf w 95 5, srcb := bitsOf w 90 5, alu := bitsOf w 86 4, bimm := bitOf w 85, fl := bitOf w 84
    mem := bitsOf w 80 4, io := bitsOf w 72 8, rsv := bitsOf w 64 8, imm := bitsOf w 32 32, aux := bitsOf w 0 32 }

/-- IO codes of Table 12.11. -/
def ioCodes : List Nat := [0, 1, 2, 3, 4, 5, 6, 7, 8, 0x10, 0x11, 0x12, 0x20, 0x21, 0x30]

/-- Does a word return a value in DST by its MEM or IO operation? -/
def UWord.returns (u : UWord) : Bool := [1, 3, 7, 11].contains u.mem || [4, 5, 7, 0x11, 0x30].contains u.io

/-- Is AUX an address, with reserved bits (R343)? -/
def UWord.addressed (u : UWord) : Bool := (1 ≤ u.mem && u.mem ≤ 7 && u.mem ≠ 7) || [0x10, 0x11, 0x12].contains u.io

/-- The conditions of R340 that the word alone tells. -/
def UWord.illegal (u : UWord) : Bool :=
  u.rsv ≠ 0 || decide (11 ≤ u.seq) || u.alu = 15 || decide (12 ≤ u.mem) || !(ioCodes.contains u.io)
    || (u.mem ≠ 0 && u.io ≠ 0) || (u.returns && u.alu ≠ 0)
    || ([5, 6, 7].contains u.mem && u.srca % 2 = 1) || (u.mem = 7 && u.dst % 4 ≠ 0)
    || (u.seq = 4 && u.target % 64 ≠ 0) || (u.addressed && bitsOf u.aux 25 4 ≠ 0)
    || ((u.mem = 3 || u.mem = 4) && bitsOf u.aux 29 2 = 3)

/-- OFFSET of AUX. -/
def UWord.offset (u : UWord) : Nat := bitsOf u.aux 0 25
/-- Bytes of a buffer access. -/
def UWord.bytes (u : UWord) : Nat := 2 ^ bitsOf u.aux 29 2

/-! ## Arithmetic (Table 12.9) -/

/-- Result and carry of an ALU operation. -/
def uAlu (op a b : Nat) (c : Bool) : Nat × Bool :=
  let m := 2 ^ 32
  let n := b % 32
  match op with
  | 1 => ((a + b) % m, decide (m ≤ a + b))
  | 2 | 10 => ((a + m - b) % m, decide (a < b))
  | 3 | 11 => (a &&& b, false)
  | 4 => (a ||| b, false)
  | 5 => (a ^^^ b, false)
  | 6 => (a * 2 ^ n % m, n ≠ 0 && bitOf a (32 - n))
  | 7 => (a / 2 ^ n, n ≠ 0 && bitOf a (n - 1))
  | 8 => (toBits 32 (signed 32 a / (2 ^ n : Nat)), n ≠ 0 && bitOf a (n - 1))
  | 9 => (b, false)
  | 12 => ((a + b + b2n c) % m, decide (m ≤ a + b + b2n c))
  | 13 =>
    ((List.range 8).foldl (fun t _ => if t % 2 = 1 then (t / 2) ^^^ 0xEDB88320 else t / 2) (a ^^^ (b % 256)), false)
  | 14 => (leNat (leBytes 4 a).reverse, false)
  | _ => (0, false)

/-- What the hardware outside the sequencer answers to a word. -/
structure UEnv where
  ok : Bool := true
  failed : Bool := false
  ack : Bool := false
  sda : Bool := true
  scl : Bool := true
  ue : Bool := false
  byte : Nat := 0

namespace State

/-! ## Registers and flags -/

/-- Page of a sequencer. -/
def yp (k : Nat) : Nat := pYsq + k
/-- A bit of SEQ_FLAGS: 10 BFAULT, 9 STOPREQ, 8 in IDLE wait, 2 Z, 1 N, 0 C. -/
def uFlag (s : State) (k b : Nat) : Bool := s.bit (yp k) O.YSQ_SEQ_FLAGS b
/-- Set a bit of SEQ_FLAGS. -/
def setFlag (s : State) (k b : Nat) (v : Bool) : State := s.setBit (yp k) O.YSQ_SEQ_FLAGS b v
/-- USP. -/
def usp (s : State) (k : Nat) : Nat := s.fld (yp k) O.YSQ_SEQ_FLAGS 3 3
/-- UPC. -/
def upc (s : State) (k : Nat) : Nat := s.fld (yp k) O.YSQ_UPC 0 14
/-- Set UPC. -/
def setUpc (s : State) (k v : Nat) : State := s.wr (yp k) O.YSQ_UPC (v % 16384)
/-- An entry of the priority stack. -/
def pstk (s : State) (k i : Nat) : Nat := s.rd (yp k) (O.YSQ_PSTK0 + 4 * i)
/-- Entries of the priority stack. -/
def pDepth (s : State) (k : Nat) : Nat := if bitOf (s.pstk k 0) 31 then (if bitOf (s.pstk k 1) 31 then 2 else 1) else 0
/-- Top entry of the priority stack. -/
def pTop (s : State) (k : Nat) : Option Nat :=
  match s.pDepth k with
  | 0 => none
  | n + 1 => some (s.pstk k n)
/-- Is the top entry FAST? -/
def fastTop (s : State) (k : Nat) : Bool := (s.pTop k).any fun e => bitOf e 30
/-- LEVEL follows the stack. -/
def setLevel (s : State) (k : Nat) : State :=
  s.setFld (yp k) O.YSQ_SEQ_FLAGS 6 2 (match s.pTop k with | none => 0 | some e => if bitOf e 30 then 2 else 1)
/-- Local subchannel whose context is loaded. -/
def curSch (s : State) (k : Nat) : Nat := s.fld (yp k) O.YSQ_CUR_SCH 0 9
/-- Port of the path operations. -/
def curPort (s : State) (k : Nat) : Nat := 8 * k + s.curSch k / 64

/-- Offset of a register as a word names it (R336). -/
def uOff (s : State) (k n : Nat) : Nat := if s.fastTop k ∧ 16 ≤ n then O.YSQ_F + 4 * (n - 16) else O.YSQ_W + 4 * n
/-- A register as a word names it. -/
def uReg (s : State) (k n : Nat) : Nat := s.rd (yp k) (s.uOff k (n % 32))
/-- Write a register as a word names it. -/
def setReg (s : State) (k n v : Nat) : State := s.wr (yp k) (s.uOff k (n % 32)) v

/-- Bytes of the transfer buffer, taken modulo its size. -/
def uBuf (s : State) (k a n : Nat) : List Byte := (List.range n).map fun i => sget (fun _ => 0) (s.seqOf k).buf ((a + i) % 16384)
/-- Write bytes of the transfer buffer. -/
def setBuf (s : State) (k a : Nat) (l : List Byte) : State :=
  s.modSeq k fun q => { q with buf := l.zipIdx.foldl (fun m e => sset (fun _ => 0) m ((a + e.2) % 16384) e.1) q.buf }

/-- Free bytes. -/
def freeBytes (s : State) (n : Nat) : List Byte := (List.range n).map fun i => (Config.freeValue (s.freeCtr + i)).setWidth 8
/-- Count free values as taken. -/
def freeMany (s : State) (n : Nat) : State := { s with freeCtr := s.freeCtr + n }

/-! ## Events (R331-R336) -/

/-- Word 0 of a source's entry. -/
def srcWord (s : State) (src : Nat) : Nat := s.tab pEic 0 (2 * src)
/-- Is a source pending, enabled and meant for a sequencer? -/
def srcPends (s : State) (k src : Nat) : Bool :=
  bitOf (s.srcWord src) 31 && bitOf (s.tab pEic 0 (2 * src + 1)) 31
    && (if src < 256 then src / 32 = k && src % 32 < 16 else bitsOf (s.srcWord src) 27 3 = k)
/-- Sources that may target a sequencer, lowest first. -/
def srcList (k : Nat) : List Nat := (List.range 16).map (32 * k + ·) ++ (List.range 768).map (256 + ·)

/-- The source a sequencer takes at a boundary (R335). -/
def eligible (s : State) (k : Nat) : Option Nat :=
  if !s.running pEic ∨ s.fastTop k then none
  else
    let l := (srcList k).filter (s.srcPends k)
    match l.find? fun n => bitOf (s.srcWord n) 30 with
    | some n => some n
    | none => if s.pDepth k = 0 then l.head? else none

/-- A source is taken: the stack, the event registers, and the vector. -/
def takeEvent (s : State) (k src : Nat) : State :=
  let w := s.srcWord src
  let fast := bitOf w 30
  let f := s.rd (yp k) O.YSQ_SEQ_FLAGS
  let e := 2 ^ 31 + b2n fast * 2 ^ 30 + bitsOf f 3 3 * 2 ^ 27 + bitsOf f 0 3 * 2 ^ 24 + s.upc k * 2 ^ 10 + src
  let s := (s.wr (yp k) (O.YSQ_PSTK0 + 4 * s.pDepth k) e).setLevel k
  let s := (s.wr (yp k) O.YSQ_EV_SRC src).wr (yp k) O.YSQ_EV_COUNT (bitsOf (s.tab pEic 0 (2 * src + 1)) 0 16)
  let s := s.setTab pEic 0 (2 * src + 1) 0
  let s := (s.incr (yp k) (if fast then O.YSQ_CNT_EV_FAST else O.YSQ_CNT_EV_NORMAL)).incr pEic O.EIC_CNT_PRESENTED
  s.setUpc k (bitsOf w 0 14)

/-- An eligible source is taken, if there is one. -/
def sample (s : State) (k : Nat) : State :=
  match s.eligible k with
  | some n => s.takeEvent k n
  | none => s

/-! ## Faults (R338) -/

/-- A fault stops the sequencer: its page enters FAULT with the UPC. -/
def uFault (s : State) (k code bit : Nat) : State := (s.pageFault .ysq (yp k) code (s.upc k)).setCause (yp k) (2 ^ bit)

/-- Does a sequencer execute words: RUNNING or STOPPING (R333)? -/
def uRuns (s : State) (k : Nat) : Bool := s.pstate (yp k) = 2 || s.pstate (yp k) = 3

/-! ## The operations -/

/-- The word at UPC. -/
def uWord (s : State) (k : Nat) : UWord :=
  let e := 4 * s.upc k
  uDecode (((List.range 4).map fun i => s.tab pYcs 0 (e + i) * 2 ^ (32 * i)).sum)

/-- Does a condition hold (Table 12.8)? Whether a command is already prefetched the model leaves open. -/
def uCond (s : State) (k c : Nat) : Bool :=
  let q := s.seqOf k
  match c with
  | 0 => true
  | 1 => s.uFlag k 2
  | 2 => s.uFlag k 1
  | 3 => s.uFlag k 0
  | 4 => q.ack
  | 5 => q.sda
  | 6 => q.scl
  | 7 => q.expired.contains (s.curSch k)
  | 8 => q.bodies.any fun b => b.1 = s.curSch k
  | 9 => s.jaccept (s.curPort k) true
  | 10 => s.rd (yp k) O.YSQ_EVT_LATCH ≠ 0
  | 11 => (Config.freeValue s.freeCtr).getLsbD 0
  | 12 => s.uFlag k 10
  | 13 => s.fastTop k
  | 14 => s.uFlag k 9
  | _ => (s.eligible k).isSome

/-- Operand A. -/
def uA (s : State) (k : Nat) (u : UWord) : Nat := s.uReg k u.srca
/-- Operand B. -/
def uB (s : State) (k : Nat) (u : UWord) : Nat := if u.bimm then u.imm else s.uReg k u.srcb
/-- The 64-bit value of the register pair A, A + 1. -/
def uPair (s : State) (k : Nat) (u : UWord) : Nat := s.uReg k u.srca + s.uReg k (u.srca + 1) * 2 ^ 32
/-- The address of a memory operation. -/
def uAddr (s : State) (k : Nat) (u : UWord) : Nat := if bitOf u.aux 31 then u.offset else (s.uA k u + u.offset) % 2 ^ 32

/-- The ALU operation, with its flags. -/
def doAlu (s : State) (k : Nat) (u : UWord) (a b : Nat) : State :=
  if u.alu = 0 then s
  else
    let r := uAlu u.alu a b (s.uFlag k 0)
    let t := if u.alu = 10 ∨ u.alu = 11 then s else s.setReg k u.dst r.1
    if u.fl ∧ u.mem = 0 then ((t.setFlag k 2 (r.1 = 0)).setFlag k 1 (bitOf r.1 31)).setFlag k 0 r.2 else t

/-- A micro-access that is a bus error (R343). -/
def uBusFault (s : State) (k addr : Nat) : State := (s.setFlag k 10 true).wr (yp k) O.YSQ_BF_ADDR (addr % 2 ^ 25)

/-- RRD. -/
def doRrd (s : State) (k : Nat) (u : UWord) : State :=
  let addr := s.uAddr k u
  let r := s.bar0 true false addr 4 true 0
  if r.err.isSome then (r.st.setReg k u.dst 0).uBusFault k addr else r.st.setReg k u.dst r.val
/-- RWR. -/
def doRwr (s : State) (k : Nat) (u : UWord) : State :=
  let addr := s.uAddr k u
  let r := s.bar0 true true addr 4 true (s.uB k u)
  if r.err.isSome then r.st.uBusFault k addr else r.st
/-- BRD; a word read with an uncorrectable error has no value that the rule states. -/
def doBrd (s : State) (k : Nat) (u : UWord) (ue : Bool) : State :=
  let v := leNat (s.uBuf k (s.uAddr k u) u.bytes)
  if ue then ((s.setReg k u.dst (leNat (s.freeBytes u.bytes))).freeMany u.bytes).setFlag k 0 true
  else (s.setReg k u.dst v).setFlag k 0 false
/-- BWR. -/
def doBwr (s : State) (k : Nat) (u : UWord) : State := s.setBuf k (s.uAddr k u) (leBytes u.bytes (s.uB k u))
/-- Bytes of a host transfer: 1-512, and open for another B. -/
def uLen (s : State) (n : Nat) : Nat := if 1 ≤ n ∧ n ≤ 512 then n else s.freeVal.toNat % 513
/-- HLOAD; what a failed access leaves in the buffer is open. -/
def doHload (s : State) (k : Nat) (u : UWord) (ok : Bool) : State :=
  let n := s.uLen (s.uB k u)
  let a := s.uPair k u
  let s := s.wakeLink.freeTaken
  if ok then (s.setBuf k u.offset (s.hostBytes a n)).setFlag k 0 false
  else ((s.setBuf k u.offset (s.freeBytes n)).freeMany n).setFlag k 0 true
/-- HSTORE. -/
def doHstore (s : State) (k : Nat) (u : UWord) (ok : Bool) : State :=
  let n := s.uLen (s.uB k u)
  let a := s.uPair k u
  let s := s.freeTaken
  if ok then (s.setHost a (s.uBuf k u.offset n)).setFlag k 0 false else s.setFlag k 0 true
/-- FETCH; what a failed access returns is open. -/
def doFetch (s : State) (k : Nat) (u : UWord) (ok : Bool) : State :=
  let a := s.uPair k u
  let s := s.wakeLink
  let b := if ok then s.hostBytes a 16 else s.freeBytes 16
  let s := if ok then s else s.freeMany 16
  let s := (List.range 4).foldl (fun s i => s.setReg k (u.dst + i) (leWord b (4 * i))) s
  (s.modSeq k fun q => { q with cmdCode := leWord b 0 / 2 ^ 24 }).setFlag k 0 (!ok)
/-- CTX_LD. -/
def doCtxLd (s : State) (k : Nat) (u : UWord) : State :=
  let q := s.uB k u % 512
  let s := (List.range 16).foldl (fun s i =>
    s.wr (yp k) (O.YSQ_W + 4 * i) (sget (fun _ => 0) (s.seqOf k).ctxs (16 * q + i)).toNat) s
  s.wr (yp k) O.YSQ_CUR_SCH q
/-- CTX_ST. -/
def doCtxSt (s : State) (k : Nat) : State :=
  let l := (List.range 16).map fun i => BitVec.ofNat 32 (s.rd (yp k) (O.YSQ_W + 4 * i))
  s.modSeq k fun q => { q with ctxs := ssetList (fun _ => 0) q.ctxs (16 * s.curSch k) l }
/-- EVTAKE. -/
def doEvtake (s : State) (k : Nat) (u : UWord) : State :=
  (s.setReg k u.dst (s.rd (yp k) O.YSQ_EVT_LATCH)).wr (yp k) O.YSQ_EVT_LATCH 0

/-- A memory operation (Table 12.10). -/
def doMem (s : State) (k : Nat) (u : UWord) (e : UEnv) : State :=
  match u.mem with
  | 1 => s.doRrd k u
  | 2 => s.doRwr k u
  | 3 => s.doBrd k u e.ue
  | 4 => s.doBwr k u
  | 5 => s.doHload k u e.ok
  | 6 => s.doHstore k u e.ok
  | 7 => s.doFetch k u e.ok
  | 8 => s.doCtxLd k u
  | 9 => s.doCtxSt k
  | 10 => s.raiseSource (s.uB k u % 1024)
  | 11 => s.doEvtake k u
  | _ => s

/-- A bus operation: its fault flag, the bus held or not, the speed last set as that of the last transaction, and what shows
outside. -/
def doBus (s : State) (k : Nat) (held : Bool) (e : UEnv) (out : List Output) : State :=
  let p := s.curPort k
  let s := s.setFld (yp k) (pathOff p) 8 2 (sget (fun _ => 0) (s.seqOf k).speed p)
  let s := s.modSeq k fun q => { q with held := if held && !e.failed then p :: q.held.filter (· ≠ p) else q.held.filter (· ≠ p) }
  out.foldl emit (s.setFlag k 0 e.failed)

/-- Does the sequencer hold the bus of the current port? -/
def busHeld (s : State) (k : Nat) : Bool := (s.seqOf k).held.contains (s.curPort k)

/-- I2C_TX and I2C_RX, I2C_PULSE, and the lines. -/
def doI2cTx (s : State) (k : Nat) (u : UWord) (e : UEnv) : State :=
  (s.modSeq k fun q => { q with ack := e.ack && !e.failed }).doBus k (s.busHeld k) e
    [.i2c (s.curPort k) 0 false [BitVec.ofNat 8 (s.uB k u)]]
def doI2cRx (s : State) (k : Nat) (u : UWord) (e : UEnv) : State :=
  let v := if e.failed then s.freeVal.toNat % 256 else e.byte
  (s.freeTaken.setReg k u.dst v).doBus k (s.busHeld k) e [.i2c (s.curPort k) 0 true [BitVec.ofNat 8 v]]
def doPulse (s : State) (k : Nat) (u : UWord) (e : UEnv) : State :=
  (s.setReg k u.dst (b2n e.sda)).doBus k (s.busHeld k) e []
def doLineSet (s : State) (k : Nat) (u : UWord) : State :=
  let v := s.uB k u % 8
  (s.modSeq k fun q => { q with lines := sset (fun _ => 0) q.lines (s.curPort k) v }).emit (.lines (s.curPort k) v)
def doLineGet (s : State) (k : Nat) (u : UWord) (e : UEnv) : State :=
  ((s.setReg k u.dst (b2n e.scl * 2 + b2n e.sda)).setFld (yp k) (pathOff (s.curPort k)) 0 2 (b2n e.scl * 2 + b2n e.sda)).modSeq k fun q => { q with scl := e.scl, sda := e.sda }

/-- MGMT_SEND: the request is queued, and its answer awaited. -/
def doMgmtSend (s : State) (k : Nat) (u : UWord) : State :=
  let b := s.uBuf k u.offset 500
  let s := s.jput (s.curPort k) { mgmt := true, tile := s.uB k u % 64, body := b }
  { s with mgmt := (beNat (b.take 2) % 4096, ((b.getD 2 0).toNat)) :: s.mgmt }
/-- MGMT_TAKE. -/
def doMgmtTake (s : State) (k : Nat) (u : UWord) : State :=
  match (s.seqOf k).bodies.find? fun b => b.1 = s.curSch k with
  | none => s.setReg k u.dst 0xFFFFFFFF
  | some b =>
    ((s.modSeq k fun q => { q with bodies := q.bodies.erase b }).setBuf k u.offset (padTo 500 b.2)).setReg k u.dst
      (b.2.getD 4 0).toNat
/-- BULK_SEND; the block number in the cell's header is open. -/
def doBulkSend (s : State) (k : Nat) (u : UWord) : State :=
  (s.jput (s.curPort k) { mgmt := false, tile := s.uB k u % 64, body := s.uBuf k u.offset 500
                          offset := s.freeVal.toNat % 2 ^ 20 }).freeTaken
/-- TIMER_SET and TIMER_CLR. -/
def doTimer (s : State) (k : Nat) (v : Option Nat) : State :=
  let n := s.curSch k
  s.modSeq k fun q => { q with
    timers := sset (fun _ => none) q.timers n v
    expired := if v.isSome then q.expired.filter (· ≠ n) else q.expired }
/-- SENSE_GET. -/
def doSenseGet (s : State) (k : Nat) (u : UWord) : State :=
  let p := pJlk + s.curPort k
  s.setReg k u.dst (s.fld p O.JLK_SENSE_MV 0 12 * 2 ^ 16 + s.fld p O.JLK_PORT_STAT 0 3)

/-- A path operation (Table 12.11). -/
def doIo (s : State) (k : Nat) (u : UWord) (e : UEnv) : State :=
  match u.io with
  | 1 => s.doBus k true e [.busEdge (s.curPort k) true (s.busHeld k)]
  | 2 => s.doBus k false e [.busEdge (s.curPort k) false false]
  | 3 => s.doI2cTx k u e
  | 4 => s.doI2cRx k u e
  | 5 => s.doPulse k u e
  | 6 => s.doLineSet k u
  | 7 => s.doLineGet k u e
  | 8 => s.modSeq k fun q => { q with speed := sset (fun _ => 0) q.speed (s.curPort k) (s.uB k u % 4) }
  | 0x10 => s.doMgmtSend k u
  | 0x11 => s.doMgmtTake k u
  | 0x12 => s.doBulkSend k u
  | 0x20 => s.doTimer k (some (s.uB k u))
  | 0x21 => s.doTimer k none
  | 0x30 => s.doSenseGet k u
  | _ => s

/-! ## The next address (Table 12.7) -/

/-- CALL. -/
def seqCall (s : State) (k : Nat) (u : UWord) : State :=
  let n := s.usp k
  if 4 ≤ n then s.uFault k 0x0101 6
  else
    let s := s.wr (yp k) (O.YSQ_USTK + 4 * n) ((s.upc k + 1) % 16384)
    (s.setFld (yp k) O.YSQ_SEQ_FLAGS 3 3 (n + 1)).setUpc k u.target
/-- RET. -/
def seqRet (s : State) (k : Nat) : State :=
  match s.usp k with
  | 0 => s.uFault k 0x0101 6
  | n + 1 => (s.setFld (yp k) O.YSQ_SEQ_FLAGS 3 3 n).setUpc k (s.fld (yp k) (O.YSQ_USTK + 4 * n) 0 14)
/-- EOE of a class (R337). -/
def seqEoe (s : State) (k : Nat) (fast : Bool) : State :=
  match s.pTop k with
  | some e =>
    if bitOf e 30 = fast then
      let s := (s.wr (yp k) (O.YSQ_PSTK0 + 4 * (s.pDepth k - 1)) 0).setLevel k
      let s := (s.setFld (yp k) O.YSQ_SEQ_FLAGS 0 3 (bitsOf e 24 3)).setFld (yp k) O.YSQ_SEQ_FLAGS 3 3 (bitsOf e 27 3)
      s.setUpc k (bitsOf e 10 14)
    else (s.wr (yp k) O.YSQ_EOE_CAP (2 ^ 31 + b2n fast * 2 ^ 30 + s.upc k)).uFault k 0x0100 7
  | none => (s.wr (yp k) O.YSQ_EOE_CAP (2 ^ 31 + b2n fast * 2 ^ 30 + s.upc k)).uFault k 0x0100 7
/-- CCB (R346). -/
def seqCcb (s : State) (k : Nat) : State :=
  let s := s.setUpc k (s.upc k + 1)
  if s.uFlag k 10 then (s.setFlag k 10 false).setUpc k 8 else s.sample k
/-- The wait of an IDLE word ends, or begins. -/
def seqIdle (s : State) (k : Nat) : State :=
  if (s.eligible k).isSome ∨ s.uFlag k 9 then ((s.setFlag k 8 false).setUpc k (s.upc k + 1)).sample k
  else s.setFlag k 8 true

/-- The next-address operation. -/
def doSeq (s : State) (k : Nat) (u : UWord) (take : Bool) : State :=
  let next := s.setUpc k (s.upc k + 1)
  match u.seq with
  | 1 => if take then s.setUpc k u.target else next
  | 2 => if take then s.seqCall k u else next
  | 3 => if take then s.seqRet k else next
  | 4 => if take then
      (let c := (s.seqOf k).cmdCode
       s.setUpc k (u.target + (if c < 0x40 then c else 0))) else next
  | 5 => next.sample k
  | 6 => s.seqCcb k
  | 7 => s.seqIdle k
  | 8 => s.seqEoe k false
  | 9 => s.seqEoe k true
  | 10 => s.settlePage (yp k)
  | _ => next

/-! ## A word (R330) -/

/-- Is the word an ILLEGAL_UWORD here? -/
def uBad (s : State) (k : Nat) (u : UWord) : Bool :=
  u.illegal || (u.seq = 10 && !s.uFlag k 9) || (u.io = 8 && s.uB k u % 4 = 3)

/-- Does the word wait for room in the Jelek queue, or for the host link? -/
def uStalls (s : State) (k : Nat) (u : UWord) : Bool :=
  (u.io = 0x10 && !s.jaccept (s.curPort k) true) || (u.io = 0x12 && !s.jaccept (s.curPort k) false)
    || ([5, 6, 7].contains u.mem && !s.hostReady)

/-- A legal word is carried out. -/
def uExec (s : State) (k : Nat) (u : UWord) (e : UEnv) : State :=
  let take := s.uCond k u.cond ≠ u.neg
  let a := s.uA k u
  let b := s.uB k u
  let s := if u.cond = 11 then s.freeTaken else s
  let s := if u.mem ≠ 0 then s.doMem k u e else s.doIo k u e
  (s.doAlu k u a b).doSeq k u take

/-! ## The control store (R350, R351) -/

/-- An uncorrectable entry is found. -/
def storeUe (s : State) (e : Nat) : State :=
  let s := if s.bit pYcs O.YCS_CS_UE_ADDR 31 then s else s.wr pYcs O.YCS_CS_UE_ADDR (2 ^ 31 + e)
  let s := { s with mem := { s.mem with
    poor := (List.range 4).map (fun i => tabKey pYcs 0 0 (4 * e + i)) ++ s.mem.poor } }
  (s.errCapture pYcs 0x0101 e 0).setCause pYcs 2
/-- Does the entry a sequencer fetches hold an uncorrectable error that is known already? -/
def fetchPoor (s : State) (k : Nat) : Bool :=
  (List.range 4).any fun i => decide (tabKey pYcs 0 0 (4 * s.upc k + i) ∈ s.mem.poor)
/-- A correctable entry is corrected. -/
def storeCe (s : State) : State := (s.incr pYcs O.YCS_CNT_CS_CORR).setCause pYcs 1
/-- The entry a sequencer fetches cannot be corrected. -/
def fetchUe (s : State) (k : Nat) : State :=
  if s.uRuns k && !s.uFlag k 8 then (s.uFault k 0x0103 4).storeUe (s.upc k) else s

/-- The sequencer executes the word at UPC, if it is one that `p` describes; an illegal one is a fault whatever it is. -/
def uStep (s : State) (k : Nat) (p : UWord → Bool) (e : UEnv) : State :=
  if !s.uRuns k ∨ s.uFlag k 8 then s
  else if s.fetchPoor k then s.fetchUe k
  else
    let u := s.uWord k
    if s.uBad k u then s.uFault k 0x0102 5
    else if !p u ∨ s.uStalls k u then s
    else s.uExec k u e

/-- Words that one row of the table names: by their memory operation, else by their path operation, else by SEQ. -/
def isSeq (n : Nat) (u : UWord) : Bool := u.mem = 0 && u.io = 0 && u.seq = n
def isMem (n : Nat) (u : UWord) : Bool := u.mem = n
def isIo (n : Nat) (u : UWord) : Bool := u.mem = 0 && u.io = n

/-- An event ends an IDLE wait (R335, R341). -/
def eventTaken (s : State) (k : Nat) : State :=
  if s.uRuns k && s.uFlag k 8 && (s.eligible k).isSome then s.seqIdle k else s

/-- A timer expires (R344, R348). -/
def timerExpiry (s : State) (n : Nat) : State :=
  let k := n / 512
  let q := n % 512
  if (sget (fun _ => none) (s.seqOf k).timers q).isNone then s
  else
    (s.modSeq k fun x => { x with
      timers := sset (fun _ => none) x.timers q none, expired := q :: x.expired.filter (· ≠ q)
      tims := x.tims ++ [q] }).raiseSource (32 * k + 2)

end State

/-! ## The commands -/

/-- EVENT_TAKEN (R335): at the end of an IDLE wait; a boundary's own word takes what is pending there. -/
def execEventTaken (k : Fin 8) : State → Out := act .ysq (·.eventTaken k)
/-- SUBCHANNEL_TIMER_EXPIRY (R344). -/
def execSubchannelTimerExpiry (sub : Fin 4096) : State → Out := act .ysq (·.timerExpiry sub)
/-- NEXT (R341). -/
def execUNext (k : Fin 8) : State → Out := act .ysq fun s => s.uStep k (State.isSeq 0) {}
/-- JUMP (R341). -/
def execUJump (k : Fin 8) : State → Out := act .ysq fun s => s.uStep k (State.isSeq 1) {}
/-- CALL (R345). -/
def execUCall (k : Fin 8) : State → Out := act .ysq fun s => s.uStep k (State.isSeq 2) {}
/-- RET (R345). -/
def execURet (k : Fin 8) : State → Out := act .ysq fun s => s.uStep k (State.isSeq 3) {}
/-- DISPATCH (R341). -/
def execUDispatch (k : Fin 8) : State → Out := act .ysq fun s => s.uStep k (State.isSeq 4) {}
/-- BOUNDARY (R346). -/
def execUBoundary (k : Fin 8) : State → Out := act .ysq fun s => s.uStep k (State.isSeq 5) {}
/-- CCB (R346). -/
def execUCcb (k : Fin 8) : State → Out := act .ysq fun s => s.uStep k (State.isSeq 6) {}
/-- IDLE (R341): its wait begins, or ends on an event or on STOPREQ. -/
def execUIdle (k : Fin 8) : State → Out := act .ysq fun s =>
  if s.uRuns k && s.uFlag k 8 then s.seqIdle k else s.uStep k (State.isSeq 7) {}
/-- EOE_NORMAL (R337). -/
def execEoeNormal (k : Fin 8) : State → Out := act .ysq fun s => s.uStep k (State.isSeq 8) {}
/-- EOE_FAST (R337). -/
def execEoeFast (k : Fin 8) : State → Out := act .ysq fun s => s.uStep k (State.isSeq 9) {}
/-- HALT (R347). -/
def execUHalt (k : Fin 8) : State → Out := act .ysq fun s => s.uStep k (State.isSeq 10) {}
/-- RRD (R343). -/
def execRrd (k : Fin 8) : State → Out := act .ysq fun s => s.uStep k (State.isMem 1) {}
/-- RWR (R343). -/
def execRwr (k : Fin 8) : State → Out := act .ysq fun s => s.uStep k (State.isMem 2) {}
/-- BRD (R343). -/
def execBrd (k : Fin 8) (ue : Bool) : State → Out := act .ysq fun s => s.uStep k (State.isMem 3) { ue := ue }
/-- BWR (R343). -/
def execBwr (k : Fin 8) : State → Out := act .ysq fun s => s.uStep k (State.isMem 4) {}
/-- HLOAD (R343). -/
def execHload (k : Fin 8) (ok : Bool) : State → Out := act .ysq fun s => s.uStep k (State.isMem 5) { ok := ok }
/-- HSTORE (R343). -/
def execHstore (k : Fin 8) (ok : Bool) : State → Out := act .ysq fun s => s.uStep k (State.isMem 6) { ok := ok }
/-- FETCH (R343). -/
def execUFetch (k : Fin 8) (ok : Bool) : State → Out := act .ysq fun s => s.uStep k (State.isMem 7) { ok := ok }
/-- CTX_LD (R343). -/
def execCtxLd (k : Fin 8) : State → Out := act .ysq fun s => s.uStep k (State.isMem 8) {}
/-- CTX_ST (R343). -/
def execCtxSt (k : Fin 8) : State → Out := act .ysq fun s => s.uStep k (State.isMem 9) {}
/-- DBELL (R343). -/
def execDbell (k : Fin 8) : State → Out := act .ysq fun s => s.uStep k (State.isMem 10) {}
/-- EVTAKE (R334). -/
def execEvtake (k : Fin 8) : State → Out := act .ysq fun s => s.uStep k (State.isMem 11) {}
/-- I2C_START (R344). -/
def execI2cStart (k : Fin 8) (failed : Bool) : State → Out := act .ysq fun s => s.uStep k (State.isIo 1) { failed := failed }
/-- I2C_STOP (R344). -/
def execI2cStop (k : Fin 8) (failed : Bool) : State → Out := act .ysq fun s => s.uStep k (State.isIo 2) { failed := failed }
/-- I2C_TX (R344). -/
def execI2cTx (k : Fin 8) (failed ack : Bool) : State → Out := act .ysq fun s =>
  s.uStep k (State.isIo 3) { failed := failed, ack := ack }
/-- I2C_RX (R344). -/
def execI2cRx (k : Fin 8) (failed : Bool) (b : Byte) : State → Out := act .ysq fun s =>
  s.uStep k (State.isIo 4) { failed := failed, byte := b.toNat }
/-- I2C_PULSE (R344). -/
def execI2cPulse (k : Fin 8) (failed sda : Bool) : State → Out := act .ysq fun s =>
  s.uStep k (State.isIo 5) { failed := failed, sda := sda }
/-- LINE_SET (R344). -/
def execLineSet (k : Fin 8) : State → Out := act .ysq fun s => s.uStep k (State.isIo 6) {}
/-- LINE_GET (R344). -/
def execLineGet (k : Fin 8) (scl sda : Bool) : State → Out := act .ysq fun s =>
  s.uStep k (State.isIo 7) { scl := scl, sda := sda }
/-- SPEED (R344). -/
def execI2cSpeed (k : Fin 8) : State → Out := act .ysq fun s => s.uStep k (State.isIo 8) {}
/-- MGMT_SEND (R344). -/
def execMgmtSend (k : Fin 8) : State → Out := act .ysq fun s => s.uStep k (State.isIo 0x10) {}
/-- MGMT_TAKE (R344). -/
def execMgmtTake (k : Fin 8) : State → Out := act .ysq fun s => s.uStep k (State.isIo 0x11) {}
/-- BULK_SEND (R344). -/
def execBulkSend (k : Fin 8) : State → Out := act .ysq fun s => s.uStep k (State.isIo 0x12) {}
/-- TIMER_SET (R344). -/
def execTimerSet (k : Fin 8) : State → Out := act .ysq fun s => s.uStep k (State.isIo 0x20) {}
/-- TIMER_CLR (R344). -/
def execTimerClr (k : Fin 8) : State → Out := act .ysq fun s => s.uStep k (State.isIo 0x21) {}
/-- SENSE_GET (R344). -/
def execSenseGet (k : Fin 8) : State → Out := act .ysq fun s => s.uStep k (State.isIo 0x30) {}
/-- CS_UE (R351). -/
def execCsUe (k : Fin 8) : State → Out := act .ysq (·.fetchUe k)
/-- CS_SCRUB (R351): the entries corrected, and those that cannot be. -/
def execCsScrub (fixed bad : List (Fin 16384)) : State → Out := act .ycs fun s =>
  bad.foldl (fun s e => s.storeUe e) (fixed.foldl (fun s _ => s.storeCe) s)
/-- LOCK (R350). -/
def execCsLock : State → Out := access (·.setBit pYcs O.YCS_CS_CTL 0 true)

end Sys2Proof.Machine
end

