-- ==== Sys2Proof/Machine/Dispatch.lean ====
section
/-! DEFINITION. One arm per command: the meaning of each row of the operation table. -/
namespace Sys2Proof.Machine

def exec (i : Instr) (s : State) : Host.Outcome State Fault Refusal :=
  match i with
  | .ctxOpen j => Sys2Proof.Machine.execCtxOpen j s
  | .ctxConfig j => Sys2Proof.Machine.execCtxConfig j s
  | .ctxClose j => Sys2Proof.Machine.execCtxClose j s
  | .ctxMigrate j => Sys2Proof.Machine.execCtxMigrate j s
  | .feed j => Sys2Proof.Machine.execFeed j s
  | .framePut j => Sys2Proof.Machine.execFramePut j s
  | .sceneSubmit j ok => Sys2Proof.Machine.execSceneSubmit j ok s
  | .keyRequest j => Sys2Proof.Machine.execKeyRequest j s
  | .encReconfig j => Sys2Proof.Machine.execEncReconfig j s
  | .chanStart j => Sys2Proof.Machine.execChanStart j s
  | .chanResume j => Sys2Proof.Machine.execChanResume j s
  | .chanHalt j => Sys2Proof.Machine.execChanHalt j s
  | .tableLoad j n => Sys2Proof.Machine.execTableLoad j n s
  | .tallySnapshot j => Sys2Proof.Machine.execTallySnapshot j s
  | .standOpMode j ok refused missed commit => Sys2Proof.Machine.execStandOpMode j ok refused missed commit s
  | .standOpBarrier j replied => Sys2Proof.Machine.execStandOpBarrier j replied s
  | .standOpSnapshot j ok captured => Sys2Proof.Machine.execStandOpSnapshot j ok captured s
  | .standReset j missed commit => Sys2Proof.Machine.execStandReset j missed commit s
  | .rediscover j => Sys2Proof.Machine.execRediscover j s
  | .nop j => Sys2Proof.Machine.execNop j s
  | .sqDb q v => Sys2Proof.Machine.execSqDb q v s
  | .cqDb c v => Sys2Proof.Machine.execCqDb c v s
  | .pushWindowWrite q dw data => Sys2Proof.Machine.execPushWindowWrite q dw data s
  | .qcfgEnWrite q v => Sys2Proof.Machine.execQcfgEnWrite q v s
  | .cqcfgEnWrite c v => Sys2Proof.Machine.execCqcfgEnWrite c v s
  | .entryFetch ok => Sys2Proof.Machine.execEntryFetch ok s
  | .jobStart q ok => Sys2Proof.Machine.execJobStart q ok s
  | .jobComplete j => Sys2Proof.Machine.execJobComplete j s
  | .queueDrained q => Sys2Proof.Machine.execQueueDrained q s
  | .moderationTimer c => Sys2Proof.Machine.execModerationTimer c s
  | .vectorUnmask v => Sys2Proof.Machine.execVectorUnmask v s
  | .l1Exit => Sys2Proof.Machine.execL1Exit s
  | .d3hotEntry pmeEn => Sys2Proof.Machine.execD3hotEntry pmeEn s
  | .d0Return => Sys2Proof.Machine.execD0Return s
  | .linkDown => Sys2Proof.Machine.execLinkDown s
  | .linkUp width speed => Sys2Proof.Machine.execLinkUp width speed s
  | .linkDegraded width speed => Sys2Proof.Machine.execLinkDegraded width speed s
  | .pageCtlRun p run => Sys2Proof.Machine.execPageCtlRun p run s
  | .softReset p => Sys2Proof.Machine.execSoftReset p s
  | .postedWriteApply p => Sys2Proof.Machine.execPostedWriteApply p s
  | .pageReady p passed badSpares => Sys2Proof.Machine.execPageReady p passed badSpares s
  | .pageQuiescent p => Sys2Proof.Machine.execPageQuiescent p s
  | .startTimeout p => Sys2Proof.Machine.execStartTimeout p s
  | .stopTimeout p => Sys2Proof.Machine.execStopTimeout p s
  | .intCauseWrite p v => Sys2Proof.Machine.execIntCauseWrite p v s
  | .intForceWrite p v => Sys2Proof.Machine.execIntForceWrite p v s
  | .aliasWrite a => Sys2Proof.Machine.execAliasWrite a s
  | .indDataRead p req => Sys2Proof.Machine.execIndDataRead p req s
  | .indDataWrite p v req => Sys2Proof.Machine.execIndDataWrite p v req s
  | .indSelWrite p ctl v => Sys2Proof.Machine.execIndSelWrite p ctl v s
  | .buserrLogClear => Sys2Proof.Machine.execBuserrLogClear s
  | .registerWrite a => Sys2Proof.Machine.execRegisterWrite a s
  | .standWindowAccess a => Sys2Proof.Machine.execStandWindowAccess a s
  | .frameReceived inst f => Sys2Proof.Machine.execFrameReceived inst f s
  | .spqHeadWrite q v => Sys2Proof.Machine.execSpqHeadWrite q v s
  | .yrxPop => Sys2Proof.Machine.execYrxPop s
  | .yrxFree v => Sys2Proof.Machine.execYrxFree v s
  | .netLinkChange inst up fecLock hiBer => Sys2Proof.Machine.execNetLinkChange inst up fecLock hiBer s
  | .spillWriteDone c n => Sys2Proof.Machine.execSpillWriteDone c n s
  | .flumeRead c k => Sys2Proof.Machine.execFlumeRead c k s
  | .flumeMark c => Sys2Proof.Machine.execFlumeMark c s
  | .flumeRewind c => Sys2Proof.Machine.execFlumeRewind c s
  | .flumeRelease c p => Sys2Proof.Machine.execFlumeRelease c p s
  | .flumeDropRem c => Sys2Proof.Machine.execFlumeDropRem c s
  | .staleCheck => Sys2Proof.Machine.execStaleCheck s
  | .pictureDecoded kind unit fin ready => Sys2Proof.Machine.execPictureDecoded kind unit fin ready s
  | .csbWrite c => Sys2Proof.Machine.execCsbWrite c s
  | .coreHang k badSpares => Sys2Proof.Machine.execCoreHang k badSpares s
  | .coreUe k badSpares => Sys2Proof.Machine.execCoreUe k badSpares s
  | .normalMigration c => Sys2Proof.Machine.execNormalMigration c s
  | .rebalance => Sys2Proof.Machine.execRebalance s
  | .contextFault c code => Sys2Proof.Machine.execContextFault c code s
  | .encodeInstant c skip => Sys2Proof.Machine.execEncodeInstant c skip s
  | .encodePassDone c o skip => Sys2Proof.Machine.execEncodePassDone c o skip s
  | .keyHoldoffExpiry c => Sys2Proof.Machine.execKeyHoldoffExpiry c s
  | .encCoreFault k hang badSpares => Sys2Proof.Machine.execEncCoreFault k hang badSpares s
  | .esbWrite c => Sys2Proof.Machine.execEsbWrite c s
  | .slotStart => Sys2Proof.Machine.execSlotStart s
  | .slotEnd missedTaps => Sys2Proof.Machine.execSlotEnd missedTaps s
  | .epochApply => Sys2Proof.Machine.execEpochApply s
  | .modeArm => Sys2Proof.Machine.execModeArm s
  | .modeCancel => Sys2Proof.Machine.execModeCancel s
  | .camSyncEdge k frame slot => Sys2Proof.Machine.execCamSyncEdge k frame slot s
  | .laneFault lane badSpares => Sys2Proof.Machine.execLaneFault lane badSpares s
  | .flashHoldEnd feed => Sys2Proof.Machine.execFlashHoldEnd feed s
  | .brightnessWrite v => Sys2Proof.Machine.execBrightnessWrite v s
  | .adopt t => Sys2Proof.Machine.execAdopt t s
  | .validate t => Sys2Proof.Machine.execValidate t s
  | .revoke t => Sys2Proof.Machine.execRevoke t s
  | .lampUe n => Sys2Proof.Machine.execLampUe n s
  | .tallySample => Sys2Proof.Machine.execTallySample s
  | .foldDone => Sys2Proof.Machine.execFoldDone s
  | .sweep ue => Sys2Proof.Machine.execSweep ue s
  | .sweepNow => Sys2Proof.Machine.execSweepNow s
  | .sweepPause on => Sys2Proof.Machine.execSweepPause on s
  | .ledgerPeriodExpiry => Sys2Proof.Machine.execLedgerPeriodExpiry s
  | .cruiseStart snag => Sys2Proof.Machine.execCruiseStart snag s
  | .cruiseAbort => Sys2Proof.Machine.execCruiseAbort s
  | .cruiseTimeout => Sys2Proof.Machine.execCruiseTimeout s
  | .lampReportRx port cell => Sys2Proof.Machine.execLampReportRx port cell s
  | .cellSlot port t => Sys2Proof.Machine.execCellSlot port t s
  | .syncRepeat port => Sys2Proof.Machine.execSyncRepeat port s
  | .cruiseSync port => Sys2Proof.Machine.execCruiseSync port s
  | .blackNow port => Sys2Proof.Machine.execBlackNow port s
  | .markerLock port inverted => Sys2Proof.Machine.execMarkerLock port inverted s
  | .lockLoss port signal => Sys2Proof.Machine.execLockLoss port signal s
  | .tileSyncRx port k cell arr => Sys2Proof.Machine.execTileSyncRx port k cell arr s
  | .tilePixelRx port k cell => Sys2Proof.Machine.execTilePixelRx port k cell s
  | .tileBlackRx port k cell arr => Sys2Proof.Machine.execTileBlackRx port k cell arr s
  | .enumRx port k cell onOut props outLock turn => Sys2Proof.Machine.execEnumRx port k cell onOut props outLock turn s
  | .assignRx port k cell => Sys2Proof.Machine.execAssignRx port k cell s
  | .descRx port cell rtt => Sys2Proof.Machine.execDescRx port cell rtt s
  | .enumCollectionClose port => Sys2Proof.Machine.execEnumCollectionClose port s
  | .enumComplete port => Sys2Proof.Machine.execEnumComplete port s
  | .statusUp port cell => Sys2Proof.Machine.execStatusUp port cell s
  | .statusMiss port pos => Sys2Proof.Machine.execStatusMiss port pos s
  | .tileStatusSend port k env => Sys2Proof.Machine.execTileStatusSend port k env s
  | .mgmtDownRx port k cell ans => Sys2Proof.Machine.execMgmtDownRx port k cell ans s
  | .mgmtUpRx port cell => Sys2Proof.Machine.execMgmtUpRx port cell s
  | .mgmtTimeout sub => Sys2Proof.Machine.execMgmtTimeout sub s
  | .bulkRx port k cell => Sys2Proof.Machine.execBulkRx port k cell s
  | .tilePresent port k now => Sys2Proof.Machine.execTilePresent port k now s
  | .tileWatchdog port k now lost => Sys2Proof.Machine.execTileWatchdog port k now lost s
  | .cruiseTest port k res => Sys2Proof.Machine.execCruiseTest port k res s
  | .retrain port => Sys2Proof.Machine.execRetrain port s
  | .reenum port => Sys2Proof.Machine.execReenum port s
  | .trainTimeout port => Sys2Proof.Machine.execTrainTimeout port s
  | .senseSample port mv => Sys2Proof.Machine.execSenseSample port mv s
  | .hsFault port pairs => Sys2Proof.Machine.execHsFault port pairs s
  | .hsFaultCheck port clean => Sys2Proof.Machine.execHsFaultCheck port clean s
  | .hiErrInterval port corr uncorr => Sys2Proof.Machine.execHiErrInterval port corr uncorr s
  | .chanWrite sub ans => Sys2Proof.Machine.execChanWrite sub ans s
  | .bulkWrite sub ans => Sys2Proof.Machine.execBulkWrite sub ans s
  | .channelRead sub ans => Sys2Proof.Machine.execChannelRead sub ans s
  | .netrxRead sub ans => Sys2Proof.Machine.execNetrxRead sub ans s
  | .chanControl sub ans => Sys2Proof.Machine.execChanControl sub ans s
  | .chanSeek sub ans => Sys2Proof.Machine.execChanSeek sub ans s
  | .busClear sub ans => Sys2Proof.Machine.execBusClear sub ans s
  | .chanProbe sub ans => Sys2Proof.Machine.execChanProbe sub ans s
  | .chanSense sub ans => Sys2Proof.Machine.execChanSense sub ans s
  | .chanGoto sub ans => Sys2Proof.Machine.execChanGoto sub ans s
  | .waitEvent sub ans => Sys2Proof.Machine.execWaitEvent sub ans s
  | .channelNop sub ans => Sys2Proof.Machine.execChannelNop sub ans s
  | .pollMatch sub ans => Sys2Proof.Machine.execPollMatch sub ans s
  | .pollIntervalExpiry sub ans => Sys2Proof.Machine.execPollIntervalExpiry sub ans s
  | .backoffRetry sub ans => Sys2Proof.Machine.execBackoffRetry sub ans s
  | .commandTimeout sub => Sys2Proof.Machine.execCommandTimeout sub s
  | .automaticAdmission t ans => Sys2Proof.Machine.execAutomaticAdmission t ans s
  | .ledgerRoutine t ans => Sys2Proof.Machine.execLedgerRoutine t ans s
  | .tagBusyRetry t ans => Sys2Proof.Machine.execTagBusyRetry t ans s
  | .eicDoorbell v => Sys2Proof.Machine.execEicDoorbell v s
  | .eventTaken k => Sys2Proof.Machine.execEventTaken k s
  | .cmdPop k => Sys2Proof.Machine.execCmdPop k s
  | .replyPop k => Sys2Proof.Machine.execReplyPop k s
  | .timerPop k => Sys2Proof.Machine.execTimerPop k s
  | .subchannelTimerExpiry sub => Sys2Proof.Machine.execSubchannelTimerExpiry sub s
  | .uNext k => Sys2Proof.Machine.execUNext k s
  | .uJump k => Sys2Proof.Machine.execUJump k s
  | .uCall k => Sys2Proof.Machine.execUCall k s
  | .uRet k => Sys2Proof.Machine.execURet k s
  | .uDispatch k => Sys2Proof.Machine.execUDispatch k s
  | .uBoundary k => Sys2Proof.Machine.execUBoundary k s
  | .uCcb k => Sys2Proof.Machine.execUCcb k s
  | .uIdle k => Sys2Proof.Machine.execUIdle k s
  | .eoeNormal k => Sys2Proof.Machine.execEoeNormal k s
  | .eoeFast k => Sys2Proof.Machine.execEoeFast k s
  | .uHalt k => Sys2Proof.Machine.execUHalt k s
  | .rrd k => Sys2Proof.Machine.execRrd k s
  | .rwr k => Sys2Proof.Machine.execRwr k s
  | .brd k ue => Sys2Proof.Machine.execBrd k ue s
  | .bwr k => Sys2Proof.Machine.execBwr k s
  | .hload k ok => Sys2Proof.Machine.execHload k ok s
  | .hstore k ok => Sys2Proof.Machine.execHstore k ok s
  | .uFetch k ok => Sys2Proof.Machine.execUFetch k ok s
  | .ctxLd k => Sys2Proof.Machine.execCtxLd k s
  | .ctxSt k => Sys2Proof.Machine.execCtxSt k s
  | .dbell k => Sys2Proof.Machine.execDbell k s
  | .evtake k => Sys2Proof.Machine.execEvtake k s
  | .i2cStart k failed => Sys2Proof.Machine.execI2cStart k failed s
  | .i2cStop k failed => Sys2Proof.Machine.execI2cStop k failed s
  | .i2cTx k failed ack => Sys2Proof.Machine.execI2cTx k failed ack s
  | .i2cRx k failed b => Sys2Proof.Machine.execI2cRx k failed b s
  | .i2cPulse k failed sda => Sys2Proof.Machine.execI2cPulse k failed sda s
  | .lineSet k => Sys2Proof.Machine.execLineSet k s
  | .lineGet k scl sda => Sys2Proof.Machine.execLineGet k scl sda s
  | .i2cSpeed k => Sys2Proof.Machine.execI2cSpeed k s
  | .mgmtSend k => Sys2Proof.Machine.execMgmtSend k s
  | .mgmtTake k => Sys2Proof.Machine.execMgmtTake k s
  | .bulkSend k => Sys2Proof.Machine.execBulkSend k s
  | .timerSet k => Sys2Proof.Machine.execTimerSet k s
  | .timerClr k => Sys2Proof.Machine.execTimerClr k s
  | .senseGet k => Sys2Proof.Machine.execSenseGet k s
  | .csUe k => Sys2Proof.Machine.execCsUe k s
  | .csScrub fixed bad => Sys2Proof.Machine.execCsScrub fixed bad s
  | .csLock => Sys2Proof.Machine.execCsLock s
  | .chGo n => Sys2Proof.Machine.execChGo n s
  | .chResume n => Sys2Proof.Machine.execChResume n s
  | .channelAbort n => Sys2Proof.Machine.execChannelAbort n s
  | .descriptorFetch n => Sys2Proof.Machine.execDescriptorFetch n s
  | .skdBurst n inFlight => Sys2Proof.Machine.execSkdBurst n inFlight s
  | .descriptorDone n => Sys2Proof.Machine.execDescriptorDone n s
  | .requestAsserted port => Sys2Proof.Machine.execRequestAsserted port s
  | .requestWithdrawn port => Sys2Proof.Machine.execRequestWithdrawn port s
  | .transferError n isDesc isRead space cause addr => Sys2Proof.Machine.execTransferError n isDesc isRead space cause addr s
  | .drainComplete => Sys2Proof.Machine.execDrainComplete s
  | .haltClr => Sys2Proof.Machine.execHaltClr s
  | .refill => Sys2Proof.Machine.execRefill s
  | .frameEnqueue => Sys2Proof.Machine.execFrameEnqueue s
  | .frameTransmit inst stamp frac => Sys2Proof.Machine.execFrameTransmit inst stamp frac s
  | .jelekQueueRelease port => Sys2Proof.Machine.execJelekQueueRelease port s
  | .htxTail r v => Sys2Proof.Machine.execHtxTail r v s
  | .htxDescriptor r ok => Sys2Proof.Machine.execHtxDescriptor r ok s
  | .htxWriteback r => Sys2Proof.Machine.execHtxWriteback r s
  | .sramCe lamp addr => Sys2Proof.Machine.execSramCe lamp addr s
  | .sramUe lamp addr use => Sys2Proof.Machine.execSramUe lamp addr use s
  | .yardScrub ce => Sys2Proof.Machine.execYardScrub ce s
  | .sramInit rows => Sys2Proof.Machine.execSramInit rows s
  | .hbmInit stack failed lanes => Sys2Proof.Machine.execHbmInit stack failed lanes s
  | .hbmRefresh stack => Sys2Proof.Machine.execHbmRefresh stack s
  | .neighbourRefresh stack => Sys2Proof.Machine.execNeighbourRefresh stack s
  | .selfRefreshEntry stack => Sys2Proof.Machine.execSelfRefreshEntry stack s
  | .selfRefreshExit stack => Sys2Proof.Machine.execSelfRefreshExit stack s
  | .hbmCe addr => Sys2Proof.Machine.execHbmCe addr s
  | .hbmUe addr user => Sys2Proof.Machine.execHbmUe addr user s
  | .hbmScrub stack ce ue => Sys2Proof.Machine.execHbmScrub stack ce ue s
  | .hbmRetrain stack lanes => Sys2Proof.Machine.execHbmRetrain stack lanes s
  | .pprGo stack entry => Sys2Proof.Machine.execPprGo stack entry s
  | .bistGo mem => Sys2Proof.Machine.execBistGo mem s
  | .flitReceived link flit ack again => Sys2Proof.Machine.execFlitReceived link flit ack again s
  | .replayFail link => Sys2Proof.Machine.execReplayFail link s
  | .discovery d => Sys2Proof.Machine.execDiscovery d s
  | .csCopy child words check checkEn => Sys2Proof.Machine.execCsCopy child words check checkEn s
  | .regMessage m => Sys2Proof.Machine.execRegMessage m s
  | .timeExchange link t1 t2 t3 t4 => Sys2Proof.Machine.execTimeExchange link t1 t2 t3 t4 s
  | .timeCorrection link parent parentFrac own => Sys2Proof.Machine.execTimeCorrection link parent parentFrac own s
  | .beaconSend => Sys2Proof.Machine.execBeaconSend s
  | .beaconRx frame opSeq epoch exceeded => Sys2Proof.Machine.execBeaconRx frame opSeq epoch exceeded s
  | .resync mode reset opSeq => Sys2Proof.Machine.execResync mode reset opSeq s
  | .parentLinkDown link path lost => Sys2Proof.Machine.execParentLinkDown link path lost s
  | .beaconMiss => Sys2Proof.Machine.execBeaconMiss s
  | .isoHoldExpiry => Sys2Proof.Machine.execIsoHoldExpiry s
  | .standRejoin engine link => Sys2Proof.Machine.execStandRejoin engine link s
  | .fatalBroadcast engine => Sys2Proof.Machine.execFatalBroadcast engine s
  | .snapshotLatch t => Sys2Proof.Machine.execSnapshotLatch t s
  | .shareSend n slot => Sys2Proof.Machine.execShareSend n slot s
  | .shareReceive n src pic => Sys2Proof.Machine.execShareReceive n src pic s
  | .refclkLost => Sys2Proof.Machine.execRefclkLost s
  | .powerOnReset x => Sys2Proof.Machine.execPowerOnReset x s
  | .bootLoader flash => Sys2Proof.Machine.execBootLoader flash s
  | .warmReset v => Sys2Proof.Machine.execWarmReset v s
  | .functionLevelReset => Sys2Proof.Machine.execFunctionLevelReset s
  | .pwrFailAssert => Sys2Proof.Machine.execPwrFailAssert s
  | .pwrFailRelease => Sys2Proof.Machine.execPwrFailRelease s
  | .srcCfgWrite v => Sys2Proof.Machine.execSrcCfgWrite v s
  | .stStep v => Sys2Proof.Machine.execStStep v s
  | .adjFreq v => Sys2Proof.Machine.execAdjFreq v s
  | .srcHold on => Sys2Proof.Machine.execSrcHold on s
  | .servoTimeout => Sys2Proof.Machine.execServoTimeout s
  | .refFsPulse stamp => Sys2Proof.Machine.execRefFsPulse stamp s
  | .refFsMissing => Sys2Proof.Machine.execRefFsMissing s
  | .wallFrameBoundary => Sys2Proof.Machine.execWallFrameBoundary s
  | .holdLimitExpiry => Sys2Proof.Machine.execHoldLimitExpiry s
  | .ppsIn stamp => Sys2Proof.Machine.execPpsIn stamp s
  | .stLoRead => Sys2Proof.Machine.execStLoRead s
  | .txtsInfoRead => Sys2Proof.Machine.execTxtsInfoRead s
  | .deviceFatal cause => Sys2Proof.Machine.execDeviceFatal cause s
  | .fatalForce v => Sys2Proof.Machine.execFatalForce v s
  | .fatalRecClear => Sys2Proof.Machine.execFatalRecClear s
  | .retireReq v badSpares => Sys2Proof.Machine.execRetireReq v badSpares s
  | .thermalSample sensor junction stack0 stack1 => Sys2Proof.Machine.execThermalSample sensor junction stack0 stack1 s
  | .powerOnResetAsserted supply => Sys2Proof.Machine.execPowerOnResetAsserted supply s
  | .l1Entry => Sys2Proof.Machine.execL1Entry s
  | .tileUpstreamCellRx port k cell => Sys2Proof.Machine.execTileUpstreamCellRx port k cell s
  | .enumAssignTimeout port => Sys2Proof.Machine.execEnumAssignTimeout port s
  | .tileConfirmDone => Sys2Proof.Machine.execTileConfirmDone s
  | .pprDone stack => Sys2Proof.Machine.execPprDone stack s
  | .bistDone mem pass rows => Sys2Proof.Machine.execBistDone mem pass rows s

end Sys2Proof.Machine
end

