-- ==== Sys2Proof/Machine/Step.lean ====
section
/-! DEFINITION. One step: the command at the front of the queue, or one idle cycle of the stand-time counter. -/
namespace Sys2Proof.Machine

/-- The idle cycle (DESIGN CHOICE: assumption log 6): one CLK_CTL cycle of the stand-time counter (R446), while it runs. -/
def State.idle (s : State) : State := if s.alive .tim then s.tick else s

/-- Take the command at the front of the queue; on an empty queue the block idles. -/
def step (s : State) : Out :=
  match s.pending with
  | [] => .next s.idle
  | c :: rest => exec c { s with pending := rest }

/-- The state with the command that a table word spells put at the front of its queue. -/
def State.withFetchWord (s : State) (nbits w : Nat) : State :=
  match decodeTableWord nbits w with
  | some c => { s with pending := c :: s.pending }
  | none => s

end Sys2Proof.Machine
end

