-- ==== Sys2Proof/Safety.lean ====
section
/-! DEFINITION. What counts as a safe run of the engine, in the terms the statements use. -/
namespace Sys2Proof.Machine

/-- Every memory and register store has its canonical form: keys strictly rising, nothing listed that an unlisted key
reads as. -/
def State.storesWf (s : State) : Bool :=
  swf regReset s.regs && swf (fun _ => 0) s.tables && swf (fun _ => 0) s.host && swf (fun _ => 0) s.hbm
    && swf (fun _ => 0) s.yard

/-- The engine does not work at all: held in power-on reset, or stopped with its clocks (R435, R468, R471). -/
def State.halted (s : State) : Bool := decide (s.flt.life = .dead) || decide (s.flt.life = .held)

/-- Every port is BLACK port-wide (R457). -/
def State.allBlack (s : State) : Prop := ∀ p, s.portBlack p = true

/-- Is a command an event of the reset input or of the supplies (R435, R441, R471), which alone end a halt? -/
def isPower : Instr → Bool
  | .powerOnReset _ | .powerOnResetAsserted _ => true
  | _ => false

/-- Is a command an event of a tile, which works by itself beside the engine (R260)? -/
def isTile : Instr → Bool
  | .tileSyncRx .. | .tilePixelRx .. | .tileBlackRx .. | .enumRx .. | .assignRx .. | .tileStatusSend ..
  | .mgmtDownRx .. | .bulkRx .. | .tilePresent .. | .tileWatchdog .. | .cruiseTest .. | .tileUpstreamCellRx .. => true
  | _ => false

/-- Registers that an interrupt request of page `p` can change by itself (R35, R36, R81, R83-R85, R333, R334): the page's
INT_CAUSE; the EIC's INT_CAUSE and counters; the latches of the sequencers; the host link's power state and the PBA. -/
def sigReg (p p' off : Nat) : Bool :=
  (decide (p' = p) && decide (off = O.INT_CAUSE))
    || (decide (p' = pEic) && (decide (off = O.INT_CAUSE) || decide (off = O.EIC_CNT_RAISES)
        || decide (off = O.EIC_CNT_COALESCED) || decide (off = O.EIC_CNT_DISABLED)))
    || (decide (pYsq ≤ p') && decide (p' < pYsq + 8) && decide (off = O.YSQ_EVT_LATCH))
    || (decide (p' = pHif) && (decide (off = O.HIF_PM_STAT)
        || (decide (O.HIF_PBA ≤ off) && decide (off < O.HIF_PBA + 256))))

/-- One byte of host memory. -/
def State.hostByte (s : State) (a : Nat) : Byte := sget (fun _ => 0) s.host a

/-- One byte of HBM, by engine address. -/
def State.hbmByte (s : State) (a : Nat) : Byte := sget (fun _ => 0) s.hbm a

/-- One byte of the yard's staging area. -/
def State.yardByte (s : State) (a : Nat) : Byte := sget (fun _ => 0) s.yard a

/-- Every byte of host memory, HBM and the staging area reads as before. -/
def memSame (s t : State) : Prop :=
  (∀ a, t.hostByte a = s.hostByte a) ∧ (∀ a, t.hbmByte a = s.hbmByte a) ∧ ∀ a, t.yardByte a = s.yardByte a

/-- Every register reads as before but those that `may` names. -/
def regsSame (may : Nat → Nat → Bool) (s t : State) : Prop :=
  ∀ p off, off < 0x10000 → may p off = false → t.rd p off = s.rd p off

/-- Every table word reads as before but those of the page and table that `may` names. -/
def tabsSame (may : Nat → Nat → Bool) (s t : State) : Prop :=
  ∀ p k c i, k < 256 → c < 2 → i < 2 ^ 24 → may p k = false → t.tabAt p k c i = s.tabAt p k c i

/-- `s` with everything that an interrupt request or message can change taken from `t`: registers, the EIC's source
table and the saturations it has reported, the function's power state and what leaves the engine. -/
def sigRest (s t : State) : State :=
  { s with regs := t.regs, tables := t.tables, hif := t.hif, eicSat := t.eicSat, out := t.out }

/-- `j` is the started job of opcode `op` that `r` names, and its block has not taken it yet. -/
def State.jobReady (s : State) (r : JobRef) (op : Nat) (j : Job) : Prop :=
  s.alive .wqm = true ∧ s.findJob r = some j ∧ j.op = op ∧ j.out = none ∧ j.taken = false

/-- The job that `r` names has the outcome `o`. -/
def State.jobEnded (s : State) (r : JobRef) (o : JobOut) : Prop := (s.findJob r).map (·.out) = some (some o)

/-- The EIC's source table, where requests are counted (R333). -/
def sigTab (p k : Nat) : Bool := decide (p = pEic) && decide (k = 0)

/-- Subchannel `n` may begin a command: host memory can be reached and answers, `c` stands at its next address, sound and not to be paused at,
and `o` is the operation it starts. -/
def State.chAt (s : State) (n : Nat) (a : ChAns) (c : ChCmd) (o : ChOp) : Prop :=
  s.alive .ysq = true ∧ s.chReady n = true ∧ s.hostReady = true ∧ a.mem = .ok ∧ s.fetchCmd (s.subOf n).pc = c
    ∧ (c.pause = false ∨ (s.subOf n).skip = true ∨ s.bit (State.ysqOf n) (State.schOff n) 28 = true)
    ∧ c.check (State.isDirect n) = 0 ∧ s.opFrom (State.isDirect n) c = .inr o

/-- Status record of KIND `kind` that stands for subchannel `n`, with the outcome its state holds (R310). -/
def statusRecord (t : State) (n kind next : Nat) : List Byte :=
  let b := t.subOf n
  leBytes 2 (t.fld (State.ysqOf n) (State.schOff n) 0 16) ++ leBytes 1 (kind * 64 + min 63 b.retries)
    ++ leBytes 1 b.reason ++ leBytes 1 (b.endc * 16 + b2n b.noted * 8) ++ [0] ++ leBytes 2 (min 65535 b.resid)
    ++ leBytes 8 next

/-- Operation `o` of subchannel `n`, as it stands when it ends, ended with an END and REASON: with LINK after DONE or
MATCHED the next command follows, else the final status record stands in host memory and the subchannel is IDLE. -/
def opEnded (s t : State) (n : Nat) (o : ChOp) (endc reason : Nat) : Prop :=
  let b := t.subOf n
  let next := (o.tail.addr + if endc = 1 then 32 else 16) % 2 ^ 64
  b.op = none ∧ b.last = o.tail.addr ∧ b.endc = endc ∧ b.reason = reason ∧ b.resid = o.total - o.moved
    ∧ b.retries = o.retries ∧ b.noted = o.cmds.any (·.note) ∧ (endc = 3 → b.devErr = reason)
    ∧ (if (endc = 0 ∨ endc = 1) ∧ o.tail.link = true then b.pc = next ∧ t.schState n = s.schState n
      else t.schState n = 0
        ∧ t.hostBytes (s.rd64 pYcs O.YCS_STAT_BASE_LO + 16 * n) 16 = statusRecord t n 0 next
        ∧ (o.cmds.any (·.note) = false → t.fld (State.ysqOf n) (State.schOff n) 0 16
            = (s.fld (State.ysqOf n) (State.schOff n) 0 16 + 1) % 65536))

/-- Registers of a subchannel's sequencer page that a command of the subchannel may write by itself, with those that its
page's interrupt request can change. -/
def subReg (n p off : Nat) : Bool :=
  (decide (p = State.ysqOf n) && (decide (off = State.schOff n) || decide (off = State.pathOff (n / 64))
      || decide (off = O.YSQ_STATUS_MAP + 4 * (n % 512 / 32)) || decide (off = O.YSQ_CNT_DEVICE_ERROR)
      || decide (off = O.YSQ_CNT_PROGRAM_ERROR) || decide (off = O.YSQ_CNT_BUS_CLEAR)
      || decide (off = O.YSQ_CNT_BACKOFF) || decide (off = O.YSQ_CNT_STARTS)))
    || sigReg (State.ysqOf n) p off

/-- What a command of subchannel `n` leaves alone: HBM and the staging area, the other subchannels, every register but
`subReg`, every table but the EIC's sources, and host memory outside `area` and the subchannel's status record. -/
def subFrame (area : Nat → Bool) (s t : State) (n : Nat) : Prop :=
  (∀ x, t.hbmByte x = s.hbmByte x) ∧ (∀ x, t.yardByte x = s.yardByte x)
    ∧ (∀ x, area x = false
      → (x < s.rd64 pYcs O.YCS_STAT_BASE_LO + 16 * n ∨ s.rd64 pYcs O.YCS_STAT_BASE_LO + 16 * n + 16 ≤ x)
      → t.hostByte x = s.hostByte x)
    ∧ (∀ m, m ≠ n → t.subOf m = s.subOf m) ∧ regsSame (subReg n) s t ∧ tabsSame sigTab s t

/-- The state a command leads to; the state itself where a command stops (none does). -/
def after (c : Instr) (s : State) : State :=
  match exec c s with
  | .next t => t
  | _ => s

end Sys2Proof.Machine
end

