-- ==== Sys2Proof/Certificates/Slice0/Obligations.lean ====
section
/-! DEFINITION. The statements about the engine, for the provers. -/
open Sys2Proof Sys2Proof.Machine

/-- A step takes the command at the front of the queue and runs it on the state with the rest of the queue. The queue
is the model's own (log 1); that each operation is one indivisible step is the spec's. -/
def Obligations.StepRunsFrontCommand : Prop :=
  ∀ (c : Instr) (rest : List Instr) (s : State), s.pending = c :: rest →
    step s = exec c { s with pending := rest }

/-- An idle step is one CLK_CTL cycle of the stand-time counter (the model's choice, log 6) and changes nothing else. -/
def Obligations.EmptyQueueOnlyCountsTime : Prop :=
  ∀ s : State, s.pending = [] → ∃ t, step s = .next t ∧ t = { s with tim := t.tim }
    ∧ (s.alive .tim = false → t = s)
    ∧ (s.alive .tim = true → s.rd pTim O.TIM_ADJ_FREQ = 0 → s.tim.adjAcc = 0 →
        t.tim.frac = (s.tim.frac + 163840) % 65536
          ∧ t.tim.time = (s.tim.time + (s.tim.frac + 163840) / 65536) % 2 ^ 64)

/-- No command stops the block, and none touches the queue of waiting commands, which is the step's alone. -/
def Obligations.EveryCommandAnswersAndLeavesQueue : Prop :=
  ∀ (c : Instr) (s : State), ∃ t, exec c s = .next t ∧ t.pending = s.pending

/-- A halted engine changes nothing of itself: only the tiles, which work beside it, go on (R260, R435, R468, R471). -/
def Obligations.HaltedEngineIsFrozen : Prop :=
  ∀ (c : Instr) (s : State), s.halted = true → isPower c = false →
    ∃ t, exec c s = .next t ∧ t = { s with tilesOf := t.tilesOf, out := t.out } ∧ (isTile c = false → t = s)

/-- The engine is halted and no reset event waits. -/
def Obligations.HaltKeptByEveryStep : Prop :=
  let Inv := fun s : State => s.halted = true ∧ ∀ c ∈ s.pending, isPower c = false
  ∀ s s' : State, Inv s → step s = .next s' →
    Inv s' ∧ s'.flt = s.flt ∧ s'.regs = s.regs ∧ s'.tables = s.tables ∧ s'.tim = s.tim ∧ s'.black = s.black
      ∧ memSame s s' ∧ s'.pending = s.pending.drop 1

/-- Assertion of power-on reset (R471): the engine halts and loses its state; host memory and the tiles are outside it. -/
def Obligations.ResetAssertedHaltsEngine : Prop :=
  ∀ (supply : Bool) (s : State), ∃ t, exec (.powerOnResetAsserted supply) s = .next t ∧ t.flt.life = .held
    ∧ (∀ p off, off < 0x10000 → supply = true ∨ p ≠ pDev ∧ p ≠ pClk → t.rd p off = (regReset (regKey p off)).toNat)
    ∧ (∀ p k c i, t.tabAt p k c i = 0) ∧ (∀ a, t.hbmByte a = 0) ∧ (∀ a, t.yardByte a = 0)
    ∧ (∀ a, t.hostByte a = s.hostByte a) ∧ t.tilesOf = s.tilesOf
    ∧ t.sq = [] ∧ t.cq = [] ∧ t.ctxs = [] ∧ t.flumes = [] ∧ t.posted = []

/-- Doorbells under the conditions of R65 and R79, and writes of a push window (R76). -/
def Obligations.DoorbellsAcceptedMoveTailAndHead : Prop :=
  (∀ (q : Fin 528) (v : W32) (s : State), s.alive .wqm = true → s.qState q = 1 →
    v.toNat % 2 ^ 16 < s.qSize q →
    (v.toNat % 2 ^ 16 + s.qSize q - s.qTail q % s.qSize q) % s.qSize q
      ≤ s.qSize q - 1 - (s.qTail q + s.qSize q - s.qHead q % s.qSize q) % s.qSize q →
    ∃ t, exec (.sqDb q v) s = .next t ∧ t.qTail q = v.toNat % 2 ^ 16 ∧ t.qState q = 1
      ∧ t = { s with regs := t.regs, sq := t.sq } ∧ memSame s t
      ∧ regsSame (fun p off => decide (p = pWqm) && decide (off = State.sqr O.WQM_QPTR q)) s t)
  ∧ (∀ (c : Fin 256) (v : W32) (s : State), s.alive .wqm = true → s.cActive c = true →
    v.toNat % 2 ^ 16 < s.cSize c →
    (v.toNat % 2 ^ 16 + s.cSize c - s.fld pWqm (State.sqr O.WQM_CQHEAD c) 0 16) % s.cSize c
      ≤ (s.cTail c + s.cSize c - s.fld pWqm (State.sqr O.WQM_CQHEAD c) 0 16) % s.cSize c →
    ∃ t, exec (.cqDb c v) s = .next t ∧ t.fld pWqm (State.sqr O.WQM_CQHEAD c) 0 16 = v.toNat % 2 ^ 16
      ∧ t = { s with regs := t.regs } ∧ memSame s t
      ∧ regsSame (fun p off => decide (p = pWqm) && decide (off = State.sqr O.WQM_CQHEAD c)) s t)
  ∧ (∀ (q : Fin 512) (dw : Fin 32) (data : List W32) (s : State), s.alive .wqm = true → data ≠ [] →
    dw.val + data.length ≤ 32 →
    ∃ t, exec (.pushWindowWrite q dw data) s = .next t ∧ t = { s with sq := t.sq } ∧ memSame s t
      ∧ ∀ i, i < data.length → (dw.val + i, data.getD i 0) ∈ (t.sqOf q).win)

/-- Doorbells outside the conditions of R65 and R79. -/
def Obligations.DoorbellsRefusedRaiseTheirCause : Prop :=
  (∀ (q : Fin 528) (v : W32) (s : State), s.alive .wqm = true → s.qState q = 1 →
    ¬ (v.toNat % 2 ^ 16 < s.qSize q ∧
      (v.toNat % 2 ^ 16 + s.qSize q - s.qTail q % s.qSize q) % s.qSize q
        ≤ s.qSize q - 1 - (s.qTail q + s.qSize q - s.qHead q % s.qSize q) % s.qSize q) →
    ∃ t, exec (.sqDb q v) s = .next t ∧ t.qState q = 3 ∧ t.qTail q = s.qTail q
      ∧ t.rd pWqm (State.sqr O.WQM_QERR q) = 2 ^ 31 + 0x0A * 2 ^ 16 + s.qTail q
      ∧ t.bit pWqm (O.WQM_QERR_MAP + 4 * (q / 32)) (q % 32) = true
      ∧ t.rd pWqm O.WQM_CNT_MALFORMED = s.rd pWqm O.WQM_CNT_MALFORMED ∧ t.bit pWqm O.INT_CAUSE 0 = true)
  ∧ (∀ (q : Fin 528) (v : W32) (s : State), s.alive .wqm = true → s.qState q ≠ 1 →
    ∃ t, exec (.sqDb q v) s = .next t ∧ t.bit pWqm O.INT_CAUSE 2 = true ∧ regsSame (sigReg pWqm) s t ∧ memSame s t)
  ∧ (∀ (c : Fin 256) (v : W32) (s : State), s.alive .wqm = true → s.cActive c = false →
    ∃ t, exec (.cqDb c v) s = .next t ∧ t.bit pWqm O.INT_CAUSE 3 = true ∧ regsSame (sigReg pWqm) s t ∧ memSame s t)

/-- Enabling, draining and disabling of queues (R58-R61, R77). -/
def Obligations.QueuesEnableDrainAndDisable : Prop :=
  (∀ (q : Fin 528) (v : W32) (s : State), s.alive .wqm = true → s.qState q = 0 → bitOf v.toNat 31 = true →
    4 ≤ bitsOf v.toNat 0 4 → s.cActive (bitsOf v.toNat 16 8) = true →
    ∃ t, exec (.qcfgEnWrite q v) s = .next t ∧ t.qState q = 1 ∧ t.bit pWqm (State.sqr O.WQM_QCFG q) 31 = true
      ∧ t.rd pWqm (State.sqr O.WQM_QERR q) = 0 ∧ t.qCq q = bitsOf v.toNat 16 8 ∧ t.qSize q = 2 ^ bitsOf v.toNat 0 4
      ∧ t.qHead q = s.fld pWqm (State.sqr O.WQM_QPTR q) 0 16 ∧ t.qTail q = t.qHead q ∧ (t.sqOf q).fetch = t.qHead q
      ∧ memSame s t)
  ∧ (∀ (q : Fin 528) (v : W32) (s : State), s.alive .wqm = true → s.qState q = 1 → bitOf v.toNat 31 = false →
    v.toNat &&& 0x60FF000F = s.rd pWqm (State.sqr O.WQM_QCFG q) &&& 0x60FF000F →
    (s.sqOf q).started = [] → (s.sqOf q).ghosts = [] →
    ∃ t, exec (.qcfgEnWrite q v) s = .next t ∧ t.qState q = 2 ∧ t.bit pWqm (State.sqr O.WQM_QCFG q) 31 = false
      ∧ (t.sqOf q).ready = [] ∧ (t.sqOf q).chain = [] ∧ (t.sqOf q).pushes = [] ∧ t.qHead q = s.qHead q ∧ memSame s t)
  ∧ (∀ (q : Fin 528) (s : State), s.alive .wqm = true → s.qState q = 2 → (s.sqOf q).started = [] →
    ∃ t, exec (.queueDrained q) s = .next t ∧ t.qState q = 0 ∧ t.qHead q = s.qHead q ∧ t = { s with regs := t.regs }
      ∧ regsSame (fun p off => decide (p = pWqm) && decide (off = State.sqr O.WQM_QSTAT q)) s t)
  ∧ (∀ (c : Fin 256) (v : W32) (s : State), s.alive .wqm = true → s.cActive c = false → bitOf v.toNat 31 = true →
    4 ≤ bitsOf v.toNat 0 4 →
    ∃ t, exec (.cqcfgEnWrite c v) s = .next t ∧ t.cActive c = true ∧ t.cTail c = 0
      ∧ t.rd pWqm (State.sqr O.WQM_CQHEAD c) = 0 ∧ t.bit pWqm (State.sqr O.WQM_CQSTAT c) 29 = true
      ∧ t.cSize c = 2 ^ bitsOf v.toNat 0 4 ∧ memSame s t)

/-- Fetch, start and the simplest job (R62, R66, R73, R74). -/
def Obligations.JobsFetchedAndStarted : Prop :=
  (∀ (k : Nat) (s : State), s.alive .wqm = true → s.running pWqm = true → s.arbPick = some k →
    let q := State.arbQueue k
    let b := s.hostBytes (s.rd64 pWqm (State.sqr O.WQM_SQ_BASE_LO q) + 64 * (s.sqOf q).fetch) 64
    let e : Entry := ⟨(s.sqOf q).fetch, (List.range 16).map fun i => BitVec.ofNat 32 (leWord b (4 * i))⟩
    (s.sqOf q).pushes = [] → (s.sqOf q).chain = [] → (s.sqOf q).cut = none → e.form = 0 →
    entryCode q (s.bit pWqm (State.sqr O.WQM_QCFG q) 30) [] e = 0 →
    ∃ t j, exec (.entryFetch true) s = .next t ∧ jobOf [e] = some j
      ∧ (t.sqOf q).ready = (s.sqOf q).ready ++ [{ j with
          gen := (s.sqOf q).gen, out := if (s.sqOf q).shut = some 0 then some { status := 8 } else none }] ∧ (t.sqOf q).chain = []
      ∧ (t.sqOf q).fetch = ((s.sqOf q).fetch + 1) % s.qSize q ∧ t.arb = (k + 1) % 528 ∧ memSame s t)
  ∧ (∀ (q : Fin 528) (ok : Bool) (j : Job) (r : List Job) (s : State), s.alive .wqm = true →
    (s.sqOf q).ready = j :: r → j.indirect = false → State.takesChannel j = false → s.canStart q false = true →
    s.rd pWqm (State.sqr O.WQM_CQ_RESV (s.qCq q)) < 2 ^ 31 →
    ∃ t, exec (.jobStart q ok) s = .next t ∧ (t.sqOf q).ready = r ∧ (t.sqOf q).started = (s.sqOf q).started ++ [j]
      ∧ t.rd pWqm (State.sqr O.WQM_CQ_RESV (s.qCq q)) = s.rd pWqm (State.sqr O.WQM_CQ_RESV (s.qCq q)) + 1
      ∧ t = { s with regs := t.regs, sq := t.sq } ∧ memSame s t)
  ∧ (∀ (r : JobRef) (j : Job) (s : State), s.alive .wqm = true → s.findJob r = some j → j.op = 0x7F → j.out = none →
    j.taken = false →
    ∃ t, exec (.nop r) s = .next t ∧ (t.findJob r).map (·.out) = some (some { status := 0 })
      ∧ t = { s with sq := t.sq } ∧ memSame s t)

/-- The completion entry (R71, R72, R75) and the moderated message (R80). -/
def Obligations.CompletionEntriesAndMessages : Prop :=
  (∀ (r : JobRef) (j : Job) (o : JobOut) (s : State), s.alive .wqm = true → s.hostReady = true →
    (s.sqOf r.q).started.find? (State.isJob r) = some j → j.out = some o → s.mayComplete r.q j = true →
    let c := s.qCq r.q
    let a := s.rd64 pWqm (State.sqr O.WQM_CQ_BASE_LO c) + 16 * s.cTail c
    let h := (State.advanceHead (s.qSize r.q) 65536 (s.qHead r.q) ((j.first, j.count) :: (s.sqOf r.q).finished)).1
    let ws : List Nat := [r.q.val * 2 ^ 16 + j.tag, h * 2 ^ 16 + o.status, o.result,
      b2n (s.bit pWqm (State.sqr O.WQM_CQSTAT c) 29) * 2 ^ 31 + (if o.status = 0 then 0 else o.detail % 2 ^ 16)]
    ∃ t, exec (.jobComplete r) s = .next t
      ∧ t.hostBytes a 16 = (ws.map fun w => leBytes 4 (w % 2 ^ 32)).flatten
      ∧ (∀ x, x < a ∨ a + 16 ≤ x → t.hostByte x = s.hostByte x)
      ∧ (∀ x, t.hbmByte x = s.hbmByte x)
      ∧ (t.sqOf r.q).started = (s.sqOf r.q).started.filter (fun x => x.first ≠ j.first)
      ∧ t.qHead r.q = h % 2 ^ 16)
  ∧ (∀ (c : Fin 256) (s : State), s.alive .wqm = true → s.hostReady = true → (s.cqOf c).timing = true →
    s.cActive c = true →
    s.bit pWqm (State.sqr O.WQM_CQCFG c) 30 = true →
    let v := s.fld pWqm (State.sqr O.WQM_CQCFG c) 16 11
    s.vecMasked v = false →
    ∃ t, exec (.moderationTimer c) s = .next t ∧ t.cqOf c = {}
      ∧ t.out = .msix v (s.rd64 pHif (O.HIF_MSIX_ADDR_LO + 16 * v))
          (BitVec.ofNat 32 (s.rd pHif (O.HIF_MSIX_DATA + 16 * v))) :: s.out
      ∧ regsSame (sigReg pWqm) s t ∧ memSame s t)

/-- The host link (R55, R83-R85, R488). PM_STAT: bit 0 LINK_UP, 1 L1, 2 D3HOT, 3 PME_PENDING. -/
def Obligations.HostLinkStatesFollowTheirEvents : Prop :=
  let pm := fun (s : State) (b : Nat) => s.bit pHif O.HIF_PM_STAT b
  let pmOnly := fun p off : Nat => decide (p = pHif) && decide (off = O.HIF_PM_STAT)
  (∀ s : State, s.alive .hif = true → ∃ t, exec .l1Exit s = .next t ∧ pm t 1 = false ∧ t = { s with regs := t.regs }
    ∧ regsSame pmOnly s t)
  ∧ (∀ s : State, s.alive .hif = true → pm s 0 = true → ∃ t, exec .l1Entry s = .next t ∧ pm t 1 = true
    ∧ t = { s with regs := t.regs } ∧ regsSame pmOnly s t)
  ∧ (∀ (e : Bool) (s : State), s.alive .hif = true → ∃ t, exec (.d3hotEntry e) s = .next t ∧ pm t 2 = true
    ∧ t.hif.pmeEn = e ∧ pm t 0 = pm s 0 ∧ regsSame pmOnly s t ∧ memSame s t)
  ∧ (∀ s : State, s.alive .hif = true → s.isMember = false → pm s 0 = true → pm s 2 = true → ∃ t, exec .d0Return s = .next t
    ∧ pm t 2 = false ∧ pm t 3 = false ∧ t.hif.held = [])
  ∧ (∀ s : State, s.alive .hif = true → s.isMember = false → pm s 0 = true → ∃ t, exec .linkDown s = .next t ∧ pm t 0 = false
    ∧ pm t 1 = false ∧ t.bit pHif O.INT_CAUSE 1 = true ∧ t.hif.held = s.hif.held ∧ memSame s t)
  ∧ (∀ (w : Fin 64) (v : Fin 16) (bars : W64 × W64 × W64) (m : Fin 6) (s : State), s.alive .hif = true →
    s.isMember = false → pm s 0 = false → pm s 2 = false →
    ∃ t, exec (.linkUp w ⟨v, bars, m⟩) s = .next t ∧ pm t 0 = true ∧ t.rd pHif O.HIF_LINK_STAT = w.val * 16 + v.val
      ∧ t.hif.held = [] ∧ t.hif.maxRead = 128 * 2 ^ m.val
      ∧ t.hif.bar0 = bars.1 >>> 25 <<< 25 ∧ t.hif.bar2 = bars.2.1 >>> 25 <<< 25 ∧ t.hif.bar4 = bars.2.2 >>> 32 <<< 32)
  ∧ (∀ (w : Fin 64) (v : Fin 16) (bars : W64 × W64 × W64) (m : Fin 6) (s : State), s.alive .hif = true →
    s.isMember = false → pm s 0 = true → s.rd pHif O.HIF_LINK_RECOV < 2 ^ 32 - 1 → 4 ≤ w.val →
    ∃ t, exec (.linkUp w ⟨v, bars, m⟩) s = .next t ∧ pm t 0 = true
      ∧ t.rd pHif O.HIF_LINK_RECOV = s.rd pHif O.HIF_LINK_RECOV + 1 ∧ memSame s t)
  ∧ (∀ (w : Fin 64) (v : Fin 16) (bars : W64 × W64 × W64) (m : Fin 6) (s : State), s.isMember = true →
    exec (.linkUp w ⟨v, bars, m⟩) s = .next s ∧ exec .linkDown s = .next s)
  ∧ (∀ (w : Fin 64) (v : Fin 16) (s : State), s.alive .hif = true →
    ∃ t, exec (.linkDegraded w v) s = .next t ∧ t.rd pHif O.HIF_LINK_STAT = w.val * 16 + v.val
      ∧ t.bit pHif O.INT_CAUSE 2 = true ∧ memSame s t)
  ∧ (∀ (v : Fin 2048) (s : State), s.hostAlive = true → s.hostReady = true → s.hif.funcMask = false →
    let pend := fun u : State => u.bit pHif (O.HIF_PBA + 4 * (v / 32)) (v % 32)
    ∃ t, exec (.vectorUnmask ⟨some v, false⟩) s = .next t ∧ t.bit pHif (O.HIF_MSIX_CTRL + 16 * v) 0 = false ∧ pend t = false
      ∧ t.out = (if pend s then
          .msix v (s.rd64 pHif (O.HIF_MSIX_ADDR_LO + 16 * v)) (BitVec.ofNat 32 (s.rd pHif (O.HIF_MSIX_DATA + 16 * v)))
            :: s.out else s.out) ∧ memSame s t)
  ∧ (∀ (v : Fin 2048) (s : State), s.hostAlive = true → ∃ t, exec (.vectorUnmask ⟨some v, true⟩) s = .next t
    ∧ t.vecMasked v = true ∧ t.out = s.out ∧ memSame s t)
  ∧ (∀ s : State, s.hostAlive = true →
    exec (.vectorUnmask ⟨none, true⟩) s = .next { s with hif := { s.hif with funcMask := true } }
      ∧ ∃ t, exec (.vectorUnmask ⟨none, false⟩) s = .next t ∧ t.hif.funcMask = false ∧ memSame s t)

/-- The page state machine (R33) and the soft reset (R34), on the pages whose block adds nothing of its own.
States: 0 STOPPED, 1 STARTING, 2 RUNNING, 3 STOPPING, 4 FAULT. -/
def Obligations.PageStatesFollowTable27 : Prop :=
  let plain : List Blk := [.wqm, .eic, .skd, .chk, .dbk]
  let run := fun (s : State) (p : Nat) => s.bit p O.PAGE_CTL 0
  (∀ (p : Fin 512) (b : Blk) (s : State), blkOf p = some b → s.alive b = true → s.pstate p = 0 →
    State.coreOfPage p = none → p.val ≠ pStd →
    ∃ t, exec (.pageCtlRun p true) s = .next t ∧ t.pstate p = 1 ∧ run t p = true ∧ memSame s t)
  ∧ (∀ (p : Fin 512) (b : Blk) (s : State), blkOf p = some b → b ∈ [Blk.eic, .skd, .chk, .dbk, .yrd, .tim] →
    s.alive b = true → s.pstate p = 2 →
    ∃ t, exec (.pageCtlRun p false) s = .next t ∧ t.pstate p = 3 ∧ run t p = false ∧ (b ≠ .skd → memSame s t))
  ∧ (∀ (p : Fin 512) (b : Blk) (ok : Bool) (bad : List Nat) (s : State), blkOf p = some b → b ∈ plain →
    s.alive b = true → s.pstate p = 1 →
    ∃ t, exec (.pageReady p ok bad) s = .next t ∧ t.pstate p = (if run s p then 2 else 3) ∧ memSame s t)
  ∧ (∀ (p : Fin 512) (b : Blk) (s : State), blkOf p = some b → b ∈ plain → s.alive b = true → s.pstate p = 3 →
    (b = .skd → s.skQuiet = true) → ∃ t, exec (.pageQuiescent p) s = .next t ∧ t.pstate p = (if run s p then 1 else 0) ∧ memSame s t)
  ∧ (∀ (p : Fin 512) (b : Blk) (s : State), blkOf p = some b → b ∈ plain → s.alive b = true → s.pstate p = 1 →
    s.bit p O.ERR_CAPTURE 31 = false →
    ∃ t, exec (.startTimeout p) s = .next t ∧ t.pstate p = 4 ∧ t.rd p O.ERR_CAPTURE = 2 ^ 31 + 1
      ∧ t.rd pDev O.DEV_FLOG_COUNT = (s.rd pDev O.DEV_FLOG_COUNT + 1) % 2 ^ 32 ∧ memSame s t)
  ∧ (∀ (p : Fin 512) (b : Blk) (s : State), blkOf p = some b → b ∈ plain → s.alive b = true → s.pstate p = 3 →
    s.bit p O.ERR_CAPTURE 31 = false →
    ∃ t, exec (.stopTimeout p) s = .next t ∧ t.pstate p = 4 ∧ t.rd p O.ERR_CAPTURE = 2 ^ 31 + 2
      ∧ t.rd pDev O.DEV_FLOG_COUNT = (s.rd pDev O.DEV_FLOG_COUNT + 1) % 2 ^ 32 ∧ memSame s t)
  ∧ (∀ (p : Fin 512) (b : Blk) (s : State), blkOf p = some b → b ∈ [Blk.eic, .hbm, .yrd] → s.alive b = true →
    s.postBusy p = false → s.pstate p ≠ 5 →
    ∃ t, exec (.softReset p) s = .next t ∧ t.pstate p = 0 ∧ t.rd p O.PAGE_CTL = 0 ∧ t.rd p O.INT_CAUSE = 0
      ∧ t.rd p O.INT_MASK = s.rd p O.INT_MASK ∧ t.rd p O.INT_ROUTE = s.rd p O.INT_ROUTE
      ∧ regsSame (fun p' _ => decide (p' = p.val)) s t ∧ memSame s t)

/-- Posted writes (R40): LMP.BRIGHTNESS as the PW register (R228), and RUN. -/
def Obligations.PostedWritesWaitAndApply : Prop :=
  let held := fun (s : State) (p : Nat) => sget (fun _ => none) s.posted p
  (∀ (a : HostWrite) (s : State), s.hostAlive = true → a.off = pLmp * 0x10000 + O.LMP_BRIGHTNESS → a.size = 4 →
    a.allBE = true → s.postBusy pLmp = false →
    ∃ t, exec (.registerWrite a) s = .next t ∧ t.postBusy pLmp = true
      ∧ held t pLmp = some ⟨O.LMP_BRIGHTNESS, BitVec.ofNat 64 (a.data.toNat % 2 ^ 32), false, none⟩
      ∧ t.rd pLmp O.LMP_BRIGHTNESS = s.rd pLmp O.LMP_BRIGHTNESS ∧ memSame s t)
  ∧ (∀ (a : HostWrite) (s : State), s.hostAlive = true → a.off = pLmp * 0x10000 + O.LMP_BRIGHTNESS → a.size = 4 →
    a.allBE = true → s.postBusy pLmp = true →
    ∃ t, exec (.registerWrite a) s = .next t ∧ held t pLmp = held s pLmp ∧ t.bit pLmp O.PAGE_STAT 9 = true
      ∧ t.bit pLmp O.INT_CAUSE 29 = true ∧ memSame s t)
  ∧ (∀ (v : W64) (s : State), s.alive .lmp = true → held s pLmp = some ⟨O.LMP_BRIGHTNESS, v, false, none⟩ →
    ∃ t, exec (.postedWriteApply ⟨pLmp, by decide⟩) s = .next t ∧ t.rd pLmp O.LMP_BRIGHTNESS = v.toNat % 2 ^ 16
      ∧ t.postBusy pLmp = false ∧ held t pLmp = none ∧ t = { s with regs := t.regs, posted := t.posted }
      ∧ regsSame (fun p off => decide (p = pLmp) && (decide (off = O.LMP_BRIGHTNESS) || decide (off = O.PAGE_STAT))) s t)
  ∧ (∀ (p : Fin 512) (b : Blk) (v : W64) (s : State), blkOf p = some b → b ∈ [Blk.eic, .skd, .chk, .dbk] →
    s.alive b = true → s.pstate p = 0 → held s p = some ⟨O.PAGE_CTL, v, false, none⟩ → bitOf v.toNat 0 = true →
    bitOf v.toNat 1 = false →
    ∃ t, exec (.postedWriteApply p) s = .next t ∧ t.pstate p = 1 ∧ t.postBusy p = false ∧ held t p = none ∧ memSame s t)
  ∧ (∀ (p : Fin 512) (s : State), held s p = none → exec (.postedWriteApply p) s = .next s)

/-- Causes (R35, R37) and the bus-error log (R51). -/
def Obligations.InterruptCausesClearedAndForced : Prop :=
  (∀ (p : Fin 512) (b : Blk) (v : W32) (req : BitVec 16) (s : State), s.hostAlive = true → blkOf p = some b → b ≠ .eic →
    ∃ t, exec (.intCauseWrite p ⟨v, req⟩) s = .next t
      ∧ t.rd p O.INT_CAUSE = clrMask (s.rd p O.INT_CAUSE) (v.toNat &&& causeBits b)
      ∧ (bitOf (v.toNat &&& causeBits b) 31 = true →
          t.rd p O.ERR_CAPTURE = 0 ∧ t.rd p O.ERR_INFO = 0 ∧ t.rd64 p O.ERR_ADDR_LO = 0)
      ∧ regsSame (fun p' off => sigReg p p' off || (decide (p' = p.val) && (decide (off = O.ERR_CAPTURE)
          || decide (off = O.ERR_INFO) || decide (off = O.ERR_ADDR_LO) || decide (off = O.ERR_ADDR_HI)
          || decide (off = O.PAGE_STAT)))) s t ∧ memSame s t)
  ∧ (∀ (p : Fin 512) (b : Blk) (v : W32) (req : BitVec 16) (s : State), s.hostAlive = true → blkOf p = some b → b ≠ .eic →
    ∃ t, exec (.intForceWrite p ⟨v, req⟩) s = .next t
      ∧ t.rd p O.INT_CAUSE = (s.rd p O.INT_CAUSE ||| (v.toNat &&& causeBits b)) % 2 ^ 32
      ∧ regsSame (sigReg p) s t ∧ memSame s t)
  ∧ (∀ (p : Fin 512) (v : W32) (req : BitVec 16) (s : State), s.hostAlive = true → blkOf p = none → p.val ≠ 0x100 →
    s.bit pHif O.HIF_BUSERR_LOG 31 = false → ∀ c ∈ [Instr.intCauseWrite p ⟨v, req⟩, .intForceWrite p ⟨v, req⟩],
    ∃ t, exec c s = .next t ∧ t.bit pHif O.HIF_BUSERR_LOG 31 = true
      ∧ t.fld pHif O.HIF_BUSERR_LOG 24 4 = BusCause.reserved.code ∧ memSame s t)
  ∧ (∀ s : State, s.hostAlive = true → ∃ t, exec .buserrLogClear s = .next t
      ∧ t.bit pHif O.HIF_BUSERR_LOG 31 = false ∧ t.bit pHif O.HIF_BUSERR_LOG 30 = false
      ∧ t.rd pHif O.HIF_BUSERR_COUNT = 0 ∧ t.rd64 pHif O.HIF_BUSERR_ADDR_LO = s.rd64 pHif O.HIF_BUSERR_ADDR_LO
      ∧ t = { s with regs := t.regs } ∧ memSame s t)

/-- The indirect window (R43-R48), 32 bits at a time. -/
def Obligations.WindowsSelectReadAndWrite : Prop :=
  (∀ (p : Fin 512) (b : Blk) (ctl : Bool) (v : W32) (req : BitVec 16) (s : State), s.hostAlive = true → blkOf p = some b →
    ∃ t, exec (.indSelWrite p ctl ⟨v, req⟩) s = .next t ∧ t.window p = {}
      ∧ t.rd p (if ctl then O.IND_CTL else O.IND_SEL) = (if ctl then v.toNat % 8 else v.toNat)
      ∧ t = { s with regs := t.regs, windows := t.windows }
      ∧ regsSame (fun p' off => decide (p' = p.val) && (decide (off = O.IND_CTL) || decide (off = O.IND_SEL))) s t)
  ∧ (∀ (p : Fin 512) (b : Blk) (req : BitVec 16) (s : State), s.hostAlive = true → blkOf p = some b →
    (s.window p).ended = false → (s.window p).phase = .low → s.bit p O.IND_CTL 1 = false → (s.windowIn p).isSome →
    let a := s.windowIndex p
    s.poorEntry p a.1 (s.windowCopy p a.1) a.2 = none →
    ∃ t, exec (.indDataRead p req) s = .next t
      ∧ t.out = .readData (BitVec.ofNat 64 (s.readTab p a.1 (s.windowCopy p a.1) a.2)) :: s.out
      ∧ (s.bit p O.IND_CTL 0 = true → s.fld p O.IND_SEL 0 24 < 0xFFFFFF →
          t.fld p O.IND_SEL 0 24 = s.fld p O.IND_SEL 0 24 + 1 ∧ t.fld p O.IND_SEL 24 8 = s.fld p O.IND_SEL 24 8)
      ∧ (s.bit p O.IND_CTL 0 = false → t = { s with out := t.out }) ∧ memSame s t)
  ∧ (∀ (n : Nat) (v : W32) (req : BitVec 16) (s : State), s.hostAlive = true → n < 1024 →
    (s.window pEic).ended = false → (s.window pEic).phase = .low → s.bit pEic O.IND_CTL 1 = false →
    s.windowIndex pEic = (0, 2 * n) →
    ∃ t, exec (.indDataWrite ⟨pEic, by decide⟩ v req) s = .next t ∧ t.tabAt pEic 0 0 (2 * n) = v.toNat
      ∧ (∀ p k c i, k < 256 → c < 2 → i < 2 ^ 24 → (p, k, c, i) ≠ (pEic, 0, 0, 2 * n) → t.tabAt p k c i = s.tabAt p k c i)
      ∧ regsSame (fun p off => decide (p = pEic) && decide (off = O.IND_SEL)) s t ∧ memSame s t)

/-- Writes under the access codes (R7, R41) and through the aliases (R38), and one that misses (R27, R50, R51). -/
def Obligations.RegisterAndAliasWritesObeyAccessCodes : Prop :=
  let plain : List Blk := [.net, .flm, .yrd, .tly, .crn, .dec, .enc, .xsd, .jlk, .ysq]
  (∀ (a : HostWrite) (p off : Nat) (b : Blk) (d : RegDesc) (s : State), s.hostAlive = true → blkOf p = some b →
    b ∈ plain → 0x100 ≤ off → off < 0x10000 → off % 4 = 0 → regDesc? p off = some d → d.acc = .rw →
    a.off = p * 0x10000 + off → a.size = 4 → a.allBE = true →
    ∃ t, exec (.registerWrite a) s = .next t
      ∧ t.rd p off = (clrMask (s.rd p off) d.mask ||| (a.data.toNat % 2 ^ 32 &&& d.mask)) % 2 ^ 32
      ∧ t = { s with regs := t.regs } ∧ regsSame (fun p' o => decide (p' = p) && decide (o = off)) s t)
  ∧ (∀ (a : HostWrite) (p off : Nat) (b : Blk) (d : RegDesc) (s : State), s.hostAlive = true → blkOf p = some b →
    b ∈ plain → 0x100 ≤ off → off < 0x10000 → off % 4 = 0 → regDesc? p off = some d → d.acc = .rl →
    a.off = p * 0x10000 + off → a.size = 4 → a.allBE = true →
    ∃ t, exec (.registerWrite a) s = .next t
      ∧ (s.stopped p = true → t = { s with regs := t.regs }
          ∧ t.rd p off = (clrMask (s.rd p off) d.mask ||| (a.data.toNat % 2 ^ 32 &&& d.mask)) % 2 ^ 32)
      ∧ (s.stopped p = false → t.rd p off = s.rd p off ∧ t.bit p O.PAGE_STAT 10 = true
          ∧ t.bit p O.INT_CAUSE 30 = true))
  ∧ (∀ (a : HostWrite) (p : Fin 512) (n : Fin 32) (b : Blk) (s : State), s.hostAlive = true → blkOf p = some b →
    bitOf (causeBits b) n = true → a.off = p * 0x10000 + O.INT_MASK / 4 * 0x80 + 4 * n → a.size = 4 → a.allBE = true →
    ∃ t, exec (.aliasWrite a) s = .next t ∧ t.bit p O.INT_MASK n = bitOf a.data.toNat 0
      ∧ (∀ m : Fin 32, m ≠ n → bitOf (causeBits b) m = true → t.bit p O.INT_MASK m = s.bit p O.INT_MASK m)
      ∧ memSame s t)
  ∧ (∀ (a : HostWrite) (s : State), s.hostAlive = true → a.off < 0x1000000 → a.off % 4 = 0 → a.size = 4 →
    a.allBE = true → regDesc? (a.off / 0x10000) (a.off % 0x10000) = none → s.bit pHif O.HIF_BUSERR_LOG 31 = false →
    ∃ t, exec (.registerWrite a) s = .next t ∧ t.bit pHif O.HIF_BUSERR_LOG 31 = true
      ∧ t.fld pHif O.HIF_BUSERR_LOG 24 4 = BusCause.reserved.code ∧ t.rd64 pHif O.HIF_BUSERR_ADDR_LO = a.off ∧ memSame s t)

/-- Accesses of other agents (R52, R53, R414, R415) and the snapshot (R423). -/
def Obligations.StandAccessesAndSnapshots : Prop :=
  (∀ (a : StandAcc) (s : State), s.hostAlive = true → a.engine.val ≠ 0 → s.stdState = 2 → a.engine.val < s.engines →
    a.pathOk = true → bitOf s.present a.engine = true → a.isRead = true → a.refused = none →
    (State.reset.barAccess a.bar2 false false a.off a.size a.allBE a.data.toNat).err = none →
    ∃ t, exec (.standWindowAccess a) s = .next t
      ∧ t.out = .readData a.answer :: .regForward a.engine a.bar2 true a.off a.size a.data.toNat :: s.out
      ∧ t = { s with out := t.out })
  ∧ (∀ (a : StandAcc) (s : State), s.hostAlive = true → a.engine.val ≠ 0 → s.stdState = 2 → a.engine.val < s.engines →
    a.pathOk = false → s.bit pHif O.HIF_BUSERR_LOG 31 = false →
    ∃ t, exec (.standWindowAccess a) s = .next t ∧ t.fld pHif O.HIF_BUSERR_LOG 24 4 = BusCause.path.code
      ∧ t.fld pHif O.HIF_BUSERR_LOG 16 6 = a.engine.val ∧ memSame s t)
  ∧ (∀ (addr : W64) (data : List Byte) (s : State), s.hostAlive = true → s.isLead = true → s.hostReady = true →
    ∃ t, exec (.regMessage (.hostWrite addr data)) s = .next t ∧ t.hostBytes addr.toNat data.length = data
      ∧ (∀ x, x < addr.toNat ∨ addr.toNat + data.length ≤ x → t.hostByte x = s.hostByte x)
      ∧ ∀ x, t.hbmByte x = s.hbmByte x)
  ∧ (∀ (p : Fin 512) (b : Blk) (req : BitVec 16) (s : State), s.hostAlive = true → blkOf p = some b →
    ∃ t, exec (.regMessage (.access false true (p * 0x10000 + O.INT_MASK) 4 true 0 req)) s = .next t
      ∧ t = { s with out := .regData (leBytes 4 (s.rd p O.INT_MASK)) :: s.out })
  ∧ (∀ (time : W64) (s : State), s.alive .std = true →
    let base := s.rd64 pStd O.STD_SNAP_BASE_LO
    ∃ t, exec (.snapshotLatch time) s = .next t ∧ (base = 0 → t = s)
      ∧ (base ≠ 0 → t.hbmBytes (base + 0x100000) 8 = leBytes 8 t.tim.time
          ∧ t.hbmBytes (base + 0x100008) 8 = leBytes 8 t.tim.wframe
          ∧ t.out = .snapReply s.ownEngine :: s.out ∧ ∀ x, t.hostByte x = s.hostByte x))

/-- Stand time (R445, R447, R448, R451, R453). Source states: 1 ACQUIRE, 2 LOCKED, 4 HOLDOVER. -/
def Obligations.StandTimeWritesAndReads : Prop :=
  (∀ (v : W32) (s : State), s.alive .tim = true → s.postBusy pTim = false → bitsOf v.toNat 0 2 ≠ 3 →
    ∃ t, exec (.srcCfgWrite v) s = .next t ∧ t.rd pTim O.TIM_SRC_CFG = v.toNat &&& 0x173 ∧ t.tim.time = s.tim.time
      ∧ (s.isMember = false → bitsOf v.toNat 0 2 ≠ s.src → bitsOf v.toNat 0 2 ≠ 0 → t.srcState = 1 ∧ t.tim.hist = [])
      ∧ memSame s t)
  ∧ (∀ (v : W64) (s : State), s.alive .tim = true → s.postBusy pTim = false →
    ∃ t, exec (.stStep v) s = .next t ∧ t.tim.time = toBits 64 ((s.tim.time : Int) + signed 64 v.toNat)
      ∧ t.tim.stepTo.isSome = true ∧ t.tim.stepApplied = v ∧ t.tim.wframe = s.tim.wframe ∧ memSame s t)
  ∧ (∀ (v : W32) (s : State), s.alive .tim = true → s.postBusy pTim = false →
    ∃ t, exec (.adjFreq v) s = .next t ∧ t.rd pTim O.TIM_ADJ_FREQ = v.toNat ∧ t.tim.time = s.tim.time
      ∧ (s.src = 1 → s.holdSet = false → s.isMember = false → t.srcState = 2) ∧ memSame s t)
  ∧ (∀ (on : Bool) (s : State), s.alive .tim = true →
    ∃ t, exec (.srcHold on) s = .next t ∧ t.holdSet = on
      ∧ (on = true → s.src = 1 → s.isMember = false → t.srcState = 4)
      ∧ (on = false → t = { s with regs := t.regs }) ∧ memSame s t)
  ∧ (∀ (stamp : W64) (s : State), s.alive .tim = true → s.isMember = true → exec (.ppsIn stamp) s = .next s)
  ∧ (∀ (stamp : W64) (s : State), s.alive .tim = true → s.isMember = false →
    ∃ t, exec (.ppsIn stamp) s = .next t
      ∧ t.rd64 pTim O.TIM_PPS_STAMP_LO = toBits 64 ((stamp.toNat : Int) + signed 32 (s.rd pTim O.TIM_PPS_ADJ))
      ∧ t.bit pTim O.INT_CAUSE 4 = true ∧ memSame s t)
  ∧ (∀ s : State, s.hostAlive = true → s.tim.time < 2 ^ 64 → s.tim.frac < 2 ^ 16 →
    ∃ t, exec .stLoRead s = .next t ∧ t.out = .readData (BitVec.ofNat 64 (s.tim.time % 2 ^ 32)) :: s.out
      ∧ t.rd pTim O.TIM_ST_HI = s.tim.time / 2 ^ 32 ∧ t.rd pTim O.TIM_ST_FRAC = s.tim.frac
      ∧ t = { s with regs := t.regs, out := t.out })
  ∧ (∀ s : State, s.hostAlive = true → s.tim.txts = [] →
    ∃ t, exec .txtsInfoRead s = .next t ∧ t = { s with out := .readData 0 :: s.out })
  ∧ (∀ (x : Stamp) (r : List Stamp) (s : State), s.hostAlive = true → s.tim.txts = x :: r → x.time < 2 ^ 64 →
    ∃ t, exec .txtsInfoRead s = .next t
      ∧ t.out = .readData (BitVec.ofNat 64 (2 ^ 31 + x.inst * 2 ^ 24 + x.desc % 2 ^ 16)) :: s.out
      ∧ t.tim.txts = r ∧ t.rd64 pTim O.TIM_TXTS_LO = x.time ∧ memSame s t)

/-- The timing source and the grid (R446, R447, R449, R450). Source states: 1 ACQUIRE, 2 LOCKED, 3 FLYWHEEL,
4 HOLDOVER. -/
def Obligations.ReferenceAndHoldoverEvents : Prop :=
  (∀ (stamp : W64) (s : State), s.alive .tim = true →
    let p : Int := (stamp.toNat : Int) + signed 32 (s.rd pTim O.TIM_REF_ADJ)
    ∃ t, exec (.refFsPulse stamp) s = .next t
      ∧ (s.src = 2 → s.isMember = false → t.rd64 pTim O.TIM_REF_STAMP_LO = toBits 64 p)
      ∧ (s.src ≠ 2 ∨ s.isMember = true → t = { s with tim := t.tim } ∧ t.tim.hist = s.tim.hist)
      ∧ (s.src = 2 → s.isMember = false → s.srcState = 1 → s.tim.hist = [] → t.tim.hist = [p] ∧ t.tim.run = 1)
      ∧ memSame s t)
  ∧ (∀ s : State, s.alive .tim = true → s.src = 2 → s.isMember = false → s.srcState = 2 →
    ∃ t, exec .refFsMissing s = .next t ∧ t.srcState = 3 ∧ t.fld pTim O.TIM_SRC_STAT 0 8 = 1
      ∧ t.rd pTim O.TIM_CNT_REF_MISS = (s.rd pTim O.TIM_CNT_REF_MISS + 1) % 2 ^ 32 ∧ memSame s t)
  ∧ (∀ s : State, s.alive .tim = true → s.src = 2 → s.isMember = false → s.srcState = 3 →
    s.fld pTim O.TIM_SRC_STAT 0 8 < 255 →
    ∃ t, exec .refFsMissing s = .next t
      ∧ t.srcState = (if 9 ≤ s.fld pTim O.TIM_SRC_STAT 0 8 + 1 then 4 else 3)
      ∧ t.fld pTim O.TIM_SRC_STAT 0 8 = s.fld pTim O.TIM_SRC_STAT 0 8 + 1 ∧ memSame s t)
  ∧ (∀ s : State, s.alive .tim = true → s.src = 1 → s.isMember = false → s.fld pTim O.TIM_SERVO_TO 0 16 ≠ 0 →
    s.srcState = 2 →
    ∃ t, exec .servoTimeout s = .next t ∧ t.srcState = 4 ∧ t.bit pTim O.INT_CAUSE 2 = true
      ∧ t.rd pTim O.TIM_CNT_HOLDOVER = (s.rd pTim O.TIM_CNT_HOLDOVER + 1) % 2 ^ 32 ∧ memSame s t)
  ∧ (∀ s : State, s.alive .tim = true → s.srcState = 4 → s.fld pTim O.TIM_HOLD_LIMIT 0 16 ≠ 0 →
    ∃ t, exec .holdLimitExpiry s = .next t ∧ t.bit pTim O.TIM_FLAGS 3 = true ∧ t.bit pTim O.INT_CAUSE 3 = true
      ∧ t.allBlack ∧ memSame s t)
  ∧ (∀ s : State, s.alive .tim = true → s.lnd.slot = none → s.lnd.applied = true → s.gapTo = none →
    s.tim.regrid = none →
    ∃ t, exec .wallFrameBoundary s = .next t ∧ t.tim.wframe = (s.tim.wframe + 1) % 2 ^ 48
      ∧ t.tim.twFx = s.nextBoundary ∧ t.tim.stepTo = none ∧ t.lnd.next = 0 ∧ t.lnd.applied = false
      ∧ t.lnd.on = s.running pLnd ∧ memSame s t)

/-- Fatal faults (R435, R456, R459, R460), the thermal limits (R468) and retirement by request (R465). -/
def Obligations.FatalFaultsAndThermalSamples : Prop :=
  let fatalAs := fun (code : Nat) (t : State) => t.flt.life = .fatal ∧ t.flt.fatalCode = code
    ∧ t.bit pDev O.DEV_FLAGS 0 = true ∧ t.allBlack ∧ t.chk.frames = [] ∧ t.chk.inbox = []
  (∀ (c : Fin 6) (s : State), s.flt.life = .up → c.val ≠ 1 → c.val ≠ 2 →
    ∃ t, exec (.deviceFatal c) s = .next t ∧ fatalAs (0x0100 + c.val) t ∧ memSame s t)
  ∧ (∀ (c : Fin 6) (s : State), s.flt.life = .up → c.val = 1 ∨ c.val = 2 →
    ∃ t, exec (.deviceFatal c) s = .next t ∧ t.halted = true
      ∧ t.out = .serdesIdle :: (if c.val = 2 then .outputsOff :: s.out else s.out) ∧ memSame s t)
  ∧ (∀ (v : W32) (s : State), s.flt.life = .up →
    ∃ t, exec (.fatalForce v) s = .next t
      ∧ (bitsOf v.toNat 16 16 = 0x4654 ∧ bitOf v.toNat 0 = true → fatalAs 0x0105 t)
      ∧ (¬ (bitsOf v.toNat 16 16 = 0x4654 ∧ bitOf v.toNat 0 = true) → t = s) ∧ memSame s t)
  ∧ (∀ s : State, s.alive .dev = true → ∃ t, exec .fatalRecClear s = .next t
    ∧ t.rd64 pDev O.DEV_FATAL_REC = 0 ∧ t.rd64 pDev (O.DEV_FATAL_REC + 8) = 0 ∧ t = { s with regs := t.regs })
  ∧ (∀ s : State, s.alive .clk = true → ∃ t, exec .refclkLost s = .next t ∧ t.flt.life = .dead
    ∧ t.flt.fatalCode = 0x0101 ∧ t.bit pClk O.CLK_FLAGS 2 = true ∧ t.out = .serdesIdle :: s.out ∧ memSame s t)
  ∧ (∀ (n j a b : BitVec 8) (s : State), s.alive .dev = true →
    let trip := 110 ≤ j.toInt ∨ 105 ≤ max a.toInt b.toInt
    ∃ t, exec (.thermalSample n j a b) s = .next t
      ∧ t.rd pDev O.DEV_TEMP = n.toNat * 256 + j.toNat
      ∧ (trip → t.flt.life = .dead)
      ∧ (¬ trip → t.flt.life = s.flt.life ∧ t.flt.alertPin =
          if 100 ≤ j.toInt ∨ 95 ≤ max a.toInt b.toInt then true
          else if j.toInt < 95 ∧ max a.toInt b.toInt < 90 then false else s.flt.alertPin))
  ∧ (∀ (v : W32) (bad : List Nat) (s : State), s.hostAlive = true →
    bitsOf v.toNat 24 8 = 0 ∨ 4 < bitsOf v.toNat 24 8 →
    ∃ t, exec (.retireReq v bad) s = .next t ∧ t.rd pDev O.DEV_RETIRE_STAT = 3 * 2 ^ 28 + 1 ∧ t = { s with regs := t.regs })
  ∧ (∀ (v : W32) (bad : List Nat) (s : State), s.flt.life = .up → s.flt.retiring = none →
    let typ := State.classTyp (bitsOf v.toNat 24 8)
    let k := bitsOf v.toNat 0 8
    1 ≤ bitsOf v.toNat 24 8 → bitsOf v.toNat 24 8 ≤ 3 → k < coreCount typ → s.role typ k = 1 →
    ∃ t, exec (.retireReq v bad) s = .next t ∧ t.rd pDev O.DEV_RETIRE_STAT = 2 * 2 ^ 28 ∧ t.role typ k = 2
      ∧ t.pstate (corePage typ k) = 5 ∧ memSame s t)

/-- Resets and power (R78, R436-R444). -/
def Obligations.ResetsAndPowerEvents : Prop :=
  let gone := fun t : State => t.sq = [] ∧ t.cq = [] ∧ t.ctxs = [] ∧ t.flumes = [] ∧ t.posted = [] ∧ t.lnd.feeds = []
  (∀ (v : W32) (s : State), s.hostAlive = true → bitsOf v.toNat 16 16 = 0x5752 → bitOf v.toNat 0 = true →
    ∃ t, exec (.warmReset v) s = .next t ∧ gone t ∧ Cond.reset ∈ t.black.glob ∧ t.allBlack
      ∧ t.rd pClk O.CLK_RST_CAUSE = 4)
  ∧ (∀ (v : W32) (s : State), bitsOf v.toNat 16 16 ≠ 0x5752 ∨ bitOf v.toNat 0 = false →
    exec (.warmReset v) s = .next s)
  ∧ (∀ s : State, s.alive .hif = true → ∃ t, exec .functionLevelReset s = .next t ∧ gone t ∧ t.hif = {}
      ∧ Cond.reset ∈ t.black.glob ∧ t.allBlack ∧ t.rd pClk O.CLK_RST_CAUSE = 8)
  ∧ (∀ (x : PowerOn) (s : State), x.refclk = true → x.hot = false →
    ∃ t, exec (.powerOnReset x) s = .next t ∧ gone t ∧ t.flt.life = .up ∧ t.flt.bootMode = x.bootMode.val
      ∧ t.rd pClk O.CLK_RST_CAUSE = (if x.supply then 1 else 2) ∧ t.rd pClk O.CLK_REFCLK_KHZ = x.khz.val
      ∧ t.bit pClk O.CLK_FLAGS 3 = x.pwrFail ∧ t.allBlack)
  ∧ (∀ (x : PowerOn) (s : State), x.refclk = false ∨ x.hot = true →
    ∃ t, exec (.powerOnReset x) s = .next t ∧ gone t ∧ t.flt.life = .held)
  ∧ (∀ s : State, s.alive .clk = true → ∃ t, exec .pwrFailAssert s = .next t
      ∧ t.bit pClk O.CLK_FLAGS 3 = true ∧ t.allBlack ∧ (s.alive .tly = true → t.bit pTly O.TLY_FLAGS 2 = true))
  ∧ (∀ s : State, s.alive .clk = true → ∃ t, exec .pwrFailRelease s = .next t
      ∧ t.bit pClk O.CLK_FLAGS 3 = false ∧ Cond.pwrFail ∉ t.black.glob
      ∧ (∀ c, c ≠ Cond.pwrFail → (c ∈ t.black.glob ↔ c ∈ s.black.glob)) ∧ memSame s t)
  ∧ (∀ (f : Option (List Byte)) (s : State), s.alive .clk = true → s.flt.bootMode = 1 →
    s.fld pClk O.CLK_BOOT_STAT 28 2 = 0 → (∀ l, f = some l → bootHeader l = none) →
    ∃ t, exec (.bootLoader f) s = .next t ∧ t.fld pClk O.CLK_BOOT_STAT 28 2 = 3
      ∧ t.fld pClk O.CLK_BOOT_STAT 0 8 = (if f = none then 1 else 2) ∧ t = { s with regs := t.regs })
  ∧ (∀ (f : List Byte) (p : Fin 512) (b : Blk) (s : State), s.alive .clk = true → s.flt.bootMode = 1 →
    s.fld pClk O.CLK_BOOT_STAT 28 2 = 0 → bootHeader f = some 1 →
    let e := bootEnt f 0
    let d := (f.drop e.off).take e.len
    e.typ = 2 → e.len = 8 → e.off + 8 ≤ f.length → crcIeee d = e.crc → blkOf p = some b →
    leWord d 0 = p * 0x10000 + O.INT_MASK →
    ∃ t, exec (.bootLoader (some f)) s = .next t ∧ t.rd p O.INT_MASK = leWord d 4 &&& causeBits b
      ∧ t.fld pClk O.CLK_BOOT_STAT 28 2 = 2 ∧ t.fld pClk O.CLK_BOOT_STAT 24 4 = 1)
  ∧ (∀ (f : Option (List Byte)) (s : State), s.flt.bootMode ≠ 1 → exec (.bootLoader f) s = .next s)

/-- Consumer operations of a Flume (R123, Table 5.8). Positions are modulo 2³²; `dist a b` is the way from b to a. -/
def Obligations.FlumeConsumerOperations : Prop :=
  let ready := fun (c : Nat) (s : State) => s.alive .flm = true ∧ s.running pFlm = true ∧ (s.flm c).used = true
    ∧ (s.ctx c).closing = none
  let kept := fun (c : Nat) (s t : State) => t.fpos O.FLM_COMMIT c = s.fpos O.FLM_COMMIT c
    ∧ t.fpos O.FLM_WR c = s.fpos O.FLM_WR c ∧ memSame s t
  let rel := fun (c : Nat) (s t : State) => t.fpos O.FLM_REL c = s.fpos O.FLM_REL c
  (∀ (c : Fin 512) (k : W32) (s : State), ready c s →
    k.toNat ≤ Sys2Proof.Machine.dist (s.fpos O.FLM_COMMIT c) (s.fpos O.FLM_RD c) →
    let rd := s.fpos O.FLM_RD c
    ∃ t, exec (.flumeRead c k) s = .next t ∧ t.fpos O.FLM_RD c = (rd + k.toNat) % 2 ^ 32
      ∧ t.out = .staves c rd ((List.range k.toNat).map fun i => s.getStave c ((rd + i) % 2 ^ 32)).flatten :: s.out
      ∧ (Sys2Proof.Machine.dist ((rd + k.toNat) % 2 ^ 32) (s.fpos O.FLM_HWM c) < 2 ^ 31 →
          t.fpos O.FLM_HWM c = (rd + k.toNat) % 2 ^ 32)
      ∧ rel c s t ∧ kept c s t)
  ∧ (∀ (c : Fin 512) (s : State), ready c s → ∃ t, exec (.flumeMark c) s = .next t
      ∧ t.fpos O.FLM_BLAZE c = s.fpos O.FLM_RD c ∧ t.fstat c 30 = true ∧ rel c s t
      ∧ t.fpos O.FLM_RD c = s.fpos O.FLM_RD c ∧ kept c s t)
  ∧ (∀ (c : Fin 512) (s : State), ready c s → s.fstat c 30 = true → ∃ t, exec (.flumeRewind c) s = .next t
      ∧ t.fpos O.FLM_RD c = s.fpos O.FLM_BLAZE c ∧ rel c s t ∧ kept c s t)
  ∧ (∀ (c : Fin 512) (p : W32) (s : State), ready c s → (s.flm c).held = none →
    Sys2Proof.Machine.dist p.toNat (s.fpos O.FLM_REL c) ≤ Sys2Proof.Machine.dist (s.fpos O.FLM_RD c) (s.fpos O.FLM_REL c) →
    ∃ t, exec (.flumeRelease c p) s = .next t ∧ t.fpos O.FLM_REL c = p.toNat
      ∧ t.fstat c 30 = (s.fstat c 30 && decide (Sys2Proof.Machine.dist p.toNat (s.fpos O.FLM_REL c)
          ≤ Sys2Proof.Machine.dist (s.fpos O.FLM_BLAZE c) (s.fpos O.FLM_REL c)))
      ∧ t.fpos O.FLM_RD c = s.fpos O.FLM_RD c ∧ kept c s t)
  ∧ (∀ (c : Fin 512) (s : State), ready c s →
    let rd := s.fpos O.FLM_RD c
    ∃ t, exec (.flumeDropRem c) s = .next t ∧ rel c s t ∧ kept c s t
      ∧ t.fpos O.FLM_RD c = match (s.flm c).pks.find? fun m => decide (Sys2Proof.Machine.dist (Sys2Proof.Machine.dist rd 1) m.start < m.staves) with
          | some m => (m.start + m.staves) % 2 ^ 32
          | none => rd)

/-- The tail buffer (R112) and the stale timeout (R127). -/
def Obligations.FlumeSpillAndStale : Prop :=
  (∀ (c : Fin 512) (n : Fin 65) (s : State), s.alive .flm = true →
    let f := s.flm c
    let k := min n.val (f.tail.length / 32)
    ∃ t, exec (.spillWriteDone c n) s = .next t ∧ t = { s with flumes := t.flumes, hbm := t.hbm }
      ∧ (∀ k, k ≠ c.val → t.flm k = s.flm k)
      ∧ (f.pkt = none → t.flm c = { f with acc := (f.acc + k) % 2 ^ 32, tail := f.tail.drop (32 * k) })
      ∧ (f.pkt = none → k = 0 → t.hbm = s.hbm)
      ∧ (f.pkt = none → k = 1 → t.hbmBytes (f.base + f.acc % (f.segs * 2048) * 32) 32 = f.tail.take 32)
      ∧ (0 < f.segs → ∀ a, a < f.base ∨ f.base + f.segs * 65536 ≤ a → t.hbmByte a = s.hbmByte a))
  ∧ (∀ (c : Fin 512) (s : State), s.alive .flm = true → s.running pFlm = true → (s.flm c).used = true →
    (s.flm c).moved = false → (s.flm c).raised = false → s.fld pFlm O.FLM_STALE_T 0 8 ≠ 0 →
    s.fld pFlm O.FLM_STALE_T 0 8 ≤ (s.flm c).still + 1 → s.fpos O.FLM_COMMIT c ≠ s.fpos O.FLM_RD c →
    ∃ t, exec .staleCheck s = .next t ∧ t.bit pFlm (O.FLM_STALE_MAP + 4 * (c / 32)) (c % 32) = true
      ∧ t.bit pFlm O.INT_CAUSE 0 = true ∧ (t.flm c).raised = true
      ∧ t.fpos O.FLM_RD c = s.fpos O.FLM_RD c ∧ t.fpos O.FLM_COMMIT c = s.fpos O.FLM_COMMIT c ∧ memSame s t)

/-- The network ports (R86-R88) and the receive rings (R107, R108). -/
def Obligations.NetworkPortsCountFramesAndLinks : Prop :=
  let pg := State.netPage
  let at_ := fun (o : Nat) (i : Fin 8) => State.netReg o i
  let one := fun (s t : State) (i : Fin 8) (o : Nat) => t.rd (pg i) (at_ o i) = (s.rd (pg i) (at_ o i) + 1) % 2 ^ 32
  let inUse := fun (s : State) (i : Fin 8) => s.alive .net = true ∧ s.running (pg i) = true ∧ s.instExists i = true
    ∧ s.bit (pg i) (at_ O.NET_MAC_CFG i) 31 = true
  let counted := fun (s t : State) (i : Fin 8) => t = { s with regs := t.regs } ∧ memSame s t
    ∧ regsSame (fun p _ => decide (p = pg i)) s t
  let sound := fun (s : State) (i : Fin 8) (f : RxFrame) => f.fcsOk = true ∧ 64 ≤ f.bytes.length + 4
    ∧ f.bytes.length + 4 ≤ s.maxFrame i
  let taken := fun (s t : State) (i : Fin 8) =>
    t.rd64 (pg i) (at_ O.NET_RX_FRAMES_LO i) = (s.rd64 (pg i) (at_ O.NET_RX_FRAMES_LO i) + 1) % 2 ^ 64
  let forUs := fun (s : State) (i : Fin 8) (f : RxFrame) => s.bit (pg i) (at_ O.NET_MAC_CFG i) 30 = true
    ∨ bitOf (f.bytes.headD 0).toNat 0 = true ∨ beNat (f.bytes.take 6) = s.rd64 (pg i) (at_ O.NET_MAC_ADDR_LO i) % 2 ^ 48
  (∀ (i : Fin 8) (f : RxFrame) (s : State), inUse s i → ∃ t, exec (.frameReceived i f) s = .next t
    ∧ (f.fcsOk = false → one s t i O.NET_RX_FCS_ERR ∧ counted s t i)
    ∧ (f.fcsOk = true → ¬ sound s i f → one s t i O.NET_RX_SIZE_ERR ∧ counted s t i)
    ∧ (sound s i f → be16 f.bytes 12 = 0x8808 → taken s t i ∧ one s t i O.NET_RX_MAC_CTL ∧ counted s t i)
    ∧ (sound s i f → be16 f.bytes 12 ≠ 0x8808 → ¬ forUs s i f → taken s t i ∧ one s t i O.NET_RX_DA_DROP ∧ counted s t i)
    ∧ (sound s i f → be16 f.bytes 12 ≠ 0x8808 → forUs s i f → s.running pDbk = false →
        taken s t i ∧ t.rd (pg i) O.NET_RX_DBK_DROP = (s.rd (pg i) O.NET_RX_DBK_DROP + 1) % 2 ^ 32 ∧ counted s t i)
    ∧ (sound s i f → be16 f.bytes 12 ≠ 0x8808 → forUs s i f → s.running pDbk = true →
        State.ingressFits f (s.frameClass i f.bytes) f.bytes.length = false →
        taken s t i ∧ one s t i O.NET_RX_OVF ∧ t.bit (pg i) O.INT_CAUSE 4 = true ∧ memSame s t))
  ∧ (∀ (i : Fin 8) (f : RxFrame) (r : Nat) (s : State), inUse s i → sound s i f → be16 f.bytes 12 ≠ 0x8808 → forUs s i f →
    s.running pDbk = true → State.ingressFits f (s.frameClass i f.bytes) f.bytes.length = true →
    parseFrame (s.bit (pg i) (at_ O.NET_MAC_CFG i) 29) f.bytes = .slow r →
    let q := s.instCfg i 16 4
    let tail := s.fld pDbk (State.spr O.DBK_SPQ_STAT q) 0 16
    let slot := 2048 * 2 ^ s.fld pDbk (State.spr O.DBK_SPQ_CFG q) 4 2
    let a := s.rd64 pDbk (State.spr O.DBK_SPQ_BASE_LO q) / 4096 * 4096 + tail * slot
    s.bit pDbk (State.spr O.DBK_SPQ_CFG q) 31 = true → s.hostReady = true → r < 16 →
    (tail + 1) % s.spSize q ≠ s.fld pDbk (State.spr O.DBK_SPQ_HEAD q) 0 16 →
    ∃ t, exec (.frameReceived i f) s = .next t ∧ taken s t i
      ∧ t.hostBytes (a + 32) (min (slot - 32) f.bytes.length) = f.bytes.take (slot - 32)
      ∧ t.fld pDbk (State.spr O.DBK_SPQ_STAT q) 0 16 = (tail + 1) % s.spSize q
      ∧ t.rd pDbk (State.spr O.DBK_SPQ_FRAMES q) = (s.rd pDbk (State.spr O.DBK_SPQ_FRAMES q) + 1) % 2 ^ 32
      ∧ (∀ x, x < a ∨ a + slot ≤ x → t.hostByte x = s.hostByte x) ∧ (∀ x, t.hbmByte x = s.hbmByte x))
  ∧ (∀ (i : Fin 8) (f : RxFrame) (u : Udp) (h : Hit) (s : State), inUse s i → sound s i f → be16 f.bytes 12 ≠ 0x8808 →
    forUs s i f → s.running pDbk = true → State.ingressFits f (s.frameClass i f.bytes) f.bytes.length = true →
    parseFrame (s.bit (pg i) (at_ O.NET_MAC_CFG i) 29) f.bytes = .udp u →
    (s.lookupUdp i (((l2Parse f.bytes).map (·.2.2)).getD 0) u).1 = some h → h.kind = 0 → h.pfmt = 0 →
    bitOf h.w12 18 = false → bitOf h.w12 19 = false → h.colour < 2 →
    ∃ t, exec (.frameReceived i f) s = .next t ∧ taken s t i
      ∧ t.tab pDbk h.table (16 * h.entry + 14) = (s.tab pDbk h.table (16 * h.entry + 14) + 1) % 2 ^ 32 ∧ t.out = s.out ∧ t.flumes = s.flumes ∧ memSame s t)
  ∧ (∀ (i : Fin 8) (up lock ber : Bool) (s : State), s.alive .net = true → s.running (pg i) = true →
    s.instExists i = true →
    let k := i.val % 4
    let flag := fun (u : State) (b : Nat) => u.bit (pg i) O.NET_LINK_FLAGS b
    ∃ t, exec (.netLinkChange i up lock ber) s = .next t ∧ flag t k = up ∧ flag t (4 + k) = lock ∧ flag t (8 + k) = ber
      ∧ t.bit (pg i) O.INT_CAUSE (8 + k) = (s.bit (pg i) O.INT_CAUSE (8 + k) || (flag s k != up))
      ∧ t = sigRest s t ∧ memSame s t
      ∧ regsSame (fun p off => sigReg (pg i) p off || (decide (p = pg i) && decide (off = O.NET_LINK_FLAGS))) s t)
  ∧ (∀ (q : Fin 16) (v : W32) (s : State), s.hostAlive = true →
    ∃ t, exec (.spqHeadWrite q v) s = .next t ∧ t.rd pDbk (State.spr O.DBK_SPQ_HEAD q) = v.toNat % 65536
      ∧ t = sigRest s t ∧ memSame s t
      ∧ regsSame (fun p off => sigReg pDbk p off || (decide (p = pDbk) && decide (off = State.spr O.DBK_SPQ_HEAD q))) s t)
  ∧ (∀ s : State, s.hostAlive = true → ∃ t, exec .yrxPop s = .next t
    ∧ t.out = .readData (BitVec.ofNat 64 (match s.yrx.ring with
        | [] => 0
        | (b, sub) :: _ => 2 ^ 31 + b * 2 ^ 16 + sub)) :: s.out
    ∧ t.yrx = { s.yrx with ring := s.yrx.ring.drop 1 } ∧ t = { s with out := t.out, yrx := t.yrx } ∧ memSame s t)
  ∧ (∀ (v : W32) (s : State), s.hostAlive = true → ∃ t, exec (.yrxFree v) s = .next t
    ∧ v.toNat % 64 ∉ t.yrx.used ∧ (∀ b, b ≠ v.toNat % 64 → (b ∈ t.yrx.used ↔ b ∈ s.yrx.used))
    ∧ t.yrx.ring = s.yrx.ring ∧ t = { s with yrx := t.yrx } ∧ memSame s t)

/-- The Choker's queues (R372, R374, R376, R380) and the Jelek queues (R381). -/
def Obligations.ChokerAdmitsServesAndReleases : Prop :=
  let limit := fun (s : State) (q : Nat) =>
    let l := bitsOf (s.qw q 0) 16 8
    if l = 0 then 4194304 else l * 16384
  (∀ s : State, s.alive .chk = true → s.running pChk = false → ∃ t, exec .refill s = .next t
    ∧ t = { s with chk := { s.chk with meter := t.chk.meter, mlive := t.chk.mlive } } ∧ memSame s t)
  ∧ (∀ s : State, s.alive .chk = true → s.running pChk = true → ∃ t, exec .refill s = .next t
    ∧ t.chk.frames = s.chk.frames ∧ memSame s t
    ∧ ∀ q, q < 516 → s.qLive q = (List.range 5).map (fun i => s.tab pChk 0 (8 * q + i)) → s.qEn q = true →
        State.badEntry q (s.qw q 0) = false →
        t.qBucket q = if q < 4 then ((s.qBucket q).1, min (s.qBucket q).2 0 + rateInc (s.qw q 3))
          else (min ((s.qBucket q).1 + rateInc (s.qw q 1)) (burstOf (s.qw q 2)),
            min ((s.qBucket q).2 + rateInc (s.qw q 3)) (burstOf (s.qw q 4))))
  ∧ (∀ (f : NetFrame) (r : List NetFrame) (s : State), s.alive .chk = true → s.chk.inbox = f :: r → f.queue < 516 →
    ∃ t, exec .frameEnqueue s = .next t ∧ t.chk.inbox = r ∧ memSame s t
    ∧ (s.qEn f.queue = false → t.chk.frames = s.chk.frames
        ∧ t.rd pChk O.CHK_CNT_DISABLED_DROP = (s.rd pChk O.CHK_CNT_DISABLED_DROP + 1) % 2 ^ 32
        ∧ t.bit pChk (O.CHK_DROP_MAP + 4 * (f.queue / 32)) (f.queue % 32) = true ∧ t.bit pChk O.INT_CAUSE 0 = true)
    ∧ (s.qEn f.queue = true → s.qPolice f.queue = false → s.qDepth f.queue + f.len ≤ limit s f.queue →
        s.bufUsed + f.len ≤ 4194304 →
        t = { s with chk := { s.chk with inbox := r, frames := s.chk.frames ++ [f] } }))
  ∧ (∀ (i : Fin 8) (x : W64) (y : BitVec 16) (s : State), s.alive .chk = true →
    ∃ t, exec (.frameTransmit i x y) s = .next t ∧ memSame s t
    ∧ (s.running pChk = false → t = s)
    ∧ (s.running pChk = true → s.instUp i = false → t.chk.frames = s.chk.frames.filter (fun f => f.inst ≠ i.val)
        ∧ t.rd pChk O.CHK_CNT_DOWN_DROP
          = (s.rd pChk O.CHK_CNT_DOWN_DROP + (s.chk.frames.filter fun f => f.inst = i.val).length) % 2 ^ 32)
    ∧ ∀ (q : Nat) (f : NetFrame) (r : List NetFrame), s.running pChk = true → s.instUp i = true →
        (List.range 4).find? (fun q => s.excessOk q i) = some q → s.qFrames q i = f :: r →
        t.chk.frames = s.chk.frames.erase f ∧ (f.src = none → t.out = .frame i f.bytes :: s.out))
  ∧ (∀ (p : Fin 64) (c : JCell) (s : State), s.alive .chk = true → s.jhead p = some c →
    (∀ q, q < 64 → ((s.subOf (64 * p + q)).op.any fun o => decide (o.wait = 6) || decide (o.wait = 7)) = false) →
    ∃ t, exec (.jelekQueueRelease p) s = .next t ∧ memSame s t
    ∧ (s.lstate p ≠ 3 ∧ s.lstate p ≠ 4 → t.jcells p = (s.jcells p).erase c
        ∧ t.rd pChk (State.jqr O.CHK_JQ_DROPS p) = (s.rd pChk (State.jqr O.CHK_JQ_DROPS p) + 1) % 2 ^ 32
        ∧ t = { s with regs := t.regs, chk := t.chk })
    ∧ (s.lstate p = 3 ∨ s.lstate p = 4 → s.running pChk = true → 0 < sget (fun _ => 0) s.chk.jbucket p.val →
        sget (fun _ => 0) s.chk.jrate p.val ≠ 0 →
        t.jcells p = (s.jcells p).erase c
        ∧ sget (fun _ => []) t.jout p.val = sget (fun _ => []) s.jout p.val ++ [(c, 0)]
        ∧ sget (fun _ => 0) t.chk.jbucket p.val = sget (fun _ => 0) s.chk.jbucket p.val - 512 * 65536
        ∧ t = { s with chk := t.chk, jout := t.jout }))

/-- Host transmit rings (R383, R384). -/
def Obligations.TransmitRingsReadAndWriteBack : Prop :=
  (∀ (r : Fin 4) (v : W32) (s : State), s.hostAlive = true → ∃ t, exec (.htxTail r v) s = .next t
    ∧ t.rd pChk (State.htxr O.CHK_HTX_TAIL r) = v.toNat % 65536 ∧ t = { s with regs := t.regs } ∧ memSame s t
    ∧ regsSame (fun p off => decide (p = pChk) && decide (off = State.htxr O.CHK_HTX_TAIL r)) s t)
  ∧ (∀ (r : Fin 4) (ok : Bool) (s : State), s.alive .chk = true → s.running pChk = true → s.hostReady = true →
    s.bit pChk (State.htxr O.CHK_HTX_CFG r) 31 = true →
    (s.htxOf r).next ≠ s.fld pChk (State.htxr O.CHK_HTX_TAIL r) 0 16 →
    let b := s.hostBytes (s.htxAddr r (s.htxOf r).next) 32
    let w0 := leWord b 0
    let w1 := leWord b 4
    let n := bitsOf w0 0 14
    let sound : Prop := bitsOf w0 27 2 = 0 ∧ bitsOf w0 14 9 = 0 ∧ leWord b 28 = 0 ∧ bitsOf w1 10 22 = 0
      ∧ leWord b 24 % 2 ^ 16 = 0 ∧ 60 ≤ n
      ∧ n + 4 ≤ s.maxFrame (bitsOf w0 24 3) ∧ w1 % 1024 ≤ 515
    ∃ t, exec (.htxDescriptor r ok) s = .next t ∧ (t.htxOf r).next = ((s.htxOf r).next + 1) % s.htxSize r ∧ memSame s t
    ∧ (sound → ok = true → t.chk.inbox = s.chk.inbox ++ [⟨w1 % 1024, bitsOf w0 24 3,
        s.hostBytes (leNat ((b.drop 8).take 8)) n, some (r.val, (s.htxOf r).next), none⟩])
    ∧ (¬ sound ∨ ok = false → t.chk.inbox = s.chk.inbox ∧ t.bit pChk O.INT_CAUSE 2 = true))
  ∧ (∀ (r : Fin 4) (e : HtxEnt) (rest : List HtxEnt) (s : State), s.alive .chk = true → s.hostReady = true →
    (s.htxOf r).ents = e :: rest → e.done = true →
    let a := s.htxAddr r e.idx
    let stamped : Bool := bitOf e.word0 30 && !e.err
    ∃ t, exec (.htxWriteback r) s = .next t ∧ (t.htxOf r).ents = rest
    ∧ t.rd pChk (State.htxr O.CHK_HTX_HEAD r) = (e.idx + 1) % s.htxSize r
    ∧ t.hostBytes a 4 = leBytes 4 (putBits (e.word0 ||| 2 ^ 31) 29 1 (b2n e.err))
    ∧ (∀ x, ¬ (a ≤ x ∧ x < a + 4) → (stamped = true → ¬ (a + 16 ≤ x ∧ x < a + 28)) → t.hostByte x = s.hostByte x)
    ∧ (∀ x, t.hbmByte x = s.hbmByte x) ∧ t = { sigRest s t with host := t.host, chk := t.chk })

/-- Contexts (R19, R69, R133-R135, R154, R163). Status 0 is SUCCESS, 8 BAD_STATE, 12 HOST_ACCESS. The first rule's
`w` is the state with the link out of L1. -/
def Obligations.ContextsOpenChangeMoveAndClose : Prop :=
  let others := fun (s t : State) (c : Nat) => ∀ k, k ≠ c → t.ctx k = s.ctx k
  let typ := fun j : Job => bitsOf (j.dw 6) 0 4
  let cls := fun j : Job => bitsOf (j.dw 6) 8 2
  let wd := fun j : Job => bitsOf (j.dw 7) 16 16
  let ht := fun j : Job => bitsOf (j.dw 7) 0 16
  let is := fun (x : Ctx) (j : Job) => x.cls = cls j ∧ x.width = wd j ∧ x.height = ht j ∧ x.fnum = j.dw 8 ∧ x.fden = j.dw 9
  let idle := fun x : Ctx => x.flight = [] ∧ x.enc.pic = none ∧ x.midUnit = false
  let noDue := fun s : State => ∀ k, (s.ctx k).typ = 3 → (s.ctx k).enc.pic = none
  (∀ (r : JobRef) (j : Job) (ok : Bool) (s : State), s.jobReady r 1 j → s.hbmReady = true → s.hostReady = true →
    let w := s.wakeLink
    ∃ t, exec (.ctxOpen ⟨r, ok⟩) s = .next t
    ∧ others s t j.ctx ∧ t.host = s.host
    ∧ ((s.ctx j.ctx).isOpen = true → t.jobEnded r { status := 8 } ∧ t = { w with sq := t.sq })
    ∧ (ok = false → (s.ctx j.ctx).isOpen = false → typ j ≤ 3 → cls j ≠ 3 → j.dw 8 ≠ 0 → j.dw 9 ≠ 0 →
        t.jobEnded r { status := 12 } ∧ t = { w with sq := t.sq })
    ∧ (∀ cores, ok = true → (s.ctx j.ctx).isOpen = false → typ j ≤ 2 → cls j ≠ 3 → j.dw 8 ≠ 0 → j.dw 9 ≠ 0 → j.length = 64 →
        w.flumeEntryOk j.ctx = true → decBad (typ j) (wd j) (ht j) (w.flumeEntryHost j.ctx) (s.readDesc j 16) = false →
        (2 < bitsOf ((s.readDesc j 16).getD 0 0).toNat 28 4 ∨ bitsOf ((s.readDesc j 16).getD 0 0).toNat 16 8
          ≤ levelLimit (bitsOf ((s.readDesc j 16).getD 0 0).toNat 28 4)) →
        w.place (typ j) ((wd j * ht j * j.dw 8 : Nat) / (max 1 (j.dw 9) : Nat)) none [] = some cores →
        t.jobEnded r { status := 0, result := State.coresResult (typ j) cores }
        ∧ (t.ctx j.ctx).isOpen = true ∧ (t.ctx j.ctx).typ = typ j ∧ (t.ctx j.ctx).cores = cores ∧ is (t.ctx j.ctx) j
        ∧ (t.flm j.ctx).used = true ∧ (j.ctx < 512 → t.fpos O.FLM_RD j.ctx = 0 ∧ t.fpos O.FLM_COMMIT j.ctx = 0))
    ∧ ∀ cores lv, ok = true → (s.ctx j.ctx).isOpen = false → typ j = 3 → cls j ≠ 3 → j.dw 8 ≠ 0 → j.dw 9 ≠ 0 → j.length = 256 →
        let e : EncCfg := ⟨s.readDesc j 64, wd j, ht j, j.dw 8, j.dw 9⟩
        w.encBad e = false → e.level = some lv →
        ((wd j * ht j * j.dw 8 : Nat) : Rat) / (max 1 (j.dw 9) : Nat) ≤ 497664000 → (e.tap = true → s.tapCount < 64) →
        w.place 3 ((wd j * ht j * j.dw 8 : Nat) / (max 1 (j.dw 9) : Nat)) none [] = some cores →
        t.jobEnded r { status := 0, result := State.coresResult 3 cores } ∧ (t.ctx j.ctx).st = 1 ∧ (t.ctx j.ctx).typ = 3
        ∧ (t.ctx j.ctx).cores = cores ∧ is (t.ctx j.ctx) j ∧ (t.flm j.ctx).used = false
        ∧ (j.ctx < 512 → t.fstat j.ctx 31 = true)
        ∧ t = { s with sq := t.sq, ctxs := t.ctxs, flumes := t.flumes, regs := t.regs })
  ∧ (∀ (r : JobRef) (j : Job) (s : State), s.jobReady r 2 j → s.hostReady = true →
    let x := s.ctx j.ctx
    let fmt := State.ringFormat x
    x.works = true → x.typ ≠ 3 → x.closing = none → x.midUnit = false → cls j ≠ 3 → j.dw 8 ≠ 0 → j.dw 9 ≠ 0 → j.length = 64 →
    decBad x.typ (wd j) (ht j) (s.flm j.ctx).host (s.readDesc j 16) = false →
    decFixed (s.readDesc j 16) = decFixed x.desc → pitchOf fmt (wd j) ≤ x.pitch →
    slotBytesOf (pitchOf fmt (wd j)) (ht j) ≤ x.slotBytes →
    ((wd j * ht j * j.dw 8 : Nat) : Rat) / (max 1 (j.dw 9) : Nat) ≤ x.rate →
    ∃ t, exec (.ctxConfig ⟨r, true⟩) s = .next t ∧ t.jobEnded r { status := 0, result := State.coresResult x.typ x.cores }
      ∧ is (t.ctx j.ctx) j ∧ (t.ctx j.ctx).cores = x.cores ∧ (t.ctx j.ctx).st = x.st ∧ others s t j.ctx
      ∧ t = { s.wakeLink with sq := t.sq, ctxs := t.ctxs })
  ∧ (∀ (r : JobRef) (j : Job) (s : State), s.jobReady r 3 j → s.hostReady = true → noDue s → (s.ctx j.ctx).isOpen = true →
    (s.ctx j.ctx).closing = none → (s.ctx j.ctx).mig = none → (s.ctx j.ctx).flight = [] →
    (s.ctx j.ctx).enc.pic = none → (s.ctx j.ctx).midUnit = false → bitOf (j.dw 6) 0 = false →
    ∃ t, exec (.ctxClose r) s = .next t ∧ t.jobEnded r { status := 0 } ∧ (t.ctx j.ctx).isOpen = false
      ∧ (t.flm j.ctx).used = false ∧ others s t j.ctx
      ∧ ∀ a, ¬ ((s.ctx j.ctx).blockAddr ≤ a ∧ a < (s.ctx j.ctx).blockAddr + 64) → t.hostByte a = s.hostByte a)
  ∧ (∀ (r : JobRef) (j : Job) (k : Nat) (s : State), s.jobReady r 4 j → noDue s →
    let x := s.ctx j.ctx
    let to_ := bitsOf (j.dw 6) 0 8
    x.isOpen = true → x.typ ≠ 2 → x.mig = none → x.cores = [k] → to_ ≠ 255 →
    ∃ t, exec (.ctxMigrate r) s = .next t ∧ others s t j.ctx ∧ memSame s t
      ∧ (to_ = k → t.jobEnded r { status := 0, result := k } ∧ t.ctx j.ctx = x)
      ∧ (to_ ≠ k → to_ < coreCount x.typ → s.inService x.typ to_ = true → s.fitsCore x.typ to_ x.rate none = true → idle x →
          t.jobEnded r { status := 0, result := to_ } ∧ (t.ctx j.ctx).cores = [to_]
          ∧ (t.ctx j.ctx).migrations = x.migrations + 1))

/-- Jobs with data for a context (R69, R117, R118, R140), and the encoder's jobs (R176, R177). -/
def Obligations.ContextDataAndEncoderJobs : Prop :=
  let ready := fun s : State => s.hostReady = true ∧ s.hbmReady = true
  (∀ (r : JobRef) (j : Job) (s : State), s.jobReady r 0x10 j → s.sramReady = true → s.skdMoves = true → s.running pFlm = true →
    s.feedTurn r = true → (s.ctx j.ctx).works = true → (s.ctx j.ctx).typ ≠ 3 → (s.ctx j.ctx).closing = none →
    s.feedOk j.ctx = true → j.ctx < 512 → j.moved = 0 → bitOf (j.dw 6) 0 = true → (s.jobData j).length = j.length →
    (s.flm j.ctx).pkt = none → ready s →
    let n := j.length + (if bitOf (j.dw 6) 2 then 8 else 0)
    n ≤ s.pktMax j.ctx → n + 1 ≤ s.roomBytes j.ctx →
    ∃ t, exec (.feed r) s = .next t ∧ t.jobEnded r { status := 0, result := j.length }
      ∧ t.fpos O.FLM_COMMIT j.ctx = (s.fpos O.FLM_COMMIT j.ctx + pktStaves n) % 2 ^ 32
      ∧ t.fpos O.FLM_WR j.ctx = t.fpos O.FLM_COMMIT j.ctx ∧ t.fpos O.FLM_RD j.ctx = s.fpos O.FLM_RD j.ctx
      ∧ t.host = s.host ∧ t.ctxs = s.ctxs)
  ∧ (∀ (r : JobRef) (j : Job) (slot lines : Nat) (s : State), s.jobReady r 0x11 j → s.skdMoves = true →
    s.feedTurn r = true → ready s →
    let x := s.ctx j.ctx
    let w := bitsOf (j.dw 6) 16 16
    let h := bitsOf (j.dw 6) 0 16
    let line := lineBytes (j.dw 8) w
    x.works = true → x.typ = 2 → bitsOf (x.w 0) 28 4 = 5 → x.closing = none → x.cepoch < 16 →
    w ≠ 0 → h ≠ 0 → w ≤ x.width → h ≤ x.height → j.dw 8 = State.ringFormat x → j.dw 7 % 16 = 0 → line ≤ j.dw 7 →
    j.dw 7 * (h - 1) + line ≤ j.length → s.findSlot j.ctx = some slot → x.flight = [] → h ≤ lines →
    ∃ t, exec (.framePut ⟨r, lines⟩) s = .next t ∧ t.jobEnded r { status := 0, result := slot } ∧ t.sstate x slot = 2
      ∧ t.entW x slot 4 = w * 65536 + h ∧ (∀ k, k ≠ j.ctx → t.ctx k = s.ctx k)
      ∧ t = { s with sq := t.sq, ctxs := t.ctxs, hbm := t.hbm, regs := t.regs })
  ∧ (∀ (r : JobRef) (j : Job) (s : State), s.jobReady r 0x21 j → ∃ t, exec (.keyRequest r) s = .next t
    ∧ t = { s with sq := t.sq, ctxs := t.ctxs }
    ∧ ((s.ctx j.ctx).typ = 3 → (s.ctx j.ctx).works = true →
        (t.findJob r).map (fun i => i.out.map (·.status)) = some (some 0)
        ∧ (t.ctx j.ctx).enc.keyReq = some (bitOf (j.dw 6) 0 || (s.ctx j.ctx).enc.keyReq.getD false))
    ∧ (¬ ((s.ctx j.ctx).typ = 3 ∧ (s.ctx j.ctx).works = true) → t.jobEnded r { status := 8 } ∧ t.ctxs = s.ctxs))
  ∧ (∀ (r : JobRef) (j : Job) (s : State), s.jobReady r 0x22 j →
    let x := s.ctx j.ctx
    let e : EncCfg := ⟨((x.desc.set 1 (BitVec.ofNat 32 (j.dw 6))).set 2 (BitVec.ofNat 32 (j.dw 7))).set 3
      (BitVec.ofNat 32 (putBits (x.w 3) 31 1 (bitsOf (j.dw 8) 0 1))), x.width, x.height, x.fnum, x.fden⟩
    x.typ = 3 → x.works = true →
    ∃ t, exec (.encReconfig r) s = .next t ∧ t = { s with sq := t.sq, ctxs := t.ctxs }
      ∧ (e.bufferOk = false → t.jobEnded r { status := 9 } ∧ t.ctxs = s.ctxs)
      ∧ (e.bufferOk = true → e.level = none → t.jobEnded r { status := 14 } ∧ t.ctxs = s.ctxs)
      ∧ (e.bufferOk = true → e.level ≠ none → t.jobEnded r { status := 0 }
          ∧ (t.ctx j.ctx).enc.reconf = some (j.dw 6, j.dw 7, bitOf (j.dw 8) 0)))

/-- Taking, committing and putting out pictures (R123, R139, R143). -/
def Obligations.DecodersTakeCommitAndOutputPictures : Prop :=
  let blk := fun k : Fin 3 => if k.val = 1 then Blk.xsd else Blk.dec
  let quiet := fun s : State => ∀ e ∈ s.ctxs, ∀ m ∈ (s.flm e.1).pks, m.kerf = false
    ∧ bitOf (s.pktHead e.1 m) 24 = false ∧ bitOf (s.pktHead e.1 m) 26 = false
  (∀ (k : Fin 3) (u : Fin 36) (p : PicTake) (slot : Nat) (s : State), s.alive (blk k) = true → quiet s →
    s.running pFlm = true → s.hbmReady = true → s.sramReady = true →
    let x := s.ctx p.ctx
    s.mayTake k u p = true → s.coreFree k u = true → x.st = 2 → x.newCfg = none → x.closing = none →
    p.mismatch = false → State.streamOk x p = true → p.width ≤ x.width → p.height ≤ x.height →
    State.ringNeed x p ≤ State.ringSlots x → p.ref = true → s.findSlot p.ctx = some slot → (s.flm p.ctx).held = none →
    Sys2Proof.Machine.dist (s.fpos O.FLM_RD p.ctx) (s.fpos O.FLM_REL p.ctx) < Sys2Proof.Machine.dist p.stop.toNat (s.fpos O.FLM_REL p.ctx) →
    ∃ t, exec (.pictureDecoded k u none [p]) s = .next t
      ∧ (∃ f ∈ (t.ctx p.ctx).flight, f.core = u.val ∧ f.slot = slot ∧ f.start = p.start.toNat ∧ f.stop = p.stop.toNat
          ∧ f.done = false)
      ∧ (t.ctx p.ctx).flight.length = x.flight.length + 1 ∧ t.sstate x slot = 1
      ∧ t.fpos O.FLM_RD p.ctx = p.stop.toNat ∧ t.host = s.host ∧ ∀ c, c ≠ p.ctx.val → t.ctx c = s.ctx c)
  ∧ (∀ (k : Fin 3) (u : Fin 36) (r : PicResult) (f : Flight) (s : State), s.alive (blk k) = true → quiet s →
    let rel := s.fpos O.FLM_REL r.ctx
    let x := s.ctx r.ctx
    x.typ = k.val → x.flight = [f] → f.core = u.val → f.done = false → x.closing = none → x.mig = none → r.cepoch.val = x.cepoch →
    (k.val = 2 → bitsOf (x.w 0) 28 4 ≠ 5) → (k.val < 2 → u.val < coreCount k.val) →
    Sys2Proof.Machine.dist f.start rel ≤ Sys2Proof.Machine.dist (s.unfinished r.ctx []) rel →
    x.outq = [] → (s.flm r.ctx).held = none → x.cepoch < 16 → f.colour < 16 → r.unref = [] →
    ∃ t, exec (.pictureDecoded k u (some r) []) s = .next t ∧ (t.ctx r.ctx).flight = []
      ∧ (t.ctx r.ctx).biterr = x.biterr + r.biterr ∧ t.host = s.host ∧ (∀ c, c ≠ r.ctx.val → t.ctx c = s.ctx c)
      ∧ (k.val < 2 → t.rd (corePage k u) O.DEC_PICS = (s.rd (corePage k u) O.DEC_PICS + 1) % 2 ^ 32)
      ∧ (r.out = [] → (t.ctx r.ctx).pics = x.pics
          ∧ (t.ctx r.ctx).outq.map (fun g => (g.serial, g.slot, g.done)) = [(f.serial, f.slot, true)])
      ∧ (r.out = [f.serial] → (t.ctx r.ctx).pics = (x.pics + 1) % 2 ^ 32 ∧ (t.ctx r.ctx).lastPts = f.pts
          ∧ (t.ctx r.ctx).outq = [] ∧ t.sstate x f.slot = 2))

/-- Status blocks (R148, R185), migration (R153, R154), failing cores (R157, R186) and contained faults (R148). -/
def Obligations.CodecContextsReportMigrateAndFail : Prop :=
  let wrote := fun (s t : State) (c : Nat) (ws : List Nat) =>
    let a := (s.ctx c).blockAddr
    t.hostBytes a 64 = (ws.map (leBytes 4)).flatten ∧ (t.ctx c).csbSeq = ((s.ctx c).csbSeq + 1) % 2 ^ 16
    ∧ (t.ctx c).csbDue = false ∧ (t.ctx c).csbDirty = false
    ∧ (∀ x, ¬ (a ≤ x ∧ x < a + 64) → t.hostByte x = s.hostByte x) ∧ ∀ x, t.hbmByte x = s.hbmByte x
  let due := fun x : Ctx => x.csbDue || x.csbDirty
  let gone := fun (t : State) (typ k : Nat) => t.role typ k = 2 ∧ t.pstate (corePage typ k) = 5
  let noDue := fun s : State => ∀ k, (s.ctx k).typ = 3 → (s.ctx k).enc.pic = none
  let serves := fun (s : State) (typ k : Nat) => s.role typ k = 0 ∧ s.flt.retiring ≠ some (coreClass typ, k)
  (∀ (c : Fin 512) (s : State), s.alive .dec = true → (s.ctx c).isOpen = true → (s.ctx c).typ ≠ 3 → s.hostReady = true →
    (s.ctx c).desc ≠ [] → ∃ t, exec (.csbWrite c) s = .next t ∧ (due (s.ctx c) = false → t = s)
    ∧ (due (s.ctx c) = true → wrote s t c (State.csbWords (s.ctx c) (((s.ctx c).csbSeq + 1) % 2 ^ 16))))
  ∧ (∀ (c : Fin 512) (s : State), s.alive .enc = true → (s.ctx c).isOpen = true → (s.ctx c).typ = 3 →
    s.hostReady = true → (s.ctx c).desc ≠ [] → ∃ t, exec (.esbWrite c) s = .next t ∧ (due (s.ctx c) = false → t = s)
    ∧ (due (s.ctx c) = true → wrote s t c (State.esbWords (s.ctx c) (((s.ctx c).csbSeq + 1) % 2 ^ 16))))
  ∧ (∀ (c : Fin 512) (m : Mig) (s : State), s.alive .dec = true → (s.ctx c).mig = some m → (s.ctx c).flight = [] →
    (s.ctx c).enc.pic = none → noDue s → (s.ctx c).midUnit = false →
    (m.cores.all fun k => s.inService (s.ctx c).typ k) = true →
    ∃ t, exec (.normalMigration c) s = .next t ∧ (t.ctx c).cores = m.cores
    ∧ (t.ctx c).mig = none ∧ (t.ctx c).migrations = (s.ctx c).migrations + 1 ∧ (∀ k, k ≠ c.val → t.ctx k = s.ctx k)
    ∧ t = { s with regs := t.regs, ctxs := t.ctxs, sq := t.sq } ∧ memSame s t)
  ∧ (∀ s : State, s.alive .dec = true → noDue s → ∃ t, exec .rebalance s = .next t ∧ t.lateRecent = []
    ∧ t = { s with ctxs := t.ctxs, lateRecent := [] } ∧ memSame s t
    ∧ ∀ c, (t.ctx c).mig ≠ (s.ctx c).mig → (s.ctx c).mig = none ∧ (s.ctx c).cls ≠ 0 ∧ (s.ctx c).pinned = false
        ∧ (s.ctx c).ganged = false ∧ (s.ctx c).works = true)
  ∧ (∀ (typ : Fin 4) (k j c n : Nat) (s : State), s.alive .dec = true → noDue s → typ.val ≠ 2 → k < coreCount typ →
    s.lateRecent = [(corePage typ k, n)] → n ≠ 0 → s.onCore typ k = [c] →
    (s.ctx c).cls ≠ 0 → (s.ctx c).pinned = false → (s.ctx c).ganged = false → (s.ctx c).works = true →
    (s.ctx c).mig = none →
    (List.range (coreCount typ)).find? (fun i => decide (i ≠ k) && s.fitsCore typ i (s.ctx c).rate none) = some j →
    ∃ t, exec .rebalance s = .next t ∧ (t.ctx c).mig = some ⟨[j], none⟩ ∧ t.lateRecent = []
      ∧ (∀ d, d ≠ c → t.ctx d = s.ctx d))
  ∧ (∀ (k : Fin 45) (bad : List Nat) (s : State), s.alive .dec = true → serves s (coreOf k).1 (coreOf k).2 →
    ∃ t, exec (.coreUe k bad) s = .next t ∧ gone t (coreOf k).1 (coreOf k).2)
  ∧ (∀ (k : Fin 45) (bad : List Nat) (c : Nat) (s : State), s.alive .dec = true → serves s (coreOf k).1 (coreOf k).2 →
    c ∈ s.onCore (coreOf k).1 (coreOf k).2 → ((s.ctx c).flight.any fun f => decide (f.core = (coreOf k).2) && !f.done) = true →
    ∃ t, exec (.coreHang k bad) s = .next t ∧ gone t (coreOf k).1 (coreOf k).2)
  ∧ (∀ (k : Fin 18) (hang : Bool) (bad : List Nat) (s : State), s.alive .enc = true → serves s 3 k →
    (hang = true → s.encBusy k = true) →
    ∃ t, exec (.encCoreFault k hang bad) s = .next t ∧ gone t 3 k)
  ∧ (∀ (c : Fin 512) (code : Fin 6) (s : State), s.alive .dec = true → code ≠ 0 → (s.ctx c).isOpen = true →
    (s.ctx c).st ≠ 5 → ∃ t, exec (.contextFault c code) s = .next t ∧ (t.ctx c).st = 5
    ∧ (t.ctx c).faultCode = code.val ∧ (t.ctx c).flight = [])

/-- Encode instants (R168, R169), passes (R170, R172) and the holdoff (R174). State 2 is ENCODING. -/
def Obligations.EncoderPicturesFollowInstantsAndPasses : Prop :=
  let alone := fun (s : State) (c : Nat) => ∀ k, k ≠ c → (s.ctx k).typ = 3 → (s.ctx k).enc.pic = none
  (∀ (c : Fin 512) (skip : EncOut) (pts : Nat) (kind : Nat) (s : State), s.alive .enc = true → alone s c →
    let x := s.ctx c
    x.typ = 3 → x.works = true → x.closing = none → x.ecfg.tap = true → x.enc.cap = some (pts, kind) →
    ∃ t, exec (.encodeInstant c skip) s = .next t ∧ (t.ctx c).enc.cap = none ∧ memSame s t
      ∧ (kind = 0 → x.enc.pic = none → (t.ctx c).enc.pic.map (·.pts) = some pts ∧ (t.ctx c).st = 2)
      ∧ (∀ k l, kind = 0 → x.enc.pic ≠ none → x.cores = k :: l → k < 18 →
          (t.ctx c).enc.owed = x.enc.owed ++ [(pts, skip)] ∧ (t.ctx c).enc.pic = x.enc.pic
          ∧ t.rd (corePage 3 k) O.ENC_LATE_SKIP = (s.rd (corePage 3 k) O.ENC_LATE_SKIP + 1) % 2 ^ 32)
      ∧ (kind = 1 → x.enc.pic = none → x.st = 2 → (t.ctx c).enc.num = x.enc.num + 1))
  ∧ (∀ (c : Fin 512) (o skip : EncOut) (p : EncPic) (s : State), s.alive .enc = true → alone s c →
    let x := s.ctx c
    x.typ = 3 → x.works = true → x.enc.pic = some p → p.started = true → 1 ≤ p.pass → p.pass ≤ 3 → x.enc.owed = [] →
    x.mig = none → x.closing = none →
    let fits := ((8 * State.unitBytes (State.encUnits x (State.picKind x p) o) : Nat) : Rat) ≤ State.encR x * x.enc.d
    ∃ t, exec (.encodePassDone c o skip) s = .next t ∧ memSame s t
      ∧ (fits → (t.ctx c).enc.pic = none ∧ (t.ctx c).enc.num = x.enc.num + 1 ∧ (t.ctx c).enc.skips = x.enc.skips)
      ∧ (¬ fits → p.pass < 3 → (t.ctx c).enc.pic = some { p with pass := p.pass + 1 }
          ∧ (t.ctx c).enc.reenc = x.enc.reenc + 1 ∧ (t.ctx c).enc.num = x.enc.num)
      ∧ (¬ fits → p.pass = 3 → (t.ctx c).enc.pic = none ∧ (t.ctx c).enc.num = x.enc.num + 1
          ∧ (t.ctx c).enc.skips = x.enc.skips + 1))
  ∧ (∀ (c : Fin 512) (s : State), s.alive .enc = true → (s.ctx c).typ = 3 → (s.ctx c).enc.holdoff = true →
    let e := (s.ctx c).enc
    ∃ t, exec (.keyHoldoffExpiry c) s = .next t ∧ (t.ctx c).enc.holdoff = false ∧ (t.ctx c).enc.keyHeld = none
      ∧ (t.ctx c).enc.keyReq = (match e.keyReq, e.keyHeld with
          | some a, some b => some (a || b)
          | some a, none => some a
          | none, h => h)
      ∧ t = { s with ctxs := t.ctxs } ∧ memSame s t)

/-- The mode (R193, R194, R196), what applies at an epoch (R22, R201) and RESYNC (R425). -/
def Obligations.ModesAreArmedCancelledAndApplied : Prop :=
  let stat := fun t : State => t.rd pLnd O.LND_MODE_STAT
  (∀ s : State, s.alive .lnd = true → s.postBusy pLnd = false → ∃ t, exec .modeArm s = .next t
    ∧ t.rd64 pLnd O.LND_MODE_LATE_LO = 0 ∧ t = { sigRest s t with lnd := t.lnd } ∧ memSame s t
    ∧ (∀ r, s.armReason s.nextMode = some r → stat t = 4 * 2 ^ 28 + r ∧ t.bit pLnd O.INT_CAUSE 7 = true ∧ t.lnd = s.lnd)
    ∧ (s.armReason s.nextMode = none → stat t = 2 * 2 ^ 28 ∧ t.lnd.armed = some s.nextMode))
  ∧ (∀ (m : ModeNext) (s : State), s.alive .lnd = true → s.postBusy pLnd = false → s.lnd.armed = some m →
    ∃ t, exec .modeCancel s = .next t
      ∧ (m.stand = false → s.leadOk m.epoch 2 = true → stat t = 5 * 2 ^ 28 ∧ t.lnd = { s.lnd with armed := none }
          ∧ t = { s with regs := t.regs, lnd := t.lnd })
      ∧ (m.stand = true ∨ s.leadOk m.epoch 2 = false → t = s))
  ∧ (∀ s : State, s.alive .lnd = true → ∃ t, exec .epochApply s = .next t ∧ t.lnd.applied = true
    ∧ (s.lnd.applied = true → t = s))
  ∧ (∀ (m : ModeNext) (s : State), s.alive .lnd = true → s.lnd.applied = false → s.lnd.armed = some m →
    m.epoch = s.tim.wframe % 2 ^ 32 → s.stand.pend = none → s.lnd.loads = [] → (∀ k, k < 8 → (s.wfeed k).pend = []) →
    ∃ t, exec .epochApply s = .next t ∧ t.lnd.armed = none ∧ t.lnd.applied = true ∧ memSame s t
      ∧ (m.stand = true ∨ s.modeFits m = true → t.rd pLnd O.LND_MODE_CUR = m.cfg % 2 ^ 32
          ∧ t.rd pLnd O.LND_FRATE_NUM_CUR = m.num % 2 ^ 32 ∧ t.rd pLnd O.LND_FRATE_DEN_CUR = m.den % 2 ^ 32
          ∧ t.rd pLnd O.LND_COLOUR_CUR = m.colour % 2 ^ 32 ∧ t.lnd.modeId = s.nextModeId
          ∧ stat t = stat s ∧ t.lnd.passing = some 3)
      ∧ (m.stand = false → s.modeFits m = false → stat t = 4 * 2 ^ 28 + 3 ∧ t.bit pLnd O.INT_CAUSE 7 = true
          ∧ t.rd pLnd O.LND_MODE_CUR = s.rd pLnd O.LND_MODE_CUR ∧ t.lnd.modeId = s.lnd.modeId))
  ∧ (∀ (p : Fin 512) (n : Nat) (s : State), s.alive .lnd = true → p.val = pLnd → s.lnd.passing = some n →
    (∃ t, exec (.pageQuiescent p) s = .next t
      ∧ (n = 3 → t = { s with lnd := { s.lnd with passing := some 0 } })
      ∧ (n = 0 → t = { s with lnd := { s.lnd with passing := some 1 } }))
    ∧ ∃ t, exec (.pageReady p true []) s = .next t
      ∧ (n = 1 → stat t = 3 * 2 ^ 28 ∧ t.bit pLnd O.INT_CAUSE 6 = true ∧ t.lnd = { s.lnd with passing := none }
          ∧ t = { sigRest s t with lnd := t.lnd }))
  ∧ (∀ (k : Nat) (sc : Scene) (r : JobRef) (s : State), s.alive .lnd = true → s.lnd.applied = false →
    s.lnd.armed = none → s.stand.pend = none → s.lnd.loads = [] → k < 8 → (∀ i, i < 8 → i ≠ k → (s.wfeed i).pend = []) →
    (s.wfeed k).pend = [(sc, r)] → (s.wfeed k).wait = [] → s.jobOpen r = true → sc.epoch = s.tim.wframe % 2 ^ 32 →
    s.sceneInvalid sc = none →
    ∃ t, exec .epochApply s = .next t ∧ (t.wfeed k).cur = some sc ∧ t.jobEnded r { status := 0, result := sc.epoch }
      ∧ t.rd pLnd (O.LND_SCENE_EPOCH + 4 * k) = sc.epoch ∧ t.bit pLnd O.INT_CAUSE 0 = true ∧ memSame s t)
  ∧ (∀ (m : StandMode) (op : W32) (s : State), s.alive .std = true → s.isMember = true → s.stdState = 2 →
    s.modeInForce { State.standModeOf m.cfg.toNat m.num.toNat m.den.toNat m.colour.toNat 0 with
      epoch := s.tim.wframe % 2 ^ 32 } = true →
    ∃ t, exec (.resync m false op) s = .next t ∧ t.rd pStd O.STD_OP_SEQ = op.toNat ∧ t.bit pStd O.STD_FLAGS 3 = false
      ∧ t.stand = { s.stand with pend := none } ∧ t.lnd = s.lnd ∧ memSame s t)

/-- Slots (R14, R191), CAM_SYNC (R199), the flash guard's hold (R217) and lanes (R220). -/
def Obligations.SlotsStartEndAndFault : Prop :=
  (∀ s : State, s.alive .lnd = true → ∃ t, exec .slotStart s = .next t
    ∧ (s.lnd.on = false ∨ s.running pLnd = false → t = s)
    ∧ (s.lnd.on = true → s.running pLnd = true → s.lnd.slot = none → s.lnd.next < s.slotsPerFrame →
        (s.lnd.next = 0 → s.lnd.applied = true) →
        t.lnd.slot = some s.lnd.next ∧ t.lnd.next = s.lnd.next + 1 ∧ t.slotIdx = s.lnd.next))
  ∧ (∀ (l : List (Fin 512)) (s : State), s.alive .lnd = true → ∃ t, exec (.slotEnd l) s = .next t
    ∧ t.lnd.slot = none ∧ t.lnd.next = s.lnd.next ∧ memSame s t ∧ (s.lnd.slot = none → t = s)
    ∧ ∀ k, s.lnd.slot = some k → k < 9 → (∃ p, p < 64 ∧ s.portWaits p = true) →
        t.rd pLnd (O.LND_UNDERRUN + 4 * k) = (s.rd pLnd (O.LND_UNDERRUN + 4 * k) + 1) % 2 ^ 32
        ∧ t.bit pLnd O.INT_CAUSE 2 = true)
  ∧ (∀ (k : Fin 8) (f : BitVec 48) (n : Fin 9) (s : State), s.alive .tim = true →
    ∃ t, exec (.camSyncEdge k f n) s = .next t
    ∧ (∀ stop, sget (fun _ => none) s.lnd.cam k.val = some stop → sget (fun _ => none) t.lnd.cam k.val = none
        ∧ t.out = .camSync k (s.camLevel k false) :: s.out
        ∧ t = { s with tim := t.tim, lnd := t.lnd, out := t.out })
    ∧ (sget (fun _ => none) s.lnd.cam k.val = none → s.bit pTim (State.csr O.TIM_CS_CFG k) 31 = false → t = s))
  ∧ (∀ (n : Fin 104) (q : Option (BitVec 16 × BitVec 16)) (bad : List Nat) (s : State), s.alive .lnd = true →
    s.running pLnd = true → s.laneIn n = true →
    ∃ t, exec (.laneFault ⟨n, q⟩ bad) s = .next t ∧ t.bit pLnd (O.LND_LANE_RETIRED + 4 * (n / 32)) (n % 32) = true
      ∧ t.rd pLnd O.LND_CNT_LANE_FAULT = (s.rd pLnd O.LND_CNT_LANE_FAULT + 1) % 2 ^ 32
      ∧ (∀ p, p < 64 → (∃ x y, q = some (x, y) ∧ s.waitsFor x.toNat y.toNat p = true) → (t.jport p).pix = [])
      ∧ (∀ p, p < 64 → (∀ x y, q = some (x, y) → s.waitsFor x.toNat y.toNat p = false) → t.jport p = s.jport p)
      ∧ (bad = [] → s.fld pLnd O.LND_LANES 16 4 ≠ 0 → t.fld pLnd O.LND_LANES 16 4 = s.fld pLnd O.LND_LANES 16 4 - 1
          ∧ t.lanes = s.lanes)
      ∧ (bad = [] → s.fld pLnd O.LND_LANES 16 4 = 0 → t.lanes = s.lanes - 1) ∧ memSame s t)
  ∧ (∀ (k : Fin 8) (s : State), s.alive .lnd = true → s.frozen k = true →
    ∃ t, exec (.flashHoldEnd k) s = .next t ∧ t.frozen k = false ∧ (t.wfeed k).lum = [] ∧ (t.wfeed k).red = []
      ∧ (∀ i, i ≠ k.val → t.wfeed i = s.wfeed i) ∧ t = { s with regs := t.regs, lnd := t.lnd } ∧ memSame s t)

/-- Jobs of the Landing (R201, R202), of the tables (R68) and of the Tally (R244). Status: 3 LATE_EPOCH, 9 BAD_PARAM, 12 HOST_ACCESS. -/
def Obligations.ScenesTablesAndSnapshotsOfJobs : Prop :=
  (∀ (r : JobRef) (ok : Bool) (j : Job) (s : State), s.jobReady r 0x20 j → s.hbmReady = true → s.hostReady = true →
    let k := bitsOf (j.dw 6) 0 3
    let sc := s.sceneOf j
    let bad := sc.readFault k j.length
    ∃ t, exec (.sceneSubmit r ok) s = .next t ∧ t = { s with sq := t.sq, lnd := t.lnd, regs := t.regs } ∧ memSame s t
    ∧ (ok = false → t.jobEnded r { status := 12 })
    ∧ (∀ reason lay, ok = true → bad = some (reason, lay) → t.jobEnded r { status := 9, detail := reason * 256 + lay })
    ∧ (ok = true → bad = none → s.leadOk sc.epoch 1 = false → t.jobEnded r { status := 3 })
    ∧ (ok = true → bad = none → s.leadOk sc.epoch 1 = true → (s.liveScenes k).length < 2 → (s.wfeed k).wait = [] →
        ((s.liveScenes k).any fun e => decide (e.1.epoch = sc.epoch)) = false →
        (t.wfeed k).pend = s.liveScenes k ++ [(sc, r)]
        ∧ (t.findJob r).map (fun i => (i.out, i.taken, i.epoch)) = some (none, true, some sc.epoch)))
  ∧ (∀ (r : JobRef) (n : Nat) (j : Job) (s : State), s.jobReady r 0x40 j → s.skdMoves = true →
    let p := State.loadPage j
    (State.sramTable p = true → s.sramReady = true) →
    let tb := State.loadTab j
    let words := j.length / 4
    ∃ t, exec (.tableLoad r n) s = .next t ∧ t.host = s.host
    ∧ (∀ st, s.loadCheck j = some st → t.jobEnded r { status := st } ∧ t = { s with sq := t.sq })
    ∧ (s.loadCheck j = none → State.loadEpochEn j = false → j.moved = 0 → words ≤ n → s.hostReady = true → p ≠ pEic →
        ¬ (p = pLmp ∧ 0x20 ≤ tb) → t.hbm = s.hbm ∧ t.jobEnded r { status := 0, result := words }
        ∧ ∀ i, i < words → t.tabAt p tb (s.writeCopy p tb) (j.dw 7 + i) = leWord (s.jobData j) (4 * i)))
  ∧ (∀ (r : JobRef) (k : Nat) (j : Job) (s : State), s.alive .tly = true → s.jobReady r 0x41 j → s.skdMoves = true →
    s.hbmReady = true → s.hostReady = true →
    let n := j.dw 7
    ∃ t, exec (.tallySnapshot ⟨r, k⟩) s = .next t ∧ t.hbm = s.hbm
    ∧ (67108864 < j.dw 6 + n ∨ j.length ≠ 16 * n → t.jobEnded r { status := 9 } ∧ t = { s.wakeLink with sq := t.sq })
    ∧ (∀ a, j.moved = 0 → n ≤ k → j.dw 6 + n ≤ 67108864 → j.length = 16 * n → j.pieces = [(a, 16 * n)] →
        t.jobEnded r { status := 0, result := 16 * n } ∧ t.hostBytes a (16 * n) = s.hbmBytes (s.doseAddr (j.dw 6)) (16 * n)
        ∧ ∀ x, ¬ (a ≤ x ∧ x < a + 16 * n) → t.hostByte x = s.hostByte x))

/-- Stand operations (R410, R420-R424). Status 3 is LATE_EPOCH, 8 BAD_STATE. -/
def Obligations.StandOperationsAreCommittedAndEnd : Prop :=
  let lead := fun (s : State) (j : Job) (op len : Nat) => s.isMember = false ∧ s.isLead = true ∧ s.running pStd = true
    ∧ bitsOf (j.dw 6) 0 8 = op ∧ j.length = len ∧ s.stand.redisc = none
  let taken := fun (t : State) (r : JobRef) => (t.findJob r).map (fun i => (i.out, i.taken)) = some (none, true)
  let far := fun (s : State) (e : Nat) => s.stand.pend = none ∧ s.leadOk e 4 = true
  let refused := fun (s t : State) (r : JobRef) => t.jobEnded r { status := 8 } ∧ t = { s with sq := t.sq }
  (∀ (r : JobRef) (ok : Bool) (m : Fin 64) (j : Job) (s : State), s.jobReady r 0x50 j →
    let op := bitsOf (j.dw 6) 0 8
    s.isMember = true ∨ s.isLead = false →
    (op = 1 → ∃ t, exec (.standOpMode r ok none m none) s = .next t ∧ refused s t r)
    ∧ (op = 2 → s.stand.barriers = [] → ∃ t, exec (.standOpBarrier r ⟨ok, false⟩) s = .next t ∧ refused s t r)
    ∧ (op = 3 → ∃ t, exec (.standOpSnapshot r ok none) s = .next t ∧ refused s t r)
    ∧ (op = 4 → ∃ t, exec (.standReset r m none) s = .next t ∧ refused s t r)
    ∧ (op = 5 → ∃ t, exec (.rediscover r) s = .next t ∧ refused s t r))
  ∧ (∀ (r : JobRef) (m : Fin 64) (j : Job) (s : State), s.jobReady r 0x50 j → lead s j 1 16 → far s (j.dw 7) →
    let w := fun i => leWord (s.jobData j) (4 * i)
    let md := State.standModeOf (w 0) (w 1) (w 2) (w 3) (j.dw 7)
    s.hostReady = true → s.wakeLink.modeReason md = none → ∃ t, exec (.standOpMode r true none m none) s = .next t ∧ taken t r ∧ t.lnd.armed = some md
      ∧ t.stand.pend = some ⟨false, j.dw 7, some r, m⟩ ∧ t.stand.committed = s.stand.committed + 1
      ∧ t.rd pLnd O.LND_MODE_STAT = 2 * 2 ^ 28 ∧ memSame s t)
  ∧ (∀ (r : JobRef) (m : Fin 64) (j : Job) (s : State), s.jobReady r 0x50 j → lead s j 4 0 → far s (j.dw 7) →
    ∃ t, exec (.standReset r m none) s = .next t ∧ taken t r ∧ t.stand.pend = some ⟨true, j.dw 7, some r, m⟩
      ∧ t.stand.committed = s.stand.committed + 1 ∧ t = { s with sq := t.sq, stand := t.stand, out := t.out })
  ∧ (∀ (r : JobRef) (b : Bool) (j : Job) (s : State), s.jobReady r 0x50 j → lead s j 2 0 → s.stand.barriers = [] →
    let wait := (s.openJobs r).any fun x => s.jobOpen x
    ∃ t, exec (.standOpBarrier r ⟨b, false⟩) s = .next t ∧ taken t r ∧ t.stand.barriers = [⟨r, s.openJobs r, !wait⟩]
      ∧ t.out = (if wait then s.out else .standRound 1 2 [] :: s.out)
      ∧ t = { s with sq := t.sq, stand := t.stand, out := t.out })
  ∧ (∀ (r : JobRef) (l : List JobRef) (b : Bool) (s : State), s.alive .wqm = true →
    s.stand.barriers = [⟨r, l, false⟩] → (l.any fun x => s.jobOpen x) = false →
    ∃ t, exec (.standOpBarrier r ⟨b, false⟩) s = .next t ∧ t.stand.barriers = [⟨r, l, true⟩]
      ∧ t.out = .standRound 1 2 [] :: s.out ∧ t = { s with stand := t.stand, out := t.out })
  ∧ (∀ (r : JobRef) (l : List JobRef) (s : State), s.alive .wqm = true → s.jobOpen r = true →
    s.stand.barriers = [⟨r, l, true⟩] → ∃ t, exec (.standOpBarrier r ⟨true, false⟩) s = .next t
      ∧ t.jobEnded r { status := 0, result := s.presentN } ∧ t.stand.barriers = [])
  ∧ (∀ (r : JobRef) (b : Bool) (s : State), s.alive .wqm = true → s.isMember = true → s.stdState = 2 →
    let l := s.stand.barrierIn.getD ((s.openJobs r).filter fun x => decide (512 ≤ x.q.val))
    ∃ t, exec (.standOpBarrier r ⟨b, true⟩) s = .next t
      ∧ (if (l.any fun x => s.jobOpen x) then t = { s with stand := { s.stand with barrierIn := some l } }
        else t = { s with stand := { s.stand with barrierIn := none }, out := .standReply s.ownEngine 2 0 :: s.out }))
  ∧ (∀ (r : JobRef) (j : Job) (s : State), s.jobReady r 0x50 j → lead s j 3 8 → s.hostReady = true →
    let time := leNat ((s.jobData j).take 8)
    ∃ t, exec (.standOpSnapshot r true none) s = .next t
      ∧ ((time : Int) - s.tim.time < s.castTime + 10000 → t.jobEnded r { status := 3 })
      ∧ (s.castTime + 10000 ≤ (time : Int) - s.tim.time → taken t r ∧ t.out = .standRound 2 3 [time] :: s.out))
  ∧ (∀ (r : JobRef) (n : Fin 65) (j : Job) (s : State), s.alive .wqm = true → s.findJob r = some j → j.op = 0x50 →
    bitsOf (j.dw 6) 0 8 = 3 → j.taken = true → j.out = none → ∃ t, exec (.standOpSnapshot r true (some n)) s = .next t
      ∧ t.jobEnded r { status := 0, result := n })
  ∧ (∀ (r : JobRef) (j : Job) (s : State), s.jobReady r 0x50 j → lead s j 5 0 →
    ∃ t, exec (.rediscover r) s = .next t ∧ taken t r ∧ t.stdState = 1 ∧ t.stand.redisc = some r ∧ memSame s t)
  ∧ (∀ (r : JobRef) (m : Fin 64) (c : StandMode) (e : W32) (s : State), s.alive .wqm = true → s.isMember = true →
    s.stdState = 2 →
    let md := State.standModeOf c.cfg.toNat c.num.toNat c.den.toNat c.colour.toNat c.epoch.toNat
    (c.prepare = true → ∃ t, exec (.standOpMode r true none m (some c)) s = .next t
      ∧ t = { s with out := .standReply s.ownEngine 1 ((s.modeReason md).getD 0) :: s.out })
    ∧ (c.prepare = false → s.modeReason md = none → ∃ t, exec (.standOpMode r true none m (some c)) s = .next t ∧ t.lnd.armed = some md
      ∧ t.stand.pend = some ⟨false, c.epoch.toNat, none, 0⟩)
    ∧ ∃ t, exec (.standReset r m (some e)) s = .next t ∧ t = { s with stand := t.stand }
      ∧ t.stand.pend = some ⟨true, e.toNat, none, 0⟩)

/-- The Tally (R235, R237, R238, R241, R246). What a sample adds holds a free value (R237); nothing is said of it here. -/
def Obligations.TallySamplesFoldsSweepsAndLedger : Prop :=
  let iv := fun s : State => s.fld pTly O.TLY_INTERVAL 0 16
  (∀ s : State, s.alive .tly = true → ∃ t, exec .tallySample s = .next t ∧ memSame s t ∧ (s.lnd.slot = none → t = s)
    ∧ (∀ k, s.lnd.slot = some k → s.running pTly = true → iv s ≠ 0 → s.tim.wframe % iv s = 0 →
        k = s.tly.n % max 1 s.feeds → s.tly.last ≠ some s.tim.wframe → Cond.pwrFail ∉ s.black.glob →
        t.tly.last = some s.tim.wframe
        ∧ (s.tly.fold = none → (∃ l, t.tly.fold = some l ∧ l.length ≤ 65536) ∧ t.tly.live = true ∧ t.tly.n = s.tly.n + 1 ∧ t.tly.deferred = 0)
        ∧ (s.tly.fold ≠ none → t.tly.fold = s.tly.fold ∧ t.tly.deferred = s.tly.deferred + 1
            ∧ t.rd pTly O.TLY_CNT_DEFERRED = (s.rd pTly O.TLY_CNT_DEFERRED + 1) % 2 ^ 32
            ∧ t.bit pTly O.INT_CAUSE 0 = true)))
  ∧ (∀ s : State, s.alive .tly = true → ∃ t, exec .foldDone s = .next t ∧ t.host = s.host ∧ (s.tly.fold = none ∨ s.tly.live = true → t = s)
    ∧ (s.tly.fold ≠ none → s.tly.live = false → s.tly.rest ≠ [] →
        t.tly.fold = some (s.tly.rest.take 65536) ∧ t.tly.rest = s.tly.rest.drop 65536)
    ∧ (s.tly.fold ≠ none → s.tly.live = false → s.tly.rest = [] → t.tly.fold = none
        ∧ t.rd pTly O.TLY_CNT_SAMPLES = (s.rd pTly O.TLY_CNT_SAMPLES + 1) % 2 ^ 32)
    ∧ ∀ i a b c, s.tly.live = false → s.tly.fold = some [(i, a, b, c)] →
        (t.dose i).d = (min (2 ^ 32 - 1) ((s.dose i).d.1 + a), min (2 ^ 32 - 1) ((s.dose i).d.2.1 + b),
          min (2 ^ 32 - 1) ((s.dose i).d.2.2 + c))
        ∧ ∀ x, ¬ (s.doseAddr i ≤ x ∧ x < s.doseAddr i + 16) → t.hbmByte x = s.hbmByte x)
  ∧ (∀ (ue : List (Fin 67108864)) (s : State), s.alive .tly = true → s.running pTly = true →
    ∃ t, exec (.sweep ue) s = .next t ∧ t.host = s.host ∧ (s.bit pTly O.TLY_SWEEP_CTL 1 = true → t = s)
    ∧ (∀ w e, s.bit pTly O.TLY_SWEEP_CTL 1 = false → s.tly.sweep = some w →
        (s.tiles.find? fun e => decide (w.next ≤ e.t)) = some e → t.tly.sweep.map (·.next) = some (e.t + 1))
    ∧ (∀ w, s.bit pTly O.TLY_SWEEP_CTL 1 = false → s.tly.sweep = some w →
        (s.tiles.find? fun e => decide (w.next ≤ e.t)) = none → t.tly.sweep = none ∧ t.bit pTly O.INT_CAUSE 1 = true
        ∧ t.rd pTly O.TLY_CNT_SWEEPS = (s.rd pTly O.TLY_CNT_SWEEPS + 1) % 2 ^ 32
        ∧ t.rd pTly O.TLY_EXH_LAMPS = w.exh % 2 ^ 32 ∧ t.rd pTly O.TLY_SNAG_LAMPS = w.snag % 2 ^ 32
        ∧ ∀ n, n < 4032 → t.rd pTly (O.TLY_DERATE + 4 * n) = sget (fun _ => 0) w.found n % 2 ^ 32))
  ∧ (∀ s : State, s.alive .tly = true → s.postBusy pTly = false → s.running pTly = true → s.tly.sweep = none →
    ∃ t, exec .sweepNow s = .next t ∧ (t.tly.sweep.map fun w => (w.next, w.found, w.exh)) = some (0, [], 0)
      ∧ t = { s with tly := t.tly } ∧ memSame s t)
  ∧ (∀ (on : Bool) (s : State), s.alive .tly = true → s.postBusy pTly = false →
    ∃ t, exec (.sweepPause on) s = .next t ∧ t.bit pTly O.TLY_SWEEP_CTL 1 = on ∧ t = { s with regs := t.regs } ∧ memSame s t
      ∧ regsSame (fun p off => decide (p = pTly) && decide (off = O.TLY_SWEEP_CTL)) s t)
  ∧ (∀ s : State, s.alive .tly = true → s.running pTly = true → s.fld pTly O.TLY_LEDGER_PERIOD 0 8 ≠ 0 →
    ∃ t, exec .ledgerPeriodExpiry s = .next t ∧ t.host = s.host ∧ t.bit pTly O.INT_CAUSE 3 = true
      ∧ t.rd pTly O.TLY_LEDGER_SEQ = (s.rd pTly O.TLY_LEDGER_SEQ + 1) % 2 ^ 32
      ∧ ∀ e, s.tiles = [e] →
          let a := s.rd64 pTly O.TLY_LEDGER_BASE_LO + 64 * e.t
          t.hbmBytes a 8 = leBytes 4 0x544C0100 ++ leBytes 4 (s.rd pTly O.TLY_LEDGER_SEQ + 1)
          ∧ ∀ x, ¬ (a ≤ x ∧ x < a + 64) → t.hbmByte x = s.hbmByte x)

/-- Lamps and tiles (R228, R230-R232) and Cruise (R248, R249). Tile states: 3 UNVALIDATED, 4 CONFIRMED. Cruise states:
1 RUNNING, 2 WAIT, 3 DONE, 4 TIMEOUT, 5 ABORTED. -/
def Obligations.LampsTilesAndCruiseObeyTheHost : Prop :=
  let ok := fun s : State => s.alive .lmp = true ∧ s.postBusy pLmp = false
  let busy := fun (t : State) (n : Nat) => t.lmp.busy = some n ∧ t.bit pLmp (State.tstat n) 27 = true
  let fitsEntry := fun (s : State) (n : Nat) =>
    let e := s.tile n
    let g := s.rd (State.jp e.port) (State.tbr O.JLK_T_GEOM e.pos)
    s.tileEn n = true ∧ s.enumerated e.port e.pos = true
    ∧ s.rd (State.jp e.port) (State.tbr O.JLK_T_SERIAL e.pos) = s.rd pLmp (O.LMP_TILE_EXP + 4 * n)
    ∧ bitsOf g 16 16 = e.w ∧ bitsOf g 0 16 = e.h ∧ decide (e.pos ∈ (s.jport e.port).fmt36) = e.fmt36
  (∀ (v : W32) (s : State), ok s → ∃ t, exec (.brightnessWrite v) s = .next t
    ∧ t.rd pLmp O.LMP_BRIGHTNESS = v.toNat % 65536 ∧ t = { s with regs := t.regs } ∧ memSame s t)
  ∧ (∀ (n : Fin 4096) (s : State), s.alive .lmp = true → n.val < 4032 → s.lmp.busy = none → 2 ≤ s.tileState n →
    ∃ t, exec (.adopt n) s = .next t ∧ busy t n
      ∧ t.rd pLmp (O.LMP_TILE_EXP + 4 * n) = s.rd pLmp (O.LMP_TILE_SEEN + 4 * n) ∧ t.host = s.host)
  ∧ (∀ (n : Fin 4096) (s : State), s.alive .lmp = true → n.val < 4032 → s.lmp.busy = none → fitsEntry s n →
    (∃ t, exec (.validate n) s = .next t ∧ busy t n ∧ t.tileState n = 4 ∧ t.tileValid n = true ∧ memSame s t)
    ∧ ∃ t, exec (.revoke n) s = .next t ∧ busy t n ∧ t.tileState n = 3 ∧ t.tileValid n = false ∧ memSame s t)
  ∧ (∀ (n : Fin 4096) (s : State), s.alive .lmp = true → s.lmp.busy ≠ none → ∃ t, exec (.validate n) s = .next t
    ∧ t.bit pLmp O.PAGE_STAT 10 = true ∧ t.bit pLmp O.INT_CAUSE 30 = true ∧ t.lmp = s.lmp ∧ memSame s t)
  ∧ (∀ (n : Nat) (s : State), s.alive .lmp = true → s.lmp.busy = some n → n < 4032 →
    ∃ t, exec .tileConfirmDone s = .next t ∧ t.lmp.busy = none ∧ t.bit pLmp (State.tstat n) 27 = false
      ∧ t = { s with regs := t.regs, lmp := t.lmp } ∧ memSame s t)
  ∧ (∀ (i : Fin 67108864) (s : State), s.alive .lmp = true → ∃ t, exec (.lampUe i) s = .next t ∧ memSame s t
    ∧ (i.val ∈ s.lmp.ue → t = s)
    ∧ (i.val ∉ s.lmp.ue → t.lmp.ue = i.val :: s.lmp.ue ∧ t.bit pLmp O.INT_CAUSE 1 = true
        ∧ t.rd pLmp O.LMP_CNT_LAMP_UE = (s.rd pLmp O.LMP_CNT_LAMP_UE + 1) % 2 ^ 32))
  ∧ (∀ (b : Bool) (s : State), ok s → s.cruising = false → ∃ t, exec (.cruiseStart b) s = .next t
    ∧ t.lmp.run = (s.lmp.run + 1) % 256 ∧ t.lmp.apply = b ∧ memSame s t
    ∧ t.cruiseState = if t.lmp.asked = [] then 3 else if s.running pLnd ∧ s.maintEn = false then 2 else 1)
  ∧ (∀ s : State, ok s → (∃ t, exec .cruiseAbort s = .next t ∧ memSame s t ∧ (s.cruising = false → t = s)
      ∧ (s.cruising = true → t.cruiseState = 5 ∧ t.bit pLmp O.INT_CAUSE 5 = true))
    ∧ ∃ t, exec .cruiseTimeout s = .next t ∧ memSame s t ∧ (s.cruising = false → t = s)
      ∧ (s.cruising = true → t.cruiseState = 4 ∧ t.bit pLmp O.INT_CAUSE 5 = true))
  ∧ (∀ (p : Fin 64) (l : List Byte) (s : State), s.alive .jlk = true → s.running (State.jp p) = true →
    s.lstate p = 3 ∨ s.lstate p = 4 → cellOk l = true → (cellOf l).typ = tyLamp →
    let c := cellOf l
    let run := (c.body.getD 498 0).toNat
    ∃ t, exec (.lampReportRx p l) s = .next t ∧ t.host = s.host
      ∧ (run ≠ s.lmp.run → t.lmp = s.lmp ∧ t.tables = s.tables ∧ memSame s t)
      ∧ ∀ e k, run = s.lmp.run → s.cruising = true → s.lmp.apply = false → s.tileAt p c.tile = some e →
          k < min 664 (e.lamps - c.offset) →
          t.hbmByte (s.rd64 pLmp O.LMP_CRUISE_BASE_LO + (e.lmbase + c.offset + k))
            = BitVec.ofNat 8 (bitsOf (beNat (c.body.take 498)) (3984 - 6 - 6 * k) 6))

/-- What a port sends (R265, R266, R270, R272, R277, R458). -/
def Obligations.PortsSendTheCellThatIsDue : Prop :=
  let numbered := fun (s t : State) (p : Fin 64) (c : Cell) =>
    t.out = .cell p 0 false { c with seq := (s.jport p).seq }.bytes :: s.out
    ∧ (t.jport p).seq = ((s.jport p).seq + 1) % 2 ^ 15 ∧ (∀ q, q ≠ p.val → t.jport q = s.jport q) ∧ memSame s t
  let now := fun s : State =>
    ({ typ := tyBlack, body := blackBody s.tim.wframe (s.lnd.slot.getD 0) true } : Cell)
  (∀ (p : Fin 64) (x : W64) (s : State), s.flt.life = .up → ∃ t, exec (.cellSlot p x) s = .next t
    ∧ (s.running (State.jp p) = false ∨ s.lstate p = 0 ∨ s.lstate p = 7 → t = s)
    ∧ (s.running (State.jp p) = true → s.lstate p ∈ [1, 5, 6] →
        t = { s with out := .cell p 0 false ({ typ := tyIdle, tile := 0 } : Cell).bytes :: s.out })
    ∧ (∀ c rep, s.portSends p = true → p.val ∉ s.black.nowDue → (s.jport p).sync = some (c, false, rep) → c.typ = tySync →
        (t.jport p).sync = none ∧ numbered s t p (if rep then c else
          { c with body := State.stampSync c.body ((10 * x.toNat + s.fld (State.jp p) O.JLK_TRACE_ADJ 0 16) / 10) false }))
    ∧ (∀ c r, s.portSends p = true → p.val ∉ s.black.nowDue → (s.jport p).sync = none → (s.jport p).black = c :: r →
        c.typ = tyBlack → (t.jport p).black = r ∧ numbered s t p c))
  ∧ (∀ (p : Fin 64) (s : State), s.alive .jlk = true → ∃ t, exec (.blackNow p) s = .next t ∧ memSame s t
    ∧ (p.val ∉ s.black.nowDue → t = s)
    ∧ (p.val ∈ s.black.nowDue → s.portSends p = true → p.val ∉ t.black.nowDue ∧ (t.jport p).pix = []
        ∧ (t.jport p).black = now s :: (s.jport p).black ∧ t = { s with jports := t.jports, black := t.black, lnd := t.lnd, tly := t.tly }))
  ∧ (∀ (p : Fin 64) (s : State), s.alive .jlk = true → s.portSends p = true → s.running pLnd = true →
    ∃ t, exec (.syncRepeat p) s = .next t ∧ memSame s t ∧ (s.slotFx ≤ 8000000 * fxNs → t = s)
    ∧ ∀ c, 8000000 * fxNs < s.slotFx → s.lnd.slot.isSome = true → (s.jport p).sync = none → (s.jport p).last = some c →
        6 < c.body.length → t = { s with jports := t.jports } ∧ ∃ d, (t.jport p).sync = some (d, false, true)
          ∧ d.typ = c.typ ∧ d.be 0 6 = c.be 0 6 ∧ d.be 7 1 = c.be 7 1 ∧ bitOf (d.byte 6) 0 = true)
  ∧ (∀ (p : Fin 64) (s : State), s.alive .jlk = true → s.portSends p = true → s.stopped pLnd = true →
    s.cruisePort p = true → ∃ t, exec (.cruiseSync p) s = .next t ∧ t = { s with jports := t.jports } ∧ memSame s t
    ∧ ∃ d, (t.jport p).sync = some (d, true, false) ∧ d.typ = tySync)

/-- Link states of a port (R258, R277, R278, R285, R287): 0 DOWN, 1 SENSE_WAIT, 2 TRAIN, 3 ENUM, 4 READY, 5 REVERSED,
6 SENSE_FAULT, 7 HS_FAULT. -/
def Obligations.PortsTrainEnumerateAndFault : Prop :=
  let id := fun (s : State) (p : Fin 64) => s.fld (State.jp p) O.JLK_PORT_STAT 8 8
  let flag := fun (s : State) (p : Fin 64) (b : Nat) => s.bit (State.jp p) O.JLK_PORT_FLAGS b
  let one := fun (s t : State) (p : Fin 64) (o : Nat) => t.rd (State.jp p) o = (s.rd (State.jp p) o + 1) % 2 ^ 32
  let enum := fun (s t : State) (p : Fin 64) => t.lstate p = 3 ∧ id t p = (id s p + 1) % 256 ∧ (t.jport p).phase = 1
    ∧ (t.jport p).hello = [{ typ := tyHello, tile := 63, body := padTo 500 ([0] ++ leBytes 1 (id t p)) }]
  (∀ (p : Fin 64) (inv : Bool) (s : State), s.alive .jlk = true → s.running (State.jp p) = true → s.lstate p = 2 →
    ∃ t, exec (.markerLock p inv) s = .next t ∧ enum s t p ∧ flag t p 2 = true ∧ flag t p 7 = inv
      ∧ t.fld (State.jp p) O.JLK_PORT_STAT 24 2 = s.trainRate p % 4)
  ∧ (∀ (p : Fin 64) (sig : Bool) (s : State), s.alive .jlk = true → flag s p 2 = true →
    ∃ t, exec (.lockLoss p sig) s = .next t ∧ flag t p 2 = false ∧ flag t p 1 = sig ∧ one s t p O.JLK_LOCK_LOSS
      ∧ t.lstate p = if s.lstate p = 4 then 2 else s.lstate p)
  ∧ (∀ (p : Fin 64) (s : State), s.alive .jlk = true → s.lstate p = 2 → ∃ t, exec (.trainTimeout p) s = .next t
      ∧ one s t p O.JLK_TRAIN_FAIL ∧ (t.jport p).tries = ((s.jport p).tries + 1) % 6 ∧ t.lstate p = 2 ∧ memSame s t)
  ∧ (∀ (p : Fin 64) (s : State), s.alive .jlk = true → s.postBusy (State.jp p) = false →
    (∃ t, exec (.retrain p) s = .next t ∧ (s.lstate p = 0 → t = s) ∧ (s.lstate p ≠ 0 → t.lstate p = 2))
    ∧ ∃ t, exec (.reenum p) s = .next t ∧ (s.lstate p ≠ 4 → t = s) ∧ (s.lstate p = 4 → enum s t p))
  ∧ (∀ (p : Fin 64) (s : State), s.alive .jlk = true → ∃ t, exec (.enumCollectionClose p) s = .next t ∧ memSame s t
    ∧ ((s.jport p).phase ≠ 1 → t = s)
    ∧ ((s.jport p).phase = 1 → (t.jport p).phase = 2 ∧ (t.jport p).wait = (s.jport p).descs.map (·.pos)
        ∧ (t.jport p).hello.length = (s.jport p).hello.length + (s.jport p).descs.length
        ∧ t = { s with regs := t.regs, jports := t.jports }))
  ∧ (∀ (p : Fin 64) (s : State), s.alive .jlk = true → (s.jport p).phase = 2 →
    ((s.jport p).wait = [] → s.lstate p = 3 → ∃ t, exec (.enumComplete p) s = .next t ∧ t.lstate p = 4
      ∧ (t.jport p).phase = 0 ∧ one s t p O.JLK_ENUMS ∧ t.bit (State.jp p) O.INT_CAUSE 6 = true)
    ∧ ((s.jport p).wait ≠ [] → (∀ q ∈ (s.jport p).wait, q < 63) → s.lstate p = 3 →
      ∃ t, exec (.enumAssignTimeout p) s = .next t ∧ t.lstate p = 4 ∧ (t.jport p).wait = [] ∧ one s t p O.JLK_ENUMS
      ∧ ∀ q ∈ (s.jport p).wait, t.bit (State.jp p) (State.tbr O.JLK_T_MODE q) 31 = false))
  ∧ (∀ (p : Fin 64) (b : BitVec 2) (s : State), s.alive .jlk = true → s.lstate p ≠ 0 → b ≠ 0 →
    ∃ t, exec (.hsFault p b) s = .next t ∧ t.lstate p = 7 ∧ (t.jport p).clean = 0
      ∧ t.bit (State.jp p) O.INT_CAUSE 4 = true)
  ∧ (∀ (p : Fin 64) (c : Bool) (s : State), s.alive .jlk = true → s.lstate p = 7 →
    ∃ t, exec (.hsFaultCheck p c) s = .next t ∧ memSame s t
      ∧ (t.jport p).clean = (if c then (s.jport p).clean + 1 else 0)
      ∧ t.lstate p = if c = true ∧ 2 ≤ (s.jport p).clean then
          (if s.senseEff p = 2 then 2 else if s.senseEff p = 3 then 5
            else if s.senseBad p = true then 6 else 1) else 7)
  ∧ (∀ (p : Fin 64) (mv : BitVec 12) (s : State), s.alive .jlk = true → ∃ t, exec (.senseSample p mv) s = .next t
    ∧ t.rd (State.jp p) O.JLK_SENSE_MV = mv.toNat ∧ (t.jport p).sense.1 = State.senseCode mv.toNat
    ∧ ((t.jport p).sense.2 = 3 → t.fld (State.jp p) O.JLK_PORT_STAT 0 3 = State.senseCode mv.toNat)
    ∧ ((t.jport p).sense.2 < 3 → t.lstate p = s.lstate p ∧ t = { s with regs := t.regs, jports := t.jports }))

/-- Reception (R264, R274, R275, R278, R288). -/
def Obligations.PortsActOnCellsReceived : Prop :=
  let one := fun (s t : State) (p : Fin 64) (o : Nat) => t.rd (State.jp p) o = (s.rd (State.jp p) o + 1) % 2 ^ 32
  let up := fun (s : State) (p : Fin 64) => s.alive .jlk = true ∧ s.running (State.jp p) = true
    ∧ (s.lstate p = 3 ∨ s.lstate p = 4)
  let dropped := fun (s t : State) (p : Fin 64) => one s t p O.JLK_CRC_ERR_UP ∧ t = { s with regs := t.regs }
    ∧ regsSame (fun q off => decide (q = State.jp p) && decide (off = O.JLK_CRC_ERR_UP)) s t
  let valid := fun (l : List Byte) (typ : Nat) => cellOk l = true ∧ (cellOf l).typ = typ
  let treg := fun (s : State) (p : Fin 64) (o q : Nat) => s.rd (State.jp p) (State.tbr o q)
  (∀ (p : Fin 64) (l : List Byte) (rtt : W32) (s : State), up s p → cellOk l = false →
    (∃ t, exec (.descRx p l rtt) s = .next t ∧ dropped s t p) ∧ (∃ t, exec (.statusUp p l) s = .next t ∧ dropped s t p)
    ∧ (∃ t, exec (.mgmtUpRx p l) s = .next t ∧ dropped s t p) ∧ ∃ t, exec (.lampReportRx p l) s = .next t ∧ dropped s t p)
  ∧ (∀ (p : Fin 64) (l : List Byte) (rtt : W32) (s : State), up s p → valid l tyHello → (cellOf l).byte 0 = 2 →
    (s.jport p).phase = 1 →
    let c := cellOf l
    let q := c.byte 3
    bitsOf (c.byte 2) 5 3 = 0 → ∃ t, exec (.descRx p l rtt) s = .next t
      ∧ (c.byte 1 ≠ s.fld (State.jp p) O.JLK_PORT_STAT 8 8 → (t.jport p).descs = (s.jport p).descs)
      ∧ (c.byte 1 = s.fld (State.jp p) O.JLK_PORT_STAT 8 8 → q < 63 → treg t p O.JLK_T_SERIAL q = c.be 4 4
          ∧ treg t p O.JLK_T_GEOM q = c.be 8 4 ∧ bitOf (treg t p O.JLK_T_MODE q) 31 = true
          ∧ (t.jport p).descs = (s.jport p).descs.filter (fun e => e.pos ≠ q)
              ++ [⟨q, rtt.toNat, c.be 12 4, c.be 16 2, c.be 18 2⟩]) ∧ memSame s t)
  ∧ (∀ (p : Fin 64) (l : List Byte) (s : State), up s p → valid l tyStatus → (cellOf l).tile < 63 →
    let c := cellOf l
    ∃ t, exec (.statusUp p l) s = .next t
      ∧ treg t p O.JLK_T_STAT c.tile = c.byte 3 * 2 ^ 24 + c.byte 16 * 2 ^ 16 + c.be 18 2
      ∧ bitsOf (treg t p O.JLK_T_MODE c.tile) 8 8 = c.byte 1 ∧ bitsOf (treg t p O.JLK_T_MODE c.tile) 0 8 = c.byte 2)
  ∧ (∀ (p : Fin 64) (q : Fin 63) (s : State), s.alive .jlk = true → s.lstate p = 4 → s.enumerated p q = true →
    ∃ t, exec (.statusMiss p q) s = .next t ∧ one s t p O.JLK_STATUS_MISS ∧ t.bit (State.jp p) O.INT_CAUSE 8 = true
      ∧ t.lstate p = 3)
  ∧ (∀ (p : Fin 64) (l : List Byte) (s : State), up s p → valid l tyMgmtUp →
    let n := (cellOf l).be 0 2 % 4096
    let tid := (cellOf l).byte 2
    ∃ t, exec (.mgmtUpRx p l) s = .next t
      ∧ ((n, tid) ∉ s.mgmt → t = { s with regs := t.regs, jports := t.jports } ∧ memSame s t)
      ∧ ((n, tid) ∈ s.mgmt → s.schState n = 0 → (s.seqOf (n / 512)).reps.length < 512 → (n, tid) ∉ t.mgmt
          ∧ (t.seqOf (n / 512)).reps = (s.seqOf (n / 512)).reps ++ [(n % 512, tid)] ∧ memSame s t))
  ∧ (∀ (n : Fin 4096) (o : ChOp) (s : State), s.alive .ysq = true → s.liveOp n = some o →
    ∃ t, exec (.mgmtTimeout n) s = .next t ∧ (o.wait ≠ 1 ∨ (n.val, o.tid) ∉ s.mgmt → t = s)
      ∧ (o.wait = 1 → (n.val, o.tid) ∈ s.mgmt → t.rd (State.ysqOf n) O.YSQ_CNT_MGMT_TIMEOUT
          = (s.rd (State.ysqOf n) O.YSQ_CNT_MGMT_TIMEOUT + 1) % 2 ^ 32))
  ∧ (∀ (p : Fin 64) (c u : W32) (s : State), s.alive .jlk = true → s.running (State.jp p) = true →
    ∃ t, exec (.hiErrInterval p c u) s = .next t ∧ (t.jport p).errs = 0 ∧ memSame s t
      ∧ t.rd (State.jp p) O.JLK_FEC_CORR_UP = (s.rd (State.jp p) O.JLK_FEC_CORR_UP + c.toNat) % 2 ^ 32
      ∧ t.rd (State.jp p) O.JLK_FEC_UNCORR_UP = (s.rd (State.jp p) O.JLK_FEC_UNCORR_UP + u.toNat) % 2 ^ 32
      ∧ (s.uncorrLimit p ≤ (s.jport p).errs + u.toNat → (p.val, Cond.hiErr) ∈ t.black.port)
      ∧ ((s.jport p).errs + u.toNat = 0 → 9 ≤ (s.jport p).quiet → (p.val, Cond.hiErr) ∉ t.black.port))

/-- Cells received by a tile on IN (R261, R264, R268, R271, R275, R276, R278, R279, R281). Other parts of the chain are
reached through the cells that leave. -/
def Obligations.TilesActOnCellsReceived : Prop :=
  let at_ := fun (s : State) (p : Fin 64) (k : Fin 128) => s.tileSt p k
  let kept := fun (s t : State) (p : Fin 64) (k : Fin 128) => t = { s with tilesOf := t.tilesOf, out := t.out }
    ∧ ∀ q j : Nat, j < 128 → ¬ (q = p.val ∧ j = k.val) → t.tileSt q j = s.tileSt q j
  let on := fun (p : Fin 64) (k : Fin 128) (l : List Byte) => Output.cell p (1 + k) false (padTo 512 l)
  let valid := fun (l : List Byte) (typ : Nat) => cellOk l = true ∧ (cellOf l).typ = typ
  let mine := fun (s : State) (p : Fin 64) (k : Fin 128) (l : List Byte) =>
    (cellOf l).tile = 63 ∨ (at_ s p k).pos = some (cellOf l).tile
  (∀ (p : Fin 64) (k : Fin 128) (l : List Byte) (a : W64) (s : State), headOk l = false →
    let bad := fun t : State => (at_ t p k).crcErr = min 65535 ((at_ s p k).crcErr + 1) ∧ t.out = s.out ∧ kept s t p k
    (∃ t, exec (.tileSyncRx p k l a) s = .next t ∧ bad t) ∧ (∃ t, exec (.tileBlackRx p k l a) s = .next t ∧ bad t)
    ∧ (∃ t, exec (.assignRx p k l) s = .next t ∧ bad t) ∧ ∃ t, exec (.bulkRx p k l) s = .next t ∧ bad t)
  ∧ (∀ (p : Fin 64) (k : Fin 128) (l : List Byte) (a : W64) (s : State), valid l tySync → mine s p k l →
    let rep := bitOf ((cellOf l).byte 6) 0
    let newMode := (at_ s p k).last.any fun y => decide (y.modeId ≠ (cellOf l).byte 7)
    ∃ t, exec (.tileSyncRx p k l a) s = .next t ∧ kept s t p k
      ∧ (rep = true ∨ newMode = false → t.out = on p k l :: s.out)
      ∧ (rep = false → (at_ t p k).last = some (tsyncOf (cellOf l) a.toNat) ∧ (at_ t p k).fed = a.toNat)
      ∧ (rep = false → newMode = true → (at_ t p k).lamps = [] ∧ (at_ t p k).presenting = false))
  ∧ (∀ (p : Fin 64) (k : Fin 128) (l : List Byte) (y : TSync) (h : TSlot) (s : State), valid l tyPixel →
    (at_ s p k).pos = some (cellOf l).tile → (at_ s p k).last = some y → (cellOf l).feed = y.feed →
    (at_ s p k).held = [h] → h.sync = y → h.black = false → y.maint = false →
    let px := pixelsOf (at_ s p k).props.fmt36 (cellOf l).body
    ∃ t, exec (.tilePixelRx p k l) s = .next t ∧ kept s t p k ∧ t.out = on p k l :: s.out
      ∧ ∃ g, (at_ t p k).held = [g] ∧ ∀ i, i < px.length → (cellOf l).offset + i < (at_ s p k).lampsN →
          sget (fun _ => none) g.pix ((cellOf l).offset + i) = px[i]?)
  ∧ (∀ (p : Fin 64) (k : Fin 128) (l : List Byte) (a : W64) (s : State), valid l tyBlack → mine s p k l →
    bitOf ((cellOf l).byte 6) 3 = true → ∃ t, exec (.tileBlackRx p k l a) s = .next t ∧ kept s t p k
      ∧ (at_ t p k).lamps = [] ∧ (at_ t p k).presenting = false ∧ (at_ t p k).dark = some a.toNat)
  ∧ (∀ (p : Fin 64) (k : Fin 128) (l : List Byte) (pr : TileProps) (lock : Bool) (turn : W32) (s : State),
    valid l tyHello → (cellOf l).byte 0 = 0 → (cellOf l).byte 2 ≤ 62 →
    ∃ t, exec (.enumRx p k l false pr lock turn) s = .next t ∧ kept s t p k ∧ (at_ t p k).pos = some ((cellOf l).byte 2)
      ∧ (at_ t p k).enumId = some ((cellOf l).byte 1) ∧ (at_ t p k).props = pr
      ∧ (at_ t p k).asg = if (at_ s p k).enumId = some ((cellOf l).byte 1) then (at_ s p k).asg else none)
  ∧ (∀ (p : Fin 64) (k : Fin 128) (l : List Byte) (s : State), valid l tyHello → (cellOf l).byte 0 = 1 →
    ∃ t, exec (.assignRx p k l) s = .next t ∧ kept s t p k ∧ t.out = on p k l :: s.out
      ∧ (at_ t p k).asg = if (at_ s p k).pos = some (cellOf l).tile ∧ (at_ s p k).enumId = some ((cellOf l).byte 1)
          then some ((cellOf l).byte 1, (cellOf l).be 4 4) else (at_ s p k).asg)
  ∧ (∀ (p : Fin 64) (k : Fin 128) (l : List Byte) (a : MgmtAns) (s : State), valid l tyMgmtDown →
    ∃ t, exec (.mgmtDownRx p k l a) s = .next t ∧ kept s t p k
      ∧ ((at_ s p k).pos ≠ some (cellOf l).tile → t.out = on p k l :: s.out)
      ∧ ((at_ s p k).pos = some (cellOf l).tile → (at_ s p k).own = [] → 64 ≤ (at_ s p k).gap →
          ∃ b, t.out = .cell p (1 + k) true b :: on p k l :: s.out)
      ∧ ((at_ s p k).pos = some (cellOf l).tile → (at_ s p k).own ≠ [] ∨ (at_ s p k).gap < 64 →
          t.out = on p k l :: s.out ∧ (at_ t p k).own.length = (at_ s p k).own.length + 1))
  ∧ (∀ (p : Fin 64) (k : Fin 128) (l : List Byte) (s : State), valid l tyBulk → mine s p k l →
    let c := cellOf l
    ∃ t, exec (.bulkRx p k l) s = .next t ∧ kept s t p k ∧ t.out = on p k l :: s.out
      ∧ sget (fun _ => []) (at_ t p k).bulk (c.byte 0 * 2 ^ 20 + c.offset) = (c.body.drop 20).take (min 480 (c.be 2 2)))

/-- What a tile does by itself (R262, R274, R280, R282, R283). -/
def Obligations.TilesPresentWatchAndReport : Prop :=
  let at_ := fun (s : State) (p : Fin 64) (k : Fin 128) => s.tileSt p k
  let kept := fun (s t : State) (p : Fin 64) (k : Fin 128) => t = { s with tilesOf := t.tilesOf, out := t.out }
    ∧ ∀ q j : Nat, j < 128 → ¬ (q = p.val ∧ j = k.val) → t.tileSt q j = s.tileSt q j
  (∀ (p : Fin 64) (k : Fin 128) (now : W64) (s : State), ∃ t, exec (.tilePresent p k now) s = .next t ∧ kept s t p k
    ∧ ((at_ s p k).asg = none ∨ (at_ s p k).inLock = false → at_ t p k = at_ s p k)
    ∧ ∀ i d h, (at_ s p k).asg = some (i, d) → (at_ s p k).inLock = true →
        ((at_ s p k).held.filter fun g => decide (g.sync.instant16 d ≤ 16 * (now.toNat : Int))).getLast? = some h →
        (at_ t p k).cur = some h.sync ∧ (h.black = true ∨ h.sync.maint = true → (at_ t p k).lamps = [])
        ∧ (at_ t p k).held = (at_ s p k).held.filter fun g => decide (¬ g.sync.instant16 d ≤ 16 * (now.toNat : Int)))
  ∧ (∀ (p : Fin 64) (k : Fin 128) (now : W64) (lost : Bool) (s : State),
    ∃ t, exec (.tileWatchdog p k now lost) s = .next t ∧ kept s t p k
    ∧ (lost = true → (at_ t p k).inLock = false)
    ∧ (lost = true ∨ (at_ s p k).fed + (at_ s p k).wdLimit ≤ now.toNat → (at_ t p k).lamps = []
        ∧ (at_ t p k).wd = some now.toNat ∧ (at_ t p k).presenting = false)
    ∧ (lost = false → now.toNat < (at_ s p k).fed + (at_ s p k).wdLimit → at_ t p k = at_ s p k))
  ∧ (∀ (p : Fin 64) (k : Fin 128) (e : TileEnv) (s : State), ∃ t, exec (.tileStatusSend p k e) s = .next t ∧ kept s t p k
    ∧ ((at_ s p k).asg = none ∨ (at_ s p k).inLock = false → t.out = s.out)
    ∧ ((at_ s p k).asg ≠ none → (at_ s p k).inLock = true → (at_ t p k).crcErr = 0 ∧ (at_ t p k).seqGap = 0
        ∧ (at_ t p k).seq = ((at_ s p k).seq + 1) % 2 ^ 15
        ∧ ((at_ s p k).own = [] → 64 ≤ (at_ s p k).gap → ∃ b, t.out = .cell p (1 + k) true b :: s.out)
        ∧ ((at_ s p k).own ≠ [] ∨ (at_ s p k).gap < 64 → t.out = s.out
            ∧ (at_ t p k).own.length = (at_ s p k).own.length + 1)))
  ∧ (∀ (p : Fin 64) (k : Fin 128) (r : List (Fin 64)) (s : State), ∃ t, exec (.cruiseTest p k r) s = .next t ∧ kept s t p k
    ∧ ((at_ s p k).cur = none → t = s)
    ∧ ∀ y, (at_ s p k).cur = some y → (at_ s p k).tests y = true → (at_ s p k).inLock = true →
        (at_ s p k).run ≠ some y.run → (at_ t p k).run = some y.run
        ∧ (at_ t p k).next = min r.length (at_ s p k).lampsN
        ∧ (at_ t p k).busy = decide (r.length < (at_ s p k).lampsN))
  ∧ (∀ (p : Fin 64) (k : Fin 128) (l : List Byte) (s : State), ∃ t, exec (.tileUpstreamCellRx p k l) s = .next t
    ∧ kept s t p k
    ∧ ((at_ s p k).inLock = true → headOk l = true → (cellOf l).typ ≠ tyIdle →
        t.out = .cell p (1 + k) true (padTo 512 l) :: s.out ∧ (at_ t p k).own = (at_ s p k).own)
    ∧ ((at_ s p k).inLock = true → headOk l = false ∨ (cellOf l).typ = tyIdle → (at_ s p k).own = [] →
        t.out = .cell p (1 + k) true State.idleBytes :: s.out)
    ∧ (∀ c r, (at_ s p k).inLock = true → headOk l = true → (cellOf l).typ = tyIdle → (at_ s p k).own = c :: r →
        63 ≤ (at_ s p k).gap → t.out = .cell p (1 + k) true c.bytes :: s.out ∧ (at_ t p k).own = r ∧ (at_ t p k).gap = 0)
    ∧ ((at_ s p k).inLock = false → t.out = (if (at_ s p k).tx then [.cell p (1 + k) false State.idleBytes] else [])
        ++ .cell p (1 + k) true State.idleBytes :: s.out))

/-- Starting, resuming, halting and retrying channel programs (R294, R295, R305, R312, R319). -/
def Obligations.ChannelProgramsStartResumeHaltAndRetry : Prop :=
  let sub := fun (j : Job) => bitsOf (j.dw 6) 0 12
  let popped := fun (s t : State) (n kind a : Nat) =>
    (t.seqOf (n / 512)).cmds = (s.seqOf (n / 512)).cmds ++ [(kind, n % 512, a)]
  (∀ (r : JobRef) (j : Job) (s : State), s.alive .ysq = true → s.jobReady r 0x30 j →
    let n := sub j
    let a := j.dw 7 + j.dw 8 * 2 ^ 32
    a % 16 = 0 → s.running (State.ysqOf n) = true → s.schState n = 0 → s.cmdRoom n = true →
    ∃ t, exec (.chanStart r) s = .next t ∧ t.jobEnded r { status := 0, result := n } ∧ t.schState n = 1
      ∧ t.subOf n = { pc := a, last := (a + 2 ^ 64 - 16) % 2 ^ 64, tid := (s.subOf n).tid } ∧ popped s t n 0 a
      ∧ t.rd (State.ysqOf n) O.YSQ_CNT_STARTS = (s.rd (State.ysqOf n) O.YSQ_CNT_STARTS + 1) % 2 ^ 32
      ∧ memSame s t ∧ (∀ m, m ≠ n → t.subOf m = s.subOf m) ∧ regsSame (subReg n) s t ∧ tabsSame sigTab s t)
  ∧ (∀ (r : JobRef) (j : Job) (s : State), s.alive .ysq = true → s.jobReady r 0x31 j →
    let n := sub j
    s.pstate (State.ysqOf n) ≠ 4 →
    ∃ t, exec (.chanResume r) s = .next t ∧ memSame s t ∧ (∀ m, m ≠ n → t.subOf m = s.subOf m)
      ∧ regsSame (subReg n) s t ∧ tabsSame sigTab s t
      ∧ (s.schState n = 2 → s.cmdRoom n = true → t.schState n = 1 ∧ t.subOf n = { s.subOf n with skip := true }
          ∧ popped s t n 1 0 ∧ t.jobEnded r { status := 0, result := n })
      ∧ (s.schState n = 1 → t.bit (State.ysqOf n) (State.schOff n) 28 = true
          ∧ t.jobEnded r { status := 0, result := n, detail := 1 })
      ∧ (s.schState n ≠ 1 ∧ s.schState n ≠ 2 → t.jobEnded r { status := 0x0D, detail := s.schState n }))
  ∧ (∀ (r : JobRef) (j : Job) (s : State), s.alive .ysq = true → s.jobReady r 0x32 j →
    let n := sub j
    let o := (s.subOf n).op.getD { cmds := [] }
    let last := if (s.subOf n).op.isSome then o.tail.addr else (s.subOf n).last
    s.pstate (State.ysqOf n) ≠ 4 →
    ∃ t, exec (.chanHalt r) s = .next t ∧ subFrame (fun _ => false) s t n
      ∧ ((s.schState n = 1 ∨ s.schState n = 2) → s.hostReady = false → t = s)
      ∧ (s.schState n = 1 ∨ s.schState n = 2 → s.cmdRoom n = true → s.hostReady = true → s.postHeld n = false →
          t.jobEnded r { status := 0, result := n } ∧ popped s t n 2 0 ∧ t.schState n = 0 ∧ (t.subOf n).op = none
          ∧ (t.subOf n).endc = 8 ∧ (t.subOf n).resid = o.total - o.moved
          ∧ t.hostBytes (s.rd64 pYcs O.YCS_STAT_BASE_LO + 16 * n) 16 = statusRecord t n 0 ((last + 16) % 2 ^ 64))
      ∧ (s.schState n = 0 → memSame s t ∧ t.subOf n = s.subOf n
          ∧ t.jobEnded r { status := 0, result := n, detail := 1 }))
  ∧ (∀ (n : Fin 4096) (a : ChAns) (o : ChOp) (s : State), s.alive .ysq = true → s.liveOp n = some o → s.hostReady = true →
    n.val % 64 ≠ 0 → s.bridgeFault n = 0 → s.jaccept (n / 64) true = true →
    let tid := (s.subOf n).tid
    let sent := fun (t : State) (rt : Nat) =>
      t.subOf n = { s.subOf n with tid := (tid + 1) % 256, op := some { o with
          wait := 1, retries := rt, tid := tid, len := min 480 (o.total - o.moved) } }
      ∧ t.mgmt = (n.val, tid) :: s.mgmt ∧ (t.jcells (n / 64)).length = (s.jcells (n / 64)).length + 1
      ∧ t.bit (State.ysqOf n) (State.schOff n) 27 = false ∧ t.schState n = s.schState n ∧ memSame s t
      ∧ subFrame (fun _ => false) s t n
    (o.wait = 2 → ∃ t, exec (.backoffRetry n a) s = .next t ∧ sent t (o.retries + 1)
      ∧ t.rd (State.ysqOf n) O.YSQ_CNT_BACKOFF = (s.rd (State.ysqOf n) O.YSQ_CNT_BACKOFF + 1) % 2 ^ 32)
    ∧ (o.wait = 8 → ∃ t, exec (.backoffRetry n a) s = .next t ∧ sent t o.retries)
    ∧ (o.wait = 3 → ∃ t, exec (.pollIntervalExpiry n a) s = .next t ∧ sent t o.retries))
  ∧ (∀ (n : Fin 4096) (a : ChAns) (s : State), s.alive .ysq = true → s.liveOp n = none ∨ s.hostReady = false →
    exec (.backoffRetry n a) s = .next s ∧ exec (.pollIntervalExpiry n a) s = .next s)
  ∧ (∀ (n : Fin 4096) (o : ChOp) (s : State), s.alive .ysq = true → s.liveOp n = some o → s.hostReady = true →
    ∃ t, exec (.commandTimeout n) s = .next t ∧ subFrame (fun _ => false) s t n
      ∧ (o.wait = 3 ∨ o.wait = 1 ∧ o.head.code = 0x20 → opEnded s t n o 0 0)
      ∧ (o.wait = 5 ∧ o.head.timeout ≠ 0 ∨ o.wait = 1 ∧ o.head.code ≠ 0x20 ∨ o.wait = 6 ∨ o.wait = 7 →
          opEnded s t n o 3 0x0A)
      ∧ (o.wait = 4 ∧ o.head.timeout ≠ 0 → opEnded s t n o 0 0)
      ∧ ((o.wait = 4 ∨ o.wait = 5) ∧ o.head.timeout = 0 → t = s))

/-- Beginning of channel commands (R297, R299, R304-R307). -/
def Obligations.ChannelCommandsBeginSuspendAndFail : Prop :=
  let kinds := fun (n : Fin 4096) (a : ChAns) => ([
      (fun c => c.code = 1 ∧ c.parBit 14 = false, .chanWrite n a), (fun c => c.code = 1 ∧ c.parBit 14 = true, .bulkWrite n a),
      (fun c => c.code = 2 ∧ c.parBit 11 = false, .channelRead n a), (fun c => c.code = 2 ∧ c.parBit 11 = true, .netrxRead n a),
      (fun c => c.code = 3 ∧ (c.local_ = 0 ∨ 3 < c.local_), .chanControl n a), (fun c => c.local_ = 1, .chanSeek n a),
      (fun c => c.local_ = 2, .busClear n a), (fun c => c.local_ = 3, .chanProbe n a), (fun c => c.code = 4, .chanSense n a),
      (fun c => c.code = 0x0C, .waitEvent n a), (fun c => c.code = 0x10, .channelNop n a),
      (fun c => c.code = 0x20, .pollMatch n a)] : List ((ChCmd → Prop) × Instr))
  (∀ (n : Fin 4096) (a : ChAns) (s : State), s.alive .ysq = true → ∀ e ∈ kinds n a,
    let b := s.subOf n
    let c := s.fetchCmd b.pc
    let y := State.ysqOf n
    (s.schState n ≠ 1 ∨ s.hostReady = false → b.op = none → exec e.2 s = .next s)
    ∧ (s.chReady n = true → s.hostReady = true → a.mem = .fetchFails → ∃ t, exec e.2 s = .next t ∧ t.schState n = 0
        ∧ (t.subOf n).endc = 5 ∧ (t.subOf n).last = b.last ∧ subFrame (fun _ => false) s t n
        ∧ t.hostBytes (s.rd64 pYcs O.YCS_STAT_BASE_LO + 16 * n) 16 = statusRecord t n 0 (b.pc % 2 ^ 64))
    ∧ (s.chReady n = true → s.hostReady = true → a.mem = .ok → c.known = true → ¬ e.1 c → exec e.2 s = .next s)
    ∧ (s.chReady n = true → s.hostReady = true → a.mem = .ok → e.1 c → c.pause = true → b.skip = false → s.bit y (State.schOff n) 28 = false →
        ∃ t, exec e.2 s = .next t ∧ t.schState n = 2 ∧ t.subOf n = b ∧ subFrame (fun _ => false) s t n
        ∧ t.hostBytes (s.rd64 pYcs O.YCS_STAT_BASE_LO + 16 * n) 16 = statusRecord t n 2 b.pc)
    ∧ (s.chReady n = true → s.hostReady = true → a.mem = .ok → e.1 c → (c.pause = false ∨ b.skip = true) → c.check (State.isDirect n) ≠ 0 →
        ∃ t, exec e.2 s = .next t ∧ t.schState n = 0 ∧ (t.subOf n).endc = 4
        ∧ (t.subOf n).reason = c.check (State.isDirect n) ∧ (t.subOf n).last = b.pc ∧ (t.subOf n).op = none
        ∧ t.rd y O.YSQ_CNT_PROGRAM_ERROR = (s.rd y O.YSQ_CNT_PROGRAM_ERROR + 1) % 2 ^ 32
        ∧ t.hostBytes (s.rd64 pYcs O.YCS_STAT_BASE_LO + 16 * n) 16 = statusRecord t n 0 ((b.pc + 16) % 2 ^ 64)
        ∧ subFrame (fun _ => false) s t n))
  ∧ (∀ (n : Fin 4096) (a : ChAns) (s : State), s.alive .ysq = true → s.chReady n = true → s.hostReady = true → a.mem = .ok →
    let b := s.subOf n
    let c := s.fetchCmd b.pc
    c.code = 8 → b.pc % 16 = 0 →
    ∃ t, exec (.chanGoto n a) s = .next t ∧ subFrame (fun _ => false) s t n
      ∧ (c.data % 16 = 0 → b.goto_ = false → (s.fetchCmd c.data).code ≠ 8 →
          t.subOf n = { b with pc := c.data, goto_ := true } ∧ t = { s.wakeLink with subs := t.subs, seqs := t.seqs })
      ∧ (c.data % 16 = 0 → b.goto_ = true → t.schState n = 0 ∧ (t.subOf n).endc = 4 ∧ (t.subOf n).reason = 0x46))
  ∧ (∀ (n : Fin 4096) (a : ChAns) (c : ChCmd) (o : ChOp) (s : State), s.chAt n a c o →
    (c.code = 0x10 → ∃ t, exec (.channelNop n a) s = .next t ∧ opEnded s t n o 0 0 ∧ subFrame (fun _ => false) s t n)
    ∧ (c.code = 0x0C → ∃ t, exec (.waitEvent n a) s = .next t ∧ (t.subOf n).op.map (·.wait) = some 4
        ∧ t.rd (State.ysqOf n) O.YSQ_EVT_LATCH = 0 ∧ t.bit (State.ysqOf n) (State.schOff n) 27 = true
        ∧ t.schState n = 1 ∧ subFrame (fun _ => false) s t n))
  ∧ (∀ (n : Fin 4096) (a : ChAns) (o : ChOp) (s : State), s.alive .ysq = true → s.liveOp n = some o → s.hostReady = true → o.wait = 4 →
    ∃ t, exec (.waitEvent n a) s = .next t
      ∧ (bitOf (s.rd (State.ysqOf n) O.YSQ_EVT_LATCH) (bitsOf o.head.arg 0 4) = true → opEnded s t n o 1 0)
      ∧ (s.rd (State.ysqOf n) O.YSQ_EVT_LATCH = 0 → t = s))

/-- Transfers of channel commands (R275, R313-R322). -/
def Obligations.ChannelTransfersOnBothPaths : Prop :=
  let areas := fun (o : ChOp) (x : Nat) => o.areas.any fun e => decide (e.1 ≤ x) && decide (x < e.1 + e.2)
  let none_ := fun (_ : Nat) => false
  let plain := fun (c : ChCmd) => c.list = false ∧ c.span = false ∧ c.discard = false ∧ c.note = false ∧ c.link = true
  let noNote := fun (o : ChOp) => o.cmds.any (·.note) = false
  let all := fun (o : ChOp) => { o with moved := o.total }
  (∀ (n : Fin 4096) (a : ChAns) (c : ChCmd) (o : ChOp) (s : State), s.chAt n a c o →
    let b := s.subOf n
    let d := s.opData o
    let g := fun (i : Nat) => (d.getD i 0).toNat
    c.local_ = 1 → noNote o → g 0 < 16 → g 1 < 128 → g 2 < 8 → g 3 < 4 →
    (n.val % 64 = 0 → g 0 = 0 ∧ g 2 ≤ 4 ∧ g 3 ≠ 3) →
    ∃ t, exec (.chanSeek n a) s = .next t ∧ opEnded s t n (all o) 0 0 ∧ subFrame none_ s t n
      ∧ ((t.subOf n).target, (t.subOf n).dev, (t.subOf n).alen, (t.subOf n).speed, (t.subOf n).addr)
        = (g 0, g 1, g 2, g 3, leNat ((d.drop 4).take 4)) ∧ (t.subOf n).tid = b.tid)
  ∧ (∀ (n : Fin 4096) (a : ChAns) (c : ChCmd) (o : ChOp) (s : State), s.chAt n a c o → n.val % 64 = 0 →
    s.directFault n = 0 → a.fault = none →
    let b := s.subOf n
    let p := n.val / 64
    let y := State.ysqOf n
    let adr := beBytes (min 4 b.alen) b.addr
    let levels := fun (t : State) => t.fld y (State.pathOff p) 0 2 = b2n a.scl * 2 + b2n a.sda
    (c.code = 1 → a.addrAck = true → o.total ≤ a.wrote → ∃ t, exec (.chanWrite n a) s = .next t
      ∧ opEnded s t n (all o) 0 0 ∧ (t.subOf n).addr = (b.addr + o.total) % 2 ^ 32 ∧ levels t
      ∧ (noNote o → .i2c p b.dev false (adr ++ s.opData o) ∈ t.out) ∧ subFrame none_ s t n)
    ∧ (c.code = 1 → a.addrAck = false → c.parBit 12 = false → ∃ t, exec (.chanWrite n a) s = .next t
      ∧ opEnded s t n o 3 1 ∧ (t.subOf n).addr = b.addr ∧ subFrame none_ s t n)
    ∧ (c.code = 2 → c.parBit 11 = false → a.addrAck = true → ∃ t, exec (.channelRead n a) s = .next t
      ∧ opEnded s t n (all o) 0 0 ∧ (t.subOf n).addr = (b.addr + o.total) % 2 ^ 32 ∧ .i2c p b.dev true adr ∈ t.out
      ∧ (plain c → t.hostBytes c.data c.count = padTo c.count a.data) ∧ levels t ∧ subFrame (areas o) s t n)
    ∧ (c.code = 2 → c.parBit 11 = false → a.addrAck = false → c.parBit 12 = true →
      ∃ t, exec (.channelRead n a) s = .next t ∧ (t.subOf n).op.map (·.wait) = some 2
      ∧ t.bit y (State.schOff n) 27 = true ∧ subFrame none_ s t n)
    ∧ (c.code = 0x20 → a.addrAck = true → noNote o → ∃ t, exec (.pollMatch n a) s = .next t ∧ subFrame none_ s t n
      ∧ (s.polled o a.data = true → opEnded s t n (all o) 1 0)
      ∧ (s.polled o a.data = false → (t.subOf n).op.map (·.wait) = some 3 ∧ t.bit y (State.schOff n) 27 = true)))
  ∧ (∀ (n : Fin 4096) (a : ChAns) (c : ChCmd) (o : ChOp) (s : State), s.chAt n a c o → n.val % 64 = 0 →
    let p := n.val / 64
    let y := State.ysqOf n
    (c.code = 4 → ∃ t, exec (.chanSense n a) s = .next t ∧ opEnded s t n (all o) 0 0 ∧ subFrame (areas o) s t n
      ∧ (plain c → t.hostBytes c.data c.count = padTo c.count (s.senseBytes n a)))
    ∧ (c.local_ = 2 → a.fault = none → ∃ t, exec (.busClear n a) s = .next t ∧ opEnded s t n o 0 0 ∧ subFrame none_ s t n
      ∧ t.rd y O.YSQ_CNT_BUS_CLEAR
        = (s.rd y O.YSQ_CNT_BUS_CLEAR + (if p ∈ s.cleared then 1 else 2)) % 2 ^ 32)
    ∧ (c.local_ = 3 → a.fault = none → ∃ t, exec (.chanProbe n a) s = .next t ∧ subFrame none_ s t n
      ∧ (a.addrAck = true → opEnded s t n o 0 0 ∧ t.pathFaulted p = false)
      ∧ (a.addrAck = false → opEnded s t n o 3 1 ∧ t.pathFaulted p = s.pathFaulted p)))
  ∧ (∀ (n : Fin 4096) (a : ChAns) (c : ChCmd) (o : ChOp) (s : State), s.chAt n a c o → n.val % 64 ≠ 0 →
    s.bridgeFault n = 0 →
    let b := s.subOf n
    let p := n.val / 64
    let sent := fun (t : State) =>
      (t.subOf n).op.map (fun q => (q.wait, q.tid, q.len, q.moved)) = some (1, b.tid, min 480 o.total, 0)
      ∧ (t.subOf n).tid = (b.tid + 1) % 256 ∧ t.mgmt = (n.val, b.tid) :: s.mgmt
      ∧ (noNote o → t.jcells p = s.jcells p ++ [{ mgmt := true, tile := n.val % 64 - 1
                                                  body := s.mgmtBody n o b.tid (min 480 o.total) }])
      ∧ t.schState n = 1 ∧ subFrame none_ s t n
    (s.jaccept p true = true →
      (c.code = 1 → c.parBit 14 = false → ∃ t, exec (.chanWrite n a) s = .next t ∧ sent t)
      ∧ (c.code = 2 → c.parBit 11 = false → ∃ t, exec (.channelRead n a) s = .next t ∧ sent t)
      ∧ (c.code = 3 → c.local_ = 0 → ∃ t, exec (.chanControl n a) s = .next t ∧ sent t)
      ∧ (c.code = 4 → ∃ t, exec (.chanSense n a) s = .next t ∧ sent t)
      ∧ (c.code = 0x20 → ∃ t, exec (.pollMatch n a) s = .next t ∧ sent t))
    ∧ (c.code = 1 → c.parBit 14 = true → ∃ t, exec (.bulkWrite n a) s = .next t
      ∧ (let k := min (cdiv o.total 480) (7 - (s.jcells p).length)
        (t.subOf n).op.map (fun q => (q.wait, q.moved, q.cells)) = some (7, min o.total (480 * k), k)
        ∧ (t.jcells p).length = (s.jcells p).length + k ∧ (t.subOf n).addr % 2 ^ 32 = (b.addr + k) % 2 ^ 32)
      ∧ t.schState n = 1 ∧ subFrame none_ s t n))
  ∧ (∀ (n : Fin 4096) (a : ChAns) (c : ChCmd) (o : ChOp) (s : State), s.chAt n a c o → c.code = 2 → c.parBit 11 = true →
    ∃ t, exec (.netrxRead n a) s = .next t ∧ subFrame (areas o) s t n
      ∧ (s.frameFor n = none → (t.subOf n).op.map (·.wait) = some 5 ∧ t.bit (State.ysqOf n) (State.schOff n) 27 = true)
      ∧ ∀ k, s.frameFor n = some k →
        let f := sget (fun _ => []) s.yrx.bufs k
        let got := min o.total f.length
        opEnded s t n { o with moved := got } (if got < o.total ∧ o.tail.shortOk = false then 2 else 0) 0
          ∧ t.yrx.ring = s.yrx.ring.filter (fun e => e.1 ≠ k)
          ∧ (plain c → got = o.total → t.hostBytes c.data got = f.take got))

/-- Routines of the standard image (R325, R326, R247). -/
def Obligations.AdmissionAndLedgerRoutinesUseTags : Prop :=
  let y := fun (s : State) (t : Nat) => State.ysqOf (s.tileSub t)
  let may := fun (s : State) (t p off : Nat) => (decide (p = y s t) && decide (off = State.schOff (s.tileSub t)))
    || (decide (p = pLmp) && decide (off = State.tstat t)) || (decide (p = pYcs)
      && (decide (off = O.YCS_CNT_LEDGER_WRITES) || decide (off = O.YCS_CNT_LEDGER_FAIL) || decide (off = O.YCS_CNT_ADMIT_FAIL)))
  let one := fun (s t : State) (o : Nat) => t.rd pYcs o = (s.rd pYcs o + 1) % 2 ^ 32
  (∀ (t : Fin 4032) (s : State), s.alive .ysq = true → s.bit pLmp (State.tstat t) 26 = true → s.running (y s t) = true →
    (s.schState (s.tileSub t) = 0 → ∃ v, exec (.automaticAdmission t none) s = .next v ∧ v.schState (s.tileSub t) = 4
      ∧ v = { s with regs := v.regs } ∧ regsSame (may s t) s v)
    ∧ ∀ a : TagAns, s.schState (s.tileSub t) = 4 →
      (s.lmp.busy ≠ none → exec (.automaticAdmission t (some a)) s = .next s)
      ∧ (s.lmp.busy = none →
        let id := (State.tagRead a 0 0).getD []
        let fails := fun (v : State) => v.bit pLmp (State.tstat t) 25 = true ∧ one s v O.YCS_CNT_ADMIT_FAIL
          ∧ v.lmp.busy = none
        ∃ v, exec (.automaticAdmission t (some a)) s = .next v
        ∧ v.schState (s.tileSub t) = 0 ∧ v.bit pLmp (State.tstat t) 26 = false ∧ (∀ x, v.hostByte x = s.hostByte x)
        ∧ (s.bridgeFault (s.tileSub t) ≠ 0 ∨ s.identOk t id = false ∨ State.tagRead a 1 (leWord id 16) = none →
            fails v ∧ memSame s v
            ∧ regsSame (fun p off => may s t p off || sigReg pLmp p off) s v ∧ tabsSame sigTab s v)
        ∧ ∀ img, s.bridgeFault (s.tileSub t) = 0 → s.identOk t id = true → State.tagRead a 1 (leWord id 16) = some img →
            let r := State.calEntries ((s.tile t).lamps + 1) (s.tile t).lamps img
            ((s.tile t).lmbase + r.1.length ≤ 2 ^ 28 → ∀ i, i < r.1.length →
              v.lampEntry ((s.tile t).lmbase + i) = r.1.getD i 0 % 2 ^ 24)
            ∧ (r.2 ≠ some (leWord id 20) ∨ State.tagRead a 2 0x40 = none → fails v)
            ∧ ∀ led, r.2 = some (leWord id 20) → State.tagRead a 2 0x40 = some led →
                let d := State.ledgerDose led
                one s v O.YCS_CNT_ADMIT_OK ∧ v.lmp.busy = some t.val ∧ v.rd pLmp O.LMP_ADOPT_DOSE_R = d.1 % 2 ^ 32
                ∧ v.rd pLmp O.LMP_ADOPT_DOSE_G = d.2.1 % 2 ^ 32 ∧ v.rd pLmp O.LMP_ADOPT_DOSE_B = d.2.2 % 2 ^ 32))
  ∧ (∀ (t : Fin 4032) (s : State), s.alive .ysq = true → s.running (y s t) = true →
    let runs := s.ledgerRuns (s.tileSub t / 512) < max 1 (s.fld pYcs O.YCS_ROUTINE_CFG 0 8)
    let claims := fun (v : State) => v.schState (s.tileSub t) = 4 ∧ v = { s with regs := v.regs } ∧ regsSame (may s t) s v
    let ends := fun (a : LedgerAns) (v : State) =>
      v.schState (s.tileSub t) = 0 ∧ v = { s with regs := v.regs, out := v.out } ∧ regsSame (may s t) s v
      ∧ (s.bridgeFault (s.tileSub t) ≠ 0 ∨ a.before = none → v.bit pLmp (State.tstat t) 24 = true ∧ v.out = s.out)
      ∧ ∀ l, s.bridgeFault (s.tileSub t) = 0 → a.before = some l →
          let rec_ := s.hbmBytes (s.rd64 pTly O.TLY_LEDGER_BASE_LO + 64 * t.val) 64
          let toB : Bool := match State.ledgerCopies l with
            | (some x, some z) => State.seqLater (leWord x 4) (leWord z 4)
            | (some _, none) => true
            | _ => false
          let put := Output.tag t (if toB then 0x80 else 0x40) rec_
          (a.first = some rec_ → v.bit pLmp (State.tstat t) 24 = false ∧ one s v O.YCS_CNT_LEDGER_WRITES ∧ v.out = put :: s.out)
          ∧ (a.first = none → v.bit pLmp (State.tstat t) 24 = true ∧ v.out = put :: s.out)
          ∧ (∀ x, a.first = some x → x ≠ rec_ → v.out = put :: put :: s.out
              ∧ (a.second = some rec_ → v.bit pLmp (State.tstat t) 24 = false ∧ one s v O.YCS_CNT_LEDGER_WRITES)
              ∧ (a.second ≠ some rec_ → v.bit pLmp (State.tstat t) 24 = true)
              ∧ (∀ z, a.second = some z → z ≠ rec_ → one s v O.YCS_CNT_LEDGER_FAIL))
    (s.confirmed t = true ∨ s.bit pLmp (State.tstat t) 24 = true →
      (s.schState (s.tileSub t) = 0 → runs → ∃ v, exec (.ledgerRoutine t none) s = .next v ∧ claims v)
      ∧ ∀ a : LedgerAns, s.schState (s.tileSub t) = 4 → ∃ v, exec (.ledgerRoutine t (some a)) s = .next v ∧ ends a v)
    ∧ (s.bit pLmp (State.tstat t) 24 = true →
      (s.schState (s.tileSub t) = 0 → runs → ∃ v, exec (.tagBusyRetry t none) s = .next v ∧ claims v)
      ∧ ∀ a : LedgerAns, s.schState (s.tileSub t) = 4 → ∃ v, exec (.tagBusyRetry t (some a)) s = .next v ∧ ends a v))

/-- Event sources, pop registers, timers and control-store errors (R333-R335, R348, R350, R351). -/
def Obligations.SequencerEventsPopsAndStoreErrors : Prop :=
  let one := fun (s t : State) (p o : Nat) => t.rd p o = (s.rd p o + 1) % 2 ^ 32
  let w1 := fun (s : State) (n : Nat) => s.tab pEic 0 (2 * n + 1)
  (∀ (v : W32) (s : State), s.hostAlive = true →
    let src := bitsOf v.toNat 0 10
    ∃ t, exec (.eicDoorbell v) s = .next t ∧ (∀ x, t.hbmByte x = s.hbmByte x) ∧ (∀ x, t.yardByte x = s.yardByte x)
    ∧ (State.isProgEvent src = false → bitOf (s.srcWord src) 31 = true →
        bitOf (w1 s src) 31 = false ∨ bitsOf (w1 s src) 0 16 < 0xFFFF →
        t = { s with regs := t.regs, tables := t.tables, eicSat := t.eicSat } ∧ one s t pEic O.EIC_CNT_RAISES
        ∧ w1 t src = (if bitOf (w1 s src) 31 = true then w1 s src + 1 else 2 ^ 31 + 1)
        ∧ (bitOf (w1 s src) 31 = true → one s t pEic O.EIC_CNT_COALESCED)
        ∧ ∀ n, n < 1024 → n ≠ src → w1 t n = w1 s n)
    ∧ (State.isProgEvent src = true →
        ((∀ m, ((s.subOf m).op.any fun o => decide (o.wait = 4)) = false) → t = { s with regs := t.regs }
          ∧ t.rd (pYsq + src / 32) O.YSQ_EVT_LATCH = s.rd (pYsq + src / 32) O.YSQ_EVT_LATCH ||| 2 ^ (src % 32 - 16))
        ∧ ∀ (n : Fin 4096) (o : ChOp), n.val / 512 = src / 32 → s.liveOp n = some o → s.hostReady = true → o.wait = 4 →
            bitsOf o.head.arg 0 4 = src % 32 - 16 → opEnded s t n o 1 0))
  ∧ (∀ (k : Fin 8) (s : State), s.alive .ysq = true → s.uRuns k = true → s.uFlag k 8 = true →
    ∃ t, exec (.eventTaken k) s = .next t ∧ (s.eligible k = none → t = s)
    ∧ ∀ n, s.eligible k = some n → s.pDepth k < 2 →
        let f := s.rd (State.yp k) O.YSQ_SEQ_FLAGS
        t.uFlag k 8 = false ∧ t.upc k = bitsOf (s.srcWord n) 0 14 ∧ t.rd (State.yp k) O.YSQ_EV_SRC = n
        ∧ t.rd (State.yp k) O.YSQ_EV_COUNT = bitsOf (w1 s n) 0 16 ∧ w1 t n = 0
        ∧ t.pstk k (s.pDepth k) = 2 ^ 31 + b2n (bitOf (s.srcWord n) 30) * 2 ^ 30 + bitsOf f 3 3 * 2 ^ 27
            + bitsOf f 0 3 * 2 ^ 24 + (s.upc k + 1) % 16384 * 2 ^ 10 + n
        ∧ one s t pEic O.EIC_CNT_PRESENTED ∧ t = { s with regs := t.regs, tables := t.tables })
  ∧ (∀ (k : Fin 8) (s : State), s.hostAlive = true →
    let q := s.seqOf k
    (∃ t, exec (.cmdPop k) s = .next t ∧ (t.seqOf k).cmds = q.cmds.drop 1
      ∧ t = { s with regs := t.regs, seqs := t.seqs, out := t.out }
      ∧ t.out = .readData (BitVec.ofNat 64 (match q.cmds with | [] => 0 | c :: _ => 2 ^ 31 + c.1 * 2 ^ 28 + c.2.1)) :: s.out
      ∧ (∀ (m a : Nat) (r : List (Nat × Nat × Nat)), q.cmds = (0, m, a) :: r →
          t.rd64 (pYsq + k.val) O.YSQ_CMD_ADDR_LO = a % 2 ^ 64)
      ∧ regsSame (fun p off => decide (p = pYsq + k.val)
          && (decide (off = O.YSQ_CMD_ADDR_LO) || decide (off = O.YSQ_CMD_ADDR_LO + 4))) s t)
    ∧ (∃ t, exec (.replyPop k) s = .next t ∧ t = { s with seqs := t.seqs, out := t.out }
      ∧ t.seqOf k = { q with reps := q.reps.drop 1 }
      ∧ t.out = .readData (BitVec.ofNat 64 (match q.reps with | [] => 0 | r :: _ => 2 ^ 31 + r.2 % 256 * 2 ^ 16 + r.1)) :: s.out)
    ∧ (∃ t, exec (.timerPop k) s = .next t ∧ t = { s with seqs := t.seqs, out := t.out }
      ∧ t.seqOf k = { q with tims := q.tims.drop 1 }
      ∧ t.out = .readData (BitVec.ofNat 64 (match q.tims with | [] => 0 | n :: _ => 2 ^ 31 + n)) :: s.out))
  ∧ (∀ (n : Fin 4096) (s : State), s.alive .ysq = true →
    let k := n.val / 512
    let q := n.val % 512
    ∃ t, exec (.subchannelTimerExpiry n) s = .next t
    ∧ (sget (fun _ => none) (s.seqOf k).timers q = none → t = s)
    ∧ (sget (fun _ => none) (s.seqOf k).timers q ≠ none → (t.seqOf k).tims = (s.seqOf k).tims ++ [q]
        ∧ q ∈ (t.seqOf k).expired ∧ sget (fun _ => none) (t.seqOf k).timers q = none
        ∧ t = { sigRest s t with seqs := t.seqs } ∧ regsSame (sigReg pEic) s t ∧ tabsSame sigTab s t
        ∧ (bitOf (s.srcWord (32 * k + 2)) 31 = true → bitOf (w1 s (32 * k + 2)) 31 = false →
            w1 t (32 * k + 2) = 2 ^ 31 + 1)))
  ∧ (∀ (k : Fin 8) (s : State), s.alive .ysq = true → ∃ t, exec (.csUe k) s = .next t
    ∧ (s.uRuns k = false ∨ s.uFlag k 8 = true → t = s)
    ∧ (s.uRuns k = true → s.uFlag k 8 = false → t.pstate (State.yp k) = 4
        ∧ (s.bit pYcs O.YCS_CS_UE_ADDR 31 = false → t.rd pYcs O.YCS_CS_UE_ADDR = 2 ^ 31 + s.upc k)
        ∧ (s.bit pYcs O.YCS_CS_UE_ADDR 31 = true → t.rd pYcs O.YCS_CS_UE_ADDR = s.rd pYcs O.YCS_CS_UE_ADDR)))
  ∧ (∀ (f b : List (Fin 16384)) (s : State), s.alive .ycs = true → ∃ t, exec (.csScrub f b) s = .next t
    ∧ t.rd pYcs O.YCS_CNT_CS_CORR = (s.rd pYcs O.YCS_CNT_CS_CORR + f.length) % 2 ^ 32
    ∧ (∀ (e : Fin 16384) (r : List (Fin 16384)), b = e :: r → s.bit pYcs O.YCS_CS_UE_ADDR 31 = false →
        t.rd pYcs O.YCS_CS_UE_ADDR = 2 ^ 31 + e.val)
    ∧ memSame s t ∧ tabsSame sigTab s t ∧ t = { sigRest s t with mem := t.mem })
  ∧ ∀ s : State, s.hostAlive = true → ∃ t, exec .csLock s = .next t ∧ t.bit pYcs O.YCS_CS_CTL 0 = true
    ∧ t = { s with regs := t.regs }
    ∧ regsSame (fun p off => decide (p = pYcs) && decide (off = O.YCS_CS_CTL)) s t

/-- Arithmetic and next-address operations of micro-words (R335-R338, R341, R345-R347). -/
def Obligations.MicroWordsComputeAndChooseTheNext : Prop :=
  let ready := fun (s : State) (k : Fin 8) (u : UWord) => s.alive .ysq = true ∧ s.uRuns k = true ∧ s.uFlag k 8 = false
    ∧ s.fetchPoor k = false ∧ s.uWord k = u ∧ s.uBad k u = false ∧ u.mem = 0 ∧ u.io = 0
  let res := fun (s : State) (k : Fin 8) (u : UWord) => uAlu u.alu (s.uA k u) (s.uB k u) (s.uFlag k 0)
  let dst := fun (s t : State) (k : Fin 8) (u : UWord) => u.alu ≠ 0 → u.alu ≠ 10 → u.alu ≠ 11 →
    t.rd (State.yp k) (s.uOff k (u.dst % 32)) = (res s k u).1 % 2 ^ 32
  let flags := fun (s t : State) (k : Fin 8) (u : UWord) => (t.uFlag k 2, t.uFlag k 1, t.uFlag k 0)
    = if u.alu ≠ 0 ∧ u.fl = true then (decide ((res s k u).1 = 0), bitOf (res s k u).1 31, (res s k u).2)
      else (s.uFlag k 2, s.uFlag k 1, s.uFlag k 0)
  let frame := fun (s t : State) (k : Fin 8) (u : UWord) (offs : List Nat) =>
    t = { s with regs := t.regs, freeCtr := t.freeCtr }
    ∧ regsSame (fun p off => decide (p = State.yp k) && (decide (off = s.uOff k (u.dst % 32))
        || decide (off ∈ O.YSQ_SEQ_FLAGS :: O.YSQ_UPC :: offs))) s t
  let fault := fun (t : State) (k : Fin 8) => t.pstate (State.yp k) = 4
  let cap := fun (s t : State) (k : Fin 8) (b : Bool) =>
    fault t k ∧ t.rd (State.yp k) O.YSQ_EOE_CAP = 2 ^ 31 + b2n b * 2 ^ 30 + s.upc k
  let popped := fun (s t : State) (k : Fin 8) (e : Nat) => t.upc k = bitsOf e 10 14 ∧ t.usp k = bitsOf e 27 3
    ∧ t.fld (State.yp k) O.YSQ_SEQ_FLAGS 0 3 = bitsOf e 24 3 ∧ t.pDepth k + 1 = s.pDepth k
  let sampled := fun (s t : State) (k : Fin 8) => match s.eligible k with
    | none => t.upc k = (s.upc k + 1) % 16384 ∧ t.pDepth k = s.pDepth k
    | some n => t.upc k = bitsOf (s.srcWord n) 0 14 ∧ t.rd (State.yp k) O.YSQ_EV_SRC = n
        ∧ (s.pDepth k < 2 → bitsOf (t.pstk k (s.pDepth k)) 10 14 = (s.upc k + 1) % 16384)
  (∀ (k : Fin 8) (u : UWord) (s : State), ready s k u →
    let take := s.uCond k u.cond ≠ u.neg
    let next := (s.upc k + 1) % 16384
    let code := (s.seqOf k).cmdCode
    (u.seq = 0 → ∃ t, exec (.uNext k) s = .next t ∧ t.upc k = next ∧ dst s t k u ∧ flags s t k u ∧ frame s t k u [])
    ∧ (u.seq = 1 → ∃ t, exec (.uJump k) s = .next t ∧ t.upc k = (if take then u.target else next) ∧ dst s t k u
        ∧ flags s t k u ∧ frame s t k u [])
    ∧ (u.seq = 2 → ∃ t, exec (.uCall k) s = .next t ∧ (take → 4 ≤ s.usp k → fault t k)
        ∧ (take → s.usp k < 4 → t.upc k = u.target ∧ t.usp k = s.usp k + 1
            ∧ t.rd (State.yp k) (O.YSQ_USTK + 4 * s.usp k) = next)
        ∧ (¬ take → t.upc k = next) ∧ (¬ take ∨ s.usp k < 4 → dst s t k u ∧ flags s t k u
            ∧ frame s t k u [O.YSQ_USTK + 4 * s.usp k]))
    ∧ (u.seq = 3 → ∃ t, exec (.uRet k) s = .next t ∧ (take → s.usp k = 0 → fault t k)
        ∧ (take → s.usp k ≠ 0 → t.upc k = s.fld (State.yp k) (O.YSQ_USTK + 4 * (s.usp k - 1)) 0 14
            ∧ t.usp k + 1 = s.usp k)
        ∧ (¬ take → t.upc k = next) ∧ (¬ take ∨ s.usp k ≠ 0 → dst s t k u ∧ flags s t k u ∧ frame s t k u []))
    ∧ (u.seq = 4 → ∃ t, exec (.uDispatch k) s = .next t ∧ dst s t k u ∧ flags s t k u ∧ frame s t k u []
        ∧ t.upc k = if take then (u.target + if code < 0x40 then code else 0) % 16384 else next)
    ∧ (u.seq = 5 → ∃ t, exec (.uBoundary k) s = .next t ∧ sampled s t k ∧ dst s t k u ∧ flags s t k u
        ∧ t = { s with regs := t.regs, tables := t.tables, freeCtr := t.freeCtr })
    ∧ (u.seq = 6 → ∃ t, exec (.uCcb k) s = .next t ∧ (s.uFlag k 10 = false → sampled s t k)
        ∧ (s.uFlag k 10 = true → t.upc k = 8 ∧ t.uFlag k 10 = false) ∧ dst s t k u ∧ flags s t k u
        ∧ t = { s with regs := t.regs, tables := t.tables, freeCtr := t.freeCtr })
    ∧ (u.seq = 7 → ∃ t, exec (.uIdle k) s = .next t ∧ dst s t k u ∧ flags s t k u
        ∧ (s.eligible k = none → s.uFlag k 9 = false → t.uFlag k 8 = true ∧ t.upc k = s.upc k)
        ∧ (s.eligible k ≠ none ∨ s.uFlag k 9 = true → t.uFlag k 8 = false ∧ sampled s t k))
    ∧ (u.seq = 8 → ∃ t, exec (.eoeNormal k) s = .next t
        ∧ (∀ e, s.pTop k = some e → bitOf e 30 = false → popped s t k e)
        ∧ ((s.pTop k).all (bitOf · 30) = true → cap s t k false))
    ∧ (u.seq = 9 → ∃ t, exec (.eoeFast k) s = .next t
        ∧ (∀ e, s.pTop k = some e → bitOf e 30 = true → popped s t k e)
        ∧ ((s.pTop k).any (bitOf · 30) = false → cap s t k true))
    ∧ (u.seq = 10 → s.bit (State.yp k) O.PAGE_CTL 0 = false → ∃ t, exec (.uHalt k) s = .next t
        ∧ t.pstate (State.yp k) = 0 ∧ t.bit (State.yp k) O.INT_CAUSE 28 = true ∧ memSame s t))
  ∧ (∀ (k : Fin 8) (s : State), s.alive .ysq = true → s.uRuns k = true → s.uFlag k 8 = true →
    ∃ t, exec (.uIdle k) s = .next t ∧ (s.eligible k = none → s.uFlag k 9 = false → t.uFlag k 8 = true ∧ t.upc k = s.upc k)
      ∧ (s.eligible k ≠ none ∨ s.uFlag k 9 = true → t.uFlag k 8 = false ∧ sampled s t k))
  ∧ ∀ (k : Fin 8) (s : State), s.alive .ysq = true → s.uRuns k = true → s.uFlag k 8 = false →
    s.fetchPoor k = true ∨ s.uBad k (s.uWord k) = true →
    ∀ c ∈ ([.uNext k, .uJump k, .uCall k, .uRet k, .uDispatch k, .uBoundary k, .uCcb k, .uIdle k, .eoeNormal k, .eoeFast k,
      .uHalt k, .rrd k, .rwr k, .bwr k, .ctxLd k, .ctxSt k, .dbell k, .evtake k, .lineSet k, .i2cSpeed k, .mgmtSend k,
      .mgmtTake k, .bulkSend k, .timerSet k, .timerClr k, .senseGet k] : List Instr),
    ∃ t, exec c s = .next t ∧ fault t k ∧ t.bit (State.yp k) O.INT_CAUSE (if s.fetchPoor k then 4 else 5) = true ∧ t.upc k = s.upc k

/-- Memory operations of micro-words (R343, with R333, R334, R336). -/
def Obligations.MicroWordsReachRegistersMemoryAndContexts : Prop :=
  let ready := fun (s : State) (k : Fin 8) (u : UWord) (m : Nat) => s.alive .ysq = true ∧ s.uRuns k = true
    ∧ s.uFlag k 8 = false ∧ s.fetchPoor k = false ∧ s.uWord k = u ∧ s.uBad k u = false ∧ u.mem = m
  let y := fun (k : Fin 8) => State.yp k
  let out := fun (s t : State) (k : Fin 8) (u : UWord) => t.rd (y k) (s.uOff k (u.dst % 32))
  let next := fun (s t : State) (k : Fin 8) (u : UWord) => u.seq = 0 → t.upc k = (s.upc k + 1) % 16384
  let carry := fun (t : State) (k : Fin 8) (u : UWord) (b : Bool) => u.seq ≠ 8 → u.seq ≠ 9 → t.uFlag k 0 = b
  let plain := fun (u : UWord) => u.seq = 0 ∧ u.alu = 0 ∧ u.cond ≠ 11
  let bf := fun (t : State) (k : Fin 8) (u : UWord) (a : Nat) =>
    (u.seq ≠ 6 → t.uFlag k 10 = true) ∧ t.rd (y k) O.YSQ_BF_ADDR = a % 2 ^ 25
  (∀ (k : Fin 8) (u : UWord) (s : State), ready s k u 1 → ∃ t, exec (.rrd k) s = .next t ∧ next s t k u
    ∧ (let r := s.bar0 true false (s.uAddr k u) 4 true 0
      (r.err = none → out s t k u = r.val % 2 ^ 32) ∧ (r.err ≠ none → out s t k u = 0 ∧ bf t k u (s.uAddr k u))))
  ∧ (∀ (k : Fin 8) (u : UWord) (s : State), ready s k u 2 → ∃ t, exec (.rwr k) s = .next t
    ∧ (let r := s.bar0 true true (s.uAddr k u) 4 true (s.uB k u)
      (r.err = none → plain u → t = { r.st with regs := t.regs, pending := s.pending }
        ∧ regsSame (fun p off => decide (p = y k) && decide (off = O.YSQ_UPC)) r.st t)
      ∧ (r.err ≠ none → bf t k u (s.uAddr k u))))
  ∧ (∀ (k : Fin 8) (u : UWord) (s : State), ready s k u 3 →
    (∃ t, exec (.brd k false) s = .next t ∧ next s t k u ∧ carry t k u false
      ∧ out s t k u = leNat (s.uBuf k (s.uAddr k u) u.bytes))
    ∧ (∃ t, exec (.brd k true) s = .next t ∧ next s t k u ∧ carry t k u true
      ∧ (plain u → t = { s with regs := t.regs, freeCtr := s.freeCtr + u.bytes }
          ∧ regsSame (fun p off => decide (p = y k) && (decide (off = s.uOff k (u.dst % 32)) || decide (off = O.YSQ_UPC)
            || decide (off = O.YSQ_SEQ_FLAGS))) s t)))
  ∧ (∀ (k : Fin 8) (u : UWord) (s : State), ready s k u 4 → ∃ t, exec (.bwr k) s = .next t ∧ next s t k u
    ∧ t.uBuf k (s.uAddr k u) u.bytes = leBytes u.bytes (s.uB k u)
    ∧ (u.seq = 0 → u.cond ≠ 11 → t = { s with regs := t.regs, seqs := t.seqs }))
  ∧ (∀ (k : Fin 8) (u : UWord) (ok : Bool) (s : State), ready s k u 5 →
    (s.hostReady = false → exec (.hload k ok) s = .next s)
    ∧ (s.hostReady = true → 1 ≤ s.uB k u → s.uB k u ≤ 512 → ∃ t, exec (.hload k ok) s = .next t ∧ next s t k u
      ∧ carry t k u (!ok) ∧ memSame s t
      ∧ (ok = true → t.uBuf k u.offset (s.uB k u) = s.hostBytes (s.uPair k u) (s.uB k u))))
  ∧ (∀ (k : Fin 8) (u : UWord) (ok : Bool) (s : State), ready s k u 6 →
    (s.hostReady = false → exec (.hstore k ok) s = .next s)
    ∧ (s.hostReady = true → 1 ≤ s.uB k u → s.uB k u ≤ 512 → ∃ t, exec (.hstore k ok) s = .next t ∧ next s t k u
      ∧ carry t k u (!ok) ∧ (ok = false → memSame s t)
      ∧ (ok = true → t.hostBytes (s.uPair k u) (s.uB k u) = s.uBuf k u.offset (s.uB k u)
          ∧ (∀ x, x < s.uPair k u ∨ s.uPair k u + s.uB k u ≤ x → t.hostByte x = s.hostByte x)
          ∧ ∀ x, t.hbmByte x = s.hbmByte x)))
  ∧ (∀ (k : Fin 8) (u : UWord) (ok : Bool) (s : State), ready s k u 7 →
    (s.hostReady = false → exec (.uFetch k ok) s = .next s)
    ∧ (s.hostReady = true → ∃ t, exec (.uFetch k ok) s = .next t ∧ next s t k u ∧ carry t k u (!ok) ∧ memSame s t
      ∧ (ok = true → (t.seqOf k).cmdCode = leWord (s.hostBytes (s.uPair k u) 16) 0 / 2 ^ 24
          ∧ ∀ i, i < 4 → t.rd (y k) (s.uOff k (u.dst + i)) = leWord (s.hostBytes (s.uPair k u) 16) (4 * i))))
  ∧ (∀ (k : Fin 8) (u : UWord) (s : State), ready s k u 8 → ∃ t, exec (.ctxLd k) s = .next t ∧ next s t k u
    ∧ t.curSch k = s.uB k u % 512
    ∧ (u.alu = 0 → ∀ i, i < 16 → t.rd (y k) (O.YSQ_W + 4 * i)
        = (sget (fun _ => 0) (s.seqOf k).ctxs (16 * (s.uB k u % 512) + i)).toNat))
  ∧ (∀ (k : Fin 8) (u : UWord) (s : State), ready s k u 9 → ∃ t, exec (.ctxSt k) s = .next t ∧ next s t k u
    ∧ (∀ i, i < 16 → (sget (fun _ => 0) (t.seqOf k).ctxs (16 * s.curSch k + i)).toNat = s.rd (y k) (O.YSQ_W + 4 * i))
    ∧ (∀ j, j < 16 * s.curSch k ∨ 16 * s.curSch k + 16 ≤ j →
        sget (fun _ => 0) (t.seqOf k).ctxs j = sget (fun _ => 0) (s.seqOf k).ctxs j)
    ∧ (u.seq = 0 → u.cond ≠ 11 → t = { s with regs := t.regs, seqs := t.seqs }))
  ∧ (∀ (k : Fin 8) (u : UWord) (s : State), ready s k u 10 → ∃ t, exec (.dbell k) s = .next t ∧ next s t k u
    ∧ (let src := s.uB k u % 1024
      u.seq = 0 → State.isProgEvent src = false → bitOf (s.srcWord src) 31 = true →
        bitOf (s.tab pEic 0 (2 * src + 1)) 31 = false →
        t.tab pEic 0 (2 * src + 1) = 2 ^ 31 + 1 ∧ memSame s t
        ∧ t.rd pEic O.EIC_CNT_RAISES = (s.rd pEic O.EIC_CNT_RAISES + 1) % 2 ^ 32))
  ∧ ∀ (k : Fin 8) (u : UWord) (s : State), ready s k u 11 → ∃ t, exec (.evtake k) s = .next t ∧ next s t k u
    ∧ out s t k u = s.rd (y k) O.YSQ_EVT_LATCH
    ∧ (u.seq = 0 → u.cond ≠ 11 → t.rd (y k) O.YSQ_EVT_LATCH = 0 ∧ t = { s with regs := t.regs }
        ∧ regsSame (fun p off => decide (p = y k) && (decide (off = s.uOff k (u.dst % 32)) || decide (off = O.YSQ_UPC)
          || decide (off = O.YSQ_EVT_LATCH))) s t)

/-- Path operations of micro-words (R344, with R348). -/
def Obligations.MicroWordsReachThePaths : Prop :=
  let ready := fun (s : State) (k : Fin 8) (u : UWord) (m : Nat) => s.alive .ysq = true ∧ s.uRuns k = true
    ∧ s.uFlag k 8 = false ∧ s.fetchPoor k = false ∧ s.uWord k = u ∧ s.uBad k u = false ∧ u.mem = 0 ∧ u.io = m
  let out := fun (s t : State) (k : Fin 8) (u : UWord) => t.rd (State.yp k) (s.uOff k (u.dst % 32))
  let ran := fun (s t : State) (k : Fin 8) (u : UWord) => memSame s t ∧ (u.seq = 0 → t.upc k = (s.upc k + 1) % 16384)
  let carry := fun (t : State) (k : Fin 8) (u : UWord) (b : Bool) => u.seq ≠ 8 → u.seq ≠ 9 → (u.alu = 0 ∨ u.fl = false) →
    t.uFlag k 0 = b
  let q := fun (s : State) (k : Fin 8) => s.seqOf k
  (∀ (k : Fin 8) (u : UWord) (f : Bool) (s : State),
    (ready s k u 1 → ∃ t, exec (.i2cStart k f) s = .next t ∧ ran s t k u ∧ carry t k u f
      ∧ t.busHeld k = !f ∧ (∀ p, p ≠ s.curPort k → (p ∈ (q t k).held ↔ p ∈ (q s k).held)))
    ∧ (ready s k u 2 → ∃ t, exec (.i2cStop k f) s = .next t ∧ ran s t k u ∧ carry t k u f
      ∧ t.busHeld k = false ∧ (∀ p, p ≠ s.curPort k → (p ∈ (q t k).held ↔ p ∈ (q s k).held)))
    ∧ (ready s k u 3 → ∀ a : Bool, ∃ t, exec (.i2cTx k f a) s = .next t ∧ ran s t k u ∧ carry t k u f
      ∧ (q t k).ack = (a && !f) ∧ .i2c (s.curPort k) 0 false [BitVec.ofNat 8 (s.uB k u)] ∈ t.out)
    ∧ (ready s k u 4 → ∀ b : Byte, ∃ t, exec (.i2cRx k f b) s = .next t ∧ ran s t k u ∧ carry t k u f
      ∧ (f = false → out s t k u = b.toNat) ∧ (f = true → out s t k u < 256))
    ∧ (ready s k u 5 → ∀ d : Bool, ∃ t, exec (.i2cPulse k f d) s = .next t ∧ ran s t k u ∧ carry t k u f
      ∧ out s t k u = b2n d)
    ∧ (ready s k u 7 → ∀ d : Bool, ∃ t, exec (.lineGet k f d) s = .next t ∧ ran s t k u
      ∧ out s t k u = b2n f * 2 + b2n d ∧ (q t k).scl = f ∧ (q t k).sda = d))
  ∧ (∀ (k : Fin 8) (u : UWord) (s : State),
    (ready s k u 6 → ∃ t, exec (.lineSet k) s = .next t ∧ ran s t k u
      ∧ sget (fun _ => 0) (q t k).lines (s.curPort k) = s.uB k u % 8
      ∧ .lines (s.curPort k) (s.uB k u % 8) ∈ t.out)
    ∧ (ready s k u 8 → ∃ t, exec (.i2cSpeed k) s = .next t ∧ ran s t k u
      ∧ sget (fun _ => 0) (q t k).speed (s.curPort k) = s.uB k u % 4)
    ∧ (ready s k u 0x10 →
      (s.jaccept (s.curPort k) true = false → exec (.mgmtSend k) s = .next s)
      ∧ (s.jaccept (s.curPort k) true = true → ∃ t, exec (.mgmtSend k) s = .next t ∧ ran s t k u
        ∧ t.jcells (s.curPort k) = s.jcells (s.curPort k)
            ++ [{ mgmt := true, tile := s.uB k u % 64, body := s.uBuf k u.offset 500 }]
        ∧ t.mgmt.length = s.mgmt.length + 1))
    ∧ (ready s k u 0x11 → ∃ t, exec (.mgmtTake k) s = .next t ∧ ran s t k u
      ∧ ((q s k).bodies.find? (fun b => b.1 = s.curSch k) = none → out s t k u = 0xFFFFFFFF ∧ (q t k).bodies = (q s k).bodies)
      ∧ ∀ b, (q s k).bodies.find? (fun b => b.1 = s.curSch k) = some b → out s t k u = (b.2.getD 4 0).toNat
          ∧ (q t k).bodies = (q s k).bodies.erase b ∧ t.uBuf k u.offset 500 = padTo 500 b.2)
    ∧ (ready s k u 0x12 →
      (s.jaccept (s.curPort k) false = false → exec (.bulkSend k) s = .next s)
      ∧ (s.jaccept (s.curPort k) false = true → ∃ t, exec (.bulkSend k) s = .next t ∧ ran s t k u
        ∧ (t.jcells (s.curPort k)).map (fun c => (c.mgmt, c.tile, c.body))
          = (s.jcells (s.curPort k)).map (fun c => (c.mgmt, c.tile, c.body)) ++ [(false, s.uB k u % 64, s.uBuf k u.offset 500)]))
    ∧ (ready s k u 0x20 → ∃ t, exec (.timerSet k) s = .next t ∧ ran s t k u
      ∧ sget (fun _ => none) (q t k).timers (s.curSch k) = some (s.uB k u) ∧ s.curSch k ∉ (q t k).expired)
    ∧ (ready s k u 0x21 → ∃ t, exec (.timerClr k) s = .next t ∧ ran s t k u
      ∧ sget (fun _ => none) (q t k).timers (s.curSch k) = none ∧ (q t k).expired = (q s k).expired)
    ∧ (ready s k u 0x30 → ∃ t, exec (.senseGet k) s = .next t ∧ ran s t k u
      ∧ out s t k u = s.fld (pJlk + s.curPort k) O.JLK_SENSE_MV 0 12 * 2 ^ 16
          + s.fld (pJlk + s.curPort k) O.JLK_PORT_STAT 0 3))

/-- The Skidder (R359, R361, R362, R364-R369). -/
def Obligations.SkidderChannelsMoveHaltAndResume : Prop :=
  let chReg := fun (n p off : Nat) => (decide (p = pSkd) && decide (off / 64 = 64 + n)) || sigReg pSkd p off
  let byte := fun (s : State) (sp x : Nat) => s.spaceBytes sp x 1
  let same := fun (s t : State) (n : Nat) => memSame s t ∧ t = { s with regs := t.regs, skch := t.skch }
    ∧ regsSame (chReg n) s t ∧ ∀ m, m ≠ n → t.skc m = s.skc m
  let moving := fun (s : State) (n : Fin 32) (ws : List Nat) => s.alive .skd = true ∧ 4 ≤ n.val ∧ s.skMoves n = true
    ∧ (s.skc n).desc = some ws ∧ (s.skc n).flight = none
  let wrote := fun (s t : State) (sp a : Nat) (l : List Byte) => t.spaceBytes sp a l.length = l
    ∧ ∀ sp' x, sp' < 3 → (sp' ≠ sp ∨ x < a ∨ a + l.length ≤ x) → byte t sp' x = byte s sp' x
  let reach := fun (s : State) (l : List Nat) => (0 ∈ l → s.hostReady = true) ∧ (1 ∈ l → s.hbmReady = true)
    ∧ (2 ∈ l → s.sramReady = true)
  (∀ (n : Fin 32) (s : State), s.alive .skd = true → 4 ≤ n.val →
    let c := s.skc n
    let st := s.skState n
    (∃ t, exec (.chGo n) s = .next t
      ∧ (s.skHalted = false → st = 0 ∨ st = 3 ∨ st = 4 → t.skState n = 1 ∧ t.skDone n = 0
          ∧ t.rd pSkd (State.skr O.SKD_CH_STAT n) = 2 ^ 29
          ∧ t.rd64 pSkd (State.skr O.SKD_CH_CUR_LO n) = s.rd64 pSkd (State.skr O.SKD_CH_DESC_LO n)
          ∧ t.skc n = { job := c.job } ∧ same s t n)
      ∧ (s.skHalted = true ∨ st = 1 ∨ st = 2 → t.bit pSkd O.INT_CAUSE 3 = true ∧ t.skch = s.skch ∧ memSame s t
          ∧ regsSame (sigReg pSkd) s t))
    ∧ (∃ t, exec (.chResume n) s = .next t
      ∧ (s.skHalted = false → st = 3 ∨ st = 4 → t.skState n = 1 ∧ same s t n
          ∧ t.skc n = if st = 3 then { c with desc := none } else c)
      ∧ (s.skHalted = true ∨ st < 3 → t.bit pSkd O.INT_CAUSE 3 = true ∧ t.skch = s.skch ∧ memSame s t))
    ∧ (∃ t, exec (.channelAbort n) s = .next t ∧ memSame s t
      ∧ (st ≠ 0 → t.skState n = 0 ∧ t.bit pSkd (State.skr O.SKD_CH_STAT n) 28 = true ∧ t.skc n = { job := c.job })
      ∧ (st ≠ 0 → c.flight = none → same s t n)
      ∧ (st = 0 → t.bit pSkd O.INT_CAUSE 3 = true ∧ t.skch = s.skch)))
  ∧ (∀ (n : Fin 32) (s : State), s.alive .skd = true → n.val < 4 → ∀ c ∈ ([.chGo n, .chResume n, .channelAbort n] : List Instr),
    ∃ t, exec c s = .next t ∧ t.bit pSkd O.PAGE_STAT 10 = true ∧ t.skch = s.skch ∧ memSame s t)
  ∧ (∀ (n : Fin 32) (s : State), s.alive .skd = true → 4 ≤ n.val → s.skMoves n = true → (s.skc n).desc = none →
    reach s [s.descSpace n] →
    let l := s.spaceBytes (s.descSpace n) (s.rd64 pSkd (State.skr O.SKD_CH_CUR_LO n)) 32
    let d : SkDesc := ⟨(List.range 8).map fun i => leWord l (4 * i)⟩
    ∃ t, exec (.descriptorFetch n) s = .next t ∧ memSame s t ∧ t.skDone n = 0
      ∧ (d.fault = 0 → t.skc n = { s.skc n with desc := some d.ws } ∧ t.skState n = 1 ∧ same s t n)
      ∧ (d.fault ≠ 0 → t.skc n = s.skc n ∧ t.skState n = 3
          ∧ t.fld pSkd (State.skr O.SKD_CH_STAT n) 16 8 = d.fault ∧ t.bit pSkd O.INT_CAUSE 2 = true))
  ∧ (∀ (n : Fin 32) (ws : List Nat) (f : Bool) (s : State), moving s n ws →
    let d : SkDesc := ⟨ws⟩
    let k := s.burstLen n d
    s.skDone n < d.len → reach s (if d.dspace = 3 then [d.sspace] else [d.sspace, d.dspace]) →
    ∃ t, exec (.skdBurst n f) s = .next t
      ∧ (d.dspace ≠ 3 → wrote s t d.dspace (d.dst + s.skDone n) (s.descData d (s.skDone n) k)
          ∧ t.skDone n = (s.skDone n + k) % 2 ^ 32 ∧ t.skch = s.skch)
      ∧ (d.dspace = 3 → memSame s t ∧ (s.jaccept (d.req - 1) false = false → t = s)
          ∧ (s.jaccept (d.req - 1) false = true → f = true → (t.skc n).flight = some (s.descData d (s.skDone n) k)
              ∧ t = { s with regs := t.regs, skch := t.skch } ∧ regsSame (sigReg pSkd) s t)
          ∧ (s.jaccept (d.req - 1) false = true → f = false → (t.jcells (d.req - 1)).length = (s.jcells (d.req - 1)).length + 1
              ∧ t.skDone n = (s.skDone n + k) % 2 ^ 32
              ∧ t.rd pSkd (State.skr O.SKD_CH_BULK_OFS n)
                = (s.rd pSkd (State.skr O.SKD_CH_BULK_OFS n) + 1) % 2 ^ 20)))
  ∧ (∀ (n : Fin 32) (ws : List Nat) (s : State), moving s n ws →
    let d : SkDesc := ⟨ws⟩
    d.len ≤ s.skDone n → reach s [s.descSpace n] →
    ∃ t, exec (.descriptorDone n) s = .next t
      ∧ wrote s t (s.descSpace n) (s.rd64 pSkd (State.skr O.SKD_CH_CUR_LO n)) (leBytes 4 (putBits (d.w 0) 28 1 1))
      ∧ t.rd pSkd O.SKD_CNT_DESC = (s.rd pSkd O.SKD_CNT_DESC + 1) % 2 ^ 32 ∧ (t.skc n).desc = none
      ∧ (bitOf (d.w 0) 29 = true → t.bit pSkd O.SKD_CH_DONE_MAP n = true ∧ t.bit pSkd O.INT_CAUSE 0 = true)
      ∧ (d.last = true → t.skState n = 0)
      ∧ (d.last = false → t.skState n = 1 ∧ t.rd64 pSkd (State.skr O.SKD_CH_CUR_LO n) = d.next % 2 ^ 64))
  ∧ (∀ (p : Fin 64) (s : State), s.alive .skd = true → s.skdMoves = true →
    (∃ t, exec (.requestWithdrawn p) s = .next t ∧ memSame s t ∧ t.chk = s.chk ∧ (s.jaccept p false = true → t = s)
      ∧ ∀ n, n < 32 → s.jaccept p false = false → s.skState n = 1 → s.skPort n = some p.val → t.skState n = 2
          ∧ ∀ l, (s.skc n).flight = some l → t.skc n = { s.skc n with flight := none, parked := l })
    ∧ (∃ t, exec (.requestAsserted p) s = .next t ∧ memSame s t
      ∧ ((∀ n, n < 32 → s.skState n ≠ 2 ∨ s.skPort n ≠ some p.val) → t = s)
      ∧ ∀ (n : Nat) (b : Byte) (l : List Byte), n < 32 → s.skState n = 2 → s.skPort n = some p.val → s.jaccept p false = true →
          (∀ m, m < 32 → m ≠ n → s.skState m ≠ 2 ∨ s.skPort m ≠ some p.val) → (s.skc n).parked = b :: l →
          t.skState n = 1 ∧ (t.skc n).parked = [] ∧ (t.jcells p).length = (s.jcells p).length + 1))
  ∧ (∀ (n : Fin 32) (isDesc isRead : Bool) (sp : Fin 4) (c : Fin 5) (a : W64) (s : State), s.alive .skd = true →
    (isRead = false → sp = 0 → s.isMember = false → exec (.transferError n isDesc isRead sp c a) s = .next s)
    ∧ (isRead = true ∨ sp ≠ 0 ∨ s.isMember = true →
    let noFrame := ∀ (m : Nat) (r : JobRef) (j : Job), m < 4 → (s.skc m).job = some r → s.findJob r = some j → j.op ≠ 0x11
    ∃ t, exec (.transferError n isDesc isRead sp c a) s = .next t ∧ (noFrame → memSame s t)
      ∧ (s.skHalted = true → s.skDraining = false → t = s)
      ∧ (s.skHalted = true → s.skDraining = true → t.bit pSkd O.ERR_CAPTURE 30 = true ∧ t = { s with regs := t.regs }
          ∧ regsSame (fun p off => decide (p = pSkd) && decide (off = O.ERR_CAPTURE)) s t)
      ∧ (s.skHalted = false → t.skHalted = true ∧ t.skDraining = true ∧ t.bit pSkd O.INT_CAUSE 1 = true
          ∧ t.rd pSkd O.SKD_CNT_HALTS = (s.rd pSkd O.SKD_CNT_HALTS + 1) % 2 ^ 32
          ∧ (∀ m, m < 32 → (t.skc m).parked = [] ∧ (t.skc m).flight = none)
          ∧ (s.bit pSkd O.ERR_CAPTURE 31 = false → t.rd pSkd O.ERR_CAPTURE = 2 ^ 31 + 0x0100
              ∧ t.rd64 pSkd O.ERR_ADDR_LO = a.toNat
              ∧ t.rd pSkd O.ERR_INFO = (if isRead = true ∧ sp = 0 then 0x1F else n.val) * 256 + b2n isDesc * 128
                  + b2n isRead * 64 + sp.val * 16 + c.val)
          ∧ ∀ (m : Nat) (r : JobRef), m < 4 → (s.skc m).job = some r → s.jobMoving r = true →
              noFrame ∨ (∀ i, i < 4 → i ≠ m → (s.skc i).job = none) →
              t.jobEnded r { status := stHostAccess, result := s.haltOut r, detail := 1 })))
  ∧ (∀ s : State, s.alive .skd = true → ∃ t, exec .drainComplete s = .next t ∧ (s.skDraining = false → t = s)
    ∧ (s.skDraining = true → t.skDraining = false ∧ memSame s t ∧ t = { s with regs := t.regs }
      ∧ ∀ m, m < 32 → t.skState m = if s.skState m = 1 ∨ s.skState m = 2 then 4 else s.skState m))
  ∧ ∀ s : State, s.alive .skd = true → ∃ t, exec .haltClr s = .next t
    ∧ (s.skDraining = true ∨ s.skHalted = false → t = s)
    ∧ (s.skDraining = false → s.skHalted = true → t.skHalted = false ∧ memSame s t ∧ t = { s with regs := t.regs }
      ∧ ∀ m, m < 32 → t.skState m = if m < 4 then 0 else s.skState m)

/-- SRAM errors, repair, initialization (R388-R391) and self-test of the memories (R403). -/
def Obligations.SramErrorsRepairsAndTests : Prop :=
  let one := fun (s t : State) (p o : Nat) => t.rd p o = (s.rd p o + 1) % 2 ^ 32
  let count := fun (s : State) (row : Nat) => ((s.mem.rows.find? fun e => e.1 = row).map (·.2)).getD 0 + 1
  let lim := fun (s : State) => s.fld pYrd O.YRD_ECC_CFG 8 8
  let without := fun (s : State) (row : Nat) => s.mem.rows.filter fun e => e.1 ≠ row
  let repaired := fun (s t : State) (row : Nat) => row ∉ t.mem.rows.map (·.1)
    ∧ (row / 32 ∈ s.mem.groups → t.mem.groups = s.mem.groups ∧ t.bit pYrd O.INT_CAUSE 2 = true)
    ∧ (row / 32 ∉ s.mem.groups → t.mem.groups = row / 32 :: s.mem.groups ∧ one s t pYrd O.YRD_CNT_REPAIR
        ∧ t.fld pYrd O.YRD_SPARE_LEFT 0 16 = s.fld pYrd O.YRD_SPARE_LEFT 0 16 - 1 ∧ t.bit pYrd O.INT_CAUSE 0 = true)
  (∀ (lamp : Bool) (a : Fin 67108864) (s : State), s.alive .yrd = true →
    let row := State.sramRow lamp a
    ∃ t, exec (.sramCe lamp a) s = .next t ∧ memSame s t ∧ one s t pYrd O.YRD_CNT_CE
      ∧ t.rd pYrd O.YRD_CE_ADDR = b2n lamp * 2 ^ 31 + a.val
      ∧ (lim s = 0 ∨ count s row < lim s → t.mem.rows = ((row, count s row) :: without s row).take 64
          ∧ t = { s with regs := t.regs, mem := t.mem }
          ∧ regsSame (fun p off => decide (p = pYrd) && (decide (off = O.YRD_CNT_CE) || decide (off = O.YRD_CE_ADDR))) s t)
      ∧ (lim s ≠ 0 → lim s ≤ count s row → repaired s t row))
  ∧ (∀ (l : List (Fin 67108864)) (s : State), s.alive .yrd = true → ∃ t, exec (.yardScrub l) s = .next t ∧ memSame s t
    ∧ (s.bit pYrd O.YRD_ECC_CFG 0 = false → t = s)
    ∧ (s.bit pYrd O.YRD_ECC_CFG 0 = true → t.rd pYrd O.YRD_CNT_CE = (s.rd pYrd O.YRD_CNT_CE + l.length) % 2 ^ 32
        ∧ ∀ a, l.getLast? = some a → t.rd pYrd O.YRD_CE_ADDR = a.val))
  ∧ (∀ (lamp : Bool) (a : Fin 67108864) (s : State), s.alive .yrd = true →
    (∃ t, exec (.sramUe lamp a .none) s = .next t ∧ one s t pYrd O.YRD_CNT_UE ∧ repaired s t (State.sramRow lamp a) ∧ memSame s t
      ∧ (lamp = true → s.flt.life = .up → a.val ∈ t.lmp.ue)
      ∧ (lamp = false → t.bit pYrd O.INT_CAUSE 1 = true ∧ t.lmp = s.lmp
          ∧ (s.bit pYrd O.ERR_CAPTURE 31 = false → t.rd pYrd O.ERR_CAPTURE % 2 ^ 30 = 0x0100
              ∧ t.rd64 pYrd O.ERR_ADDR_LO = a.val)))
    ∧ (lamp = false → s.flt.life = .up →
      (∀ (k : Fin 2) (e : Fin 32768), yardLies (.rule k e) a = true → ∃ t, exec (.sramUe lamp a (.rule k e)) s = .next t ∧ (k.val, e.val) ∈ t.mem.badRules ∧ memSame s t)
      ∧ (∀ n : Fin 4032, yardLies (.bucking n) a = true → ∃ t, exec (.sramUe lamp a (.bucking n)) s = .next t ∧ n.val ∈ t.mem.badTiles ∧ memSame s t)
      ∧ (∀ y : Fin 64, yardLies (.tileType y) a = true → ∃ t, exec (.sramUe lamp a (.tileType y)) s = .next t ∧ y.val ∈ t.mem.badTypes ∧ memSame s t)
      ∧ (∀ i : Fin 8, yardLies (.ingress i) a = true → ∃ t, exec (.sramUe lamp a (.ingress i)) s = .next t
          ∧ one s t (State.netPage i) (State.netReg O.NET_RX_OVF i) ∧ memSame s t)
      ∧ (∀ (p : Fin 512) (k : Fin 256) (i : Fin 16777216), yardLies (.table p k i) a = true →
          ∃ t, exec (.sramUe lamp a (.table p k i)) s = .next t ∧ State.tabKey p k (s.activeCopy p k) i ∈ t.mem.poor ∧ memSame s t)
      ∧ ∀ n : Fin 32, yardLies (.staging n) a = true → ∃ t, exec (.sramUe lamp a (.staging n)) s = .next t ∧ t.skHalted = true))
  ∧ (∀ (l : List (Fin 131072)) (s : State), s.alive .yrd = true → ∃ t, exec (.sramInit l) s = .next t
    ∧ (s.bit pYrd O.YRD_MEM_STAT 0 = true ∨ s.bit pYrd O.YRD_MEM_STAT 2 = true → t = s)
    ∧ (s.bit pYrd O.YRD_MEM_STAT 0 = false → s.bit pYrd O.YRD_MEM_STAT 2 = false → t.bit pYrd O.YRD_MEM_STAT 0 = true
        ∧ (∀ x, t.yardByte x = 0) ∧ (∀ x, t.hostByte x = s.hostByte x) ∧ (∀ x, t.hbmByte x = s.hbmByte x)
        ∧ ∀ p k c i, p < 0x200 → k < 256 → c < 2 → i < 2 ^ 24 → State.sramTable p = true → t.tabAt p k c i = 0))
  ∧ (∀ (m : Fin 3) (s : State), s.alive .hbm = true →
    let p := State.memPage m
    let o := State.bistStat m
    ∃ t, exec (.bistGo m) s = .next t ∧ memSame s t
      ∧ (s.postBusy p = true → t.bit p O.PAGE_STAT 9 = true)
      ∧ (s.postBusy p = false → s.stopped p = false → t.fld p o 28 4 = 4 ∧ t = { s with regs := t.regs })
      ∧ (s.postBusy p = false → s.stopped p = true → s.bit p O.YRD_MEM_STAT 2 = true ∨ s.bit p O.YRD_MEM_STAT 0 = false → t = s)
      ∧ (s.postBusy p = false → s.stopped p = true → s.bit p O.YRD_MEM_STAT 2 = false → s.bit p O.YRD_MEM_STAT 0 = true →
          t.rd p o = 2 ^ 28 ∧ t.bit p O.YRD_MEM_STAT 2 = true ∧ t.bit p O.YRD_MEM_STAT 0 = false
          ∧ t = { s with regs := t.regs }))
  ∧ ∀ (m : Fin 3) (ok : Bool) (l : List (BitVec 30)) (s : State), s.alive .hbm = true →
    let p := State.memPage m
    let listed := fun (x : State) => if m = 0 then x.rd pYrd O.YRD_CNT_REPAIR else x.fld p O.HBM_PPR_STAT 0 5
    ∃ t, exec (.bistDone m ok l) s = .next t ∧ (∀ x, t.hostByte x = s.hostByte x)
      ∧ (s.bit p O.YRD_MEM_STAT 2 = false → t = s)
      ∧ (s.bit p O.YRD_MEM_STAT 2 = true → t.bit p O.YRD_MEM_STAT 2 = false ∧ t.bit p O.YRD_MEM_STAT 0 = true
          ∧ t.rd p (State.bistStat m) = ((if ok then 2 else 3) * 2 ^ 28 + (listed t + 2 ^ 32 - listed s) % 65536)
          ∧ t.bit p O.INT_CAUSE (if m = 0 then 3 else 4) = true
          ∧ (m = 0 → (∀ x, t.yardByte x = 0) ∧ ∀ x, t.hbmByte x = s.hbmByte x)
          ∧ (m ≠ 0 → (∀ x, t.yardByte x = s.yardByte x)
              ∧ ∀ x, t.hbmByte x = if (hbmPlace s.mem.masks x).1 = m.val - 1 then 0 else s.hbmByte x))

/-- HBM (R393, R397-R402). -/
def Obligations.HbmBringUpErrorsLanesAndRepair : Prop :=
  let one := fun (s t : State) (p o : Nat) => t.rd p o = (s.rd p o + 1) % 2 ^ 32
  let place := fun (s : State) (a : Nat) => hbmPlace s.mem.masks a
  let used := fun (s : State) (n : Nat) (l : Nat × Bool) => sget (fun _ => 0) s.mem.lanesUsed ((n * 16 + l.1) * 2 + b2n l.2)
  let ent := fun (s : State) (n e : Nat) => s.rd (pHbm + n) (O.HBM_PPR_LIST + 4 * e)
  let fresh := fun (s : State) (n row : Nat) => ∀ e, e < 16 → bitOf (ent s n e) 31 = true → bitsOf (ent s n e) 0 30 ≠ row
  let free := fun (s : State) (n : Nat) => (List.range 16).find? fun e => !bitOf (ent s n e) 31
  let only := fun (s t : State) (p : Nat) (l : List Nat) => t = { s with regs := t.regs }
    ∧ regsSame (fun p' off => decide (p' = p) && decide (off ∈ l)) s t
  (∀ (n : Fin 2) (f : Option (Fin 16)) (l : List (Fin 16 × Bool)) (s : State), s.alive .hbm = true →
    let p := pHbm + n.val
    ∃ t, exec (.hbmInit n f l) s = .next t
      ∧ (s.bit p O.HBM_MEM_STAT 0 = true ∨ s.bit p O.HBM_MEM_STAT 2 = true → t = s)
      ∧ (s.bit p O.HBM_MEM_STAT 0 = false → s.bit p O.HBM_MEM_STAT 2 = false → f ≠ none → t.flt.life ≠ .up ∧ memSame s t)
      ∧ (s.bit p O.HBM_MEM_STAT 0 = false → s.bit p O.HBM_MEM_STAT 2 = false → f = none →
          (∀ x ∈ l, used s n (x.1.val, x.2) + l.count x ≤ if x.2 then 1 else 2) →
          t.bit p O.HBM_MEM_STAT 0 = true ∧ t.flt.life = s.flt.life
          ∧ t.rd p O.HBM_CNT_LANE_REPAIR = (s.rd p O.HBM_CNT_LANE_REPAIR + l.length) % 2 ^ 32
          ∧ (∀ x, t.hostByte x = s.hostByte x) ∧ (∀ x, t.yardByte x = s.yardByte x)
          ∧ ∀ x, t.hbmByte x = if (place s x).1 = n.val then 0 else s.hbmByte x))
  ∧ (∀ (n : Fin 2) (s : State), s.alive .hbm = true →
    let p := pHbm + n.val
    exec (.hbmRefresh n) s = .next s
    ∧ (∀ (c : Fin 32) (r : BitVec 25), ∃ t, exec (.neighbourRefresh ⟨n, c, some r⟩) s = .next t
        ∧ (8 ≤ (s.nrefs n c).length → t = s)
        ∧ ((s.nrefs n c).length < 8 → t.nrefs n c = s.nrefs n c ++ [r.toNat] ∧ t = { s with mem := t.mem }))
    ∧ (∀ c : Fin 32, ∃ t, exec (.neighbourRefresh ⟨n, c, none⟩) s = .next t ∧ (s.nrefs n c = [] → t = s)
        ∧ ∀ (r : Nat) (l : List Nat), s.nrefs n c = r :: l → t.nrefs n c = l ∧ one s t p O.HBM_CNT_NREF
          ∧ t.out = .rowRefresh n c (r / 32768) (rowsBeside (if s.bit p O.HBM_DIST_CFG 8 then 2 else 1) (r % 32768)) :: s.out
          ∧ t = { s with regs := t.regs, mem := t.mem, out := t.out }
          ∧ regsSame (fun p' off => decide (p' = p) && decide (off = O.HBM_CNT_NREF)) s t)
    ∧ (∃ t, exec (.selfRefreshEntry n) s = .next t
      ∧ (let go := s.bit p O.HBM_SR_CFG 31 = true ∧ s.bit p O.HBM_MEM_STAT 0 = true ∧ s.bit p O.HBM_MEM_STAT 4 = false
          ∧ s.running pLnd = false
        (¬ go → t = s) ∧ (go → t.bit p O.HBM_MEM_STAT 4 = true ∧ one s t p O.HBM_CNT_SR_ENTRY
          ∧ (∀ c, c < 32 → t.nrefs n c = []) ∧ t = { s with regs := t.regs, mem := t.mem, out := t.out }
          ∧ regsSame (fun p' off => decide (p' = p)
              && decide (off ∈ [O.HBM_MEM_STAT, O.HBM_CNT_SR_ENTRY, O.HBM_CNT_NREF])) s t)))
    ∧ (∃ t, exec (.selfRefreshExit n) s = .next t ∧ t.bit p O.HBM_MEM_STAT 4 = false ∧ only s t p [O.HBM_MEM_STAT]))
  ∧ (∀ (a : Fin 51539607552) (s : State), s.alive .hbm = true →
    let n := (place s a).1
    let row := (place s a).2.1
    let k := sget (fun _ => 0) s.mem.hbmCe (n * 2 ^ 30 + row) + 1
    ∃ t, exec (.hbmCe a) s = .next t ∧ memSame s t ∧ one s t (pHbm + n) O.HBM_CNT_CE
      ∧ sget (fun _ => 0) t.mem.hbmCe (n * 2 ^ 30 + row) = k
      ∧ (k ≠ 4 → t = { s with regs := t.regs, mem := t.mem }
          ∧ regsSame (fun p' off => decide (p' = pHbm + n) && decide (off = O.HBM_CNT_CE)) s t)
      ∧ ∀ e, k = 4 → fresh s n row → free s n = some e → ent t n e = (2 ^ 31 + row) % 2 ^ 32
          ∧ t.bit (pHbm + n) O.INT_CAUSE 1 = true)
  ∧ (∀ (a : Fin 51539607552) (s : State), s.alive .hbm = true →
    let n := (place s a).1
    let row := (place s a).2.1
    (∃ t, exec (.hbmUe a .none) s = .next t ∧ memSame s t ∧ one s t (pHbm + n) O.HBM_CNT_UE
      ∧ t.bit (pHbm + n) O.INT_CAUSE 0 = true
      ∧ (s.bit (pHbm + n) O.ERR_CAPTURE 31 = false → t.rd (pHbm + n) O.ERR_CAPTURE = 2 ^ 31 + 0x0100
          ∧ t.rd64 (pHbm + n) O.ERR_ADDR_LO = a.val)
      ∧ ∀ e, fresh s n row → free s n = some e → ent t n e = (2 ^ 31 + 2 ^ 30 + row) % 2 ^ 32)
    ∧ (∀ (i k : Nat) (x : Scene) (v : LaySel), s.flt.life = .up → s.lnd.slot = some k → (s.wfeed k).cur = some x →
        s.lnd.sel[i]? = some v → ∃ t, exec (.hbmUe a (.layer i)) s = .next t ∧ memSame s t
          ∧ one s t pLnd O.LND_CNT_FALLBACK ∧ t.lnd.sel[i]? = some (s.fallbackSel (x.lay i) v.mat))
    ∧ ∀ k : Fin 8, s.flt.life = .up → ∃ t, exec (.hbmUe a (.sceneStore k)) s = .next t ∧ memSame s t ∧ (t.wfeed k).cur = none)
  ∧ (∀ (n : Fin 2) (ce ue : List (Fin 51539607552)) (s : State), s.alive .hbm = true →
    ∃ t, exec (.hbmScrub n ce ue) s = .next t ∧ memSame s t
      ∧ (s.fld (pHbm + n) O.HBM_SCRUB_CFG 0 16 = 0 → t = s)
      ∧ (s.fld (pHbm + n) O.HBM_SCRUB_CFG 0 16 ≠ 0 → ∀ m, m < 2 → t.rd (pHbm + m) O.HBM_CNT_UE
          = (s.rd (pHbm + m) O.HBM_CNT_UE + (ue.filter fun a => (place s a).1 = m).length) % 2 ^ 32))
  ∧ (∀ (n : Fin 2) (x : Fin 16) (ca : Bool) (l : List (Fin 16 × Bool)) (s : State), s.alive .hbm = true →
    let p := pHbm + n.val
    (∃ t, exec (.hbmRetrain n l) s = .next t ∧ memSame s t ∧ (s.bit p O.HBM_MEM_STAT 0 = false → t = s)
      ∧ (s.bit p O.HBM_MEM_STAT 0 = true → one s t p O.HBM_CNT_RETRAIN))
    ∧ (s.bit p O.HBM_MEM_STAT 0 = true → ∃ t, exec (.hbmRetrain n [(x, ca)]) s = .next t
      ∧ (used s n (x.val, ca) < (if ca then 1 else 2) → used t n (x.val, ca) = used s n (x.val, ca) + 1
          ∧ one s t p O.HBM_CNT_LANE_REPAIR ∧ t.bit p O.INT_CAUSE 2 = true)
      ∧ ((if ca then 1 else 2) ≤ used s n (x.val, ca) → t.mem = s.mem ∧ (s.bit p O.ERR_CAPTURE 31 = false →
          t.rd p O.ERR_CAPTURE = 2 ^ 31 + 0x0103 ∧ t.rd p O.ERR_INFO = x.val))))
  ∧ (∀ (n : Fin 2) (e : Fin 16) (s : State), s.alive .hbm = true →
    let p := pHbm + n.val
    let st := fun (t : State) => t.fld p O.HBM_PPR_STAT 28 4
    let w := ent s n e
    let bank := n.val * 1024 + bitsOf w 20 10
    ∃ t, exec (.pprGo n e) s = .next t ∧ memSame s t
      ∧ (s.postBusy p = true → t.bit p O.PAGE_STAT 9 = true)
      ∧ (s.postBusy p = false → s.stopped p = false → st t = 4 ∧ only s t p [O.HBM_PPR_STAT])
      ∧ (s.postBusy p = false → s.stopped p = true → st s = 1 → t = s)
      ∧ (s.postBusy p = false → s.stopped p = true → st s ≠ 1 → bitOf w 31 = false → st t = 3 ∧ only s t p [O.HBM_PPR_STAT])
      ∧ (s.postBusy p = false → s.stopped p = true → st s ≠ 1 → bitOf w 31 = true → bank ∈ s.mem.banks → st t = 5)
      ∧ (s.postBusy p = false → s.stopped p = true → st s ≠ 1 → bitOf w 31 = true → bank ∉ s.mem.banks → st t = 1
          ∧ t.bit p O.HBM_MEM_STAT 3 = true ∧ sget (fun _ => none) t.mem.ppr n = some e.val))
  ∧ ∀ (n : Fin 2) (s : State), s.alive .hbm = true →
    let p := pHbm + n.val
    ∃ t, exec (.pprDone n) s = .next t ∧ (∀ x, t.hostByte x = s.hostByte x) ∧ (∀ x, t.yardByte x = s.yardByte x)
      ∧ (sget (fun _ => none) s.mem.ppr n = none → t = s)
      ∧ ∀ e, sget (fun _ => none) s.mem.ppr n = some e → e < 16 →
          let w := ent s n e
          ent t n e = 0 ∧ t.fld p O.HBM_PPR_STAT 28 4 = 2 ∧ t.bit p O.HBM_MEM_STAT 3 = false
          ∧ t.bit p O.INT_CAUSE 3 = true ∧ n.val * 1024 + bitsOf w 20 10 ∈ t.mem.banks
          ∧ sget (fun _ => none) t.mem.ppr n = none
          ∧ ∀ x, t.hbmByte x = if (place s x).1 = n.val ∧ (place s x).2.1 = bitsOf w 0 30 then 0 else s.hbmByte x

/-- Cororn links (R407-R409), discovery (R410, R413) and stand time of a member (R416, R418). -/
def Obligations.CororonLinksDiscoveryAndMemberTime : Prop :=
  let one := fun (s t : State) (p o : Nat) => t.rd p o = (s.rd p o + 1) % 2 ^ 32
  let rx1 := fun (s t : State) (k : Nat) =>
    t.rd64 (State.cp k) O.CRN_RX_FLITS_LO = (s.rd64 (State.cp k) O.CRN_RX_FLITS_LO + 1) % 2 ^ 64
  (∀ (k : Fin 4) (l : List Byte) (a b : Option (BitVec 12)) (s : State), s.alive .crn = true →
    let c := s.crn k
    let again := Output.replay k.val c.rx
    let branches := (List.range 4).filter fun i => decide (i ≠ k.val) && s.crnTree i && !s.crnParent i
    ∃ t, exec (.flitReceived k l a b) s = .next t ∧ memSame s t
      ∧ (s.running (State.cp k) = false ∨ (s.crnState k ≠ 2 ∧ s.crnState k ≠ 4) → t = s)
      ∧ (s.running (State.cp k) = true → s.crnState k = 2 → flitHeadOk l = false →
          one s t (State.cp k) O.CRN_CNT_CRC ∧ t = { s with regs := t.regs, out := again :: s.out })
      ∧ (s.running (State.cp k) = true → s.crnState k = 2 → flitHeadOk l = true → flitClass l ≠ 0 → flitSeq l ≠ c.rx →
          t = { s with out := again :: s.out })
      ∧ (s.running (State.cp k) = true → s.crnState k = 2 → flitHeadOk l = true → flitClass l ≠ 0 → flitSeq l = c.rx →
          flitCrcOk l = true → (t.crn k).rx = (c.rx + 1) % 4096 ∧ rx1 s t k
          ∧ (flitClass l = 1 → t = { s with regs := t.regs, stand := t.stand })
          ∧ (flitClass l = 2 → flitBcast l = true → (∀ i ∈ branches, (s.crn i).wait = [] ∧ (s.crn i).held.length < 1024) →
              t.out.length = s.out.length + branches.length
              ∧ ∀ i ∈ branches, (t.crn i).tx = ((s.crn i).tx + 1) % 4096))
      ∧ (s.running (State.cp k) = true → s.crnState k = 2 → flitHeadOk l = true → flitClass l = 0 → flitCrcOk l = true →
          b = none → rx1 s t k ∧ (c.wait = [] → t.out = s.out ∧ ∀ n, a = some n →
            (t.crn k).held = c.held.filter fun e => decide (2048 ≤ (n.toNat + 4096 - e.1) % 4096))))
  ∧ (∀ (k : Fin 4) (s : State), s.alive .crn = true → ∃ t, exec (.replayFail k) s = .next t ∧ memSame s t
    ∧ (s.crnState k ≠ 2 → t = s)
    ∧ (s.crnState k = 2 → t.rd (State.cp k) O.CRN_LINK_STAT = 0 ∧ t.crn k = {}
        ∧ t.bit (State.cp k) O.INT_CAUSE 2 = true ∧ t.bit (State.cp k) O.INT_CAUSE 1 = true))
  ∧ (∀ (d : Discovered) (s : State), s.alive .std = true →
    let member := s.flt.bootMode = 2
    let ns := standNodes d.cables
    (ns.findIdx? (fun n => n.label = d.own) = none → exec (.discovery d) s = .next s)
    ∧ ∀ e, ns.findIdx? (fun n => n.label = d.own) = some e →
    s.pstate pStd = 1 ∨ s.pstate pStd = 2 → ¬ (member ↔ e = 0) →
    ∃ t, exec (.discovery d) s = .next t ∧ memSame s t
      ∧ t.rd pStd O.STD_STAT = (2 * 2 ^ 30 + (ns[e]?.map (·.hops)).getD 0 * 2 ^ 24 + e * 2 ^ 16 + ns.length * 2 ^ 8
          + (ns.map (·.hops)).foldl max 0) % 2 ^ 32
      ∧ (∀ k : Fin 4, s.running (State.cp k) = true → s.bit (State.cp k) O.CRN_LINK_CFG 31 = true →
          let f := linkOf d ns e k
          t.rd (State.cp k) O.CRN_LINK_STAT
            = (f.lstate * 2 ^ 28 + f.peer * 2 ^ 16 + f.peerLink * 2 ^ 8 + b2n f.parent) % 2 ^ 32
          ∧ t.crnTree k = (decide (f.lstate = 2) && f.tree))
      ∧ t.bit pStd O.STD_FLAGS 0 = true ∧ (t.isLead = true ↔ ¬ member) ∧ t.rd pStd O.STD_OP_SEQ = 0
      ∧ (¬ member → t.present = (2 ^ ns.length - 1) % 2 ^ 64) ∧ t.bit pStd O.INT_CAUSE 0 = true
      ∧ t.stand.routes = routesOf ns e ∧ t.stand.redisc = none
      ∧ ∀ r, s.stand.redisc = some r → s.jobOpen r = true → t.jobEnded r { status := 0, result := t.presentN })
  ∧ (∀ (e : Fin 64) (ws : List W32) (c : W32) (en : Bool) (s : State), s.alive .std = true →
    ∃ t, exec (.csCopy e ws c en) s = .next t ∧ memSame s t
      ∧ (s.bit pStd O.STD_FLAGS 0 = true → e.val = s.ownEngine → s.isMember = true →
          (s.running pYcs = true ∨ s.bit pYcs O.YCS_CS_CTL 0 = true → t = s)
          ∧ (s.running pYcs = false → s.bit pYcs O.YCS_CS_CTL 0 = false →
              (∀ i, i < ws.length → i < 65536 → t.tab pYcs 0 i = (ws.getD i 0).toNat)
              ∧ t.rd pYcs O.YCS_CS_CHECK = c.toNat ∧ t.bit pYcs O.YCS_CS_CTL 1 = en ∧ t.fld pYcs O.YCS_CS_SRC 0 2 = 3
              ∧ t.stand.csDone = true))
      ∧ (e.val ≠ s.ownEngine → s.stdState = 2 →
          (if s.isMember then s.stand.csDone else s.bit pStd O.STD_CFG 30) = true →
          let words := (List.range 65536).map fun i => s.tab pYcs 0 i
          t = { s with
            out := .csCopy e.val words (s.rd pYcs O.YCS_CS_CHECK) (s.bit pYcs O.YCS_CS_CTL 1) :: s.out }))
  ∧ (∀ (k : Fin 4) (t1 t2 t3 t4 : W64) (s : State), s.alive .crn = true →
    let l : List Int := ((((t4.toNat : Int) - t1.toNat) - ((t3.toNat : Int) - t2.toNat)) / 2 :: (s.crn k).delays).take 16
    ∃ t, exec (.timeExchange k t1 t2 t3 t4) s = .next t ∧ memSame s t ∧ (s.crnState k ≠ 2 → t = s)
      ∧ (s.crnState k = 2 → (t.crn k).delays = l ∧ t = { s with regs := t.regs, stand := t.stand }
          ∧ t.rd (State.cp k) O.CRN_LINK_DELAY
            = toBits 32 (rdiv l.sum l.length + signed 32 (s.rd (State.cp k) O.CRN_DELAY_ADJ))))
  ∧ ∀ (k : Fin 4) (p : W64) (f : BitVec 16) (own : W64) (s : State), s.alive .tim = true →
    let target : Int := (p.toNat : Int) * 65536 + f.toNat + signed 32 (s.rd (State.cp k) O.CRN_LINK_DELAY) * 256
    ∃ t, exec (.timeCorrection k p f own) s = .next t ∧ memSame s t
      ∧ (s.isMember = false ∨ s.crnParent k = false ∨ s.crnState k ≠ 2 → t = s)
      ∧ (s.isMember = true → s.crnParent k = true → s.crnState k = 2 → s.stand.joined = false →
          t.tim.time = toBits 64 (target / 65536) ∧ t.tim.frac = (target % 65536).toNat ∧ t.stand.joined = true
          ∧ t = { s with regs := t.regs, tim := t.tim, stand := t.stand })

/-- Beacons, isolation and shared pictures (R425-R429). -/
def Obligations.BeaconsIsolationAndSharedPictures : Prop :=
  let one := fun (s t : State) (p o : Nat) => t.rd p o = (s.rd p o + 1) % 2 ^ 32
  let fl := fun (s : State) (b : Nat) => s.bit pStd O.STD_FLAGS b
  let formed := fun (s : State) => s.alive .std = true ∧ s.isMember = true ∧ s.stdState = 2
  let isolated := fun (s t : State) => t.stdState = 3 ∧ fl t 4 = true ∧ fl t 2 = true ∧ one s t pStd O.STD_CNT_ISOLATED
    ∧ t.bit pStd O.INT_CAUSE 4 = true
  let host := fun (s t : State) => ∀ x, t.hostByte x = s.hostByte x
  (∀ s : State, s.alive .std = true → ∃ t, exec .beaconSend s = .next t
    ∧ (s.isLead = true → s.stdState = 2 →
        t = { s with out := .beacon s.tim.wframe s.stand.committed s.stand.lastEpoch (s.bit pTim O.TIM_FLAGS 3) :: s.out })
    ∧ (s.isLead = false ∨ s.stdState ≠ 2 → t = s))
  ∧ (∀ (w : BitVec 48) (q e : W32) (x : Bool) (s : State), s.alive .std = true →
    let ahead := (q.toNat + 2 ^ 32 - s.rd pStd O.STD_OP_SEQ) % 2 ^ 32
    let reached := signed 32 (e.toNat + 2 ^ 32 - w.toNat % 2 ^ 32) ≤ 0
    ∃ t, exec (.beaconRx w q e x) s = .next t ∧ memSame s t ∧ (s.isMember = false ∨ s.stdState ≠ 2 → t = s)
      ∧ (formed s → t.stand = { s.stand with noBeacon := 0 }
        ∧ t.bit pTim O.TIM_FLAGS 3 = x ∧ (x = true → s.bit pTim O.TIM_FLAGS 3 = false → t.allBlack)
        ∧ (ahead = 0 ∨ ahead = 1 ∧ ¬ reached → x = s.bit pTim O.TIM_FLAGS 3 → t.rd pStd O.STD_FLAGS = s.rd pStd O.STD_FLAGS
            ∧ t.black = s.black ∧ t.out = s.out)
        ∧ (ahead ≠ 0 → reached ∨ 1 < ahead → fl t 3 = true
            ∧ (fl s 3 = false → one s t pStd O.STD_CNT_MISSED ∧ t.allBlack ∧ t.bit pStd O.INT_CAUSE 3 = true
                ∧ .missedReport s.ownEngine ∈ t.out))))
  ∧ (∀ s : State, formed s → ∃ t, exec .beaconMiss s = .next t ∧ memSame s t ∧ t.stand.noBeacon = s.stand.noBeacon + 1
    ∧ one s t pStd O.STD_CNT_BEACON_MISS ∧ (2 ≤ s.stand.noBeacon → isolated s t)
    ∧ (s.stand.noBeacon < 2 → t = { s with regs := t.regs, stand := t.stand }
        ∧ regsSame (fun p off => decide (p = pStd) && decide (off = O.STD_CNT_BEACON_MISS)) s t))
  ∧ (∀ (k : Fin 4) (path : Option (Fin 4)) (lost : W64) (s : State), s.alive .std = true →
    ∃ t, exec (.parentLinkDown k path lost) s = .next t ∧ memSame s t ∧ t.crn k = {}
      ∧ t.rd (State.cp k) O.CRN_LINK_STAT = 0
      ∧ (formed s → s.crnParent k = true ∨ s.stand.lostParent = some k.val → path = none → isolated s t)
      ∧ (∀ i, s.crnParent k = true ∨ s.stand.lostParent = some k.val → path = some i → i ≠ k → s.crnState i = 2 →
          s.bit (State.cp i) O.CRN_LINK_FLAGS 4 = true → t.crnParent i = true ∧ t.crnTree i = true ∧ fl t 2 = true
          ∧ t.stand.measures = 16 ∧ t.stdState = s.stdState)
      ∧ (s.crnParent k = false → s.stand.lostParent ≠ some k.val → s.isLead = true → s.present &&& lost.toNat ≠ 0 →
          t.present = s.present - (s.present &&& lost.toNat) ∧ t.bit pStd O.INT_CAUSE 2 = true))
  ∧ (∀ s : State, s.alive .std = true → ∃ t, exec .isoHoldExpiry s = .next t ∧ (s.stdState ≠ 3 → t = s)
    ∧ (s.stdState = 3 → t.allBlack ∧ t = { s with black := t.black }))
  ∧ (∀ (e : Fin 64) (k : Fin 4) (s : State), s.alive .std = true → ∃ t, exec (.standRejoin e k) s = .next t ∧ memSame s t
    ∧ (s.isMember = true → e.val ≠ s.ownEngine ∨ s.stdState ≠ 3 → t = s)
    ∧ (s.isMember = true → e.val = s.ownEngine → s.stdState = 3 → t.stdState = 2 ∧ fl t 4 = false ∧ fl t 3 = true
        ∧ Cond.isolated ∉ t.black.glob ∧ t.crnParent k = true ∧ t.stand.noBeacon = 0 ∧ t.bit pStd O.INT_CAUSE 5 = true)
    ∧ (s.isMember = false → s.isLead = true → e.val < s.engines → bitOf s.present e = false →
        t.present = s.present + 2 ^ e.val ∧ t.bit pStd O.INT_CAUSE 1 = true))
  ∧ (∀ (e : Fin 64) (s : State), s.alive .std = true → (s.isLead = true → s.bit pStd O.STD_CFG 31 = false →
      ∃ t, exec (.fatalBroadcast e) s = .next t ∧ t = sigRest s t
        ∧ t.present = s.present - (s.present &&& 2 ^ e.val))
    ∧ (s.isLead = false ∨ s.bit pStd O.STD_CFG 31 = true → ∃ t, exec (.fatalBroadcast e) s = .next t ∧ memSame s t
    ∧ t.bit pStd O.INT_CAUSE 7 = true ∧ t.flt.life = .fatal
    ∧ (s.isLead = true → s.bit pStd O.STD_CFG 31 = true → .fatalBroadcast e.val ∈ t.out)
    ∧ (s.flt.life = .up → t.allBlack ∧ t.flt.fatalCode = 0x0104)))
  ∧ (∀ (n : Fin 256) (k : Option (Fin 64)) (s : State), s.alive .std = true →
    let c := s.shCfg n
    let x := s.ctx (bitsOf c 0 9)
    ∃ t, exec (.shareSend n k) s = .next t ∧ memSame s t
      ∧ (bitOf c 31 = false ∨ bitOf c 30 = true ∨ s.running pStd = false → t = s)
      ∧ (bitOf c 31 = true → bitOf c 30 = false → s.running pStd = true →
          (k = none → x.isOpen = false → t = { s with out := .shareClose n :: s.out })
          ∧ ∀ i, k = some i → x.isOpen = true → x.typ ≠ 3 → i.val < State.ringSlots x → s.sstate x i = 2 →
              one s t pStd (State.shr O.STD_SH_PICS n) ∧ t = { s with regs := t.regs, out := t.out }
              ∧ t.out = .share n (s.rd64 pStd (State.shr O.STD_SH_DEST_LO n)) ((List.range 8).map (fun j => s.entW x i j) ++ [x.width, x.height, State.ringFormat x])
                  ((List.range x.height).map fun j =>
                    s.hbmBytes (State.picAddr x i + j * x.pitch) (Sys2Proof.Machine.lineBytes (State.ringFormat x) x.width)) :: s.out))
  ∧ ∀ (n : Fin 256) (src : Fin 64) (pic : Option SharePic) (s : State), s.alive .std = true →
    let c := s.shCfg n
    ∃ t, exec (.shareReceive n src pic) s = .next t ∧ host s t
      ∧ (bitOf c 31 = false ∨ bitOf c 30 = false ∨ bitsOf c 16 6 ≠ src.val ∨ s.running pStd = false → t = s)
      ∧ (bitOf c 31 = true → bitOf c 30 = true → bitsOf c 16 6 = src.val → s.running pStd = true →
          (pic = none → t.shareRing n = {})
          ∧ ∀ p, pic = some p →
              let x := s.sinkRing n p
              let s1 := if (s.shareRing n).isOpen = true then s else s.ringWord0 x false true
              (∀ k, s1.sinkSlot n x = some k → p.complete = true → t.shareRing n = x ∧ t.sstate x k = 2
                  ∧ one s t pStd (State.shr O.STD_SH_PICS n))
              ∧ (s1.sinkSlot n x = none ∨ p.complete = false → one s t pStd (State.shr O.STD_SH_DROP n)
                  ∧ one s t pStd O.STD_CNT_SH_DROP ∧ t.shares = s.shares))

/-- The state after power-on reset (R6, R30, R33, R394, R396, R457). -/
def Obligations.ResetStateIsTheSpecs : Prop :=
  let s := State.reset
  (s.rd pDev O.PAGE_ID % 2 ^ 16 = 0x0102 ∧ s.rd (pJlk + 63) O.PAGE_ID / 2 ^ 16 % 256 = 63)
  ∧ (s.running pDev = true ∧ s.running pClk = true ∧ s.running pHif = true)
  ∧ (s.stopped pLnd = true ∧ s.stopped pLmp = true ∧ s.stopped pHbm = true ∧ s.stopped (pHbm + 1) = true ∧ s.stopped pYrd = true)
  ∧ (s.rd pSkd O.SKD_CFG = 0x00004003 ∧ s.fld pHbm O.HBM_SR_CFG 0 16 = 100 ∧ s.rd pTim O.TIM_PPS_ADJ = 0
    ∧ s.fld pTim O.TIM_HOLD_LIMIT 0 16 = 60 ∧ s.vecMasked 0 = true)
  ∧ s.role 0 0 = 0
  ∧ (∀ a, s.hostByte a = 0) ∧ (∀ a, s.hbmByte a = 0) ∧ (∀ p k c i, s.tabAt p k c i = 0)
  ∧ (s.pending = [] ∧ s.sq = [] ∧ s.cq = [] ∧ s.ctxs = [] ∧ s.flumes = [] ∧ s.posted = [] ∧ s.out = [])
  ∧ s.allBlack ∧ s.storesWf = true

/-- A descriptor that fails a check (R361, Table 13.4). -/
def Obligations.DescriptorErrorStopsItsChannelOnly : Prop :=
  ∀ (n : Fin 32) (s : State), s.alive .skd = true → 4 ≤ n.val → s.skMoves n = true → (s.skc n).desc = none →
    (s.descSpace n = 0 → s.hostReady = true) → (s.descSpace n = 1 → s.hbmReady = true) →
    let l := s.spaceBytes (s.descSpace n) (s.rd64 pSkd (State.skr O.SKD_CH_CUR_LO n)) 32
    let w := fun (i : Nat) => leWord l (4 * i)
    let swap := bitsOf (w 0) 24 3
    let req := bitsOf (w 0) 16 7
    let (ss, ds, len) := (bitsOf (w 0) 14 2, bitsOf (w 0) 12 2, w 1)
    let (src, dst, next) := (w 2 + w 3 * 2 ^ 32, w 4 + w 5 * 2 ^ 32, w 6 + w 7 * 2 ^ 32)
    let size := fun (sp : Nat) => if sp = 0 then 2 ^ 64 else if sp = 1 then 0xC00000000 else 0x800000
    let fails : Nat → Prop := fun c =>
      (c = 1 ∧ (bitOf (w 0) 31 = true ∨ bitOf (w 0) 23 = true ∨ bitsOf (w 0) 0 12 ≠ 0 ∨ 6 ≤ swap ∨ 65 ≤ req))
      ∨ (c = 2 ∧ (len = 0 ∨ len % ([1, 2, 4, 8, 4, 8].getD swap 1) ≠ 0))
      ∨ (c = 3 ∧ (ss = 3 ∨ (ds = 3 ∧ req = 0) ∨ (ds ≠ 3 ∧ req ≠ 0)))
      ∨ (c = 4 ∧ (size ss < src + len ∨ (ds ≠ 3 ∧ size ds < dst + len)))
      ∨ (c = 5 ∧ bitOf (w 0) 30 = false ∧ next % 32 ≠ 0)
    (∃ c, fails c) →
    ∃ t, exec (.descriptorFetch n) s = .next t ∧ memSame s t
      ∧ t.skState n = 3 ∧ fails (t.fld pSkd (State.skr O.SKD_CH_STAT n) 16 8) ∧ bitOf t.errMap n = true
      ∧ t.bit pSkd O.INT_CAUSE 2 = true ∧ (t.skc n).desc = none
      ∧ (∀ m, m < 32 → m ≠ n.val → t.skc m = s.skc m ∧ t.skState m = s.skState m
          ∧ ∀ o, o < 64 → t.rd pSkd (0x1000 + 64 * m + o) = s.rd pSkd (0x1000 + 64 * m + o))
      ∧ ∀ f : Bool, exec (.skdBurst n f) t = .next t ∧ exec (.descriptorDone n) t = .next t

/-- End of an event handler (R337). -/
def Obligations.EndOfEventPopsOrFaults : Prop :=
  ∀ (k : Fin 8) (fast : Bool) (s : State),
    let y := State.yp k
    let u := s.uWord k
    let c : Instr := if fast then .eoeFast k else .eoeNormal k
    let match_ := (s.pTop k).map (fun e => bitOf e 30) = some fast
    s.alive .ysq = true → s.uRuns k = true → s.uFlag k 8 = false → s.fetchPoor k = false → s.uBad k u = false → u.mem = 0 → u.io = 0 →
    u.seq = (if fast then 9 else 8) →
    ∃ t, exec c s = .next t
      ∧ (∀ e, match_ → s.pTop k = some e → t.pDepth k + 1 = s.pDepth k ∧ t.upc k = bitsOf e 10 14 ∧ t.usp k = bitsOf e 27 3
          ∧ t.uFlag k 0 = bitOf e 24 ∧ t.uFlag k 1 = bitOf e 25 ∧ t.uFlag k 2 = bitOf e 26 ∧ memSame s t
          ∧ (s.pDepth k = 2 → t.pstk k 0 = s.pstk k 0))
      ∧ (¬ match_ → t.pstate y = 4 ∧ t.bit y O.INT_CAUSE 7 = true ∧ t.pstk k 0 = s.pstk k 0 ∧ t.pstk k 1 = s.pstk k 1
          ∧ t.rd y O.YSQ_EOE_CAP = 2 ^ 31 + b2n fast * 2 ^ 30 + s.upc k
          ∧ (s.bit y O.ERR_CAPTURE 31 = false → t.rd y O.ERR_CAPTURE = 2 ^ 31 + 0x0100 ∧ t.rd y O.ERR_INFO = s.upc k)
          ∧ ∀ (a b : Bool) (d : Byte), ∀ i ∈ ([.uNext k, .uJump k, .uCall k, .uRet k, .uDispatch k, .uBoundary k, .uCcb k,
              .uIdle k, .eoeNormal k, .eoeFast k, .uHalt k, .rrd k, .rwr k, .brd k a, .bwr k, .hload k a, .hstore k a,
              .uFetch k a, .ctxLd k, .ctxSt k, .dbell k, .evtake k, .i2cStart k a, .i2cStop k a, .i2cTx k a b,
              .i2cRx k a d, .i2cPulse k a b, .lineSet k, .lineGet k a b, .i2cSpeed k, .mgmtSend k, .mgmtTake k,
              .bulkSend k, .timerSet k, .timerClr k, .senseGet k] : List Instr), exec i t = .next t)
end

