-- ==== Sys2Proof/Laws/Store.lean ====
section
/-! SUPPORT. Laws of the sparse stores: a read after a write, and the canonical form, which every operation keeps. -/
namespace Sys2Proof.Machine

variable {α : Type}

theorem sget_sins (d : Nat → α) (m : Store α) (k k' : Nat) (v : α) :
    sget d (sins m k v) k' = if k' = k then v else sget d m k' := by
  induction m with
  | nil => simp [sins, sget]
  | cons e r ih =>
    obtain ⟨a, b⟩ := e
    simp only [sins]
    split
    · simp [sget]
    · split
      · rename_i h
        subst h
        by_cases h : k' = k <;> simp_all [sget]
      · by_cases h : k' = a
        · subst h; simp_all [sget]
          omega
        · simp_all [sget]

theorem sget_filter (d : Nat → α) (m : Store α) (p : Nat → Bool) (k : Nat) :
    sget d (m.filter fun e => p e.1) k = if p k then sget d m k else d k := by
  induction m with
  | nil => simp [sget]
  | cons e r ih =>
    obtain ⟨a, b⟩ := e
    by_cases hp : p a
    · by_cases h : k = a <;> simp_all [sget]
    · by_cases h : k = a <;> simp_all [sget]

/-- A read after a write: the value written at its key, and every other key as before. -/
theorem sget_sset [DecidableEq α] (d : Nat → α) (m : Store α) (k k' : Nat) (v : α) :
    sget d (sset d m k v) k' = if k' = k then v else sget d m k' := by
  unfold sset
  split
  · have := sget_filter d m (fun i => decide (i ≠ k)) k'
    simp only [this]
    by_cases h : k' = k <;> simp_all
  · exact sget_sins d m k k' v

@[simp] theorem sget_sset_same [DecidableEq α] (d : Nat → α) (m : Store α) (k : Nat) (v : α) :
    sget d (sset d m k v) k = v := by simp [sget_sset]

theorem sget_sset_other [DecidableEq α] (d : Nat → α) (m : Store α) {k k' : Nat} (v : α) (h : k' ≠ k) :
    sget d (sset d m k v) k' = sget d m k' := by simp [sget_sset, h]

theorem swfFrom_mono [DecidableEq α] (d : Nat → α) {lo lo' : Nat} (h : lo' ≤ lo) :
    ∀ {m : Store α}, swfFrom d lo m = true → swfFrom d lo' m = true
  | [], _ => rfl
  | (k, v) :: r, hm => by
    simp only [swfFrom, Bool.and_eq_true, decide_eq_true_eq] at hm ⊢
    exact ⟨⟨by omega, hm.1.2⟩, hm.2⟩

theorem swfFrom_filter [DecidableEq α] (d : Nat → α) (p : Nat × α → Bool) :
    ∀ {lo : Nat} {m : Store α}, swfFrom d lo m = true → swfFrom d lo (m.filter p) = true
  | _, [], _ => rfl
  | lo, (k, v) :: r, hm => by
    simp only [swfFrom, Bool.and_eq_true, decide_eq_true_eq] at hm
    have ih := swfFrom_filter d p hm.2
    by_cases hp : p (k, v)
    · simp only [List.filter_cons, hp, if_true, swfFrom, Bool.and_eq_true, decide_eq_true_eq]
      exact ⟨hm.1, ih⟩
    · simp only [List.filter_cons, hp]
      exact swfFrom_mono d (by omega) ih

theorem swfFrom_sins [DecidableEq α] (d : Nat → α) (k : Nat) (v : α) (hv : v ≠ d k) :
    ∀ {lo : Nat} {m : Store α}, lo ≤ k → swfFrom d lo m = true → swfFrom d lo (sins m k v) = true
  | lo, [], hk, _ => by simp [sins, swfFrom, hk, hv]
  | lo, (a, b) :: r, hk, hm => by
    simp only [swfFrom, Bool.and_eq_true, decide_eq_true_eq] at hm
    simp only [sins]
    split
    · simp only [swfFrom, Bool.and_eq_true, decide_eq_true_eq]
      exact ⟨⟨hk, hv⟩, ⟨by omega, hm.1.2⟩, hm.2⟩
    · split
      · subst_vars
        simp only [swfFrom, Bool.and_eq_true, decide_eq_true_eq]
        exact ⟨⟨hk, hv⟩, hm.2⟩
      · simp only [swfFrom, Bool.and_eq_true, decide_eq_true_eq]
        exact ⟨hm.1, swfFrom_sins d k v hv (by omega) hm.2⟩

/-- A write keeps the canonical form. -/
theorem swf_sset [DecidableEq α] (d : Nat → α) {m : Store α} (k : Nat) (v : α) (h : swf d m = true) :
    swf d (sset d m k v) = true := by
  unfold sset swf
  split
  · exact swfFrom_filter d _ h
  · exact swfFrom_sins d k v ‹_› (Nat.zero_le k) h

/-- Dropping keys keeps the canonical form. -/
theorem swf_skeep [DecidableEq α] (d : Nat → α) (p : Nat → Bool) {m : Store α} (h : swf d m = true) :
    swf d (skeep p m) = true := swfFrom_filter d _ h

/-- A run of writes keeps the canonical form. -/
theorem swf_ssetList [DecidableEq α] (d : Nat → α) :
    ∀ (l : List α) {m : Store α} (k : Nat), swf d m = true → swf d (ssetList d m k l) = true
  | [], _, _, h => h
  | v :: r, _, k, h => swf_ssetList d r (k + 1) (swf_sset d k v h)

/-- A run of writes: the bytes inside are those written, and the others as before. -/
theorem sget_ssetList [DecidableEq α] (d : Nat → α) :
    ∀ (l : List α) (m : Store α) (k k' : Nat),
      sget d (ssetList d m k l) k' = if k ≤ k' ∧ k' < k + l.length then l.getD (k' - k) (d k') else sget d m k'
  | [], m, k, k' => by simp [ssetList]
  | v :: r, m, k, k' => by
    rw [ssetList, sget_ssetList d r, sget_sset]
    by_cases h1 : k' = k
    · subst h1; simp
    · by_cases h2 : k + 1 ≤ k' ∧ k' < k + 1 + r.length
      · have e : k' - k = (k' - (k + 1)) + 1 := by omega
        simp only [h2, and_self, if_true, e, List.getD_cons_succ]
        rw [if_pos]
        simp; omega
      · rw [if_neg h2, if_neg h1, if_neg]
        simp; omega

end Sys2Proof.Machine
end

