-- ==== Sys2Proof/Laws/Ops.lean ====
section
/-! SUPPORT. Laws of bit fields and of the named operations over registers, tables and memories. -/
namespace Sys2Proof.Machine

/-! ## Bit fields -/

theorem putBits_eq (w lo n v : Nat) :
    putBits w lo n v = 2 ^ (lo + n) * (w / 2 ^ (lo + n)) + (2 ^ lo * (v % 2 ^ n) + w % 2 ^ lo) := by
  unfold putBits bitsOf
  rw [Nat.shiftRight_eq_div_pow]
  have h1 : w = 2 ^ lo * (w / 2 ^ lo) + w % 2 ^ lo := (Nat.div_add_mod w _).symm
  have h2 : w / 2 ^ lo = 2 ^ n * (w / 2 ^ lo / 2 ^ n) + w / 2 ^ lo % 2 ^ n := (Nat.div_add_mod _ _).symm
  have h3 : w / 2 ^ (lo + n) = w / 2 ^ lo / 2 ^ n := by rw [Nat.pow_add, Nat.div_div_eq_div_mul]
  rw [h3, Nat.pow_add]
  generalize hq : w / 2 ^ lo = q at *
  generalize hh : q / 2 ^ n = h at *
  generalize hr : q % 2 ^ n = r at *
  generalize hl : w % 2 ^ lo = l at *
  have h4 : w = 2 ^ lo * 2 ^ n * h + r * 2 ^ lo + l := by rw [h1, h2]; ring
  have h5 : w - r * 2 ^ lo = 2 ^ lo * 2 ^ n * h + l := by omega
  rw [h5]; ring

theorem testBit_putBits (w lo n v i : Nat) :
    (putBits w lo n v).testBit i = if lo ≤ i ∧ i < lo + n then v.testBit (i - lo) else w.testBit i := by
  have hl : w % 2 ^ lo < 2 ^ lo := Nat.mod_lt _ (by positivity)
  have hv : v % 2 ^ n < 2 ^ n := Nat.mod_lt _ (by positivity)
  have hb : 2 ^ lo * (v % 2 ^ n) + w % 2 ^ lo < 2 ^ (lo + n) := by
    rw [Nat.pow_add]
    calc 2 ^ lo * (v % 2 ^ n) + w % 2 ^ lo < 2 ^ lo * (v % 2 ^ n) + 2 ^ lo := by omega
      _ = 2 ^ lo * (v % 2 ^ n + 1) := by ring
      _ ≤ 2 ^ lo * 2 ^ n := Nat.mul_le_mul_left _ hv
  rw [putBits_eq, Nat.testBit_two_pow_mul_add _ hb, Nat.testBit_two_pow_mul_add _ hl]
  by_cases h1 : i < lo
  · have : i < lo + n := by omega
    simp [h1, this, Nat.testBit_mod_two_pow]
  · by_cases h2 : i < lo + n
    · have : i - lo < n := by omega
      simp [h1, h2, this, Nat.testBit_mod_two_pow, not_lt.mp h1]
    · simp [h2, Nat.testBit_div_two_pow]
      congr 1; omega

theorem testBit_bitsOf (w lo n i : Nat) : (bitsOf w lo n).testBit i = (decide (i < n) && w.testBit (lo + i)) := by
  simp [bitsOf, Nat.testBit_mod_two_pow, Nat.testBit_shiftRight]

/-- The field written reads as the value, cut to its width. -/
@[simp] theorem bitsOf_putBits_same (w lo n v : Nat) : bitsOf (putBits w lo n v) lo n = v % 2 ^ n := by
  apply Nat.eq_of_testBit_eq
  intro i
  simp only [testBit_bitsOf, testBit_putBits, Nat.testBit_mod_two_pow]
  by_cases h : i < n
  · simp [h]
  · simp [h]

/-- A field clear of the one written reads as before. -/
theorem bitsOf_putBits_other (w lo n v lo' n' : Nat) (h : lo' + n' ≤ lo ∨ lo + n ≤ lo') :
    bitsOf (putBits w lo n v) lo' n' = bitsOf w lo' n' := by
  apply Nat.eq_of_testBit_eq
  intro i
  simp only [testBit_bitsOf, testBit_putBits]
  by_cases h' : i < n'
  · have : ¬(lo ≤ lo' + i ∧ lo' + i < lo + n) := by omega
    simp [h', this]
  · simp [h']

theorem bitOf_putBits (w lo n v i : Nat) :
    bitOf (putBits w lo n v) i = if lo ≤ i ∧ i < lo + n then bitOf v (i - lo) else bitOf w i :=
  testBit_putBits w lo n v i

theorem bitsOf_lt (w lo n : Nat) : bitsOf w lo n < 2 ^ n := Nat.mod_lt _ (by positivity)

/-- A field below bit 32 does not see the cut to a register's width. -/
theorem bitsOf_mod (w lo n : Nat) (h : lo + n ≤ 32) : bitsOf (w % 4294967296) lo n = bitsOf w lo n := by
  apply Nat.eq_of_testBit_eq
  intro i
  have e : (4294967296 : Nat) = 2 ^ 32 := by norm_num
  simp only [testBit_bitsOf, e, Nat.testBit_mod_two_pow]
  by_cases h' : i < n
  · have : lo + i < 32 := by omega
    simp [this]
  · simp [h']

theorem bitOf_mod (w i : Nat) (h : i < 32) : bitOf (w % 4294967296) i = bitOf w i := by
  change (w % 2 ^ 32).testBit i = w.testBit i
  rw [Nat.testBit_mod_two_pow]
  simp [h]

theorem bitOf_b2n (b : Bool) : bitOf (b2n b) 0 = b := by cases b <;> rfl

/-- Setting the bits of a mask leaves a bit set that is in the mask or was set. -/
theorem bitOf_or (w m i : Nat) : bitOf (w ||| m) i = (bitOf w i || bitOf m i) := Nat.testBit_or w m i

/-- Clearing the bits of a mask clears them and no other below bit 32. -/
theorem bitOf_clrMask (w m i : Nat) (h : i < 32) : bitOf (clrMask w m) i = (bitOf w i && !bitOf m i) := by
  change (w &&& ((2 ^ 32 - 1) ^^^ (m % 2 ^ 32))).testBit i = _
  rw [Nat.testBit_and, Nat.testBit_xor, Nat.testBit_two_pow_sub_one, Nat.testBit_mod_two_pow]
  simp [h, bitOf]

/-! ## Registers -/

/-- Keys of registers inside pages are keys of the same register only if page and offset agree. -/
theorem regKey_eq_iff {p off p' off' : Nat} (h : off < 0x10000) (h' : off' < 0x10000) :
    regKey p off = regKey p' off' ↔ p = p' ∧ off = off' := by
  simp only [regKey]; omega

namespace State

variable (s : State)

theorem rd_lt (p off : Nat) : s.rd p off < 4294967296 := BitVec.isLt _

/-- A register read after a register write. -/
theorem rd_wr (p off v p' off' : Nat) :
    (s.wr p off v).rd p' off' = if regKey p' off' = regKey p off then v % 4294967296 else s.rd p' off' := by
  simp only [rd, wr, sget_sset]
  split <;> simp

@[simp] theorem rd_wr_same (p off v : Nat) : (s.wr p off v).rd p off = v % 4294967296 := by simp [rd_wr]

theorem rd_wr_other {p off p' off' : Nat} (v : Nat) (h : regKey p' off' ≠ regKey p off) :
    (s.wr p off v).rd p' off' = s.rd p' off' := by simp [rd_wr, h]

theorem rd_setFld (p off lo n v p' off' : Nat) : (s.setFld p off lo n v).rd p' off'
    = if regKey p' off' = regKey p off then putBits (s.rd p off) lo n v % 4294967296 else s.rd p' off' := rd_wr ..

theorem rd_setBit (p off b : Nat) (v : Bool) (p' off' : Nat) : (s.setBit p off b v).rd p' off'
    = if regKey p' off' = regKey p off then putBits (s.rd p off) b 1 (b2n v) % 4294967296 else s.rd p' off' := rd_wr ..

/-- A field read after the same field was written. -/
theorem fld_setFld_same (p off lo n v : Nat) (h : lo + n ≤ 32) : (s.setFld p off lo n v).fld p off lo n = v % 2 ^ n := by
  simp [fld, rd_setFld, bitsOf_mod _ _ _ h]

/-- A field read after another field of the same register was written. -/
theorem fld_setFld_other (p off lo n v lo' n' : Nat) (h : lo' + n' ≤ 32) (h' : lo' + n' ≤ lo ∨ lo + n ≤ lo') :
    (s.setFld p off lo n v).fld p off lo' n' = s.fld p off lo' n' := by
  simp [fld, rd_setFld, bitsOf_mod _ _ _ h, bitsOf_putBits_other _ _ _ _ _ _ h']

theorem bit_setBit_same (p off b : Nat) (v : Bool) (h : b < 32) : (s.setBit p off b v).bit p off b = v := by
  simp [bit, rd_setBit, bitOf_mod _ _ h, bitOf_putBits, bitOf_b2n]

theorem bit_setFld (p off lo n v i : Nat) (h : i < 32) : (s.setFld p off lo n v).bit p off i
    = if lo ≤ i ∧ i < lo + n then bitOf v (i - lo) else s.bit p off i := by
  simp [bit, rd_setFld, bitOf_mod _ _ h, bitOf_putBits]

/-! ## Tables -/

/-- A table word read after a table word was written. -/
theorem tabAt_setTabAt (p t c i v p' t' c' i' : Nat) : (s.setTabAt p t c i v).tabAt p' t' c' i'
    = if tabKey p' t' c' i' = tabKey p t c i then v % 4294967296 else s.tabAt p' t' c' i' := by
  simp only [tabAt, setTabAt, sget_sset]
  split <;> simp

end State
end Sys2Proof.Machine
end

