-- ==== Sys2Proof/Laws/Signal.lean ====
section
/-! SUPPORT. What an interrupt request can change: said once, for every operation that sets a cause, sends a vector or
raises a source. -/
namespace Sys2Proof.Machine
namespace State

/-- `t` is `s` but for what interrupt requests of page `p` change: registers of `sigReg`, the source table of the EIC,
the function's PME status, the saturations the EIC has reported, and the output log. -/
structure Signals (p : Nat) (s t : State) : Prop where
  rest : t = { s with regs := t.regs, tables := t.tables, hif := t.hif, eicSat := t.eicSat, out := t.out }
  reg : ∀ p' off, off < 0x10000 → sigReg p p' off = false → t.rd p' off = s.rd p' off
  pm : ∀ b, b < 32 → b ≠ 1 → b ≠ 3 → t.bit pHif O.HIF_PM_STAT b = s.bit pHif O.HIF_PM_STAT b
  l1 : t.bit pHif O.HIF_PM_STAT 1 = true → s.bit pHif O.HIF_PM_STAT 1 = true
  tab : ∀ p' k c i, p' ≠ pEic → k < 256 → c < 2 → i < 2 ^ 24 → t.tabAt p' k c i = s.tabAt p' k c i

namespace Signals

theorem refl (p : Nat) (s : State) : Signals p s s := ⟨rfl, fun _ _ _ _ => rfl, fun _ _ _ _ => rfl, id, fun _ _ _ _ _ _ _ _ => rfl⟩

theorem trans {p : Nat} {s t u : State} (h : Signals p s t) (k : Signals p t u) : Signals p s u := by
  refine ⟨?_, fun p' off ho hs => (k.reg p' off ho hs).trans (h.reg p' off ho hs),
    fun b h1 h2 h3 => (k.pm b h1 h2 h3).trans (h.pm b h1 h2 h3), fun h1 => h.l1 (k.l1 h1),
    fun p' a c i h1 h2 h3 h4 => (k.tab p' a c i h1 h2 h3 h4).trans (h.tab p' a c i h1 h2 h3 h4)⟩
  have a := h.rest
  have b := k.rest
  rw [a] at b
  exact b

/-- Requests of the EIC page are among those of any page. -/
theorem ofEic {p : Nat} {s t : State} (h : Signals pEic s t) : Signals p s t := by
  refine ⟨h.rest, fun p' off ho hs => h.reg p' off ho ?_, h.pm, h.l1, h.tab⟩
  simp only [sigReg, Bool.or_eq_false_iff, Bool.and_eq_false_iff, decide_eq_false_iff_not] at hs ⊢
  tauto

/-- A write of one of the registers concerned, but PM_STAT. -/
theorem wr {p q off : Nat} (s : State) (v : Nat) (h : sigReg p q off = true) (ho : off < 0x10000)
    (hpm : off ≠ O.HIF_PM_STAT) : Signals p s (s.wr q off v) := by
  have k : regKey pHif O.HIF_PM_STAT ≠ regKey q off := by
    rw [Ne, regKey_eq_iff (by decide) ho]
    exact fun e => hpm e.2.symm
  refine ⟨rfl, fun p' o ho' hs => rd_wr_other s v ?_, fun b _ _ _ => ?_, fun e => ?_, fun _ _ _ _ _ _ _ _ => rfl⟩
  · intro e
    rw [regKey_eq_iff ho' ho] at e
    rw [e.1, e.2, h] at hs
    exact absurd hs (by decide)
  · simp only [bit, rd_wr_other s v k]
  · simpa only [bit, rd_wr_other s v k] using e

theorem setBit {p q off b : Nat} {v : Bool} (s : State) (h : sigReg p q off = true) (ho : off < 0x10000)
    (hpm : off ≠ O.HIF_PM_STAT) : Signals p s (s.setBit q off b v) := wr s _ h ho hpm

theorem incr {p q off : Nat} (s : State) (h : sigReg p q off = true) (ho : off < 0x10000)
    (hpm : off ≠ O.HIF_PM_STAT) : Signals p s (s.incr q off) := wr s _ h ho hpm

/-- L1 of PM_STAT cleared, or PME_PENDING set. -/
theorem setPm (p : Nat) (s : State) (b : Nat) (v : Bool) (h : b = 1 ∧ v = false ∨ b = 3) :
    Signals p s (s.setBit pHif O.HIF_PM_STAT b v) := by
  have hb : b < 32 := by omega
  refine ⟨rfl, fun p' o ho' hs => ?_, fun i hi h1 h3 => ?_, fun e => ?_, fun _ _ _ _ _ _ _ _ => rfl⟩
  · rw [rd_setBit, if_neg]
    intro e
    rw [regKey_eq_iff ho' (by decide)] at e
    rw [e.1, e.2] at hs
    simp [sigReg] at hs
  · have k : ¬(b ≤ i ∧ i < b + 1) := by omega
    exact (bit_setFld _ _ _ _ _ _ _ hi).trans (if_neg k)
  · rcases h with ⟨rfl, rfl⟩ | rfl
    · rw [bit_setBit_same _ _ _ _ _ (by decide)] at e
      exact absurd e (by decide)
    · exact ((bit_setFld s pHif O.HIF_PM_STAT 3 1 (b2n v) 1 (by decide)).trans (if_neg (by decide))) ▸ e

theorem emit (p : Nat) (s : State) (o : Output) : Signals p s (s.emit o) :=
  ⟨rfl, fun _ _ _ _ => rfl, fun _ _ _ _ => rfl, id, fun _ _ _ _ _ _ _ _ => rfl⟩

/-- The record of reported saturations. -/
theorem setSat (p : Nat) (s : State) (l : List Nat) : Signals p s { s with eicSat := l } :=
  ⟨rfl, fun _ _ _ _ => rfl, fun _ _ _ _ => rfl, id, fun _ _ _ _ _ _ _ _ => rfl⟩

theorem setEicTab (p : Nat) (s : State) {i : Nat} (v : Nat) (h : i < 2 ^ 24) : Signals p s (s.setTab pEic 0 i v) := by
  refine ⟨rfl, fun _ _ _ _ => rfl, fun _ _ _ _ => rfl, id, fun p' k c j hp hk hc hj => ?_⟩
  simp only [setTab, tabAt_setTabAt]
  rw [if_neg]
  simp only [tabKey]
  norm_num at *
  omega

end Signals

theorem signals_wakeLink (p : Nat) (s : State) : Signals p s s.wakeLink :=
  Signals.setPm p s 1 false (.inl ⟨rfl, rfl⟩)

theorem signals_setPba (p : Nat) (s : State) (v : Nat) (b : Bool) (h : v < 2048) : Signals p s (s.setPba v b) := by
  refine Signals.setBit s ?_ ?_ ?_
  · simp only [sigReg]
    have h1 : O.HIF_PBA ≤ O.HIF_PBA + 4 * (v / 32) := by omega
    have h2 : O.HIF_PBA + 4 * (v / 32) < O.HIF_PBA + 256 := by omega
    simp [h1, h2]
  · simp only [O.HIF_PBA]; omega
  · simp only [O.HIF_PBA, O.HIF_PM_STAT]; omega

theorem signals_issueMsix (p : Nat) (s : State) (v : Nat) : Signals p s (s.issueMsix v) :=
  (signals_wakeLink p s).trans (Signals.emit p _ _)

theorem signals_pmeSend (p : Nat) (s : State) : Signals p s s.pmeSend := by
  unfold pmeSend
  split
  · exact Signals.emit p s _
  split
  · exact (Signals.setPm p s 3 true (.inr rfl)).trans
      ⟨rfl, fun _ _ _ _ => rfl, fun _ _ _ _ => rfl, id, fun _ _ _ _ _ _ _ _ => rfl⟩
  · exact .refl p s

/-- A message that falls due. -/
theorem signals_sendVector (p : Nat) (s : State) (v : Nat) (h : v < 2048) : Signals p s (s.sendVector v) := by
  unfold sendVector
  split
  · exact (signals_setPba p s v true h).trans (signals_pmeSend p _)
  · split
    · exact signals_setPba p s v true h
    · exact signals_issueMsix p s v

theorem signals_raiseTargetsWith (p : Nat) (raise : State → Nat → State)
    (hr : ∀ s src, src < 1024 → Signals p s (raise s src)) (s : State) (q : Nat) :
    Signals p s (raiseTargetsWith raise s q) := by
  have hb : ∀ w lo, bitsOf w lo 10 < 1024 := fun w lo => bitsOf_lt w lo 10
  have hc : ∀ w lo, bitsOf w lo 11 < 2048 := fun w lo => bitsOf_lt w lo 11
  unfold raiseTargetsWith
  simp only
  have h1 : Signals p s (if bitOf (s.rd q O.INT_ROUTE) 30 then raise s (bitsOf (s.rd q O.INT_ROUTE) 0 10) else s) := by
    split
    · exact hr _ _ (hb _ _)
    · exact .refl p s
  split
  · exact h1.trans (signals_sendVector p _ _ (hc _ _))
  · exact h1

theorem signals_setCauseWith (p : Nat) (raise : State → Nat → State)
    (hr : ∀ s src, src < 1024 → Signals p s (raise s src)) (s : State) (q m : Nat)
    (hq : sigReg p q O.INT_CAUSE = true) : Signals p s (setCauseWith raise s q m) := by
  unfold setCauseWith
  simp only
  have h1 : Signals p s (s.wr q O.INT_CAUSE (s.rd q O.INT_CAUSE ||| m)) := Signals.wr s _ hq (by decide) (by decide)
  split
  · exact h1.trans (signals_raiseTargetsWith p raise hr _ _)
  · exact h1

/-- A raise of an EIC source. -/
theorem signals_eicRaiseF : ∀ (n : Nat) (s : State) (src : Nat), src < 1024 → Signals pEic s (eicRaiseF n s src)
  | 0, s, _, _ => .refl _ s
  | n + 1, s, src, hs => by
    have h1 : Signals pEic s (s.incr pEic O.EIC_CNT_RAISES) := Signals.incr s (by decide) (by decide) (by decide)
    have hi : 2 * src + 1 < 2 ^ 24 := by norm_num; omega
    unfold eicRaiseF
    simp only
    refine h1.trans ?_
    split
    · rename_i hp
      refine Signals.wr _ _ ?_ (by decide) (by decide)
      simp only [isProgEvent, Bool.and_eq_true, decide_eq_true_eq] at hp
      have a : pYsq ≤ pYsq + src / 32 := Nat.le_add_right _ _
      have b : pYsq + src / 32 < pYsq + 8 := by omega
      simp [sigReg, a, b]
    · split
      · exact (Signals.incr _ (by decide) (by decide) (by decide)).trans
          (signals_setCauseWith pEic _ (signals_eicRaiseF n) _ _ _ (by decide))
      · split
        · exact (Signals.setEicTab pEic _ _ hi).trans (Signals.setSat ..)
        · refine (Signals.incr (q := pEic) (off := O.EIC_CNT_COALESCED) _ (by decide) (by decide) (by decide)).trans ?_
          split
          · split
            · exact .refl _ _
            · exact (Signals.setSat ..).trans (signals_setCauseWith pEic _ (signals_eicRaiseF n) _ _ _ (by decide))
          · exact Signals.setEicTab _ _ _ hi

theorem signals_eicRaise (p : Nat) (s : State) (src : Nat) (h : src < 1024) : Signals p s (s.eicRaise src) :=
  (signals_eicRaiseF 3 s src h).ofEic

/-- Setting causes of a page changes nothing but what interrupt requests change. -/
theorem signals_setCause (s : State) (p m : Nat) : Signals p s (s.setCause p m) :=
  signals_setCauseWith p _ (fun s src h => signals_eicRaise p s src h) s p m (by simp [sigReg])

/-- The causes set: those that stood and those given; the EIC's own page apart, no other cause of the page changes. -/
theorem rd_setCause (s : State) {p : Nat} (m : Nat) (hp : p ≠ pEic) :
    (s.setCause p m).rd p O.INT_CAUSE = (s.rd p O.INT_CAUSE ||| m) % 4294967296 := by
  unfold setCause setCauseWith
  simp only
  split
  · refine ((signals_raiseTargetsWith pEic _ (fun s src h => signals_eicRaise pEic s src h) _ p).reg p _
      (by decide) ?_).trans (rd_wr_same ..)
    simp [sigReg, hp, O.HIF_PBA, O.INT_CAUSE]
  · exact rd_wr_same ..

theorem bit_setCause (s : State) {p : Nat} (m : Nat) (hp : p ≠ pEic) {b : Nat} (hb : b < 32) :
    (s.setCause p m).bit p O.INT_CAUSE b = (s.bit p O.INT_CAUSE b || bitOf m b) := by
  simp only [bit, rd_setCause s m hp, bitOf_mod _ _ hb, bitOf_or]

theorem signals_reRaise (s : State) (p : Nat) : Signals p s (s.reRaise p) := by
  unfold reRaise
  split
  · exact signals_raiseTargetsWith p _ (fun s src h => signals_eicRaise p s src h) _ _
  · exact .refl p s

end State
end Sys2Proof.Machine
end

