-- ==== Sys2Proof/Laws/Blocks.lean ====
section
/-! SUPPORT. Laws of what the blocks keep in the state besides registers. -/
namespace Sys2Proof.Machine
namespace State

/-- A tile read after a change of the same tile. -/
theorem tileSt_modTile (s : State) (p k : Nat) (f : TileSt → TileSt) :
    (s.modTile p k f).tileSt p k = f (s.tileSt p k) := by
  unfold modTile
  simp only
  split <;> simp [tileSt, setTileSt, emit]

/-- Another tile. -/
theorem tileSt_modTile_other (s : State) {p k p' k' : Nat} (f : TileSt → TileSt) (h : p' * 128 + k' ≠ p * 128 + k) :
    (s.modTile p k f).tileSt p' k' = s.tileSt p' k' := by
  unfold modTile
  simp only
  split <;> simp [tileSt, setTileSt, emit, sget_sset, h]

@[simp] theorem tileSt_emit (s : State) (o : Output) (p k : Nat) : (s.emit o).tileSt p k = s.tileSt p k := rfl

/-- A change of a tile changes only the tiles and the output log. -/
theorem modTile_rest (s : State) (p k : Nat) (f : TileSt → TileSt) :
    s.modTile p k f = { s with tilesOf := (s.modTile p k f).tilesOf, out := (s.modTile p k f).out } := by
  unfold modTile
  simp only
  split <;> rfl

end State
end Sys2Proof.Machine
end

