-- ==== Sys2Proof/Laws/State.lean ====
section
/-! SUPPORT. What each named update of the state leaves alone, field by field, and that the updates of registers, tables
and memories keep the canonical form. -/
namespace Sys2Proof.Machine.State

/-! ## wr -/

theorem regsField_pending (s : State) (m : Store W32) : (State.pending { s with regs := m }) = s.pending := rfl
@[simp] theorem wr_pending (s : State) (p off v : Nat) : (s.wr p off v).pending = s.pending := regsField_pending s _
theorem regsField_tables (s : State) (m : Store W32) : (State.tables { s with regs := m }) = s.tables := rfl
@[simp] theorem wr_tables (s : State) (p off v : Nat) : (s.wr p off v).tables = s.tables := regsField_tables s _
theorem regsField_host (s : State) (m : Store W32) : (State.host { s with regs := m }) = s.host := rfl
@[simp] theorem wr_host (s : State) (p off v : Nat) : (s.wr p off v).host = s.host := regsField_host s _
theorem regsField_hbm (s : State) (m : Store W32) : (State.hbm { s with regs := m }) = s.hbm := rfl
@[simp] theorem wr_hbm (s : State) (p off v : Nat) : (s.wr p off v).hbm = s.hbm := regsField_hbm s _
theorem regsField_posted (s : State) (m : Store W32) : (State.posted { s with regs := m }) = s.posted := rfl
@[simp] theorem wr_posted (s : State) (p off v : Nat) : (s.wr p off v).posted = s.posted := regsField_posted s _
theorem regsField_windows (s : State) (m : Store W32) : (State.windows { s with regs := m }) = s.windows := rfl
@[simp] theorem wr_windows (s : State) (p off v : Nat) : (s.wr p off v).windows = s.windows := regsField_windows s _
theorem regsField_sq (s : State) (m : Store W32) : (State.sq { s with regs := m }) = s.sq := rfl
@[simp] theorem wr_sq (s : State) (p off v : Nat) : (s.wr p off v).sq = s.sq := regsField_sq s _
theorem regsField_cq (s : State) (m : Store W32) : (State.cq { s with regs := m }) = s.cq := rfl
@[simp] theorem wr_cq (s : State) (p off v : Nat) : (s.wr p off v).cq = s.cq := regsField_cq s _
theorem regsField_arb (s : State) (m : Store W32) : (State.arb { s with regs := m }) = s.arb := rfl
@[simp] theorem wr_arb (s : State) (p off v : Nat) : (s.wr p off v).arb = s.arb := regsField_arb s _
theorem regsField_hif (s : State) (m : Store W32) : (State.hif { s with regs := m }) = s.hif := rfl
@[simp] theorem wr_hif (s : State) (p off v : Nat) : (s.wr p off v).hif = s.hif := regsField_hif s _
theorem regsField_black (s : State) (m : Store W32) : (State.black { s with regs := m }) = s.black := rfl
@[simp] theorem wr_black (s : State) (p off v : Nat) : (s.wr p off v).black = s.black := regsField_black s _
theorem regsField_tim (s : State) (m : Store W32) : (State.tim { s with regs := m }) = s.tim := rfl
@[simp] theorem wr_tim (s : State) (p off v : Nat) : (s.wr p off v).tim = s.tim := regsField_tim s _
theorem regsField_flt (s : State) (m : Store W32) : (State.flt { s with regs := m }) = s.flt := rfl
@[simp] theorem wr_flt (s : State) (p off v : Nat) : (s.wr p off v).flt = s.flt := regsField_flt s _
theorem regsField_lmpActive (s : State) (m : Store W32) : (State.lmpActive { s with regs := m }) = s.lmpActive := rfl
@[simp] theorem wr_lmpActive (s : State) (p off v : Nat) : (s.wr p off v).lmpActive = s.lmpActive := regsField_lmpActive s _
theorem regsField_yrx (s : State) (m : Store W32) : (State.yrx { s with regs := m }) = s.yrx := rfl
@[simp] theorem wr_yrx (s : State) (p off v : Nat) : (s.wr p off v).yrx = s.yrx := regsField_yrx s _
theorem regsField_flumes (s : State) (m : Store W32) : (State.flumes { s with regs := m }) = s.flumes := rfl
@[simp] theorem wr_flumes (s : State) (p off v : Nat) : (s.wr p off v).flumes = s.flumes := regsField_flumes s _
theorem regsField_ctxs (s : State) (m : Store W32) : (State.ctxs { s with regs := m }) = s.ctxs := rfl
@[simp] theorem wr_ctxs (s : State) (p off v : Nat) : (s.wr p off v).ctxs = s.ctxs := regsField_ctxs s _
theorem regsField_holds (s : State) (m : Store W32) : (State.holds { s with regs := m }) = s.holds := rfl
@[simp] theorem wr_holds (s : State) (p off v : Nat) : (s.wr p off v).holds = s.holds := regsField_holds s _
theorem regsField_slotIdx (s : State) (m : Store W32) : (State.slotIdx { s with regs := m }) = s.slotIdx := rfl
@[simp] theorem wr_slotIdx (s : State) (p off v : Nat) : (s.wr p off v).slotIdx = s.slotIdx := regsField_slotIdx s _
theorem regsField_lateRecent (s : State) (m : Store W32) : (State.lateRecent { s with regs := m }) = s.lateRecent := rfl
@[simp] theorem wr_lateRecent (s : State) (p off v : Nat) : (s.wr p off v).lateRecent = s.lateRecent := regsField_lateRecent s _
theorem regsField_lnd (s : State) (m : Store W32) : (State.lnd { s with regs := m }) = s.lnd := rfl
@[simp] theorem wr_lnd (s : State) (p off v : Nat) : (s.wr p off v).lnd = s.lnd := regsField_lnd s _
theorem regsField_shares (s : State) (m : Store W32) : (State.shares { s with regs := m }) = s.shares := rfl
@[simp] theorem wr_shares (s : State) (p off v : Nat) : (s.wr p off v).shares = s.shares := regsField_shares s _
theorem regsField_lmp (s : State) (m : Store W32) : (State.lmp { s with regs := m }) = s.lmp := rfl
@[simp] theorem wr_lmp (s : State) (p off v : Nat) : (s.wr p off v).lmp = s.lmp := regsField_lmp s _
theorem regsField_tly (s : State) (m : Store W32) : (State.tly { s with regs := m }) = s.tly := rfl
@[simp] theorem wr_tly (s : State) (p off v : Nat) : (s.wr p off v).tly = s.tly := regsField_tly s _
theorem regsField_jports (s : State) (m : Store W32) : (State.jports { s with regs := m }) = s.jports := rfl
@[simp] theorem wr_jports (s : State) (p off v : Nat) : (s.wr p off v).jports = s.jports := regsField_jports s _
theorem regsField_tilesOf (s : State) (m : Store W32) : (State.tilesOf { s with regs := m }) = s.tilesOf := rfl
@[simp] theorem wr_tilesOf (s : State) (p off v : Nat) : (s.wr p off v).tilesOf = s.tilesOf := regsField_tilesOf s _
theorem regsField_subs (s : State) (m : Store W32) : (State.subs { s with regs := m }) = s.subs := rfl
@[simp] theorem wr_subs (s : State) (p off v : Nat) : (s.wr p off v).subs = s.subs := regsField_subs s _
theorem regsField_posts (s : State) (m : Store W32) : (State.posts { s with regs := m }) = s.posts := rfl
@[simp] theorem wr_posts (s : State) (p off v : Nat) : (s.wr p off v).posts = s.posts := regsField_posts s _
theorem regsField_seqs (s : State) (m : Store W32) : (State.seqs { s with regs := m }) = s.seqs := rfl
@[simp] theorem wr_seqs (s : State) (p off v : Nat) : (s.wr p off v).seqs = s.seqs := regsField_seqs s _
theorem regsField_eicSat (s : State) (m : Store W32) : (State.eicSat { s with regs := m }) = s.eicSat := rfl
@[simp] theorem wr_eicSat (s : State) (p off v : Nat) : (s.wr p off v).eicSat = s.eicSat := regsField_eicSat s _
theorem regsField_cleared (s : State) (m : Store W32) : (State.cleared { s with regs := m }) = s.cleared := rfl
@[simp] theorem wr_cleared (s : State) (p off v : Nat) : (s.wr p off v).cleared = s.cleared := regsField_cleared s _
theorem regsField_mgmt (s : State) (m : Store W32) : (State.mgmt { s with regs := m }) = s.mgmt := rfl
@[simp] theorem wr_mgmt (s : State) (p off v : Nat) : (s.wr p off v).mgmt = s.mgmt := regsField_mgmt s _
theorem regsField_skch (s : State) (m : Store W32) : (State.skch { s with regs := m }) = s.skch := rfl
@[simp] theorem wr_skch (s : State) (p off v : Nat) : (s.wr p off v).skch = s.skch := regsField_skch s _
theorem regsField_yard (s : State) (m : Store W32) : (State.yard { s with regs := m }) = s.yard := rfl
@[simp] theorem wr_yard (s : State) (p off v : Nat) : (s.wr p off v).yard = s.yard := regsField_yard s _
theorem regsField_chk (s : State) (m : Store W32) : (State.chk { s with regs := m }) = s.chk := rfl
@[simp] theorem wr_chk (s : State) (p off v : Nat) : (s.wr p off v).chk = s.chk := regsField_chk s _
theorem regsField_jout (s : State) (m : Store W32) : (State.jout { s with regs := m }) = s.jout := rfl
@[simp] theorem wr_jout (s : State) (p off v : Nat) : (s.wr p off v).jout = s.jout := regsField_jout s _
theorem regsField_mem (s : State) (m : Store W32) : (State.mem { s with regs := m }) = s.mem := rfl
@[simp] theorem wr_mem (s : State) (p off v : Nat) : (s.wr p off v).mem = s.mem := regsField_mem s _
theorem regsField_stand (s : State) (m : Store W32) : (State.stand { s with regs := m }) = s.stand := rfl
@[simp] theorem wr_stand (s : State) (p off v : Nat) : (s.wr p off v).stand = s.stand := regsField_stand s _
theorem regsField_freeCtr (s : State) (m : Store W32) : (State.freeCtr { s with regs := m }) = s.freeCtr := rfl
@[simp] theorem wr_freeCtr (s : State) (p off v : Nat) : (s.wr p off v).freeCtr = s.freeCtr := regsField_freeCtr s _
theorem regsField_out (s : State) (m : Store W32) : (State.out { s with regs := m }) = s.out := rfl
@[simp] theorem wr_out (s : State) (p off v : Nat) : (s.wr p off v).out = s.out := regsField_out s _

/-! ## setFld -/

@[simp] theorem setFld_pending (s : State) (p off lo n v : Nat) : (s.setFld p off lo n v).pending = s.pending := wr_pending s _ _ _
@[simp] theorem setFld_tables (s : State) (p off lo n v : Nat) : (s.setFld p off lo n v).tables = s.tables := wr_tables s _ _ _
@[simp] theorem setFld_host (s : State) (p off lo n v : Nat) : (s.setFld p off lo n v).host = s.host := wr_host s _ _ _
@[simp] theorem setFld_hbm (s : State) (p off lo n v : Nat) : (s.setFld p off lo n v).hbm = s.hbm := wr_hbm s _ _ _
@[simp] theorem setFld_posted (s : State) (p off lo n v : Nat) : (s.setFld p off lo n v).posted = s.posted := wr_posted s _ _ _
@[simp] theorem setFld_windows (s : State) (p off lo n v : Nat) : (s.setFld p off lo n v).windows = s.windows := wr_windows s _ _ _
@[simp] theorem setFld_sq (s : State) (p off lo n v : Nat) : (s.setFld p off lo n v).sq = s.sq := wr_sq s _ _ _
@[simp] theorem setFld_cq (s : State) (p off lo n v : Nat) : (s.setFld p off lo n v).cq = s.cq := wr_cq s _ _ _
@[simp] theorem setFld_arb (s : State) (p off lo n v : Nat) : (s.setFld p off lo n v).arb = s.arb := wr_arb s _ _ _
@[simp] theorem setFld_hif (s : State) (p off lo n v : Nat) : (s.setFld p off lo n v).hif = s.hif := wr_hif s _ _ _
@[simp] theorem setFld_black (s : State) (p off lo n v : Nat) : (s.setFld p off lo n v).black = s.black := wr_black s _ _ _
@[simp] theorem setFld_tim (s : State) (p off lo n v : Nat) : (s.setFld p off lo n v).tim = s.tim := wr_tim s _ _ _
@[simp] theorem setFld_flt (s : State) (p off lo n v : Nat) : (s.setFld p off lo n v).flt = s.flt := wr_flt s _ _ _
@[simp] theorem setFld_lmpActive (s : State) (p off lo n v : Nat) : (s.setFld p off lo n v).lmpActive = s.lmpActive := wr_lmpActive s _ _ _
@[simp] theorem setFld_yrx (s : State) (p off lo n v : Nat) : (s.setFld p off lo n v).yrx = s.yrx := wr_yrx s _ _ _
@[simp] theorem setFld_flumes (s : State) (p off lo n v : Nat) : (s.setFld p off lo n v).flumes = s.flumes := wr_flumes s _ _ _
@[simp] theorem setFld_ctxs (s : State) (p off lo n v : Nat) : (s.setFld p off lo n v).ctxs = s.ctxs := wr_ctxs s _ _ _
@[simp] theorem setFld_holds (s : State) (p off lo n v : Nat) : (s.setFld p off lo n v).holds = s.holds := wr_holds s _ _ _
@[simp] theorem setFld_slotIdx (s : State) (p off lo n v : Nat) : (s.setFld p off lo n v).slotIdx = s.slotIdx := wr_slotIdx s _ _ _
@[simp] theorem setFld_lateRecent (s : State) (p off lo n v : Nat) : (s.setFld p off lo n v).lateRecent = s.lateRecent := wr_lateRecent s _ _ _
@[simp] theorem setFld_lnd (s : State) (p off lo n v : Nat) : (s.setFld p off lo n v).lnd = s.lnd := wr_lnd s _ _ _
@[simp] theorem setFld_shares (s : State) (p off lo n v : Nat) : (s.setFld p off lo n v).shares = s.shares := wr_shares s _ _ _
@[simp] theorem setFld_lmp (s : State) (p off lo n v : Nat) : (s.setFld p off lo n v).lmp = s.lmp := wr_lmp s _ _ _
@[simp] theorem setFld_tly (s : State) (p off lo n v : Nat) : (s.setFld p off lo n v).tly = s.tly := wr_tly s _ _ _
@[simp] theorem setFld_jports (s : State) (p off lo n v : Nat) : (s.setFld p off lo n v).jports = s.jports := wr_jports s _ _ _
@[simp] theorem setFld_tilesOf (s : State) (p off lo n v : Nat) : (s.setFld p off lo n v).tilesOf = s.tilesOf := wr_tilesOf s _ _ _
@[simp] theorem setFld_subs (s : State) (p off lo n v : Nat) : (s.setFld p off lo n v).subs = s.subs := wr_subs s _ _ _
@[simp] theorem setFld_posts (s : State) (p off lo n v : Nat) : (s.setFld p off lo n v).posts = s.posts := wr_posts s _ _ _
@[simp] theorem setFld_seqs (s : State) (p off lo n v : Nat) : (s.setFld p off lo n v).seqs = s.seqs := wr_seqs s _ _ _
@[simp] theorem setFld_eicSat (s : State) (p off lo n v : Nat) : (s.setFld p off lo n v).eicSat = s.eicSat := wr_eicSat s _ _ _
@[simp] theorem setFld_cleared (s : State) (p off lo n v : Nat) : (s.setFld p off lo n v).cleared = s.cleared := wr_cleared s _ _ _
@[simp] theorem setFld_mgmt (s : State) (p off lo n v : Nat) : (s.setFld p off lo n v).mgmt = s.mgmt := wr_mgmt s _ _ _
@[simp] theorem setFld_skch (s : State) (p off lo n v : Nat) : (s.setFld p off lo n v).skch = s.skch := wr_skch s _ _ _
@[simp] theorem setFld_yard (s : State) (p off lo n v : Nat) : (s.setFld p off lo n v).yard = s.yard := wr_yard s _ _ _
@[simp] theorem setFld_chk (s : State) (p off lo n v : Nat) : (s.setFld p off lo n v).chk = s.chk := wr_chk s _ _ _
@[simp] theorem setFld_jout (s : State) (p off lo n v : Nat) : (s.setFld p off lo n v).jout = s.jout := wr_jout s _ _ _
@[simp] theorem setFld_mem (s : State) (p off lo n v : Nat) : (s.setFld p off lo n v).mem = s.mem := wr_mem s _ _ _
@[simp] theorem setFld_stand (s : State) (p off lo n v : Nat) : (s.setFld p off lo n v).stand = s.stand := wr_stand s _ _ _
@[simp] theorem setFld_freeCtr (s : State) (p off lo n v : Nat) : (s.setFld p off lo n v).freeCtr = s.freeCtr := wr_freeCtr s _ _ _
@[simp] theorem setFld_out (s : State) (p off lo n v : Nat) : (s.setFld p off lo n v).out = s.out := wr_out s _ _ _

/-! ## setBit -/

@[simp] theorem setBit_pending (s : State) (p off b : Nat) (v : Bool) : (s.setBit p off b v).pending = s.pending := setFld_pending s _ _ _ _ _
@[simp] theorem setBit_tables (s : State) (p off b : Nat) (v : Bool) : (s.setBit p off b v).tables = s.tables := setFld_tables s _ _ _ _ _
@[simp] theorem setBit_host (s : State) (p off b : Nat) (v : Bool) : (s.setBit p off b v).host = s.host := setFld_host s _ _ _ _ _
@[simp] theorem setBit_hbm (s : State) (p off b : Nat) (v : Bool) : (s.setBit p off b v).hbm = s.hbm := setFld_hbm s _ _ _ _ _
@[simp] theorem setBit_posted (s : State) (p off b : Nat) (v : Bool) : (s.setBit p off b v).posted = s.posted := setFld_posted s _ _ _ _ _
@[simp] theorem setBit_windows (s : State) (p off b : Nat) (v : Bool) : (s.setBit p off b v).windows = s.windows := setFld_windows s _ _ _ _ _
@[simp] theorem setBit_sq (s : State) (p off b : Nat) (v : Bool) : (s.setBit p off b v).sq = s.sq := setFld_sq s _ _ _ _ _
@[simp] theorem setBit_cq (s : State) (p off b : Nat) (v : Bool) : (s.setBit p off b v).cq = s.cq := setFld_cq s _ _ _ _ _
@[simp] theorem setBit_arb (s : State) (p off b : Nat) (v : Bool) : (s.setBit p off b v).arb = s.arb := setFld_arb s _ _ _ _ _
@[simp] theorem setBit_hif (s : State) (p off b : Nat) (v : Bool) : (s.setBit p off b v).hif = s.hif := setFld_hif s _ _ _ _ _
@[simp] theorem setBit_black (s : State) (p off b : Nat) (v : Bool) : (s.setBit p off b v).black = s.black := setFld_black s _ _ _ _ _
@[simp] theorem setBit_tim (s : State) (p off b : Nat) (v : Bool) : (s.setBit p off b v).tim = s.tim := setFld_tim s _ _ _ _ _
@[simp] theorem setBit_flt (s : State) (p off b : Nat) (v : Bool) : (s.setBit p off b v).flt = s.flt := setFld_flt s _ _ _ _ _
@[simp] theorem setBit_lmpActive (s : State) (p off b : Nat) (v : Bool) : (s.setBit p off b v).lmpActive = s.lmpActive := setFld_lmpActive s _ _ _ _ _
@[simp] theorem setBit_yrx (s : State) (p off b : Nat) (v : Bool) : (s.setBit p off b v).yrx = s.yrx := setFld_yrx s _ _ _ _ _
@[simp] theorem setBit_flumes (s : State) (p off b : Nat) (v : Bool) : (s.setBit p off b v).flumes = s.flumes := setFld_flumes s _ _ _ _ _
@[simp] theorem setBit_ctxs (s : State) (p off b : Nat) (v : Bool) : (s.setBit p off b v).ctxs = s.ctxs := setFld_ctxs s _ _ _ _ _
@[simp] theorem setBit_holds (s : State) (p off b : Nat) (v : Bool) : (s.setBit p off b v).holds = s.holds := setFld_holds s _ _ _ _ _
@[simp] theorem setBit_slotIdx (s : State) (p off b : Nat) (v : Bool) : (s.setBit p off b v).slotIdx = s.slotIdx := setFld_slotIdx s _ _ _ _ _
@[simp] theorem setBit_lateRecent (s : State) (p off b : Nat) (v : Bool) : (s.setBit p off b v).lateRecent = s.lateRecent := setFld_lateRecent s _ _ _ _ _
@[simp] theorem setBit_lnd (s : State) (p off b : Nat) (v : Bool) : (s.setBit p off b v).lnd = s.lnd := setFld_lnd s _ _ _ _ _
@[simp] theorem setBit_shares (s : State) (p off b : Nat) (v : Bool) : (s.setBit p off b v).shares = s.shares := setFld_shares s _ _ _ _ _
@[simp] theorem setBit_lmp (s : State) (p off b : Nat) (v : Bool) : (s.setBit p off b v).lmp = s.lmp := setFld_lmp s _ _ _ _ _
@[simp] theorem setBit_tly (s : State) (p off b : Nat) (v : Bool) : (s.setBit p off b v).tly = s.tly := setFld_tly s _ _ _ _ _
@[simp] theorem setBit_jports (s : State) (p off b : Nat) (v : Bool) : (s.setBit p off b v).jports = s.jports := setFld_jports s _ _ _ _ _
@[simp] theorem setBit_tilesOf (s : State) (p off b : Nat) (v : Bool) : (s.setBit p off b v).tilesOf = s.tilesOf := setFld_tilesOf s _ _ _ _ _
@[simp] theorem setBit_subs (s : State) (p off b : Nat) (v : Bool) : (s.setBit p off b v).subs = s.subs := setFld_subs s _ _ _ _ _
@[simp] theorem setBit_posts (s : State) (p off b : Nat) (v : Bool) : (s.setBit p off b v).posts = s.posts := setFld_posts s _ _ _ _ _
@[simp] theorem setBit_seqs (s : State) (p off b : Nat) (v : Bool) : (s.setBit p off b v).seqs = s.seqs := setFld_seqs s _ _ _ _ _
@[simp] theorem setBit_eicSat (s : State) (p off b : Nat) (v : Bool) : (s.setBit p off b v).eicSat = s.eicSat := setFld_eicSat s _ _ _ _ _
@[simp] theorem setBit_cleared (s : State) (p off b : Nat) (v : Bool) : (s.setBit p off b v).cleared = s.cleared := setFld_cleared s _ _ _ _ _
@[simp] theorem setBit_mgmt (s : State) (p off b : Nat) (v : Bool) : (s.setBit p off b v).mgmt = s.mgmt := setFld_mgmt s _ _ _ _ _
@[simp] theorem setBit_skch (s : State) (p off b : Nat) (v : Bool) : (s.setBit p off b v).skch = s.skch := setFld_skch s _ _ _ _ _
@[simp] theorem setBit_yard (s : State) (p off b : Nat) (v : Bool) : (s.setBit p off b v).yard = s.yard := setFld_yard s _ _ _ _ _
@[simp] theorem setBit_chk (s : State) (p off b : Nat) (v : Bool) : (s.setBit p off b v).chk = s.chk := setFld_chk s _ _ _ _ _
@[simp] theorem setBit_jout (s : State) (p off b : Nat) (v : Bool) : (s.setBit p off b v).jout = s.jout := setFld_jout s _ _ _ _ _
@[simp] theorem setBit_mem (s : State) (p off b : Nat) (v : Bool) : (s.setBit p off b v).mem = s.mem := setFld_mem s _ _ _ _ _
@[simp] theorem setBit_stand (s : State) (p off b : Nat) (v : Bool) : (s.setBit p off b v).stand = s.stand := setFld_stand s _ _ _ _ _
@[simp] theorem setBit_freeCtr (s : State) (p off b : Nat) (v : Bool) : (s.setBit p off b v).freeCtr = s.freeCtr := setFld_freeCtr s _ _ _ _ _
@[simp] theorem setBit_out (s : State) (p off b : Nat) (v : Bool) : (s.setBit p off b v).out = s.out := setFld_out s _ _ _ _ _

/-! ## incr -/

@[simp] theorem incr_pending (s : State) (p off : Nat) : (s.incr p off).pending = s.pending := wr_pending s _ _ _
@[simp] theorem incr_tables (s : State) (p off : Nat) : (s.incr p off).tables = s.tables := wr_tables s _ _ _
@[simp] theorem incr_host (s : State) (p off : Nat) : (s.incr p off).host = s.host := wr_host s _ _ _
@[simp] theorem incr_hbm (s : State) (p off : Nat) : (s.incr p off).hbm = s.hbm := wr_hbm s _ _ _
@[simp] theorem incr_posted (s : State) (p off : Nat) : (s.incr p off).posted = s.posted := wr_posted s _ _ _
@[simp] theorem incr_windows (s : State) (p off : Nat) : (s.incr p off).windows = s.windows := wr_windows s _ _ _
@[simp] theorem incr_sq (s : State) (p off : Nat) : (s.incr p off).sq = s.sq := wr_sq s _ _ _
@[simp] theorem incr_cq (s : State) (p off : Nat) : (s.incr p off).cq = s.cq := wr_cq s _ _ _
@[simp] theorem incr_arb (s : State) (p off : Nat) : (s.incr p off).arb = s.arb := wr_arb s _ _ _
@[simp] theorem incr_hif (s : State) (p off : Nat) : (s.incr p off).hif = s.hif := wr_hif s _ _ _
@[simp] theorem incr_black (s : State) (p off : Nat) : (s.incr p off).black = s.black := wr_black s _ _ _
@[simp] theorem incr_tim (s : State) (p off : Nat) : (s.incr p off).tim = s.tim := wr_tim s _ _ _
@[simp] theorem incr_flt (s : State) (p off : Nat) : (s.incr p off).flt = s.flt := wr_flt s _ _ _
@[simp] theorem incr_lmpActive (s : State) (p off : Nat) : (s.incr p off).lmpActive = s.lmpActive := wr_lmpActive s _ _ _
@[simp] theorem incr_yrx (s : State) (p off : Nat) : (s.incr p off).yrx = s.yrx := wr_yrx s _ _ _
@[simp] theorem incr_flumes (s : State) (p off : Nat) : (s.incr p off).flumes = s.flumes := wr_flumes s _ _ _
@[simp] theorem incr_ctxs (s : State) (p off : Nat) : (s.incr p off).ctxs = s.ctxs := wr_ctxs s _ _ _
@[simp] theorem incr_holds (s : State) (p off : Nat) : (s.incr p off).holds = s.holds := wr_holds s _ _ _
@[simp] theorem incr_slotIdx (s : State) (p off : Nat) : (s.incr p off).slotIdx = s.slotIdx := wr_slotIdx s _ _ _
@[simp] theorem incr_lateRecent (s : State) (p off : Nat) : (s.incr p off).lateRecent = s.lateRecent := wr_lateRecent s _ _ _
@[simp] theorem incr_lnd (s : State) (p off : Nat) : (s.incr p off).lnd = s.lnd := wr_lnd s _ _ _
@[simp] theorem incr_shares (s : State) (p off : Nat) : (s.incr p off).shares = s.shares := wr_shares s _ _ _
@[simp] theorem incr_lmp (s : State) (p off : Nat) : (s.incr p off).lmp = s.lmp := wr_lmp s _ _ _
@[simp] theorem incr_tly (s : State) (p off : Nat) : (s.incr p off).tly = s.tly := wr_tly s _ _ _
@[simp] theorem incr_jports (s : State) (p off : Nat) : (s.incr p off).jports = s.jports := wr_jports s _ _ _
@[simp] theorem incr_tilesOf (s : State) (p off : Nat) : (s.incr p off).tilesOf = s.tilesOf := wr_tilesOf s _ _ _
@[simp] theorem incr_subs (s : State) (p off : Nat) : (s.incr p off).subs = s.subs := wr_subs s _ _ _
@[simp] theorem incr_posts (s : State) (p off : Nat) : (s.incr p off).posts = s.posts := wr_posts s _ _ _
@[simp] theorem incr_seqs (s : State) (p off : Nat) : (s.incr p off).seqs = s.seqs := wr_seqs s _ _ _
@[simp] theorem incr_eicSat (s : State) (p off : Nat) : (s.incr p off).eicSat = s.eicSat := wr_eicSat s _ _ _
@[simp] theorem incr_cleared (s : State) (p off : Nat) : (s.incr p off).cleared = s.cleared := wr_cleared s _ _ _
@[simp] theorem incr_mgmt (s : State) (p off : Nat) : (s.incr p off).mgmt = s.mgmt := wr_mgmt s _ _ _
@[simp] theorem incr_skch (s : State) (p off : Nat) : (s.incr p off).skch = s.skch := wr_skch s _ _ _
@[simp] theorem incr_yard (s : State) (p off : Nat) : (s.incr p off).yard = s.yard := wr_yard s _ _ _
@[simp] theorem incr_chk (s : State) (p off : Nat) : (s.incr p off).chk = s.chk := wr_chk s _ _ _
@[simp] theorem incr_jout (s : State) (p off : Nat) : (s.incr p off).jout = s.jout := wr_jout s _ _ _
@[simp] theorem incr_mem (s : State) (p off : Nat) : (s.incr p off).mem = s.mem := wr_mem s _ _ _
@[simp] theorem incr_stand (s : State) (p off : Nat) : (s.incr p off).stand = s.stand := wr_stand s _ _ _
@[simp] theorem incr_freeCtr (s : State) (p off : Nat) : (s.incr p off).freeCtr = s.freeCtr := wr_freeCtr s _ _ _
@[simp] theorem incr_out (s : State) (p off : Nat) : (s.incr p off).out = s.out := wr_out s _ _ _

/-! ## setTabAt -/

@[simp] theorem setTabAt_pending (s : State) (p k c i v : Nat) : (s.setTabAt p k c i v).pending = s.pending := rfl
@[simp] theorem setTabAt_regs (s : State) (p k c i v : Nat) : (s.setTabAt p k c i v).regs = s.regs := rfl
@[simp] theorem setTabAt_host (s : State) (p k c i v : Nat) : (s.setTabAt p k c i v).host = s.host := rfl
@[simp] theorem setTabAt_hbm (s : State) (p k c i v : Nat) : (s.setTabAt p k c i v).hbm = s.hbm := rfl
@[simp] theorem setTabAt_posted (s : State) (p k c i v : Nat) : (s.setTabAt p k c i v).posted = s.posted := rfl
@[simp] theorem setTabAt_windows (s : State) (p k c i v : Nat) : (s.setTabAt p k c i v).windows = s.windows := rfl
@[simp] theorem setTabAt_sq (s : State) (p k c i v : Nat) : (s.setTabAt p k c i v).sq = s.sq := rfl
@[simp] theorem setTabAt_cq (s : State) (p k c i v : Nat) : (s.setTabAt p k c i v).cq = s.cq := rfl
@[simp] theorem setTabAt_arb (s : State) (p k c i v : Nat) : (s.setTabAt p k c i v).arb = s.arb := rfl
@[simp] theorem setTabAt_hif (s : State) (p k c i v : Nat) : (s.setTabAt p k c i v).hif = s.hif := rfl
@[simp] theorem setTabAt_black (s : State) (p k c i v : Nat) : (s.setTabAt p k c i v).black = s.black := rfl
@[simp] theorem setTabAt_tim (s : State) (p k c i v : Nat) : (s.setTabAt p k c i v).tim = s.tim := rfl
@[simp] theorem setTabAt_flt (s : State) (p k c i v : Nat) : (s.setTabAt p k c i v).flt = s.flt := rfl
@[simp] theorem setTabAt_lmpActive (s : State) (p k c i v : Nat) : (s.setTabAt p k c i v).lmpActive = s.lmpActive := rfl
@[simp] theorem setTabAt_yrx (s : State) (p k c i v : Nat) : (s.setTabAt p k c i v).yrx = s.yrx := rfl
@[simp] theorem setTabAt_flumes (s : State) (p k c i v : Nat) : (s.setTabAt p k c i v).flumes = s.flumes := rfl
@[simp] theorem setTabAt_ctxs (s : State) (p k c i v : Nat) : (s.setTabAt p k c i v).ctxs = s.ctxs := rfl
@[simp] theorem setTabAt_holds (s : State) (p k c i v : Nat) : (s.setTabAt p k c i v).holds = s.holds := rfl
@[simp] theorem setTabAt_slotIdx (s : State) (p k c i v : Nat) : (s.setTabAt p k c i v).slotIdx = s.slotIdx := rfl
@[simp] theorem setTabAt_lateRecent (s : State) (p k c i v : Nat) : (s.setTabAt p k c i v).lateRecent = s.lateRecent := rfl
@[simp] theorem setTabAt_lnd (s : State) (p k c i v : Nat) : (s.setTabAt p k c i v).lnd = s.lnd := rfl
@[simp] theorem setTabAt_shares (s : State) (p k c i v : Nat) : (s.setTabAt p k c i v).shares = s.shares := rfl
@[simp] theorem setTabAt_lmp (s : State) (p k c i v : Nat) : (s.setTabAt p k c i v).lmp = s.lmp := rfl
@[simp] theorem setTabAt_tly (s : State) (p k c i v : Nat) : (s.setTabAt p k c i v).tly = s.tly := rfl
@[simp] theorem setTabAt_jports (s : State) (p k c i v : Nat) : (s.setTabAt p k c i v).jports = s.jports := rfl
@[simp] theorem setTabAt_tilesOf (s : State) (p k c i v : Nat) : (s.setTabAt p k c i v).tilesOf = s.tilesOf := rfl
@[simp] theorem setTabAt_subs (s : State) (p k c i v : Nat) : (s.setTabAt p k c i v).subs = s.subs := rfl
@[simp] theorem setTabAt_posts (s : State) (p k c i v : Nat) : (s.setTabAt p k c i v).posts = s.posts := rfl
@[simp] theorem setTabAt_seqs (s : State) (p k c i v : Nat) : (s.setTabAt p k c i v).seqs = s.seqs := rfl
@[simp] theorem setTabAt_eicSat (s : State) (p k c i v : Nat) : (s.setTabAt p k c i v).eicSat = s.eicSat := rfl
@[simp] theorem setTabAt_cleared (s : State) (p k c i v : Nat) : (s.setTabAt p k c i v).cleared = s.cleared := rfl
@[simp] theorem setTabAt_mgmt (s : State) (p k c i v : Nat) : (s.setTabAt p k c i v).mgmt = s.mgmt := rfl
@[simp] theorem setTabAt_skch (s : State) (p k c i v : Nat) : (s.setTabAt p k c i v).skch = s.skch := rfl
@[simp] theorem setTabAt_yard (s : State) (p k c i v : Nat) : (s.setTabAt p k c i v).yard = s.yard := rfl
@[simp] theorem setTabAt_chk (s : State) (p k c i v : Nat) : (s.setTabAt p k c i v).chk = s.chk := rfl
@[simp] theorem setTabAt_jout (s : State) (p k c i v : Nat) : (s.setTabAt p k c i v).jout = s.jout := rfl
@[simp] theorem setTabAt_mem (s : State) (p k c i v : Nat) : (s.setTabAt p k c i v).mem = s.mem := rfl
@[simp] theorem setTabAt_stand (s : State) (p k c i v : Nat) : (s.setTabAt p k c i v).stand = s.stand := rfl
@[simp] theorem setTabAt_freeCtr (s : State) (p k c i v : Nat) : (s.setTabAt p k c i v).freeCtr = s.freeCtr := rfl
@[simp] theorem setTabAt_out (s : State) (p k c i v : Nat) : (s.setTabAt p k c i v).out = s.out := rfl

/-! ## setHost -/

@[simp] theorem setHost_pending (s : State) (a : Nat) (l : List Byte) : (s.setHost a l).pending = s.pending := by simp only [setHost, wakeLink, setBit_pending]
@[simp] theorem setHost_tables (s : State) (a : Nat) (l : List Byte) : (s.setHost a l).tables = s.tables := by simp only [setHost, wakeLink, setBit_tables]
@[simp] theorem setHost_hbm (s : State) (a : Nat) (l : List Byte) : (s.setHost a l).hbm = s.hbm := by simp only [setHost, wakeLink, setBit_hbm]
@[simp] theorem setHost_posted (s : State) (a : Nat) (l : List Byte) : (s.setHost a l).posted = s.posted := by simp only [setHost, wakeLink, setBit_posted]
@[simp] theorem setHost_windows (s : State) (a : Nat) (l : List Byte) : (s.setHost a l).windows = s.windows := by simp only [setHost, wakeLink, setBit_windows]
@[simp] theorem setHost_sq (s : State) (a : Nat) (l : List Byte) : (s.setHost a l).sq = s.sq := by simp only [setHost, wakeLink, setBit_sq]
@[simp] theorem setHost_cq (s : State) (a : Nat) (l : List Byte) : (s.setHost a l).cq = s.cq := by simp only [setHost, wakeLink, setBit_cq]
@[simp] theorem setHost_arb (s : State) (a : Nat) (l : List Byte) : (s.setHost a l).arb = s.arb := by simp only [setHost, wakeLink, setBit_arb]
@[simp] theorem setHost_hif (s : State) (a : Nat) (l : List Byte) : (s.setHost a l).hif = s.hif := by simp only [setHost, wakeLink, setBit_hif]
@[simp] theorem setHost_black (s : State) (a : Nat) (l : List Byte) : (s.setHost a l).black = s.black := by simp only [setHost, wakeLink, setBit_black]
@[simp] theorem setHost_tim (s : State) (a : Nat) (l : List Byte) : (s.setHost a l).tim = s.tim := by simp only [setHost, wakeLink, setBit_tim]
@[simp] theorem setHost_flt (s : State) (a : Nat) (l : List Byte) : (s.setHost a l).flt = s.flt := by simp only [setHost, wakeLink, setBit_flt]
@[simp] theorem setHost_lmpActive (s : State) (a : Nat) (l : List Byte) : (s.setHost a l).lmpActive = s.lmpActive := by simp only [setHost, wakeLink, setBit_lmpActive]
@[simp] theorem setHost_yrx (s : State) (a : Nat) (l : List Byte) : (s.setHost a l).yrx = s.yrx := by simp only [setHost, wakeLink, setBit_yrx]
@[simp] theorem setHost_flumes (s : State) (a : Nat) (l : List Byte) : (s.setHost a l).flumes = s.flumes := by simp only [setHost, wakeLink, setBit_flumes]
@[simp] theorem setHost_ctxs (s : State) (a : Nat) (l : List Byte) : (s.setHost a l).ctxs = s.ctxs := by simp only [setHost, wakeLink, setBit_ctxs]
@[simp] theorem setHost_holds (s : State) (a : Nat) (l : List Byte) : (s.setHost a l).holds = s.holds := by simp only [setHost, wakeLink, setBit_holds]
@[simp] theorem setHost_slotIdx (s : State) (a : Nat) (l : List Byte) : (s.setHost a l).slotIdx = s.slotIdx := by simp only [setHost, wakeLink, setBit_slotIdx]
@[simp] theorem setHost_lateRecent (s : State) (a : Nat) (l : List Byte) : (s.setHost a l).lateRecent = s.lateRecent := by simp only [setHost, wakeLink, setBit_lateRecent]
@[simp] theorem setHost_lnd (s : State) (a : Nat) (l : List Byte) : (s.setHost a l).lnd = s.lnd := by simp only [setHost, wakeLink, setBit_lnd]
@[simp] theorem setHost_shares (s : State) (a : Nat) (l : List Byte) : (s.setHost a l).shares = s.shares := by simp only [setHost, wakeLink, setBit_shares]
@[simp] theorem setHost_lmp (s : State) (a : Nat) (l : List Byte) : (s.setHost a l).lmp = s.lmp := by simp only [setHost, wakeLink, setBit_lmp]
@[simp] theorem setHost_tly (s : State) (a : Nat) (l : List Byte) : (s.setHost a l).tly = s.tly := by simp only [setHost, wakeLink, setBit_tly]
@[simp] theorem setHost_jports (s : State) (a : Nat) (l : List Byte) : (s.setHost a l).jports = s.jports := by simp only [setHost, wakeLink, setBit_jports]
@[simp] theorem setHost_tilesOf (s : State) (a : Nat) (l : List Byte) : (s.setHost a l).tilesOf = s.tilesOf := by simp only [setHost, wakeLink, setBit_tilesOf]
@[simp] theorem setHost_subs (s : State) (a : Nat) (l : List Byte) : (s.setHost a l).subs = s.subs := by simp only [setHost, wakeLink, setBit_subs]
@[simp] theorem setHost_posts (s : State) (a : Nat) (l : List Byte) : (s.setHost a l).posts = s.posts := by simp only [setHost, wakeLink, setBit_posts]
@[simp] theorem setHost_seqs (s : State) (a : Nat) (l : List Byte) : (s.setHost a l).seqs = s.seqs := by simp only [setHost, wakeLink, setBit_seqs]
@[simp] theorem setHost_eicSat (s : State) (a : Nat) (l : List Byte) : (s.setHost a l).eicSat = s.eicSat := by simp only [setHost, wakeLink, setBit_eicSat]
@[simp] theorem setHost_cleared (s : State) (a : Nat) (l : List Byte) : (s.setHost a l).cleared = s.cleared := by simp only [setHost, wakeLink, setBit_cleared]
@[simp] theorem setHost_mgmt (s : State) (a : Nat) (l : List Byte) : (s.setHost a l).mgmt = s.mgmt := by simp only [setHost, wakeLink, setBit_mgmt]
@[simp] theorem setHost_skch (s : State) (a : Nat) (l : List Byte) : (s.setHost a l).skch = s.skch := by simp only [setHost, wakeLink, setBit_skch]
@[simp] theorem setHost_yard (s : State) (a : Nat) (l : List Byte) : (s.setHost a l).yard = s.yard := by simp only [setHost, wakeLink, setBit_yard]
@[simp] theorem setHost_chk (s : State) (a : Nat) (l : List Byte) : (s.setHost a l).chk = s.chk := by simp only [setHost, wakeLink, setBit_chk]
@[simp] theorem setHost_jout (s : State) (a : Nat) (l : List Byte) : (s.setHost a l).jout = s.jout := by simp only [setHost, wakeLink, setBit_jout]
@[simp] theorem setHost_mem (s : State) (a : Nat) (l : List Byte) : (s.setHost a l).mem = s.mem := by simp only [setHost, wakeLink, setBit_mem]
@[simp] theorem setHost_stand (s : State) (a : Nat) (l : List Byte) : (s.setHost a l).stand = s.stand := by simp only [setHost, wakeLink, setBit_stand]
@[simp] theorem setHost_freeCtr (s : State) (a : Nat) (l : List Byte) : (s.setHost a l).freeCtr = s.freeCtr := by simp only [setHost, wakeLink, setBit_freeCtr]
@[simp] theorem setHost_out (s : State) (a : Nat) (l : List Byte) : (s.setHost a l).out = s.out := by simp only [setHost, wakeLink, setBit_out]

/-! ## setHbm -/

@[simp] theorem setHbm_pending (s : State) (a : Nat) (l : List Byte) : (s.setHbm a l).pending = s.pending := rfl
@[simp] theorem setHbm_regs (s : State) (a : Nat) (l : List Byte) : (s.setHbm a l).regs = s.regs := rfl
@[simp] theorem setHbm_tables (s : State) (a : Nat) (l : List Byte) : (s.setHbm a l).tables = s.tables := rfl
@[simp] theorem setHbm_host (s : State) (a : Nat) (l : List Byte) : (s.setHbm a l).host = s.host := rfl
@[simp] theorem setHbm_posted (s : State) (a : Nat) (l : List Byte) : (s.setHbm a l).posted = s.posted := rfl
@[simp] theorem setHbm_windows (s : State) (a : Nat) (l : List Byte) : (s.setHbm a l).windows = s.windows := rfl
@[simp] theorem setHbm_sq (s : State) (a : Nat) (l : List Byte) : (s.setHbm a l).sq = s.sq := rfl
@[simp] theorem setHbm_cq (s : State) (a : Nat) (l : List Byte) : (s.setHbm a l).cq = s.cq := rfl
@[simp] theorem setHbm_arb (s : State) (a : Nat) (l : List Byte) : (s.setHbm a l).arb = s.arb := rfl
@[simp] theorem setHbm_hif (s : State) (a : Nat) (l : List Byte) : (s.setHbm a l).hif = s.hif := rfl
@[simp] theorem setHbm_black (s : State) (a : Nat) (l : List Byte) : (s.setHbm a l).black = s.black := rfl
@[simp] theorem setHbm_tim (s : State) (a : Nat) (l : List Byte) : (s.setHbm a l).tim = s.tim := rfl
@[simp] theorem setHbm_flt (s : State) (a : Nat) (l : List Byte) : (s.setHbm a l).flt = s.flt := rfl
@[simp] theorem setHbm_lmpActive (s : State) (a : Nat) (l : List Byte) : (s.setHbm a l).lmpActive = s.lmpActive := rfl
@[simp] theorem setHbm_yrx (s : State) (a : Nat) (l : List Byte) : (s.setHbm a l).yrx = s.yrx := rfl
@[simp] theorem setHbm_flumes (s : State) (a : Nat) (l : List Byte) : (s.setHbm a l).flumes = s.flumes := rfl
@[simp] theorem setHbm_ctxs (s : State) (a : Nat) (l : List Byte) : (s.setHbm a l).ctxs = s.ctxs := rfl
@[simp] theorem setHbm_holds (s : State) (a : Nat) (l : List Byte) : (s.setHbm a l).holds = s.holds := rfl
@[simp] theorem setHbm_slotIdx (s : State) (a : Nat) (l : List Byte) : (s.setHbm a l).slotIdx = s.slotIdx := rfl
@[simp] theorem setHbm_lateRecent (s : State) (a : Nat) (l : List Byte) : (s.setHbm a l).lateRecent = s.lateRecent := rfl
@[simp] theorem setHbm_lnd (s : State) (a : Nat) (l : List Byte) : (s.setHbm a l).lnd = s.lnd := rfl
@[simp] theorem setHbm_shares (s : State) (a : Nat) (l : List Byte) : (s.setHbm a l).shares = s.shares := rfl
@[simp] theorem setHbm_lmp (s : State) (a : Nat) (l : List Byte) : (s.setHbm a l).lmp = s.lmp := rfl
@[simp] theorem setHbm_tly (s : State) (a : Nat) (l : List Byte) : (s.setHbm a l).tly = s.tly := rfl
@[simp] theorem setHbm_jports (s : State) (a : Nat) (l : List Byte) : (s.setHbm a l).jports = s.jports := rfl
@[simp] theorem setHbm_tilesOf (s : State) (a : Nat) (l : List Byte) : (s.setHbm a l).tilesOf = s.tilesOf := rfl
@[simp] theorem setHbm_subs (s : State) (a : Nat) (l : List Byte) : (s.setHbm a l).subs = s.subs := rfl
@[simp] theorem setHbm_posts (s : State) (a : Nat) (l : List Byte) : (s.setHbm a l).posts = s.posts := rfl
@[simp] theorem setHbm_seqs (s : State) (a : Nat) (l : List Byte) : (s.setHbm a l).seqs = s.seqs := rfl
@[simp] theorem setHbm_eicSat (s : State) (a : Nat) (l : List Byte) : (s.setHbm a l).eicSat = s.eicSat := rfl
@[simp] theorem setHbm_cleared (s : State) (a : Nat) (l : List Byte) : (s.setHbm a l).cleared = s.cleared := rfl
@[simp] theorem setHbm_mgmt (s : State) (a : Nat) (l : List Byte) : (s.setHbm a l).mgmt = s.mgmt := rfl
@[simp] theorem setHbm_skch (s : State) (a : Nat) (l : List Byte) : (s.setHbm a l).skch = s.skch := rfl
@[simp] theorem setHbm_yard (s : State) (a : Nat) (l : List Byte) : (s.setHbm a l).yard = s.yard := rfl
@[simp] theorem setHbm_chk (s : State) (a : Nat) (l : List Byte) : (s.setHbm a l).chk = s.chk := rfl
@[simp] theorem setHbm_jout (s : State) (a : Nat) (l : List Byte) : (s.setHbm a l).jout = s.jout := rfl
@[simp] theorem setHbm_mem (s : State) (a : Nat) (l : List Byte) : (s.setHbm a l).mem = s.mem := rfl
@[simp] theorem setHbm_stand (s : State) (a : Nat) (l : List Byte) : (s.setHbm a l).stand = s.stand := rfl
@[simp] theorem setHbm_freeCtr (s : State) (a : Nat) (l : List Byte) : (s.setHbm a l).freeCtr = s.freeCtr := rfl
@[simp] theorem setHbm_out (s : State) (a : Nat) (l : List Byte) : (s.setHbm a l).out = s.out := rfl

/-! ## emit -/

@[simp] theorem emit_pending (s : State) (o : Output) : (s.emit o).pending = s.pending := rfl
@[simp] theorem emit_regs (s : State) (o : Output) : (s.emit o).regs = s.regs := rfl
@[simp] theorem emit_tables (s : State) (o : Output) : (s.emit o).tables = s.tables := rfl
@[simp] theorem emit_host (s : State) (o : Output) : (s.emit o).host = s.host := rfl
@[simp] theorem emit_hbm (s : State) (o : Output) : (s.emit o).hbm = s.hbm := rfl
@[simp] theorem emit_posted (s : State) (o : Output) : (s.emit o).posted = s.posted := rfl
@[simp] theorem emit_windows (s : State) (o : Output) : (s.emit o).windows = s.windows := rfl
@[simp] theorem emit_sq (s : State) (o : Output) : (s.emit o).sq = s.sq := rfl
@[simp] theorem emit_cq (s : State) (o : Output) : (s.emit o).cq = s.cq := rfl
@[simp] theorem emit_arb (s : State) (o : Output) : (s.emit o).arb = s.arb := rfl
@[simp] theorem emit_hif (s : State) (o : Output) : (s.emit o).hif = s.hif := rfl
@[simp] theorem emit_black (s : State) (o : Output) : (s.emit o).black = s.black := rfl
@[simp] theorem emit_tim (s : State) (o : Output) : (s.emit o).tim = s.tim := rfl
@[simp] theorem emit_flt (s : State) (o : Output) : (s.emit o).flt = s.flt := rfl
@[simp] theorem emit_lmpActive (s : State) (o : Output) : (s.emit o).lmpActive = s.lmpActive := rfl
@[simp] theorem emit_yrx (s : State) (o : Output) : (s.emit o).yrx = s.yrx := rfl
@[simp] theorem emit_flumes (s : State) (o : Output) : (s.emit o).flumes = s.flumes := rfl
@[simp] theorem emit_ctxs (s : State) (o : Output) : (s.emit o).ctxs = s.ctxs := rfl
@[simp] theorem emit_holds (s : State) (o : Output) : (s.emit o).holds = s.holds := rfl
@[simp] theorem emit_slotIdx (s : State) (o : Output) : (s.emit o).slotIdx = s.slotIdx := rfl
@[simp] theorem emit_lateRecent (s : State) (o : Output) : (s.emit o).lateRecent = s.lateRecent := rfl
@[simp] theorem emit_lnd (s : State) (o : Output) : (s.emit o).lnd = s.lnd := rfl
@[simp] theorem emit_shares (s : State) (o : Output) : (s.emit o).shares = s.shares := rfl
@[simp] theorem emit_lmp (s : State) (o : Output) : (s.emit o).lmp = s.lmp := rfl
@[simp] theorem emit_tly (s : State) (o : Output) : (s.emit o).tly = s.tly := rfl
@[simp] theorem emit_jports (s : State) (o : Output) : (s.emit o).jports = s.jports := rfl
@[simp] theorem emit_tilesOf (s : State) (o : Output) : (s.emit o).tilesOf = s.tilesOf := rfl
@[simp] theorem emit_subs (s : State) (o : Output) : (s.emit o).subs = s.subs := rfl
@[simp] theorem emit_posts (s : State) (o : Output) : (s.emit o).posts = s.posts := rfl
@[simp] theorem emit_seqs (s : State) (o : Output) : (s.emit o).seqs = s.seqs := rfl
@[simp] theorem emit_eicSat (s : State) (o : Output) : (s.emit o).eicSat = s.eicSat := rfl
@[simp] theorem emit_cleared (s : State) (o : Output) : (s.emit o).cleared = s.cleared := rfl
@[simp] theorem emit_mgmt (s : State) (o : Output) : (s.emit o).mgmt = s.mgmt := rfl
@[simp] theorem emit_skch (s : State) (o : Output) : (s.emit o).skch = s.skch := rfl
@[simp] theorem emit_yard (s : State) (o : Output) : (s.emit o).yard = s.yard := rfl
@[simp] theorem emit_chk (s : State) (o : Output) : (s.emit o).chk = s.chk := rfl
@[simp] theorem emit_jout (s : State) (o : Output) : (s.emit o).jout = s.jout := rfl
@[simp] theorem emit_mem (s : State) (o : Output) : (s.emit o).mem = s.mem := rfl
@[simp] theorem emit_stand (s : State) (o : Output) : (s.emit o).stand = s.stand := rfl
@[simp] theorem emit_freeCtr (s : State) (o : Output) : (s.emit o).freeCtr = s.freeCtr := rfl

/-! ## freeTaken -/

@[simp] theorem freeTaken_pending (s : State) : (s.freeTaken).pending = s.pending := rfl
@[simp] theorem freeTaken_regs (s : State) : (s.freeTaken).regs = s.regs := rfl
@[simp] theorem freeTaken_tables (s : State) : (s.freeTaken).tables = s.tables := rfl
@[simp] theorem freeTaken_host (s : State) : (s.freeTaken).host = s.host := rfl
@[simp] theorem freeTaken_hbm (s : State) : (s.freeTaken).hbm = s.hbm := rfl
@[simp] theorem freeTaken_posted (s : State) : (s.freeTaken).posted = s.posted := rfl
@[simp] theorem freeTaken_windows (s : State) : (s.freeTaken).windows = s.windows := rfl
@[simp] theorem freeTaken_sq (s : State) : (s.freeTaken).sq = s.sq := rfl
@[simp] theorem freeTaken_cq (s : State) : (s.freeTaken).cq = s.cq := rfl
@[simp] theorem freeTaken_arb (s : State) : (s.freeTaken).arb = s.arb := rfl
@[simp] theorem freeTaken_hif (s : State) : (s.freeTaken).hif = s.hif := rfl
@[simp] theorem freeTaken_black (s : State) : (s.freeTaken).black = s.black := rfl
@[simp] theorem freeTaken_tim (s : State) : (s.freeTaken).tim = s.tim := rfl
@[simp] theorem freeTaken_flt (s : State) : (s.freeTaken).flt = s.flt := rfl
@[simp] theorem freeTaken_lmpActive (s : State) : (s.freeTaken).lmpActive = s.lmpActive := rfl
@[simp] theorem freeTaken_yrx (s : State) : (s.freeTaken).yrx = s.yrx := rfl
@[simp] theorem freeTaken_flumes (s : State) : (s.freeTaken).flumes = s.flumes := rfl
@[simp] theorem freeTaken_ctxs (s : State) : (s.freeTaken).ctxs = s.ctxs := rfl
@[simp] theorem freeTaken_holds (s : State) : (s.freeTaken).holds = s.holds := rfl
@[simp] theorem freeTaken_slotIdx (s : State) : (s.freeTaken).slotIdx = s.slotIdx := rfl
@[simp] theorem freeTaken_lateRecent (s : State) : (s.freeTaken).lateRecent = s.lateRecent := rfl
@[simp] theorem freeTaken_lnd (s : State) : (s.freeTaken).lnd = s.lnd := rfl
@[simp] theorem freeTaken_shares (s : State) : (s.freeTaken).shares = s.shares := rfl
@[simp] theorem freeTaken_lmp (s : State) : (s.freeTaken).lmp = s.lmp := rfl
@[simp] theorem freeTaken_tly (s : State) : (s.freeTaken).tly = s.tly := rfl
@[simp] theorem freeTaken_jports (s : State) : (s.freeTaken).jports = s.jports := rfl
@[simp] theorem freeTaken_tilesOf (s : State) : (s.freeTaken).tilesOf = s.tilesOf := rfl
@[simp] theorem freeTaken_subs (s : State) : (s.freeTaken).subs = s.subs := rfl
@[simp] theorem freeTaken_posts (s : State) : (s.freeTaken).posts = s.posts := rfl
@[simp] theorem freeTaken_seqs (s : State) : (s.freeTaken).seqs = s.seqs := rfl
@[simp] theorem freeTaken_eicSat (s : State) : (s.freeTaken).eicSat = s.eicSat := rfl
@[simp] theorem freeTaken_cleared (s : State) : (s.freeTaken).cleared = s.cleared := rfl
@[simp] theorem freeTaken_mgmt (s : State) : (s.freeTaken).mgmt = s.mgmt := rfl
@[simp] theorem freeTaken_skch (s : State) : (s.freeTaken).skch = s.skch := rfl
@[simp] theorem freeTaken_yard (s : State) : (s.freeTaken).yard = s.yard := rfl
@[simp] theorem freeTaken_chk (s : State) : (s.freeTaken).chk = s.chk := rfl
@[simp] theorem freeTaken_jout (s : State) : (s.freeTaken).jout = s.jout := rfl
@[simp] theorem freeTaken_mem (s : State) : (s.freeTaken).mem = s.mem := rfl
@[simp] theorem freeTaken_stand (s : State) : (s.freeTaken).stand = s.stand := rfl
@[simp] theorem freeTaken_out (s : State) : (s.freeTaken).out = s.out := rfl

/-! ## The canonical form -/

/-- The state after reset has every memory and register store in its canonical form. -/
theorem storesWf_reset : reset.storesWf = true := rfl

/-- The five stores, one by one. -/
theorem storesWf_iff (s : State) : s.storesWf = true ↔ swf regReset s.regs = true ∧ swf (fun _ => 0) s.tables = true
    ∧ swf (fun _ => 0) s.host = true ∧ swf (fun _ => 0) s.hbm = true ∧ swf (fun _ => 0) s.yard = true := by
  simp [storesWf, and_assoc]

theorem storesWf_wr {s : State} (p off v : Nat) (h : s.storesWf = true) : (s.wr p off v).storesWf = true := by
  rw [storesWf_iff] at h ⊢
  exact ⟨swf_sset _ _ _ h.1, h.2⟩

theorem storesWf_setTabAt {s : State} (p k c i v : Nat) (h : s.storesWf = true) :
    (s.setTabAt p k c i v).storesWf = true := by
  rw [storesWf_iff] at h ⊢
  exact ⟨h.1, swf_sset _ _ _ h.2.1, h.2.2⟩

theorem storesWf_setHost {s : State} (a : Nat) (l : List Byte) (h : s.storesWf = true) :
    (s.setHost a l).storesWf = true := by
  have h1 : s.wakeLink.storesWf = true := storesWf_wr _ _ _ h
  rw [storesWf_iff] at h1 ⊢
  exact ⟨h1.1, h1.2.1, swf_ssetList _ _ _ h1.2.2.1, h1.2.2.2⟩

theorem storesWf_setHbm {s : State} (a : Nat) (l : List Byte) (h : s.storesWf = true) :
    (s.setHbm a l).storesWf = true := by
  rw [storesWf_iff] at h ⊢
  exact ⟨h.1, h.2.1, h.2.2.1, swf_ssetList _ _ _ h.2.2.2.1, h.2.2.2.2⟩

end Sys2Proof.Machine.State
end

