-- ==== Sys2Proof/WellFormed.lean ====
section
/-! DEFINITION. Which commands are well formed: what a sender outside the block can send at all. The meaning of a command
is total and does not ask for it; the checks say what the environment's operands are meant to be. -/
namespace Sys2Proof

/-- A number that fits in so many bytes. -/
def fitsIn (v : BitVec 1024) (size : Nat) : Bool := decide (128 ≤ size) || decide (v.toNat < 2 ^ (8 * size))

/-- A host write carries at least one byte, and no more data than its bytes; a read of length 0 is one the engine accepts (R49). -/
def HostWrite.wf (a : HostWrite) : Bool := decide (1 ≤ a.size) && fitsIn a.data a.size

/-- The same of a REG message (R414); a proxied host request moves at least one byte. -/
def RegMsg.wf : RegMsg → Bool
  | .access _ isRead _ size _ data _ => (isRead || decide (1 ≤ size)) && fitsIn data size
  | .hostRead _ n _ => decide (1 ≤ n)
  | .hostWrite _ data => !data.isEmpty
  | .pme => true

/-- A plane is a rectangle: every line as long as the first. -/
def planeWf (p : Plane) : Bool := p.all fun l => decide (l.length = (p.headD []).length)

/-- Samples of a picture: known chroma format and depth, rectangular planes (R131). -/
def SrcPic.wf (p : SrcPic) : Bool :=
  decide (p.chroma ≤ 2) && decide (p.depth ≤ 16) && planeWf p.y && planeWf p.cb && planeWf p.cr

/-- A Jelek cell is 512 bytes (R263). -/
def cellWf (l : List Byte) : Bool := decide (l.length = 512)

/-- Units by kind: 36 decode cores, 9 JPEG XS cores, the raw unpacker (R130). -/
def unitOk (kind : Fin 3) (unit : Fin 36) : Bool :=
  if kind.val = 0 then true else if kind.val = 1 then decide (unit.val < 9) else decide (unit.val = 0)

/-- A path fault that a channel command meets has a code of Table 11.9: 0 names none. -/
def ChAns.wf (a : ChAns) : Bool := a.fault.elim true fun f => decide (f.val ≠ 0)

/-- Well-formedness of a command. -/
def Instr.wf : Instr → Bool
  | .pushWindowWrite _ dw data => !data.isEmpty && decide (dw.val + data.length ≤ 32)
  | .aliasWrite a => a.wf
  | .registerWrite a => a.wf
  | .standWindowAccess a => (a.isRead || decide (1 ≤ a.size)) && fitsIn a.data a.size
  | .frameReceived _ f => decide (1 ≤ f.bytes.length) && decide (f.low + f.high ≤ 524288)
  | .pictureDecoded kind unit fin ready => unitOk kind unit && (fin.elim true fun r => r.pic.wf && r.bottom.elim true SrcPic.wf) &&
      ready.all fun t => decide (1 ≤ t.width) && decide (1 ≤ t.height)
  | .lampReportRx _ cell => cellWf cell
  | .tileSyncRx _ _ cell _ => cellWf cell
  | .tilePixelRx _ _ cell => cellWf cell
  | .tileBlackRx _ _ cell _ => cellWf cell
  | .enumRx _ _ cell _ _ _ _ => cellWf cell
  | .assignRx _ _ cell => cellWf cell
  | .descRx _ cell _ => cellWf cell
  | .statusUp _ cell => cellWf cell
  | .mgmtDownRx _ _ cell ans => cellWf cell && decide (ans.data.length ≤ 480)
  | .mgmtUpRx _ cell => cellWf cell
  | .bulkRx _ _ cell => cellWf cell
  | .chanWrite _ ans => ans.wf
  | .bulkWrite _ ans => ans.wf
  | .channelRead _ ans => ans.wf
  | .netrxRead _ ans => ans.wf
  | .chanControl _ ans => ans.wf
  | .chanSeek _ ans => ans.wf
  | .busClear _ ans => ans.wf
  | .chanProbe _ ans => ans.wf
  | .chanSense _ ans => ans.wf
  | .chanGoto _ ans => ans.wf
  | .waitEvent _ ans => ans.wf
  | .channelNop _ ans => ans.wf
  | .pollMatch _ ans => ans.wf
  | .pollIntervalExpiry _ ans => ans.wf
  | .backoffRetry _ ans => ans.wf
  | .flitReceived _ l _ _ => decide (l.length = 64)
  | .discovery d => decide (d.cables.flatMap fun c => [(c.a, c.aLink), (c.b, c.bLink)]).Nodup
  | .regMessage m => m.wf
  | .shareReceive _ _ pic => pic.elim true fun p => decide (p.entry.length ≤ 8) && decide (p.lines.length ≤ p.height)
  | .tileUpstreamCellRx _ _ cell => cellWf cell
  | .ctxOpen .. | .ctxConfig .. | .ctxClose .. | .ctxMigrate .. | .feed .. | .framePut .. | .sceneSubmit ..
  | .keyRequest .. | .encReconfig .. | .chanStart .. | .chanResume .. | .chanHalt .. | .tableLoad ..
  | .tallySnapshot .. | .standOpMode .. | .standOpBarrier .. | .standOpSnapshot .. | .standReset ..
  | .rediscover .. | .nop .. | .sqDb .. | .cqDb .. | .qcfgEnWrite .. | .cqcfgEnWrite .. | .entryFetch ..
  | .jobStart .. | .jobComplete .. | .queueDrained .. | .moderationTimer .. | .vectorUnmask .. | .l1Exit ..
  | .d3hotEntry .. | .d0Return .. | .linkDown .. | .linkUp .. | .linkDegraded .. | .pageCtlRun .. | .softReset ..
  | .postedWriteApply .. | .pageReady .. | .pageQuiescent .. | .startTimeout .. | .stopTimeout ..
  | .intCauseWrite .. | .intForceWrite .. | .indDataRead .. | .indDataWrite .. | .indSelWrite ..
  | .buserrLogClear .. | .spqHeadWrite .. | .yrxPop .. | .yrxFree .. | .netLinkChange .. | .spillWriteDone ..
  | .flumeRead .. | .flumeMark .. | .flumeRewind .. | .flumeRelease .. | .flumeDropRem .. | .staleCheck ..
  | .csbWrite .. | .coreHang .. | .coreUe .. | .normalMigration .. | .rebalance .. | .contextFault ..
  | .encodeInstant .. | .encodePassDone .. | .keyHoldoffExpiry .. | .encCoreFault .. | .esbWrite ..
  | .slotStart .. | .slotEnd .. | .epochApply .. | .modeArm .. | .modeCancel .. | .camSyncEdge .. | .laneFault ..
  | .flashHoldEnd .. | .brightnessWrite .. | .adopt .. | .validate .. | .revoke .. | .lampUe .. | .tallySample ..
  | .foldDone .. | .sweep .. | .sweepNow .. | .sweepPause .. | .ledgerPeriodExpiry .. | .cruiseStart ..
  | .cruiseAbort .. | .cruiseTimeout .. | .cellSlot .. | .syncRepeat .. | .cruiseSync .. | .blackNow ..
  | .markerLock .. | .lockLoss .. | .enumCollectionClose .. | .enumComplete .. | .statusMiss ..
  | .tileStatusSend .. | .mgmtTimeout .. | .tilePresent .. | .tileWatchdog .. | .cruiseTest .. | .retrain ..
  | .reenum .. | .trainTimeout .. | .senseSample .. | .hsFault .. | .hsFaultCheck .. | .hiErrInterval ..
  | .commandTimeout .. | .automaticAdmission .. | .ledgerRoutine .. | .tagBusyRetry .. | .eicDoorbell ..
  | .eventTaken .. | .cmdPop .. | .replyPop .. | .timerPop .. | .subchannelTimerExpiry .. | .uNext .. | .uJump ..
  | .uCall .. | .uRet .. | .uDispatch .. | .uBoundary .. | .uCcb .. | .uIdle .. | .eoeNormal .. | .eoeFast ..
  | .uHalt .. | .rrd .. | .rwr .. | .brd .. | .bwr .. | .hload .. | .hstore .. | .uFetch .. | .ctxLd ..
  | .ctxSt .. | .dbell .. | .evtake .. | .i2cStart .. | .i2cStop .. | .i2cTx .. | .i2cRx .. | .i2cPulse ..
  | .lineSet .. | .lineGet .. | .i2cSpeed .. | .mgmtSend .. | .mgmtTake .. | .bulkSend .. | .timerSet ..
  | .timerClr .. | .senseGet .. | .csUe .. | .csScrub .. | .csLock .. | .chGo .. | .chResume .. | .channelAbort ..
  | .descriptorFetch .. | .skdBurst .. | .descriptorDone .. | .requestAsserted .. | .requestWithdrawn ..
  | .transferError .. | .drainComplete .. | .haltClr .. | .refill .. | .frameEnqueue .. | .frameTransmit ..
  | .jelekQueueRelease .. | .htxTail .. | .htxDescriptor .. | .htxWriteback .. | .sramCe .. | .sramUe ..
  | .yardScrub .. | .sramInit .. | .hbmInit .. | .hbmRefresh .. | .neighbourRefresh .. | .selfRefreshEntry ..
  | .selfRefreshExit .. | .hbmCe .. | .hbmUe .. | .hbmScrub .. | .hbmRetrain .. | .pprGo .. | .bistGo ..
  | .replayFail .. | .csCopy .. | .timeExchange .. | .timeCorrection .. | .beaconSend .. | .beaconRx ..
  | .resync .. | .parentLinkDown .. | .beaconMiss .. | .isoHoldExpiry .. | .standRejoin .. | .fatalBroadcast ..
  | .snapshotLatch .. | .shareSend .. | .refclkLost .. | .powerOnReset .. | .bootLoader .. | .warmReset ..
  | .functionLevelReset .. | .pwrFailAssert .. | .pwrFailRelease .. | .srcCfgWrite .. | .stStep .. | .adjFreq ..
  | .srcHold .. | .servoTimeout .. | .refFsPulse .. | .refFsMissing .. | .wallFrameBoundary ..
  | .holdLimitExpiry .. | .ppsIn .. | .stLoRead .. | .txtsInfoRead .. | .deviceFatal .. | .fatalForce ..
  | .fatalRecClear .. | .retireReq .. | .thermalSample .. | .powerOnResetAsserted .. | .l1Entry ..
  | .enumAssignTimeout .. | .tileConfirmDone .. | .pprDone .. | .bistDone .. => true

end Sys2Proof
end

