-- ==== Sys2Proof/Tests/Slice0.lean ====
section
/-! SUPPORT. The author's tests: ill-formed commands are refused, the hypotheses of every statement can be met, and single
steps give the values that the spec's text and tables state. -/
namespace Sys2Proof.Tests
open Sys2Proof Sys2Proof.Machine

set_option maxRecDepth 40000
set_option linter.unusedVariables false

/-! ## Small states -/

/-- The next state of an outcome. -/
def nx (o : Out) (s : State) : State :=
  match o with
  | .next t => t
  | _ => s
/-- Registers set one after another: page, offset, value. -/
def put (s : State) (l : List (Nat × Nat × Nat)) : State := l.foldl (fun s e => s.wr e.1 e.2.1 e.2.2) s
/-- Pages RUNNING. -/
def runs (s : State) (l : List Nat) : State := put s (l.map fun p => (p, O.PAGE_STAT, 2))
/-- Those pages and the memories RUNNING, the host link up. -/
def up (s : State) (l : List Nat) : State := put (runs s (l ++ [pHbm, pHbm + 1, pYrd])) [(pHif, O.HIF_PM_STAT, 1)]
/-- No encode context is among those listed, so none has a picture. -/
theorem noPic (s : State) (h : (s.ctxs.all fun e => decide (e.2.typ ≠ 3)) = true) (k : Nat) :
    (s.ctx k).typ = 3 → (s.ctx k).enc.pic = none := by
  unfold State.ctx
  revert h
  induction s.ctxs with
  | nil => intro _ h; cases h
  | cons e r ih =>
    intro h hk
    rw [List.all_cons, Bool.and_eq_true, decide_eq_true_eq] at h
    unfold sget at hk ⊢
    split at hk
    · exact absurd hk h.1
    · rw [if_neg ‹_›]; exact ih h.2 hk
/-- A job without flags at ring index 0. -/
def jb (op : Nat) (par : List W32 := []) (pieces : List (Nat × Nat) := []) (ctx : Nat := 0xFFFF) : Job :=
  ⟨0, 1, op, ctx, 0, par, false, false, 0, false, pieces, 0, none, false, none⟩
/-- Job started from submission queue 0. -/
def started (s : State) (j : Job) : State := { s with sq := sset (fun _ => {}) s.sq 0 { started := [j] } }
/-- Reference to that job. -/
abbrev r0 : JobRef := ⟨0, 0, 0⟩
/-- A Flume of a host-fed context in use. -/
def usedFlume (s : State) (c : Nat) : State :=
  { s with flumes := sset (fun _ => {}) s.flumes c { used := true, host := true, segs := 1 } }
/-- Completion queue 0 and a submission queue active, 16 entries each. -/
def queue (q : Fin 528) : State :=
  nx (execQcfgEnWrite q 0x80000004 (nx (execCqcfgEnWrite 0 0x80000004 .reset) .reset)) .reset

/-! ## The hypotheses of the statements can be met -/

/-- A boot image of one register-write entry: INT_MASK of the WQM page; checksums by the polynomial of R442. -/
def bootImage : List Byte := [66, 78, 83, 75, 1, 1, 0, 0, 40, 0, 0, 0, 84, 141, 227, 72, 0, 0, 0, 2, 32, 0, 0, 0, 8, 0, 0, 0,
115, 245, 251, 163, 20, 0, 3, 0, 1, 0, 0, 0]

/-- A UDP datagram of 18 bytes over IPv4, every address and port 0. -/
def udpFrame : List Byte := List.replicate 12 0 ++ [8, 0, 0x45, 0, 0, 46, 0, 0, 0, 0, 0, 17, 0xBA, 0xC0] ++ List.replicate 12 0
  ++ [0, 26] ++ List.replicate 20 0
/-- Instance 0 takes every frame, and a rule for destination address and port 0 drops that datagram. -/
def ruleState : State :=
  (put (runs .reset [pNet, pDbk]) [(pNet, O.NET_MAC_CFG, 0xC00005EE), (pDbk, O.DBK_KSEL, 4)]).setTab pDbk 0 184960 0x84010000
/-- Context 0 of an engine. -/
def withCtx (s : State) (x : Ctx) : State := { s with ctxs := [(0, x)] }
/-- No context but context 0 has a picture. -/
theorem alone0 (s : State) (x : Ctx) (k : Nat) (h : k ≠ 0) :
    ((withCtx s x).ctx k).typ = 3 → ((withCtx s x).ctx k).enc.pic = none := by
  unfold withCtx State.ctx sget
  rw [if_neg h]
  intro hk; cases hk
/-- CTX_CONFIG of context 0 to 64 × 64 at one picture per second. -/
def cfgJob : Job := jb 2 [0, 0x00400040, 1, 1] [(0x1000, 64)] 0
/-- FRAME_PUT of a 64 × 64 picture in lines of 160 bytes and a pitch of 320 bytes. -/
def putJob : Job := jb 0x11 [0x00400040, 320, 0] [(0, 20480)] 0
/-- A picture on core 0, in slot 0. -/
def flightA : Flight :=
  { serial := 0, core := 0, slot := 0, start := 0, stop := 2, pts := 0, width := 64, height := 64, colour := 0, full := true,
    key := true, ref := true, disc := false, standin := false, partialPic := false, recovery := false, done := false }
/-- The lead of a formed stand, its STD page RUNNING. -/
def leadState : State := put (runs .reset [pStd]) [(pStd, O.STD_FLAGS, 2), (pStd, O.STD_STAT, 0x80000200)]
/-- A LAMP_REPORT cell without entries. -/
def lampCell : List Byte := ({ typ := tyLamp } : Cell).bytes
/-- Port 0 RUNNING in ENUM. -/
def upPort : State := put (runs .reset [pJlk]) [(pJlk, O.JLK_PORT_STAT, 0x30000000)]
/-- A SYNC cell of all zeros, as a tile keeps it. -/
def syncA : TSync := ⟨0, 0, 0, false, false, 0, 0, 0, 0, 0, 0, 0, false, 0, 0, 0⟩
/-- Memory and bus answered well to a channel command. -/
def chOk : ChAns := ⟨.ok, none, true, true, 0, [], true, true⟩

/-- Subchannel `n` READY at a command at host address 0: words 0, 1 (ADDRESS, low half) and 3. -/
def chState (n w0 data w3 : Nat) : State :=
  { put (up .reset [State.ysqOf n]) [(State.ysqOf n, State.schOff n, 0x20000000),
      (pJlk + n / 64, O.JLK_PORT_STAT, 0x40010002)] with
    host := ssetList (fun _ => 0) [] 0 (leBytes 4 w0 ++ leBytes 4 data ++ leBytes 4 0 ++ leBytes 4 w3) }
/-- What the program of that subchannel asks for. -/
def opOf (s : State) (n : Nat) : ChOp :=
  match s.opFrom (State.isDirect n) (s.fetchCmd 0) with
  | .inr o => o
  | .inl _ => { cmds := [] }
/-- Skidder channel 4 with a descriptor of 4 bytes of which some have moved. -/
def movingState (done : Nat) : State :=
  { put (up .reset [pSkd]) [(pSkd, State.skr O.SKD_CH_STAT 4, 0x20000000), (pSkd, State.skr O.SKD_CH_DONE_BYTES 4, done)]
    with skch := [(4, { desc := some [0, 4] })] }
/-- Sequencer 0 RUNNING at a micro word at entry 0 of the control store. -/
def micro (w : Nat) : State :=
  (List.range 4).foldl (fun s i => s.setTab pYcs 0 i (w / 2 ^ (32 * i) % 2 ^ 32)) (runs .reset [pYsq])

/-- Witness for clause 1 of StepRunsFrontCommand. -/
theorem wit_01_1_StepRunsFrontCommand : ∃ (c : Instr) (rest : List Instr) (s : State), s.pending = c :: rest :=
  ⟨.l1Exit, [], { State.reset with pending := [.l1Exit] }, by decide⟩

/-- Witness for clause 1 of EmptyQueueOnlyCountsTime. -/
theorem wit_02_1_EmptyQueueOnlyCountsTime : ∃ (s : State), s.pending = [] :=
  ⟨State.reset, by decide⟩

/-- Witness for clause 1 of HaltedEngineIsFrozen. -/
theorem wit_04_1_HaltedEngineIsFrozen : ∃ (c : Instr) (s : State), s.halted = true ∧ isPower c = false :=
  ⟨.l1Exit, { State.reset with flt := { life := .dead } }, by decide⟩

/-- Witness for clause 1 of HaltKeptByEveryStep. -/
theorem wit_05_1_HaltKeptByEveryStep :
    let Inv := fun s : State => s.halted = true ∧ ∀ c ∈ s.pending, isPower c = false
    ∃ (s s' : State), Inv s ∧ step s = .next s' := by
  dsimp only
  exact ⟨{ State.reset with flt := { life := .dead }, pending := [.l1Exit] },
      { State.reset with flt := { life := .dead } },  by decide, rfl⟩

/-- Witness for clause 1 of DoorbellsAcceptedMoveTailAndHead. -/
theorem wit_07_1_DoorbellsAcceptedMoveTailAndHead : ∃ (q : Fin 528) (v : W32) (s : State), s.alive .wqm = true ∧
    s.qState q = 1 ∧ v.toNat % 2 ^ 16 < s.qSize q ∧ (v.toNat % 2 ^ 16 + s.qSize q - s.qTail q % s.qSize q) % s.qSize
    q ≤ s.qSize q - 1 - (s.qTail q + s.qSize q - s.qHead q % s.qSize q) % s.qSize q :=
  ⟨527, 15, queue 527, by decide⟩

/-- Witness for clause 2 of DoorbellsAcceptedMoveTailAndHead. -/
theorem wit_07_2_DoorbellsAcceptedMoveTailAndHead : ∃ (c : Fin 256) (v : W32) (s : State), s.alive .wqm = true ∧
    s.cActive c = true ∧ v.toNat % 2 ^ 16 < s.cSize c ∧ (v.toNat % 2 ^ 16 + s.cSize c - s.fld pWqm (State.sqr
    O.WQM_CQHEAD c) 0 16) % s.cSize c ≤ (s.cTail c + s.cSize c - s.fld pWqm (State.sqr O.WQM_CQHEAD c) 0 16) %
    s.cSize c :=
  ⟨0, 0, queue 0, by decide⟩

/-- Witness for clause 3 of DoorbellsAcceptedMoveTailAndHead. -/
theorem wit_07_3_DoorbellsAcceptedMoveTailAndHead : ∃ (q : Fin 512) (dw : Fin 32) (data : List W32) (s : State),
    s.alive .wqm = true ∧ data ≠ [] ∧ dw.val + data.length ≤ 32 :=
  ⟨511, 31, [1], .reset, by decide⟩

/-- Witness for clause 1 of DoorbellsRefusedRaiseTheirCause. -/
theorem wit_08_1_DoorbellsRefusedRaiseTheirCause : ∃ (q : Fin 528) (v : W32) (s : State), s.alive .wqm = true ∧
    s.qState q = 1 ∧ (¬ (v.toNat % 2 ^ 16 < s.qSize q ∧ (v.toNat % 2 ^ 16 + s.qSize q - s.qTail q % s.qSize q) %
    s.qSize q ≤ s.qSize q - 1 - (s.qTail q + s.qSize q - s.qHead q % s.qSize q) % s.qSize q)) :=
  ⟨0, 16, queue 0, by decide⟩

/-- Witness for clause 2 of DoorbellsRefusedRaiseTheirCause. -/
theorem wit_08_2_DoorbellsRefusedRaiseTheirCause : ∃ (q : Fin 528) (v : W32) (s : State), s.alive .wqm = true ∧
    s.qState q ≠ 1 :=
  ⟨527, 0, .reset, by decide⟩

/-- Witness for clause 3 of DoorbellsRefusedRaiseTheirCause. -/
theorem wit_08_3_DoorbellsRefusedRaiseTheirCause : ∃ (c : Fin 256) (v : W32) (s : State), s.alive .wqm = true ∧
    s.cActive c = false :=
  ⟨255, 0, .reset, by decide⟩

/-- Witness for clause 1 of QueuesEnableDrainAndDisable. -/
theorem wit_09_1_QueuesEnableDrainAndDisable : ∃ (q : Fin 528) (v : W32) (s : State), s.alive .wqm = true ∧ s.qState
    q = 0 ∧ bitOf v.toNat 31 = true ∧ 4 ≤ bitsOf v.toNat 0 4 ∧ s.cActive (bitsOf v.toNat 16 8) = true :=
  ⟨527, 0x80000004, nx (execCqcfgEnWrite 0 0x80000004 .reset) .reset, by decide⟩

/-- Witness for clause 2 of QueuesEnableDrainAndDisable. -/
theorem wit_09_2_QueuesEnableDrainAndDisable : ∃ (q : Fin 528) (v : W32) (s : State), s.alive .wqm = true ∧ s.qState
    q = 1 ∧ bitOf v.toNat 31 = false ∧ v.toNat &&& 0x60FF000F = s.rd pWqm (State.sqr O.WQM_QCFG q) &&& 0x60FF000F ∧
    (s.sqOf q).started = [] ∧ (s.sqOf q).ghosts = [] :=
  ⟨0, 0x00000004, queue 0, by decide⟩

/-- Witness for clause 3 of QueuesEnableDrainAndDisable. -/
theorem wit_09_3_QueuesEnableDrainAndDisable : ∃ (q : Fin 528) (s : State), s.alive .wqm = true ∧ s.qState q = 2 ∧
    (s.sqOf q).started = [] :=
  ⟨0, nx (execQcfgEnWrite 0 0x00000004 (queue 0)) .reset, by decide⟩

/-- Witness for clause 4 of QueuesEnableDrainAndDisable. -/
theorem wit_09_4_QueuesEnableDrainAndDisable : ∃ (c : Fin 256) (v : W32) (s : State), s.alive .wqm = true ∧
    s.cActive c = false ∧ bitOf v.toNat 31 = true ∧ 4 ≤ bitsOf v.toNat 0 4 :=
  ⟨255, 0x80000004, .reset, by decide⟩

/-- Witness for clause 1 of JobsFetchedAndStarted. -/
theorem wit_10_1_JobsFetchedAndStarted : ∃ (k : Nat) (s : State), s.alive .wqm = true ∧ s.running pWqm = true ∧
    s.arbPick = some k ∧
    let q := State.arbQueue k
    let b := s.hostBytes (s.rd64 pWqm (State.sqr O.WQM_SQ_BASE_LO q) + 64 * (s.sqOf q).fetch) 64
    let e : Entry := ⟨(s.sqOf q).fetch, (List.range 16).map fun i => BitVec.ofNat 32 (leWord b (4 * i))⟩
    (s.sqOf q).pushes = [] ∧ (s.sqOf q).chain = [] ∧ (s.sqOf q).cut = none ∧ e.form = 0 ∧ entryCode q (s.bit pWqm
    (State.sqr O.WQM_QCFG q) 30) [] e = 0 := by
  dsimp only
  exact ⟨0, { runs (put (nx (execSqDb 512 1 (queue 512)) .reset) [(pHif, O.HIF_PM_STAT, 1)]) [pWqm] with host :=
      [(3, 0x7F), (6, 0xFF), (7, 0xFF)] }, by decide⟩

/-- Witness for clause 2 of JobsFetchedAndStarted. -/
theorem wit_10_2_JobsFetchedAndStarted : ∃ (q : Fin 528) (ok : Bool) (j : Job) (r : List Job) (s : State), s.alive
    .wqm = true ∧ (s.sqOf q).ready = j :: r ∧ j.indirect = false ∧ State.takesChannel j = false ∧ s.canStart q false
    = true ∧ s.rd pWqm (State.sqr O.WQM_CQ_RESV (s.qCq q)) < 2 ^ 31 :=
  ⟨0, true, jb 0x7F, [], { runs (queue 0) [pWqm] with sq := [(0, { ready := [jb 0x7F] })] }, by decide⟩

/-- Witness for clause 3 of JobsFetchedAndStarted. -/
theorem wit_10_3_JobsFetchedAndStarted : ∃ (r : JobRef) (j : Job) (s : State), s.alive .wqm = true ∧ s.findJob r =
    some j ∧ j.op = 0x7F ∧ j.out = none ∧ j.taken = false :=
  ⟨r0, jb 0x7F, started .reset (jb 0x7F), by decide⟩

/-- Witness for clause 1 of CompletionEntriesAndMessages. -/
theorem wit_11_1_CompletionEntriesAndMessages : ∃ (r : JobRef) (j : Job) (o : JobOut) (s : State), s.alive .wqm =
    true ∧ s.hostReady = true ∧ (s.sqOf r.q).started.find? (State.isJob r) = some j ∧ j.out = some o ∧ s.mayComplete
    r.q j = true :=
  ⟨r0, { jb 0x7F with out := some { status := 0 } }, { status := 0 }, started (put (queue 0)
      [(pHif, O.HIF_PM_STAT, 1)]) { jb 0x7F with out := some { status := 0 } }, by decide⟩

/-- Witness for clause 2 of CompletionEntriesAndMessages. -/
theorem wit_11_2_CompletionEntriesAndMessages : ∃ (c : Fin 256) (s : State), s.alive .wqm = true ∧ s.hostReady =
    true ∧ (s.cqOf c).timing = true ∧ s.cActive c = true ∧ s.bit pWqm (State.sqr O.WQM_CQCFG c) 30 = true ∧
    let v := s.fld pWqm (State.sqr O.WQM_CQCFG c) 16 11
    s.vecMasked v = false := by
  dsimp only
  exact ⟨0, { put (queue 0)
      [(pHif, O.HIF_PM_STAT, 1), (pHif, O.HIF_MSIX_CTRL, 0), (pWqm, State.sqr O.WQM_CQCFG 0, 0xC0000004)] with
      cq := [(0, { n := 1, timing := true })] }, by decide⟩

/-- Witness for clause 1 of HostLinkStatesFollowTheirEvents. -/
theorem wit_12_1_HostLinkStatesFollowTheirEvents : ∃ (s : State), s.alive .hif = true :=
  ⟨.reset, by decide⟩

/-- Witness for clause 2 of HostLinkStatesFollowTheirEvents. -/
theorem wit_12_2_HostLinkStatesFollowTheirEvents :
    let pm := fun (s : State) (b : Nat) => s.bit pHif O.HIF_PM_STAT b
    ∃ (s : State), s.alive .hif = true ∧ pm s 0 = true := by
  dsimp only
  exact ⟨put .reset [(pHif, O.HIF_PM_STAT, 1)], by decide⟩

/-- Witness for clause 3 of HostLinkStatesFollowTheirEvents. -/
theorem wit_12_3_HostLinkStatesFollowTheirEvents : ∃ (e : Bool) (s : State), s.alive .hif = true :=
  ⟨true, .reset, by decide⟩

/-- Witness for clause 4 of HostLinkStatesFollowTheirEvents. -/
theorem wit_12_4_HostLinkStatesFollowTheirEvents :
    let pm := fun (s : State) (b : Nat) => s.bit pHif O.HIF_PM_STAT b
    ∃ (s : State), s.alive .hif = true ∧ s.isMember = false ∧ pm s 0 = true ∧ pm s 2 = true := by
  dsimp only
  exact ⟨put .reset [(pHif, O.HIF_PM_STAT, 5)], by decide⟩

/-- Witness for clause 5 of HostLinkStatesFollowTheirEvents. -/
theorem wit_12_5_HostLinkStatesFollowTheirEvents :
    let pm := fun (s : State) (b : Nat) => s.bit pHif O.HIF_PM_STAT b
    ∃ (s : State), s.alive .hif = true ∧ s.isMember = false ∧ pm s 0 = true := by
  dsimp only
  exact ⟨put .reset [(pHif, O.HIF_PM_STAT, 1)], by decide⟩

/-- Witness for clause 6 of HostLinkStatesFollowTheirEvents. -/
theorem wit_12_6_HostLinkStatesFollowTheirEvents :
    let pm := fun (s : State) (b : Nat) => s.bit pHif O.HIF_PM_STAT b
    ∃ (w : Fin 64) (v : Fin 16) (bars : W64 × W64 × W64) (m : Fin 6) (s : State), s.alive .hif = true ∧ s.isMember =
    false ∧ pm s 0 = false ∧ pm s 2 = false := by
  dsimp only
  exact ⟨16, 5, (0, 0, 0), 0, put .reset [(pHif, O.HIF_PM_STAT, 0)], by decide⟩

/-- Witness for clause 7 of HostLinkStatesFollowTheirEvents. -/
theorem wit_12_7_HostLinkStatesFollowTheirEvents :
    let pm := fun (s : State) (b : Nat) => s.bit pHif O.HIF_PM_STAT b
    ∃ (w : Fin 64) (v : Fin 16) (bars : W64 × W64 × W64) (m : Fin 6) (s : State), s.alive .hif = true ∧ s.isMember =
    false ∧ pm s 0 = true ∧ s.rd pHif O.HIF_LINK_RECOV < 2 ^ 32 - 1 ∧ 4 ≤ w.val := by
  dsimp only
  exact ⟨16, 5, (0, 0, 0), 0, put .reset [(pHif, O.HIF_PM_STAT, 1)], by decide⟩

/-- Witness for clause 8 of HostLinkStatesFollowTheirEvents. -/
theorem wit_12_8_HostLinkStatesFollowTheirEvents : ∃ (w : Fin 64) (v : Fin 16) (bars : W64 × W64 × W64) (m : Fin 6)
    (s : State), s.isMember = true :=
  ⟨63, 15, (0, 0, 0), 5, { State.reset with flt := { bootMode := 2 } }, by decide⟩

/-- Witness for clause 9 of HostLinkStatesFollowTheirEvents. -/
theorem wit_12_9_HostLinkStatesFollowTheirEvents : ∃ (w : Fin 64) (v : Fin 16) (s : State), s.alive .hif = true :=
  ⟨16, 5, .reset, by decide⟩

/-- Witness for clause 10 of HostLinkStatesFollowTheirEvents. -/
theorem wit_12_10_HostLinkStatesFollowTheirEvents : ∃ (v : Fin 2048) (s : State), s.hostAlive = true ∧ s.hostReady =
    true ∧ s.hif.funcMask = false :=
  ⟨2047, put .reset [(pHif, O.HIF_PM_STAT, 1)], by decide⟩

/-- Witness for clause 11 of HostLinkStatesFollowTheirEvents. -/
theorem wit_12_11_HostLinkStatesFollowTheirEvents : ∃ (v : Fin 2048) (s : State), s.hostAlive = true :=
  ⟨2047, .reset, by decide⟩

/-- Witness for clause 12 of HostLinkStatesFollowTheirEvents. -/
theorem wit_12_12_HostLinkStatesFollowTheirEvents : ∃ (s : State), s.hostAlive = true :=
  ⟨.reset, by decide⟩

/-- Witness for clause 1 of PageStatesFollowTable27. -/
theorem wit_13_1_PageStatesFollowTable27 : ∃ (p : Fin 512) (b : Blk) (s : State), blkOf p = some b ∧ s.alive b =
    true ∧ s.pstate p = 0 ∧ State.coreOfPage p = none ∧ p.val ≠ pStd :=
  ⟨⟨pEic, by decide⟩, .eic, .reset, by decide⟩

/-- Witness for clause 2 of PageStatesFollowTable27. -/
theorem wit_13_2_PageStatesFollowTable27 : ∃ (p : Fin 512) (b : Blk) (s : State), blkOf p = some b ∧ (b ∈
    [Blk.eic, .skd, .chk, .dbk, .yrd, .tim]) ∧ s.alive b = true ∧ s.pstate p = 2 :=
  ⟨⟨pEic, by decide⟩, .eic, runs .reset [pEic], by decide⟩

/-- Witness for clause 3 of PageStatesFollowTable27. -/
theorem wit_13_3_PageStatesFollowTable27 :
    let plain : List Blk := [.wqm, .eic, .skd, .chk, .dbk]
    ∃ (p : Fin 512) (b : Blk) (ok : Bool) (bad : List Nat) (s : State), blkOf p = some b ∧ b ∈ plain ∧ s.alive b =
    true ∧ s.pstate p = 1 := by
  dsimp only
  exact ⟨⟨pEic, by decide⟩, .eic, true, [], put .reset [(pEic, O.PAGE_STAT, 1)], by decide⟩

/-- Witness for clause 4 of PageStatesFollowTable27. -/
theorem wit_13_4_PageStatesFollowTable27 :
    let plain : List Blk := [.wqm, .eic, .skd, .chk, .dbk]
    ∃ (p : Fin 512) (b : Blk) (s : State), blkOf p = some b ∧ b ∈ plain ∧ s.alive b = true ∧ s.pstate p = 3 ∧ (b =
    .skd → s.skQuiet = true) := by
  dsimp only
  exact ⟨⟨pEic, by decide⟩, .eic, put .reset [(pEic, O.PAGE_STAT, 3)], by decide⟩

/-- Witness for clause 5 of PageStatesFollowTable27. -/
theorem wit_13_5_PageStatesFollowTable27 :
    let plain : List Blk := [.wqm, .eic, .skd, .chk, .dbk]
    ∃ (p : Fin 512) (b : Blk) (s : State), blkOf p = some b ∧ b ∈ plain ∧ s.alive b = true ∧ s.pstate p = 1 ∧ s.bit
    p O.ERR_CAPTURE 31 = false := by
  dsimp only
  exact ⟨⟨pEic, by decide⟩, .eic, put .reset [(pEic, O.PAGE_STAT, 1)], by decide⟩

/-- Witness for clause 6 of PageStatesFollowTable27. -/
theorem wit_13_6_PageStatesFollowTable27 :
    let plain : List Blk := [.wqm, .eic, .skd, .chk, .dbk]
    ∃ (p : Fin 512) (b : Blk) (s : State), blkOf p = some b ∧ b ∈ plain ∧ s.alive b = true ∧ s.pstate p = 3 ∧ s.bit
    p O.ERR_CAPTURE 31 = false := by
  dsimp only
  exact ⟨⟨pEic, by decide⟩, .eic, put .reset [(pEic, O.PAGE_STAT, 3)], by decide⟩

/-- Witness for clause 7 of PageStatesFollowTable27. -/
theorem wit_13_7_PageStatesFollowTable27 : ∃ (p : Fin 512) (b : Blk) (s : State), blkOf p = some b ∧ (b ∈
    [Blk.eic, .hbm, .yrd]) ∧ s.alive b = true ∧ s.postBusy p = false ∧ s.pstate p ≠ 5 :=
  ⟨⟨pEic, by decide⟩, .eic, .reset, by decide⟩

/-- Witness for clause 1 of PostedWritesWaitAndApply. -/
theorem wit_14_1_PostedWritesWaitAndApply : ∃ (a : HostWrite) (s : State), s.hostAlive = true ∧ a.off = pLmp *
    0x10000 + O.LMP_BRIGHTNESS ∧ a.size = 4 ∧ a.allBE = true ∧ s.postBusy pLmp = false :=
  ⟨⟨pLmp * 0x10000 + O.LMP_BRIGHTNESS, 4, true, 0x8000, 0⟩, .reset, by decide⟩

/-- Witness for clause 2 of PostedWritesWaitAndApply. -/
theorem wit_14_2_PostedWritesWaitAndApply : ∃ (a : HostWrite) (s : State), s.hostAlive = true ∧ a.off = pLmp *
    0x10000 + O.LMP_BRIGHTNESS ∧ a.size = 4 ∧ a.allBE = true ∧ s.postBusy pLmp = true :=
  ⟨⟨pLmp * 0x10000 + O.LMP_BRIGHTNESS, 4, true, 0x8000, 0⟩, put .reset [(pLmp, O.PAGE_STAT, 0x100)], by decide⟩

/-- Witness for clause 3 of PostedWritesWaitAndApply. -/
theorem wit_14_3_PostedWritesWaitAndApply :
    let held := fun (s : State) (p : Nat) => sget (fun _ => none) s.posted p
    ∃ (v : W64) (s : State), s.alive .lmp = true ∧ (held s pLmp = some ⟨O.LMP_BRIGHTNESS, v, false, none⟩) := by
  dsimp only
  exact ⟨0, { State.reset with posted := [(pLmp, some ⟨O.LMP_BRIGHTNESS, 0, false, none⟩)] }, by decide⟩

/-- Witness for clause 4 of PostedWritesWaitAndApply. -/
theorem wit_14_4_PostedWritesWaitAndApply :
    let held := fun (s : State) (p : Nat) => sget (fun _ => none) s.posted p
    ∃ (p : Fin 512) (b : Blk) (v : W64) (s : State), blkOf p = some b ∧ (b ∈ [Blk.eic, .skd, .chk, .dbk]) ∧ s.alive
    b = true ∧ s.pstate p = 0 ∧ (held s p = some ⟨O.PAGE_CTL, v, false, none⟩) ∧ bitOf v.toNat 0 = true ∧ bitOf
    v.toNat 1 = false := by
  dsimp only
  exact ⟨⟨pEic, by decide⟩, .eic, 1, { State.reset with posted := [(pEic, some ⟨O.PAGE_CTL, 1, false, none⟩)] },
      by decide⟩

/-- Witness for clause 5 of PostedWritesWaitAndApply. -/
theorem wit_14_5_PostedWritesWaitAndApply :
    let held := fun (s : State) (p : Nat) => sget (fun _ => none) s.posted p
    ∃ (p : Fin 512) (s : State), held s p = none := by
  dsimp only
  exact ⟨511, .reset, by decide⟩

/-- Witness for clause 1 of InterruptCausesClearedAndForced. -/
theorem wit_15_1_InterruptCausesClearedAndForced : ∃ (p : Fin 512) (b : Blk) (v : W32) (req : BitVec 16) (s :
    State), s.hostAlive = true ∧ blkOf p = some b ∧ b ≠ .eic :=
  ⟨⟨pWqm, by decide⟩, .wqm, 0, 0, .reset, by decide⟩

/-- Witness for clause 2 of InterruptCausesClearedAndForced. -/
theorem wit_15_2_InterruptCausesClearedAndForced : ∃ (p : Fin 512) (b : Blk) (v : W32) (req : BitVec 16) (s :
    State), s.hostAlive = true ∧ blkOf p = some b ∧ b ≠ .eic :=
  ⟨⟨pWqm, by decide⟩, .wqm, 0, 0, .reset, by decide⟩

/-- Witness for clause 3 of InterruptCausesClearedAndForced. -/
theorem wit_15_3_InterruptCausesClearedAndForced : ∃ (p : Fin 512) (v : W32) (req : BitVec 16) (s : State) (c :
    Instr), s.hostAlive = true ∧ blkOf p = none ∧ p.val ≠ 0x100 ∧ s.bit pHif O.HIF_BUSERR_LOG 31 = false ∧ (c ∈
    [Instr.intCauseWrite p ⟨v, req⟩, .intForceWrite p ⟨v, req⟩]) :=
  ⟨511, 0, 0, .reset, .intCauseWrite 511 ⟨0, 0⟩, by decide⟩

/-- Witness for clause 4 of InterruptCausesClearedAndForced. -/
theorem wit_15_4_InterruptCausesClearedAndForced : ∃ (s : State), s.hostAlive = true :=
  ⟨.reset, by decide⟩

/-- Witness for clause 1 of WindowsSelectReadAndWrite. -/
theorem wit_16_1_WindowsSelectReadAndWrite : ∃ (p : Fin 512) (b : Blk) (ctl : Bool) (v : W32) (req : BitVec 16) (s :
    State), s.hostAlive = true ∧ blkOf p = some b :=
  ⟨⟨pLmp, by decide⟩, .lmp, true, 0, 0, .reset, by decide⟩

/-- Witness for clause 2 of WindowsSelectReadAndWrite. -/
theorem wit_16_2_WindowsSelectReadAndWrite : ∃ (p : Fin 512) (b : Blk) (req : BitVec 16) (s : State), s.hostAlive =
    true ∧ blkOf p = some b ∧ (s.window p).ended = false ∧ (s.window p).phase = .low ∧ s.bit p O.IND_CTL 1 = false ∧
    (s.windowIn p).isSome ∧
    let a := s.windowIndex p
    s.poorEntry p a.1 (s.windowCopy p a.1) a.2 = none := by
  dsimp only
  exact ⟨⟨pEic, by decide⟩, .eic, 0, .reset, by decide⟩

/-- Witness for clause 3 of WindowsSelectReadAndWrite. -/
theorem wit_16_3_WindowsSelectReadAndWrite : ∃ (n : Nat) (v : W32) (req : BitVec 16) (s : State), s.hostAlive = true
    ∧ n < 1024 ∧ (s.window pEic).ended = false ∧ (s.window pEic).phase = .low ∧ s.bit pEic O.IND_CTL 1 = false ∧
    (s.windowIndex pEic = (0, 2 * n)) :=
  ⟨1023, 0, 0, put .reset [(pEic, O.IND_SEL, 2046)], by decide⟩

/-- Witness for clause 1 of RegisterAndAliasWritesObeyAccessCodes. -/
theorem wit_17_1_RegisterAndAliasWritesObeyAccessCodes :
    let plain : List Blk := [.net, .flm, .yrd, .tly, .crn, .dec, .enc, .xsd, .jlk, .ysq]
    ∃ (a : HostWrite) (p off : Nat) (b : Blk) (d : RegDesc) (s : State), s.hostAlive = true ∧ blkOf p = some b ∧ b ∈
    plain ∧ 0x100 ≤ off ∧ off < 0x10000 ∧ off % 4 = 0 ∧ regDesc? p off = some d ∧ d.acc = .rw ∧ a.off = p *
    0x10000 + off ∧ a.size = 4 ∧ a.allBE = true := by
  dsimp only
  exact ⟨⟨pTly * 0x10000 + O.TLY_LEDGER_PERIOD, 4, true, 24, 0⟩, pTly, O.TLY_LEDGER_PERIOD, .tly,
      ⟨O.TLY_LEDGER_PERIOD, 0x4, 1, .rw, 0xFF, 0x18, false⟩, .reset, by decide⟩

/-- Witness for clause 2 of RegisterAndAliasWritesObeyAccessCodes. -/
theorem wit_17_2_RegisterAndAliasWritesObeyAccessCodes :
    let plain : List Blk := [.net, .flm, .yrd, .tly, .crn, .dec, .enc, .xsd, .jlk, .ysq]
    ∃ (a : HostWrite) (p off : Nat) (b : Blk) (d : RegDesc) (s : State), s.hostAlive = true ∧ blkOf p = some b ∧ b ∈
    plain ∧ 0x100 ≤ off ∧ off < 0x10000 ∧ off % 4 = 0 ∧ regDesc? p off = some d ∧ d.acc = .rl ∧ a.off = p *
    0x10000 + off ∧ a.size = 4 ∧ a.allBE = true := by
  dsimp only
  exact ⟨⟨pTly * 0x10000 + O.TLY_INTERVAL, 4, true, 24, 0⟩, pTly, O.TLY_INTERVAL, .tly, ⟨O.TLY_INTERVAL, 0x4, 1,
      .rl, 0xFFFF, 0x40, false⟩, .reset, by decide⟩

/-- Witness for clause 3 of RegisterAndAliasWritesObeyAccessCodes. -/
theorem wit_17_3_RegisterAndAliasWritesObeyAccessCodes : ∃ (a : HostWrite) (p : Fin 512) (n : Fin 32) (b : Blk) (s :
    State), s.hostAlive = true ∧ blkOf p = some b ∧ bitOf (causeBits b) n = true ∧ a.off = p * 0x10000 + O.INT_MASK
    / 4 * 0x80 + 4 * n ∧ a.size = 4 ∧ a.allBE = true :=
  ⟨⟨pWqm * 0x10000 + O.INT_MASK / 4 * 0x80, 4, true, 1, 0⟩, ⟨pWqm, by decide⟩, 0, .wqm, .reset, by decide⟩

/-- Witness for clause 4 of RegisterAndAliasWritesObeyAccessCodes. -/
theorem wit_17_4_RegisterAndAliasWritesObeyAccessCodes : ∃ (a : HostWrite) (s : State), s.hostAlive = true ∧ a.off <
    0x1000000 ∧ a.off % 4 = 0 ∧ a.size = 4 ∧ a.allBE = true ∧ regDesc? (a.off / 0x10000) (a.off % 0x10000) = none ∧
    s.bit pHif O.HIF_BUSERR_LOG 31 = false :=
  ⟨⟨pEic * 0x10000 + 0x7FFC, 4, true, 1, 0⟩, .reset, by decide⟩

/-- Witness for clause 1 of StandAccessesAndSnapshots. -/
theorem wit_18_1_StandAccessesAndSnapshots : ∃ (a : StandAcc) (s : State), s.hostAlive = true ∧ a.engine.val ≠ 0 ∧
    s.stdState = 2 ∧ a.engine.val < s.engines ∧ a.pathOk = true ∧ bitOf s.present a.engine = true ∧ a.isRead = true
    ∧ a.refused = none ∧ (State.reset.barAccess a.bar2 false false a.off a.size a.allBE a.data.toNat).err = none :=
  ⟨⟨1, false, true, pWqm * 0x10000, 4, true, 0, 0, true, 0, none⟩, put .reset
      [(pStd, O.STD_STAT, 0x80000200), (pStd, O.STD_PRESENT_LO, 3)], by decide⟩

/-- Witness for clause 2 of StandAccessesAndSnapshots. -/
theorem wit_18_2_StandAccessesAndSnapshots : ∃ (a : StandAcc) (s : State), s.hostAlive = true ∧ a.engine.val ≠ 0 ∧
    s.stdState = 2 ∧ a.engine.val < s.engines ∧ a.pathOk = false ∧ s.bit pHif O.HIF_BUSERR_LOG 31 = false :=
  ⟨⟨1, false, true, pWqm * 0x10000, 4, true, 0, 0, false, 0, none⟩, put .reset
      [(pStd, O.STD_STAT, 0x80000200), (pStd, O.STD_PRESENT_LO, 3)], by decide⟩

/-- Witness for clause 3 of StandAccessesAndSnapshots. -/
theorem wit_18_3_StandAccessesAndSnapshots : ∃ (addr : W64) (data : List Byte) (s : State), s.hostAlive = true ∧
    s.isLead = true ∧ s.hostReady = true :=
  ⟨0, [1], put .reset [(pStd, O.STD_FLAGS, 2), (pHif, O.HIF_PM_STAT, 1)], by decide⟩

/-- Witness for clause 4 of StandAccessesAndSnapshots. -/
theorem wit_18_4_StandAccessesAndSnapshots : ∃ (p : Fin 512) (b : Blk) (req : BitVec 16) (s : State), s.hostAlive =
    true ∧ blkOf p = some b :=
  ⟨⟨pEic, by decide⟩, .eic, 0, .reset, by decide⟩

/-- Witness for clause 5 of StandAccessesAndSnapshots. -/
theorem wit_18_5_StandAccessesAndSnapshots : ∃ (time : W64) (s : State), s.alive .std = true :=
  ⟨0, .reset, by decide⟩

/-- Witness for clause 1 of StandTimeWritesAndReads. -/
theorem wit_19_1_StandTimeWritesAndReads : ∃ (v : W32) (s : State), s.alive .tim = true ∧ s.postBusy pTim = false ∧
    bitsOf v.toNat 0 2 ≠ 3 :=
  ⟨0, .reset, by decide⟩

/-- Witness for clause 2 of StandTimeWritesAndReads. -/
theorem wit_19_2_StandTimeWritesAndReads : ∃ (v : W64) (s : State), s.alive .tim = true ∧ s.postBusy pTim = false :=
  ⟨0, .reset, by decide⟩

/-- Witness for clause 3 of StandTimeWritesAndReads. -/
theorem wit_19_3_StandTimeWritesAndReads : ∃ (v : W32) (s : State), s.alive .tim = true ∧ s.postBusy pTim = false :=
  ⟨0, .reset, by decide⟩

/-- Witness for clause 4 of StandTimeWritesAndReads. -/
theorem wit_19_4_StandTimeWritesAndReads : ∃ (on : Bool) (s : State), s.alive .tim = true :=
  ⟨true, .reset, by decide⟩

/-- Witness for clause 5 of StandTimeWritesAndReads. -/
theorem wit_19_5_StandTimeWritesAndReads : ∃ (stamp : W64) (s : State), s.alive .tim = true ∧ s.isMember = true :=
  ⟨0, { State.reset with flt := { bootMode := 2 } }, by decide⟩

/-- Witness for clause 6 of StandTimeWritesAndReads. -/
theorem wit_19_6_StandTimeWritesAndReads : ∃ (stamp : W64) (s : State), s.alive .tim = true ∧ s.isMember = false :=
  ⟨0, .reset, by decide⟩

/-- Witness for clause 7 of StandTimeWritesAndReads. -/
theorem wit_19_7_StandTimeWritesAndReads : ∃ (s : State), s.hostAlive = true ∧ s.tim.time < 2 ^ 64 ∧ s.tim.frac < 2
    ^ 16 :=
  ⟨{ State.reset with tim := { time := 2 ^ 64 - 1, frac := 65535 } }, by decide⟩

/-- Witness for clause 8 of StandTimeWritesAndReads. -/
theorem wit_19_8_StandTimeWritesAndReads : ∃ (s : State), s.hostAlive = true ∧ s.tim.txts = [] :=
  ⟨.reset, by decide⟩

/-- Witness for clause 9 of StandTimeWritesAndReads. -/
theorem wit_19_9_StandTimeWritesAndReads : ∃ (x : Stamp) (r : List Stamp) (s : State), s.hostAlive = true ∧
    s.tim.txts = x :: r ∧ x.time < 2 ^ 64 :=
  ⟨⟨0, 0, 5⟩, [], { State.reset with tim := { txts := [⟨0, 0, 5⟩] } }, by decide⟩

/-- Witness for clause 1 of ReferenceAndHoldoverEvents. -/
theorem wit_20_1_ReferenceAndHoldoverEvents : ∃ (stamp : W64) (s : State), s.alive .tim = true :=
  ⟨0, .reset, by decide⟩

/-- Witness for clause 2 of ReferenceAndHoldoverEvents. -/
theorem wit_20_2_ReferenceAndHoldoverEvents : ∃ (s : State), s.alive .tim = true ∧ s.src = 2 ∧ s.isMember = false ∧
    s.srcState = 2 :=
  ⟨put .reset [(pTim, O.TIM_SRC_CFG, 2), (pTim, O.TIM_SRC_STAT, 0x20000000)], by decide⟩

/-- Witness for clause 3 of ReferenceAndHoldoverEvents. -/
theorem wit_20_3_ReferenceAndHoldoverEvents : ∃ (s : State), s.alive .tim = true ∧ s.src = 2 ∧ s.isMember = false ∧
    s.srcState = 3 ∧ s.fld pTim O.TIM_SRC_STAT 0 8 < 255 :=
  ⟨put .reset [(pTim, O.TIM_SRC_CFG, 2), (pTim, O.TIM_SRC_STAT, 0x30000009)], by decide⟩

/-- Witness for clause 4 of ReferenceAndHoldoverEvents. -/
theorem wit_20_4_ReferenceAndHoldoverEvents : ∃ (s : State), s.alive .tim = true ∧ s.src = 1 ∧ s.isMember = false ∧
    s.fld pTim O.TIM_SERVO_TO 0 16 ≠ 0 ∧ s.srcState = 2 :=
  ⟨put .reset [(pTim, O.TIM_SRC_CFG, 1), (pTim, O.TIM_SRC_STAT, 0x20000000), (pTim, O.TIM_SERVO_TO, 1)], by decide⟩

/-- Witness for clause 5 of ReferenceAndHoldoverEvents. -/
theorem wit_20_5_ReferenceAndHoldoverEvents : ∃ (s : State), s.alive .tim = true ∧ s.srcState = 4 ∧ s.fld pTim
    O.TIM_HOLD_LIMIT 0 16 ≠ 0 :=
  ⟨put .reset [(pTim, O.TIM_SRC_STAT, 0x40000000)], by decide⟩

/-- Witness for clause 6 of ReferenceAndHoldoverEvents. -/
theorem wit_20_6_ReferenceAndHoldoverEvents : ∃ (s : State), s.alive .tim = true ∧ s.lnd.slot = none ∧ s.lnd.applied
    = true ∧ s.gapTo = none ∧ s.tim.regrid = none :=
  ⟨{ State.reset with lnd := { applied := true } }, by decide⟩

/-- Witness for clause 1 of FatalFaultsAndThermalSamples. -/
theorem wit_21_1_FatalFaultsAndThermalSamples : ∃ (c : Fin 6) (s : State), s.flt.life = .up ∧ c.val ≠ 1 ∧ c.val ≠ 2
    :=
  ⟨5, .reset, by decide⟩

/-- Witness for clause 2 of FatalFaultsAndThermalSamples. -/
theorem wit_21_2_FatalFaultsAndThermalSamples : ∃ (c : Fin 6) (s : State), s.flt.life = .up ∧ (c.val = 1 ∨ c.val =
    2) :=
  ⟨2, .reset, by decide⟩

/-- Witness for clause 3 of FatalFaultsAndThermalSamples. -/
theorem wit_21_3_FatalFaultsAndThermalSamples : ∃ (v : W32) (s : State), s.flt.life = .up :=
  ⟨0xDEADBEEF, .reset, by decide⟩

/-- Witness for clause 4 of FatalFaultsAndThermalSamples. -/
theorem wit_21_4_FatalFaultsAndThermalSamples : ∃ (s : State), s.alive .dev = true :=
  ⟨.reset, by decide⟩

/-- Witness for clause 5 of FatalFaultsAndThermalSamples. -/
theorem wit_21_5_FatalFaultsAndThermalSamples : ∃ (s : State), s.alive .clk = true :=
  ⟨.reset, by decide⟩

/-- Witness for clause 6 of FatalFaultsAndThermalSamples. -/
theorem wit_21_6_FatalFaultsAndThermalSamples : ∃ (n j a b : BitVec 8) (s : State), s.alive .dev = true :=
  ⟨0, 110, 0, 0, .reset, by decide⟩

/-- Witness for clause 7 of FatalFaultsAndThermalSamples. -/
theorem wit_21_7_FatalFaultsAndThermalSamples : ∃ (v : W32) (bad : List Nat) (s : State), s.hostAlive = true ∧
    (bitsOf v.toNat 24 8 = 0 ∨ 4 < bitsOf v.toNat 24 8) :=
  ⟨0x05000000, [], .reset, by decide⟩

/-- Witness for clause 8 of FatalFaultsAndThermalSamples. -/
theorem wit_21_8_FatalFaultsAndThermalSamples : ∃ (v : W32) (bad : List Nat) (s : State), s.flt.life = .up ∧
    s.flt.retiring = none ∧
    let typ := State.classTyp (bitsOf v.toNat 24 8)
    let k := bitsOf v.toNat 0 8
    1 ≤ bitsOf v.toNat 24 8 ∧ bitsOf v.toNat 24 8 ≤ 3 ∧ k < coreCount typ ∧ s.role typ k = 1 := by
  dsimp only
  exact ⟨0x01000000, [], put .reset [(pDec, O.DEC_CORE_STAT, 0x40000000)], by decide⟩

/-- Witness for clause 1 of ResetsAndPowerEvents. -/
theorem wit_22_1_ResetsAndPowerEvents : ∃ (v : W32) (s : State), s.hostAlive = true ∧ bitsOf v.toNat 16 16 = 0x5752
    ∧ bitOf v.toNat 0 = true :=
  ⟨0x57520001, .reset, by decide⟩

/-- Witness for clause 2 of ResetsAndPowerEvents. -/
theorem wit_22_2_ResetsAndPowerEvents : ∃ (v : W32) (s : State), (bitsOf v.toNat 16 16 ≠ 0x5752 ∨ bitOf v.toNat 0 =
    false) :=
  ⟨0x57520000, .reset, by decide⟩

/-- Witness for clause 3 of ResetsAndPowerEvents. -/
theorem wit_22_3_ResetsAndPowerEvents : ∃ (s : State), s.alive .hif = true :=
  ⟨.reset, by decide⟩

/-- Witness for clause 4 of ResetsAndPowerEvents. -/
theorem wit_22_4_ResetsAndPowerEvents : ∃ (x : PowerOn) (s : State), x.refclk = true ∧ x.hot = false :=
  ⟨⟨true, true, 100000, false, 0, false, [], []⟩, .reset, by decide⟩

/-- Witness for clause 5 of ResetsAndPowerEvents. -/
theorem wit_22_5_ResetsAndPowerEvents : ∃ (x : PowerOn) (s : State), (x.refclk = false ∨ x.hot = true) :=
  ⟨⟨true, true, 100000, true, 0, false, [], []⟩, .reset, by decide⟩

/-- Witness for clause 6 of ResetsAndPowerEvents. -/
theorem wit_22_6_ResetsAndPowerEvents : ∃ (s : State), s.alive .clk = true :=
  ⟨.reset, by decide⟩

/-- Witness for clause 7 of ResetsAndPowerEvents. -/
theorem wit_22_7_ResetsAndPowerEvents : ∃ (s : State), s.alive .clk = true :=
  ⟨.reset, by decide⟩

/-- Witness for clause 8 of ResetsAndPowerEvents. -/
theorem wit_22_8_ResetsAndPowerEvents : ∃ (f : Option (List Byte)) (s : State), s.alive .clk = true ∧ s.flt.bootMode
    = 1 ∧ s.fld pClk O.CLK_BOOT_STAT 28 2 = 0 ∧ (∀ l, f = some l → bootHeader l = none) :=
  ⟨none, { State.reset with flt := { bootMode := 1 } },  rfl, rfl, by decide, by simp⟩

/-- Witness for clause 9 of ResetsAndPowerEvents. -/
theorem wit_22_9_ResetsAndPowerEvents : ∃ (f : List Byte) (p : Fin 512) (b : Blk) (s : State), s.alive .clk = true ∧
    s.flt.bootMode = 1 ∧ s.fld pClk O.CLK_BOOT_STAT 28 2 = 0 ∧ bootHeader f = some 1 ∧
    let e := bootEnt f 0
    let d := (f.drop e.off).take e.len
    e.typ = 2 ∧ e.len = 8 ∧ e.off + 8 ≤ f.length ∧ crcIeee d = e.crc ∧ blkOf p = some b ∧ leWord d 0 = p * 0x10000 +
    O.INT_MASK := by
  dsimp only
  exact ⟨bootImage, ⟨pWqm, by decide⟩, .wqm, { State.reset with flt := { bootMode := 1 } }, by decide⟩

/-- Witness for clause 10 of ResetsAndPowerEvents. -/
theorem wit_22_10_ResetsAndPowerEvents : ∃ (f : Option (List Byte)) (s : State), s.flt.bootMode ≠ 1 :=
  ⟨none, .reset, by decide⟩

/-- Witness for clause 1 of FlumeConsumerOperations. -/
theorem wit_23_1_FlumeConsumerOperations :
    let ready := fun (c : Nat) (s : State) => s.alive .flm = true ∧ s.running pFlm = true ∧ (s.flm c).used = true ∧
        (s.ctx c).closing = none
    ∃ (c : Fin 512) (k : W32) (s : State), ready c s ∧ k.toNat ≤ Sys2Proof.Machine.dist (s.fpos O.FLM_COMMIT c)
    (s.fpos O.FLM_RD c) := by
  dsimp only
  refine ⟨0, 4, put (usedFlume (runs .reset [pFlm]) 0)
      [(pFlm, State.flr O.FLM_COMMIT 0, 8), (pFlm, State.flr O.FLM_RD 0, 4)], ?_⟩
  (repeat' apply And.intro) <;> decide

/-- Witness for clause 2 of FlumeConsumerOperations. -/
theorem wit_23_2_FlumeConsumerOperations :
    let ready := fun (c : Nat) (s : State) => s.alive .flm = true ∧ s.running pFlm = true ∧ (s.flm c).used = true ∧
        (s.ctx c).closing = none
    ∃ (c : Fin 512) (s : State), ready c s := by
  dsimp only
  refine ⟨0, usedFlume (runs .reset [pFlm]) 0, ?_⟩
  (repeat' apply And.intro) <;> decide

/-- Witness for clause 3 of FlumeConsumerOperations. -/
theorem wit_23_3_FlumeConsumerOperations :
    let ready := fun (c : Nat) (s : State) => s.alive .flm = true ∧ s.running pFlm = true ∧ (s.flm c).used = true ∧
        (s.ctx c).closing = none
    ∃ (c : Fin 512) (s : State), ready c s ∧ s.fstat c 30 = true := by
  dsimp only
  refine ⟨0, put (usedFlume (runs .reset [pFlm]) 0) [(pFlm, State.flr O.FLM_FSTAT 0, 0x40000000)], ?_⟩
  (repeat' apply And.intro) <;> decide

/-- Witness for clause 4 of FlumeConsumerOperations. -/
theorem wit_23_4_FlumeConsumerOperations :
    let ready := fun (c : Nat) (s : State) => s.alive .flm = true ∧ s.running pFlm = true ∧ (s.flm c).used = true ∧
        (s.ctx c).closing = none
    ∃ (c : Fin 512) (p : W32) (s : State), ready c s ∧ (s.flm c).held = none ∧ Sys2Proof.Machine.dist p.toNat
    (s.fpos O.FLM_REL c) ≤ Sys2Proof.Machine.dist (s.fpos O.FLM_RD c) (s.fpos O.FLM_REL c) := by
  dsimp only
  refine ⟨0, 4, put (usedFlume (runs .reset [pFlm]) 0)
      [(pFlm, State.flr O.FLM_COMMIT 0, 8), (pFlm, State.flr O.FLM_RD 0, 4)], ?_⟩
  (repeat' apply And.intro) <;> decide

/-- Witness for clause 5 of FlumeConsumerOperations. -/
theorem wit_23_5_FlumeConsumerOperations :
    let ready := fun (c : Nat) (s : State) => s.alive .flm = true ∧ s.running pFlm = true ∧ (s.flm c).used = true ∧
        (s.ctx c).closing = none
    ∃ (c : Fin 512) (s : State), ready c s := by
  dsimp only
  refine ⟨511, usedFlume (runs .reset [pFlm]) 511, ?_⟩
  (repeat' apply And.intro) <;> decide

/-- Witness for clause 1 of FlumeSpillAndStale. -/
theorem wit_24_1_FlumeSpillAndStale : ∃ (c : Fin 512) (n : Fin 65) (s : State), s.alive .flm = true :=
  ⟨0, 64, .reset, by decide⟩

/-- Witness for clause 2 of FlumeSpillAndStale. -/
theorem wit_24_2_FlumeSpillAndStale : ∃ (c : Fin 512) (s : State), s.alive .flm = true ∧ s.running pFlm = true ∧
    (s.flm c).used = true ∧ (s.flm c).moved = false ∧ (s.flm c).raised = false ∧ s.fld pFlm O.FLM_STALE_T 0 8 ≠ 0 ∧
    s.fld pFlm O.FLM_STALE_T 0 8 ≤ (s.flm c).still + 1 ∧ s.fpos O.FLM_COMMIT c ≠ s.fpos O.FLM_RD c :=
  ⟨0, put (usedFlume (runs .reset [pFlm]) 0) [(pFlm, O.FLM_STALE_T, 1), (pFlm, State.flr O.FLM_COMMIT 0, 2)], by
      decide⟩

/-- Witness for clause 1 of NetworkPortsCountFramesAndLinks. -/
theorem wit_25_1_NetworkPortsCountFramesAndLinks :
    let pg := State.netPage
    let at_ := fun (o : Nat) (i : Fin 8) => State.netReg o i
    let inUse := fun (s : State) (i : Fin 8) => s.alive .net = true ∧ s.running (pg i) = true ∧ s.instExists i =
        true ∧ s.bit (pg i) (at_ O.NET_MAC_CFG i) 31 = true
    ∃ (i : Fin 8) (f : RxFrame) (s : State), inUse s i := by
  dsimp only
  refine ⟨0, ⟨List.replicate 60 0, true, 0, 0, 0, 0, 0, 0⟩, put (runs .reset [pNet])
      [(pNet, O.NET_MAC_CFG, 0x80000000)], ?_⟩
  (repeat' apply And.intro) <;> decide

/-- Witness for clause 2 of NetworkPortsCountFramesAndLinks. -/
theorem wit_25_2_NetworkPortsCountFramesAndLinks :
    let pg := State.netPage
    let at_ := fun (o : Nat) (i : Fin 8) => State.netReg o i
    let inUse := fun (s : State) (i : Fin 8) => s.alive .net = true ∧ s.running (pg i) = true ∧ s.instExists i =
        true ∧ s.bit (pg i) (at_ O.NET_MAC_CFG i) 31 = true
    let sound := fun (s : State) (i : Fin 8) (f : RxFrame) => f.fcsOk = true ∧ 64 ≤ f.bytes.length + 4 ∧
        f.bytes.length + 4 ≤ s.maxFrame i
    let forUs := fun (s : State) (i : Fin 8) (f : RxFrame) => s.bit (pg i) (at_ O.NET_MAC_CFG i) 30 = true ∨ bitOf
        (f.bytes.headD 0).toNat 0 = true ∨ beNat (f.bytes.take 6) = s.rd64 (pg i) (at_ O.NET_MAC_ADDR_LO i) % 2
        ^ 48
    ∃ (i : Fin 8) (f : RxFrame) (r : Nat) (s : State), inUse s i ∧ sound s i f ∧ be16 f.bytes 12 ≠ 0x8808 ∧ forUs s
    i f ∧ s.running pDbk = true ∧ State.ingressFits f (s.frameClass i f.bytes) f.bytes.length = true ∧
    parseFrame (s.bit (pg i) (at_ O.NET_MAC_CFG i) 29) f.bytes = .slow r ∧
    let q := s.instCfg i 16 4
    let tail := s.fld pDbk (State.spr O.DBK_SPQ_STAT q) 0 16
    s.bit pDbk (State.spr O.DBK_SPQ_CFG q) 31 = true ∧ s.hostReady = true ∧ r < 16 ∧ (tail + 1) % s.spSize q ≠ s.fld
    pDbk (State.spr O.DBK_SPQ_HEAD q) 0 16 := by
  dsimp only
  refine ⟨0, ⟨List.replicate 60 0, true, 100000, 100000, 0, 0, 0, 0⟩, 4, put (up .reset [pNet, pDbk])
      [(pNet, O.NET_MAC_CFG, 0xC00005EE), (pDbk, O.DBK_SPQ_CFG, 0x80000001)], ?_⟩
  (repeat' apply And.intro) <;> decide

/-- Witness for clause 3 of NetworkPortsCountFramesAndLinks. -/
theorem wit_25_3_NetworkPortsCountFramesAndLinks :
    let pg := State.netPage
    let at_ := fun (o : Nat) (i : Fin 8) => State.netReg o i
    let inUse := fun (s : State) (i : Fin 8) => s.alive .net = true ∧ s.running (pg i) = true ∧ s.instExists i =
        true ∧ s.bit (pg i) (at_ O.NET_MAC_CFG i) 31 = true
    let sound := fun (s : State) (i : Fin 8) (f : RxFrame) => f.fcsOk = true ∧ 64 ≤ f.bytes.length + 4 ∧
        f.bytes.length + 4 ≤ s.maxFrame i
    let forUs := fun (s : State) (i : Fin 8) (f : RxFrame) => s.bit (pg i) (at_ O.NET_MAC_CFG i) 30 = true ∨ bitOf
        (f.bytes.headD 0).toNat 0 = true ∨ beNat (f.bytes.take 6) = s.rd64 (pg i) (at_ O.NET_MAC_ADDR_LO i) % 2
        ^ 48
    ∃ (i : Fin 8) (f : RxFrame) (u : Udp) (h : Hit) (s : State), inUse s i ∧ sound s i f ∧ be16 f.bytes 12 ≠ 0x8808
    ∧ forUs s i f ∧ s.running pDbk = true ∧ State.ingressFits f (s.frameClass i f.bytes) f.bytes.length = true ∧
    parseFrame (s.bit (pg i) (at_ O.NET_MAC_CFG i) 29) f.bytes = .udp u ∧ (s.lookupUdp i (((l2Parse f.bytes).map
    (·.2.2)).getD 0) u).1 = some h ∧ h.kind = 0 ∧ h.pfmt = 0 ∧ bitOf h.w12 18 = false ∧ bitOf h.w12 19 = false ∧
    h.colour < 2 := by
  dsimp only
  refine ⟨0, ⟨udpFrame, true, 100000, 100000, 0, 0, 0, 0⟩, ⟨false, [0, 0, 0, 0], [0, 0, 0, 0], [0, 0], [0, 0],
      List.replicate 18 0⟩, ⟨0, 11560, 0, 0⟩, ruleState, ?_⟩
  (repeat' apply And.intro) <;> decide

/-- Witness for clause 4 of NetworkPortsCountFramesAndLinks. -/
theorem wit_25_4_NetworkPortsCountFramesAndLinks :
    let pg := State.netPage
    ∃ (i : Fin 8) (up lock ber : Bool) (s : State), s.alive .net = true ∧ s.running (pg i) = true ∧ s.instExists i =
    true := by
  dsimp only
  refine ⟨7, true, true, false, put (runs .reset [pNet + 1]) [(pNet + 1, O.NET_PORT_CFG, 2)], ?_⟩
  (repeat' apply And.intro) <;> decide

/-- Witness for clause 5 of NetworkPortsCountFramesAndLinks. -/
theorem wit_25_5_NetworkPortsCountFramesAndLinks : ∃ (q : Fin 16) (v : W32) (s : State), s.hostAlive = true :=
  ⟨15, 1, .reset, by decide⟩

/-- Witness for clause 6 of NetworkPortsCountFramesAndLinks. -/
theorem wit_25_6_NetworkPortsCountFramesAndLinks : ∃ (s : State), s.hostAlive = true :=
  ⟨.reset, by decide⟩

/-- Witness for clause 7 of NetworkPortsCountFramesAndLinks. -/
theorem wit_25_7_NetworkPortsCountFramesAndLinks : ∃ (v : W32) (s : State), s.hostAlive = true :=
  ⟨1, .reset, by decide⟩

/-- Witness for clause 1 of ChokerAdmitsServesAndReleases. -/
theorem wit_26_1_ChokerAdmitsServesAndReleases : ∃ (s : State), s.alive .chk = true ∧ s.running pChk = false :=
  ⟨.reset, by decide⟩

/-- Witness for clause 2 of ChokerAdmitsServesAndReleases. -/
theorem wit_26_2_ChokerAdmitsServesAndReleases : ∃ (s : State), s.alive .chk = true ∧ s.running pChk = true :=
  ⟨runs .reset [pChk], by decide⟩

/-- Witness for clause 3 of ChokerAdmitsServesAndReleases. -/
theorem wit_26_3_ChokerAdmitsServesAndReleases : ∃ (f : NetFrame) (r : List NetFrame) (s : State), s.alive .chk =
    true ∧ s.chk.inbox = f :: r ∧ f.queue < 516 :=
  ⟨⟨515, 0, [], none, none⟩, [], { State.reset with chk := { inbox := [⟨515, 0, [], none, none⟩] } }, by decide⟩

/-- Witness for clause 4 of ChokerAdmitsServesAndReleases. -/
theorem wit_26_4_ChokerAdmitsServesAndReleases : ∃ (i : Fin 8) (x : W64) (y : BitVec 16) (s : State), s.alive .chk =
    true :=
  ⟨7, 0, 0, .reset, by decide⟩

/-- Witness for clause 5 of ChokerAdmitsServesAndReleases. -/
theorem wit_26_5_ChokerAdmitsServesAndReleases : ∃ (p : Fin 64) (c : JCell) (s : State), s.alive .chk = true ∧
    s.jhead p = some c ∧ (∀ q, q < 64 → ((s.subOf (64 * p + q)).op.any fun o => decide (o.wait = 6) || decide
    (o.wait = 7)) = false) :=
  ⟨63, { mgmt := true, tile := 0, body := [] }, { State.reset with chk :=
      { jq := [(63, [{ mgmt := true, tile := 0, body := [] }])] } }, by decide⟩

/-- Witness for clause 1 of TransmitRingsReadAndWriteBack. -/
theorem wit_27_1_TransmitRingsReadAndWriteBack : ∃ (r : Fin 4) (v : W32) (s : State), s.hostAlive = true :=
  ⟨3, 5, .reset, by decide⟩

/-- Witness for clause 2 of TransmitRingsReadAndWriteBack. -/
theorem wit_27_2_TransmitRingsReadAndWriteBack : ∃ (r : Fin 4) (ok : Bool) (s : State), s.alive .chk = true ∧
    s.running pChk = true ∧ s.hostReady = true ∧ s.bit pChk (State.htxr O.CHK_HTX_CFG r) 31 = true ∧ (s.htxOf
    r).next ≠ s.fld pChk (State.htxr O.CHK_HTX_TAIL r) 0 16 :=
  ⟨0, true, put (runs .reset [pChk]) [(pHif, O.HIF_PM_STAT, 1), (pChk, State.htxr O.CHK_HTX_CFG 0, 0x80000004),
      (pChk, State.htxr O.CHK_HTX_TAIL 0, 1)], by decide⟩

/-- Witness for clause 3 of TransmitRingsReadAndWriteBack. -/
theorem wit_27_3_TransmitRingsReadAndWriteBack : ∃ (r : Fin 4) (e : HtxEnt) (rest : List HtxEnt) (s : State),
    s.alive .chk = true ∧ s.hostReady = true ∧ (s.htxOf r).ents = e :: rest ∧ e.done = true :=
  ⟨0, { idx := 0, word0 := 0, done := true }, [], { put .reset [(pHif, O.HIF_PM_STAT, 1)] with chk := { htx := [(0,
      { ents := [{ idx := 0, word0 := 0, done := true }] })] } }, by decide⟩

/-- Witness for clause 1 of ContextsOpenChangeMoveAndClose. -/
theorem wit_28_1_ContextsOpenChangeMoveAndClose : ∃ (r : JobRef) (j : Job) (ok : Bool) (s : State), s.jobReady r 1 j
    ∧ s.hbmReady = true ∧ s.hostReady = true :=
  ⟨r0, jb 1, true, up (started .reset (jb 1)) [], by (repeat' apply And.intro) <;> decide⟩

/-- Witness for clause 2 of ContextsOpenChangeMoveAndClose. -/
theorem wit_28_2_ContextsOpenChangeMoveAndClose :
    let cls := fun j : Job => bitsOf (j.dw 6) 8 2
    let wd := fun j : Job => bitsOf (j.dw 7) 16 16
    let ht := fun j : Job => bitsOf (j.dw 7) 0 16
    ∃ (r : JobRef) (j : Job) (s : State), s.jobReady r 2 j ∧ s.hostReady = true ∧
    let x := s.ctx j.ctx
    let fmt := State.ringFormat x
    x.works = true ∧ x.typ ≠ 3 ∧ x.closing = none ∧ x.midUnit = false ∧ cls j ≠ 3 ∧ j.dw 8 ≠ 0 ∧ j.dw 9 ≠ 0 ∧
    j.length = 64 ∧ decBad x.typ (wd j) (ht j) (s.flm j.ctx).host (s.readDesc j 16) = false ∧ decFixed
    (s.readDesc j 16) = decFixed x.desc ∧ pitchOf fmt (wd j) ≤ x.pitch ∧ slotBytesOf (pitchOf fmt (wd j)) (ht j)
    ≤ x.slotBytes ∧ ((wd j * ht j * j.dw 8 : Nat) : Rat) / (max 1 (j.dw 9) : Nat) ≤ x.rate := by
  dsimp only
  refine ⟨r0, cfgJob, { withCtx (up (started .reset cfgJob) [])
      { st := 1, width := 64, height := 64, fnum := 1, desc := [0, 4], pitch := 256, slotBytes := 65536 } with
      host := [(0x1004, 4)] }, ?_⟩
  (repeat' apply And.intro) <;> decide +kernel

/-- Witness for clause 3 of ContextsOpenChangeMoveAndClose. -/
theorem wit_28_3_ContextsOpenChangeMoveAndClose :
    let noDue := fun s : State => ∀ k, (s.ctx k).typ = 3 → (s.ctx k).enc.pic = none
    ∃ (r : JobRef) (j : Job) (s : State), s.jobReady r 3 j ∧ s.hostReady = true ∧ noDue s ∧ (s.ctx j.ctx).isOpen =
    true ∧ (s.ctx j.ctx).closing = none ∧ (s.ctx j.ctx).mig = none ∧ (s.ctx j.ctx).flight = [] ∧ (s.ctx
    j.ctx).enc.pic = none ∧ (s.ctx j.ctx).midUnit = false ∧ bitOf (j.dw 6) 0 = false := by
  dsimp only
  refine ⟨r0, jb 3 [] [] 0, withCtx (up (started .reset (jb 3 [] [] 0)) []) { st := 1 }, ?_⟩
  (repeat' apply And.intro) <;> first | decide | exact noPic _ (by decide)

/-- Witness for clause 4 of ContextsOpenChangeMoveAndClose. -/
theorem wit_28_4_ContextsOpenChangeMoveAndClose :
    let noDue := fun s : State => ∀ k, (s.ctx k).typ = 3 → (s.ctx k).enc.pic = none
    ∃ (r : JobRef) (j : Job) (k : Nat) (s : State), s.jobReady r 4 j ∧ noDue s ∧
    let x := s.ctx j.ctx
    let to_ := bitsOf (j.dw 6) 0 8
    x.isOpen = true ∧ x.typ ≠ 2 ∧ x.mig = none ∧ x.cores = [k] ∧ to_ ≠ 255 := by
  dsimp only
  refine ⟨r0, jb 4 [6] [] 0, 5, withCtx (started .reset (jb 4 [6] [] 0)) { st := 1, cores := [5] }, ?_⟩
  (repeat' apply And.intro) <;> first | decide | exact noPic _ (by decide)

/-- Witness for clause 1 of ContextDataAndEncoderJobs. -/
theorem wit_29_1_ContextDataAndEncoderJobs :
    let ready := fun s : State => s.hostReady = true ∧ s.hbmReady = true
    ∃ (r : JobRef) (j : Job) (s : State), s.jobReady r 0x10 j ∧ s.sramReady = true ∧ s.skdMoves = true ∧ s.running
    pFlm = true ∧ s.feedTurn r = true ∧ (s.ctx j.ctx).works = true ∧ (s.ctx j.ctx).typ ≠ 3 ∧ (s.ctx
    j.ctx).closing = none ∧ s.feedOk j.ctx = true ∧ j.ctx < 512 ∧ j.moved = 0 ∧ bitOf (j.dw 6) 0 = true ∧
    (s.jobData j).length = j.length ∧ (s.flm j.ctx).pkt = none ∧ ready s ∧
    let n := j.length + (if bitOf (j.dw 6) 2 then 8 else 0)
    n ≤ s.pktMax j.ctx ∧ n + 1 ≤ s.roomBytes j.ctx := by
  dsimp only
  refine ⟨r0, jb 0x10 [1] [(0, 4)] 0, usedFlume (withCtx (started (up .reset [pSkd, pFlm]) (jb 0x10 [1] [(0, 4)]
      0)) { st := 1 }) 0, ?_⟩
  (repeat' apply And.intro) <;> decide

/-- Witness for clause 2 of ContextDataAndEncoderJobs. -/
theorem wit_29_2_ContextDataAndEncoderJobs :
    let ready := fun s : State => s.hostReady = true ∧ s.hbmReady = true
    ∃ (r : JobRef) (j : Job) (slot lines : Nat) (s : State), s.jobReady r 0x11 j ∧ s.skdMoves = true ∧ s.feedTurn r
    = true ∧ ready s ∧
    let x := s.ctx j.ctx
    let w := bitsOf (j.dw 6) 16 16
    let h := bitsOf (j.dw 6) 0 16
    let line := lineBytes (j.dw 8) w
    x.works = true ∧ x.typ = 2 ∧ bitsOf (x.w 0) 28 4 = 5 ∧ x.closing = none ∧ x.cepoch < 16 ∧ w ≠ 0 ∧ h ≠ 0 ∧ w ≤
    x.width ∧ h ≤ x.height ∧ j.dw 8 = State.ringFormat x ∧ j.dw 7 % 16 = 0 ∧ line ≤ j.dw 7 ∧ j.dw 7 * (h - 1) +
    line ≤ j.length ∧ s.findSlot j.ctx = some slot ∧ x.flight = [] ∧ h ≤ lines := by
  dsimp only
  refine ⟨r0, putJob, 0, 64, withCtx (started (up .reset [pSkd]) putJob)
      { typ := 2, st := 1, width := 64, height := 64, desc := [0x50000000, 4] }, ?_⟩
  (repeat' apply And.intro) <;> decide

/-- Witness for clause 3 of ContextDataAndEncoderJobs. -/
theorem wit_29_3_ContextDataAndEncoderJobs : ∃ (r : JobRef) (j : Job) (s : State), s.jobReady r 0x21 j :=
  ⟨r0, jb 0x21, started .reset (jb 0x21), by (repeat' apply And.intro) <;> decide⟩

/-- Witness for clause 4 of ContextDataAndEncoderJobs. -/
theorem wit_29_4_ContextDataAndEncoderJobs : ∃ (r : JobRef) (j : Job) (s : State), s.jobReady r 0x22 j ∧
    let x := s.ctx j.ctx
    x.typ = 3 ∧ x.works = true := by
  dsimp only
  refine ⟨r0, jb 0x22 [] [] 0, withCtx (started .reset (jb 0x22 [] [] 0)) { typ := 3, st := 1 }, ?_⟩
  (repeat' apply And.intro) <;> decide

/-- Witness for clause 1 of DecodersTakeCommitAndOutputPictures. -/
theorem wit_30_1_DecodersTakeCommitAndOutputPictures :
    let blk := fun k : Fin 3 => if k.val = 1 then Blk.xsd else Blk.dec
    let quiet := fun s : State => ∀ e ∈ s.ctxs, ∀ m ∈ (s.flm e.1).pks, m.kerf = false ∧ bitOf (s.pktHead e.1 m) 24 =
        false ∧ bitOf (s.pktHead e.1 m) 26 = false
    ∃ (k : Fin 3) (u : Fin 36) (p : PicTake) (slot : Nat) (s : State), s.alive (blk k) = true ∧ quiet s ∧ s.running
    pFlm = true ∧ s.hbmReady = true ∧ s.sramReady = true ∧
    let x := s.ctx p.ctx
    s.mayTake k u p = true ∧ s.coreFree k u = true ∧ x.st = 2 ∧ x.newCfg = none ∧ x.closing = none ∧ p.mismatch =
    false ∧ State.streamOk x p = true ∧ p.width ≤ x.width ∧ p.height ≤ x.height ∧ State.ringNeed x p ≤
    State.ringSlots x ∧ p.ref = true ∧ s.findSlot p.ctx = some slot ∧ (s.flm p.ctx).held = none ∧
    Sys2Proof.Machine.dist (s.fpos O.FLM_RD p.ctx) (s.fpos O.FLM_REL p.ctx) < Sys2Proof.Machine.dist
    p.stop.toNat (s.fpos O.FLM_REL p.ctx) := by
  dsimp only
  refine ⟨0, 0, ⟨0, 0, 2, 0, true, true, 64, 64, 30, 0, 8, 1, 0, true, true, true, [], true, false⟩, 0, withCtx
      (put (up .reset [pDec, pFlm]) [(pFlm, State.flr O.FLM_COMMIT 0, 2)])
      { st := 2, width := 64, height := 64, desc := [0, 4], cores := [0] }, ?_⟩
  (repeat' apply And.intro) <;> decide

/-- Witness for clause 2 of DecodersTakeCommitAndOutputPictures. -/
theorem wit_30_2_DecodersTakeCommitAndOutputPictures :
    let blk := fun k : Fin 3 => if k.val = 1 then Blk.xsd else Blk.dec
    let quiet := fun s : State => ∀ e ∈ s.ctxs, ∀ m ∈ (s.flm e.1).pks, m.kerf = false ∧ bitOf (s.pktHead e.1 m) 24 =
        false ∧ bitOf (s.pktHead e.1 m) 26 = false
    ∃ (k : Fin 3) (u : Fin 36) (r : PicResult) (f : Flight) (s : State), s.alive (blk k) = true ∧ quiet s ∧
    let rel := s.fpos O.FLM_REL r.ctx
    let x := s.ctx r.ctx
    x.typ = k.val ∧ x.flight = [f] ∧ f.core = u.val ∧ f.done = false ∧ x.closing = none ∧ x.mig = none ∧
    r.cepoch.val = x.cepoch ∧ (k.val = 2 → bitsOf (x.w 0) 28 4 ≠ 5) ∧ (k.val < 2 → u.val < coreCount k.val) ∧
    Sys2Proof.Machine.dist f.start rel ≤ Sys2Proof.Machine.dist (s.unfinished r.ctx []) rel ∧ x.outq = [] ∧
    (s.flm r.ctx).held = none ∧ x.cepoch < 16 ∧ f.colour < 16 ∧ r.unref = [] := by
  dsimp only
  refine ⟨0, 0, ⟨0, 0, ⟨0, 8, [], [], []⟩, none, 0, [], [], [], false, [0], [], 0⟩, flightA, withCtx .reset
      { st := 2, width := 64, height := 64, desc := [0, 4], cores := [0], flight := [flightA] }, ?_⟩
  (repeat' apply And.intro) <;> decide

/-- Witness for clause 1 of CodecContextsReportMigrateAndFail. -/
theorem wit_31_1_CodecContextsReportMigrateAndFail : ∃ (c : Fin 512) (s : State), s.alive .dec = true ∧ (s.ctx
    c).isOpen = true ∧ (s.ctx c).typ ≠ 3 ∧ s.hostReady = true ∧ (s.ctx c).desc ≠ [] :=
  ⟨0, withCtx (put .reset [(pHif, O.HIF_PM_STAT, 1)]) { st := 1, desc := [0] },
      by (repeat' apply And.intro) <;> decide⟩

/-- Witness for clause 2 of CodecContextsReportMigrateAndFail. -/
theorem wit_31_2_CodecContextsReportMigrateAndFail : ∃ (c : Fin 512) (s : State), s.alive .enc = true ∧ (s.ctx
    c).isOpen = true ∧ (s.ctx c).typ = 3 ∧ s.hostReady = true ∧ (s.ctx c).desc ≠ [] :=
  ⟨0, withCtx (put .reset [(pHif, O.HIF_PM_STAT, 1)]) { typ := 3, st := 1, desc := [0] },
      by (repeat' apply And.intro) <;> decide⟩

/-- Witness for clause 3 of CodecContextsReportMigrateAndFail. -/
theorem wit_31_3_CodecContextsReportMigrateAndFail :
    let noDue := fun s : State => ∀ k, (s.ctx k).typ = 3 → (s.ctx k).enc.pic = none
    ∃ (c : Fin 512) (m : Mig) (s : State), s.alive .dec = true ∧ (s.ctx c).mig = some m ∧ (s.ctx c).flight = [] ∧
    (s.ctx c).enc.pic = none ∧ noDue s ∧ (s.ctx c).midUnit = false ∧ (m.cores.all fun k => s.inService (s.ctx
    c).typ k) = true := by
  dsimp only
  refine ⟨0, ⟨[0], none⟩, withCtx (runs .reset [pDec]) { st := 1, cores := [1], mig := some ⟨[0], none⟩ }, ?_⟩
  (repeat' apply And.intro) <;> first | decide | exact noPic _ (by decide)

/-- Witness for clause 4 of CodecContextsReportMigrateAndFail. -/
theorem wit_31_4_CodecContextsReportMigrateAndFail :
    let noDue := fun s : State => ∀ k, (s.ctx k).typ = 3 → (s.ctx k).enc.pic = none
    ∃ (s : State), s.alive .dec = true ∧ noDue s := by
  dsimp only
  refine ⟨.reset, ?_⟩
  (repeat' apply And.intro) <;> first | decide | exact noPic _ (by decide)

/-- Witness for clause 5 of CodecContextsReportMigrateAndFail. -/
theorem wit_31_5_CodecContextsReportMigrateAndFail :
    let noDue := fun s : State => ∀ k, (s.ctx k).typ = 3 → (s.ctx k).enc.pic = none
    ∃ (typ : Fin 4) (k j c n : Nat) (s : State), s.alive .dec = true ∧ noDue s ∧ typ.val ≠ 2 ∧ k < coreCount typ ∧
    (s.lateRecent = [(corePage typ k, n)]) ∧ n ≠ 0 ∧ s.onCore typ k = [c] ∧ (s.ctx c).cls ≠ 0 ∧ (s.ctx c).pinned
    = false ∧ (s.ctx c).ganged = false ∧ (s.ctx c).works = true ∧ (s.ctx c).mig = none ∧ (List.range (coreCount
    typ)).find? (fun i => decide (i ≠ k) && s.fitsCore typ i (s.ctx c).rate none) = some j := by
  dsimp only
  refine ⟨0, 0, 1, 0, 1, { withCtx (runs .reset [pDec, pDec + 1])
      { st := 2, cls := 1, width := 64, height := 64, fnum := 1, desc := [0, 4], cores := [0] } with lateRecent
      := [(pDec, 1)] }, ?_⟩
  (repeat' apply And.intro) <;> first | decide +kernel | exact noPic _ (by decide)

/-- Witness for clause 6 of CodecContextsReportMigrateAndFail. -/
theorem wit_31_6_CodecContextsReportMigrateAndFail :
    let serves := fun (s : State) (typ k : Nat) => s.role typ k = 0 ∧ s.flt.retiring ≠ some (coreClass typ, k)
    ∃ (k : Fin 45) (bad : List Nat) (s : State), s.alive .dec = true ∧ serves s (coreOf k).1 (coreOf k).2 := by
  dsimp only
  exact ⟨0, [], .reset, by decide⟩

/-- Witness for clause 7 of CodecContextsReportMigrateAndFail. -/
theorem wit_31_7_CodecContextsReportMigrateAndFail :
    let serves := fun (s : State) (typ k : Nat) => s.role typ k = 0 ∧ s.flt.retiring ≠ some (coreClass typ, k)
    ∃ (k : Fin 45) (bad : List Nat) (c : Nat) (s : State), s.alive .dec = true ∧ serves s (coreOf k).1 (coreOf k).2
    ∧ c ∈ s.onCore (coreOf k).1 (coreOf k).2 ∧ ((s.ctx c).flight.any fun f => decide (f.core = (coreOf k).2) &&
    !f.done) = true := by
  dsimp only
  refine ⟨0, [], 0, withCtx .reset { st := 2, cores := [0], flight := [{ flightA with done := false }] }, ?_⟩
  (repeat' apply And.intro) <;> decide

/-- Witness for clause 8 of CodecContextsReportMigrateAndFail. -/
theorem wit_31_8_CodecContextsReportMigrateAndFail :
    let serves := fun (s : State) (typ k : Nat) => s.role typ k = 0 ∧ s.flt.retiring ≠ some (coreClass typ, k)
    ∃ (k : Fin 18) (hang : Bool) (bad : List Nat) (s : State), s.alive .enc = true ∧ serves s 3 k ∧ (hang = true →
    s.encBusy k = true) := by
  dsimp only
  refine ⟨0, true, [], withCtx .reset { typ := 3, st := 2, cores := [0], enc :=
      { pic := some { pts := 0, started := true } } }, ?_⟩
  (repeat' apply And.intro) <;> decide

/-- Witness for clause 9 of CodecContextsReportMigrateAndFail. -/
theorem wit_31_9_CodecContextsReportMigrateAndFail : ∃ (c : Fin 512) (code : Fin 6) (s : State), s.alive .dec = true
    ∧ code ≠ 0 ∧ (s.ctx c).isOpen = true ∧ (s.ctx c).st ≠ 5 :=
  ⟨0, 5, withCtx .reset { st := 2 }, by decide⟩

/-- Witness for clause 1 of EncoderPicturesFollowInstantsAndPasses. -/
theorem wit_32_1_EncoderPicturesFollowInstantsAndPasses :
    let alone := fun (s : State) (c : Nat) => ∀ k, k ≠ c → (s.ctx k).typ = 3 → (s.ctx k).enc.pic = none
    ∃ (c : Fin 512) (skip : EncOut) (pts : Nat) (kind : Nat) (s : State), s.alive .enc = true ∧ alone s c ∧
    let x := s.ctx c
    x.typ = 3 ∧ x.works = true ∧ x.closing = none ∧ x.ecfg.tap = true ∧ (x.enc.cap = some (pts, kind)) := by
  dsimp only
  refine ⟨0, ⟨[], [], ([], [], []), [], 0⟩, 0, 0, withCtx .reset
      { typ := 3, st := 2, enc := { cap := some (0, 0) } }, ?_⟩
  (repeat' apply And.intro) <;> first | decide | exact alone0 _ _

/-- Witness for clause 2 of EncoderPicturesFollowInstantsAndPasses. -/
theorem wit_32_2_EncoderPicturesFollowInstantsAndPasses :
    let alone := fun (s : State) (c : Nat) => ∀ k, k ≠ c → (s.ctx k).typ = 3 → (s.ctx k).enc.pic = none
    ∃ (c : Fin 512) (o skip : EncOut) (p : EncPic) (s : State), s.alive .enc = true ∧ alone s c ∧
    let x := s.ctx c
    x.typ = 3 ∧ x.works = true ∧ x.enc.pic = some p ∧ p.started = true ∧ 1 ≤ p.pass ∧ p.pass ≤ 3 ∧ x.enc.owed = [] ∧
    x.mig = none ∧ x.closing = none := by
  dsimp only
  refine ⟨0, ⟨[], [], ([], [], []), [], 0⟩, ⟨[], [], ([], [], []), [], 0⟩, { pts := 0, started := true }, withCtx
      .reset { typ := 3, st := 2, enc := { pic := some { pts := 0, started := true } } }, ?_⟩
  (repeat' apply And.intro) <;> first | decide | exact alone0 _ _

/-- Witness for clause 3 of EncoderPicturesFollowInstantsAndPasses. -/
theorem wit_32_3_EncoderPicturesFollowInstantsAndPasses : ∃ (c : Fin 512) (s : State), s.alive .enc = true ∧ (s.ctx
    c).typ = 3 ∧ (s.ctx c).enc.holdoff = true :=
  ⟨0, withCtx .reset { typ := 3, st := 2, enc := { holdoff := true } }, by decide⟩

/-- Witness for clause 1 of ModesAreArmedCancelledAndApplied. -/
theorem wit_33_1_ModesAreArmedCancelledAndApplied : ∃ (s : State), s.alive .lnd = true ∧ s.postBusy pLnd = false :=
  ⟨.reset, by decide⟩

/-- Witness for clause 2 of ModesAreArmedCancelledAndApplied. -/
theorem wit_33_2_ModesAreArmedCancelledAndApplied : ∃ (m : ModeNext) (s : State), s.alive .lnd = true ∧ s.postBusy
    pLnd = false ∧ s.lnd.armed = some m :=
  ⟨⟨0, 0, 0, 0, 0, false⟩, { State.reset with lnd := { armed := some ⟨0, 0, 0, 0, 0, false⟩ } }, by decide⟩

/-- Witness for clause 3 of ModesAreArmedCancelledAndApplied. -/
theorem wit_33_3_ModesAreArmedCancelledAndApplied : ∃ (s : State), s.alive .lnd = true :=
  ⟨.reset, by decide⟩

/-- Witness for clause 4 of ModesAreArmedCancelledAndApplied. -/
theorem wit_33_4_ModesAreArmedCancelledAndApplied : ∃ (m : ModeNext) (s : State), s.alive .lnd = true ∧
    s.lnd.applied = false ∧ s.lnd.armed = some m ∧ m.epoch = s.tim.wframe % 2 ^ 32 ∧ s.stand.pend = none ∧
    s.lnd.loads = [] ∧ (∀ k, k < 8 → (s.wfeed k).pend = []) :=
  ⟨⟨0x02000001, 60000, 1000, 0x00640064, 0, false⟩,
      { State.reset with lnd := { armed := some ⟨0x02000001, 60000, 1000, 0x00640064, 0, false⟩ } }, by decide⟩

/-- Witness for clause 5 of ModesAreArmedCancelledAndApplied. -/
theorem wit_33_5_ModesAreArmedCancelledAndApplied : ∃ (p : Fin 512) (n : Nat) (s : State), s.alive .lnd = true ∧
    p.val = pLnd ∧ s.lnd.passing = some n :=
  ⟨⟨pLnd, by decide⟩, 3, { State.reset with lnd := { passing := some 3 } }, by decide⟩

/-- Witness for clause 6 of ModesAreArmedCancelledAndApplied. -/
theorem wit_33_6_ModesAreArmedCancelledAndApplied : ∃ (k : Nat) (sc : Scene) (r : JobRef) (s : State), s.alive .lnd
    = true ∧ s.lnd.applied = false ∧ s.lnd.armed = none ∧ s.stand.pend = none ∧ s.lnd.loads = [] ∧ k < 8 ∧ (∀ i, i <
    8 → i ≠ k → (s.wfeed i).pend = []) ∧ (s.wfeed k).pend = [(sc, r)] ∧ (s.wfeed k).wait = [] ∧ s.jobOpen r = true ∧
    sc.epoch = s.tim.wframe % 2 ^ 32 ∧ s.sceneInvalid sc = none :=
  ⟨0, ⟨[], 0, 0⟩, r0, { put (started .reset (jb 0x20)) [(pLnd, O.LND_MODE_CUR, 0x02000001)] with lnd :=
      { feeds := [(0, { pend := [(⟨[], 0, 0⟩, r0)] })] } }, by decide⟩

/-- Witness for clause 7 of ModesAreArmedCancelledAndApplied. -/
theorem wit_33_7_ModesAreArmedCancelledAndApplied : ∃ (m : StandMode) (op : W32) (s : State), s.alive .std = true ∧
    s.isMember = true ∧ s.stdState = 2 ∧ s.modeInForce { State.standModeOf m.cfg.toNat m.num.toNat m.den.toNat
    m.colour.toNat 0 with epoch := s.tim.wframe % 2 ^ 32 } = true :=
  ⟨⟨0x02000001, 60000, 1000, 0x00640064, 0, false⟩, 0, { put .reset [(pStd, O.STD_STAT, 0x80000000), (pLnd,
      O.LND_MODE_CUR, 0x02000001), (pLnd, O.LND_FRATE_NUM_CUR, 60000), (pLnd, O.LND_FRATE_DEN_CUR, 1000), (pLnd,
      O.LND_COLOUR_CUR, 0x00640064)] with flt := { bootMode := 2 } }, by decide⟩

/-- Witness for clause 1 of SlotsStartEndAndFault. -/
theorem wit_34_1_SlotsStartEndAndFault : ∃ (s : State), s.alive .lnd = true :=
  ⟨.reset, by decide⟩

/-- Witness for clause 2 of SlotsStartEndAndFault. -/
theorem wit_34_2_SlotsStartEndAndFault : ∃ (l : List (Fin 512)) (s : State), s.alive .lnd = true :=
  ⟨[], .reset, by decide⟩

/-- Witness for clause 3 of SlotsStartEndAndFault. -/
theorem wit_34_3_SlotsStartEndAndFault : ∃ (k : Fin 8) (f : BitVec 48) (n : Fin 9) (s : State), s.alive .tim = true
    :=
  ⟨7, 0, 8, .reset, by decide⟩

/-- Witness for clause 4 of SlotsStartEndAndFault. -/
theorem wit_34_4_SlotsStartEndAndFault : ∃ (n : Fin 104) (q : Option (BitVec 16 × BitVec 16)) (bad : List Nat) (s :
    State), s.alive .lnd = true ∧ s.running pLnd = true ∧ s.laneIn n = true :=
  ⟨0, none, [], runs .reset [pLnd], by decide⟩

/-- Witness for clause 5 of SlotsStartEndAndFault. -/
theorem wit_34_5_SlotsStartEndAndFault : ∃ (k : Fin 8) (s : State), s.alive .lnd = true ∧ s.frozen k = true :=
  ⟨7, put .reset [(pLnd, O.LND_FLAGS, 0x80)], by decide⟩

/-- Witness for clause 1 of ScenesTablesAndSnapshotsOfJobs. -/
theorem wit_35_1_ScenesTablesAndSnapshotsOfJobs : ∃ (r : JobRef) (ok : Bool) (j : Job) (s : State), s.jobReady r
    0x20 j ∧ s.hbmReady = true ∧ s.hostReady = true :=
  ⟨r0, true, jb 0x20, started (up .reset []) (jb 0x20), by (repeat' apply And.intro) <;> decide⟩

/-- Witness for clause 2 of ScenesTablesAndSnapshotsOfJobs. -/
theorem wit_35_2_ScenesTablesAndSnapshotsOfJobs : ∃ (r : JobRef) (n : Nat) (j : Job) (s : State), s.jobReady r 0x40
    j ∧ s.skdMoves = true ∧
    let p := State.loadPage j
    (State.sramTable p = true → s.sramReady = true) := by
  dsimp only
  refine ⟨r0, 0, jb 0x40, started (runs .reset [pSkd]) (jb 0x40), ?_⟩
  (repeat' apply And.intro) <;> decide

/-- Witness for clause 3 of ScenesTablesAndSnapshotsOfJobs. -/
theorem wit_35_3_ScenesTablesAndSnapshotsOfJobs : ∃ (r : JobRef) (k : Nat) (j : Job) (s : State), s.alive .tly =
    true ∧ s.jobReady r 0x41 j ∧ s.skdMoves = true ∧ s.hbmReady = true ∧ s.hostReady = true :=
  ⟨r0, 1, jb 0x41, started (up .reset [pSkd]) (jb 0x41), by (repeat' apply And.intro) <;> decide⟩

/-- Witness for clause 1 of StandOperationsAreCommittedAndEnd. -/
theorem wit_36_1_StandOperationsAreCommittedAndEnd : ∃ (r : JobRef) (ok : Bool) (m : Fin 64) (j : Job) (s : State),
    s.jobReady r 0x50 j ∧ (s.isMember = true ∨ s.isLead = false) :=
  ⟨r0, true, 0, jb 0x50 [1], started .reset (jb 0x50 [1]), by (repeat' apply And.intro) <;> decide⟩

/-- Witness for clause 2 of StandOperationsAreCommittedAndEnd. -/
theorem wit_36_2_StandOperationsAreCommittedAndEnd :
    let lead := fun (s : State) (j : Job) (op len : Nat) => s.isMember = false ∧ s.isLead = true ∧ s.running pStd =
        true ∧ bitsOf (j.dw 6) 0 8 = op ∧ j.length = len ∧ s.stand.redisc = none
    let far := fun (s : State) (e : Nat) => s.stand.pend = none ∧ s.leadOk e 4 = true
    ∃ (r : JobRef) (m : Fin 64) (j : Job) (s : State), s.jobReady r 0x50 j ∧ lead s j 1 16 ∧ far s (j.dw 7) ∧
    let w := fun i => leWord (s.jobData j) (4 * i)
    let md := State.standModeOf (w 0) (w 1) (w 2) (w 3) (j.dw 7)
    s.hostReady = true ∧ s.wakeLink.modeReason md = none := by
  dsimp only
  refine ⟨r0, 0, jb 0x50 [1, 10] [(0, 16)], { put (started leadState (jb 0x50 [1, 10] [(0, 16)]))
      [(pHif, O.HIF_PM_STAT, 1)] with host :=
      [(0, 1), (3, 2), (4, 0x60), (5, 0xEA), (8, 0xE8), (9, 3), (12, 0x64), (14, 0x64)] }, ?_⟩
  (repeat' apply And.intro) <;> decide

/-- Witness for clause 3 of StandOperationsAreCommittedAndEnd. -/
theorem wit_36_3_StandOperationsAreCommittedAndEnd :
    let lead := fun (s : State) (j : Job) (op len : Nat) => s.isMember = false ∧ s.isLead = true ∧ s.running pStd =
        true ∧ bitsOf (j.dw 6) 0 8 = op ∧ j.length = len ∧ s.stand.redisc = none
    let far := fun (s : State) (e : Nat) => s.stand.pend = none ∧ s.leadOk e 4 = true
    ∃ (r : JobRef) (m : Fin 64) (j : Job) (s : State), s.jobReady r 0x50 j ∧ lead s j 4 0 ∧ far s (j.dw 7) := by
  dsimp only
  refine ⟨r0, 0, jb 0x50 [4, 10], started leadState (jb 0x50 [4, 10]), ?_⟩
  (repeat' apply And.intro) <;> decide

/-- Witness for clause 4 of StandOperationsAreCommittedAndEnd. -/
theorem wit_36_4_StandOperationsAreCommittedAndEnd :
    let lead := fun (s : State) (j : Job) (op len : Nat) => s.isMember = false ∧ s.isLead = true ∧ s.running pStd =
        true ∧ bitsOf (j.dw 6) 0 8 = op ∧ j.length = len ∧ s.stand.redisc = none
    ∃ (r : JobRef) (b : Bool) (j : Job) (s : State), s.jobReady r 0x50 j ∧ lead s j 2 0 ∧ s.stand.barriers = [] := by
  dsimp only
  refine ⟨r0, false, jb 0x50 [2], started leadState (jb 0x50 [2]), ?_⟩
  (repeat' apply And.intro) <;> decide

/-- Witness for clause 5 of StandOperationsAreCommittedAndEnd. -/
theorem wit_36_5_StandOperationsAreCommittedAndEnd : ∃ (r : JobRef) (l : List JobRef) (b : Bool) (s : State),
    s.alive .wqm = true ∧ (s.stand.barriers = [⟨r, l, false⟩]) ∧ (l.any fun x => s.jobOpen x) = false :=
  ⟨r0, [], false, { started leadState (jb 0x50 [2]) with stand := { barriers := [⟨r0, [], false⟩] } }, by decide⟩

/-- Witness for clause 6 of StandOperationsAreCommittedAndEnd. -/
theorem wit_36_6_StandOperationsAreCommittedAndEnd : ∃ (r : JobRef) (l : List JobRef) (s : State), s.alive .wqm =
    true ∧ s.jobOpen r = true ∧ (s.stand.barriers = [⟨r, l, true⟩]) :=
  ⟨r0, [], { started leadState (jb 0x50 [2]) with stand := { barriers := [⟨r0, [], true⟩] } }, by decide⟩

/-- Witness for clause 7 of StandOperationsAreCommittedAndEnd. -/
theorem wit_36_7_StandOperationsAreCommittedAndEnd : ∃ (r : JobRef) (b : Bool) (s : State), s.alive .wqm = true ∧
    s.isMember = true ∧ s.stdState = 2 :=
  ⟨r0, false, { put .reset [(pStd, O.STD_STAT, 0x80000000)] with flt := { bootMode := 2 } },
      by (repeat' apply And.intro) <;> decide⟩

/-- Witness for clause 8 of StandOperationsAreCommittedAndEnd. -/
theorem wit_36_8_StandOperationsAreCommittedAndEnd :
    let lead := fun (s : State) (j : Job) (op len : Nat) => s.isMember = false ∧ s.isLead = true ∧ s.running pStd =
        true ∧ bitsOf (j.dw 6) 0 8 = op ∧ j.length = len ∧ s.stand.redisc = none
    ∃ (r : JobRef) (j : Job) (s : State), s.jobReady r 0x50 j ∧ lead s j 3 8 ∧ s.hostReady = true := by
  dsimp only
  refine ⟨r0, jb 0x50 [3] [(0, 8)], put (started leadState (jb 0x50 [3] [(0, 8)])) [(pHif, O.HIF_PM_STAT, 1)], ?_⟩
  (repeat' apply And.intro) <;> decide

/-- Witness for clause 9 of StandOperationsAreCommittedAndEnd. -/
theorem wit_36_9_StandOperationsAreCommittedAndEnd : ∃ (r : JobRef) (n : Fin 65) (j : Job) (s : State), s.alive .wqm
    = true ∧ s.findJob r = some j ∧ j.op = 0x50 ∧ bitsOf (j.dw 6) 0 8 = 3 ∧ j.taken = true ∧ j.out = none :=
  ⟨r0, 64, { jb 0x50 [3] [(0, 8)] with taken := true }, started leadState
      { jb 0x50 [3] [(0, 8)] with taken := true }, by (repeat' apply And.intro) <;> decide⟩

/-- Witness for clause 10 of StandOperationsAreCommittedAndEnd. -/
theorem wit_36_10_StandOperationsAreCommittedAndEnd :
    let lead := fun (s : State) (j : Job) (op len : Nat) => s.isMember = false ∧ s.isLead = true ∧ s.running pStd =
        true ∧ bitsOf (j.dw 6) 0 8 = op ∧ j.length = len ∧ s.stand.redisc = none
    ∃ (r : JobRef) (j : Job) (s : State), s.jobReady r 0x50 j ∧ lead s j 5 0 := by
  dsimp only
  refine ⟨r0, jb 0x50 [5], started leadState (jb 0x50 [5]), ?_⟩
  (repeat' apply And.intro) <;> decide

/-- Witness for clause 11 of StandOperationsAreCommittedAndEnd. -/
theorem wit_36_11_StandOperationsAreCommittedAndEnd : ∃ (r : JobRef) (m : Fin 64) (c : StandMode) (e : W32) (s :
    State), s.alive .wqm = true ∧ s.isMember = true ∧ s.stdState = 2 :=
  ⟨r0, 0, ⟨0x02000001, 60000, 1000, 0x00640064, 10, false⟩, 0,
      { put .reset [(pStd, O.STD_STAT, 0x80000000)] with flt := { bootMode := 2 } },
      by (repeat' apply And.intro) <;> decide⟩

/-- Witness for clause 1 of TallySamplesFoldsSweepsAndLedger. -/
theorem wit_37_1_TallySamplesFoldsSweepsAndLedger : ∃ (s : State), s.alive .tly = true :=
  ⟨.reset, by decide⟩

/-- Witness for clause 2 of TallySamplesFoldsSweepsAndLedger. -/
theorem wit_37_2_TallySamplesFoldsSweepsAndLedger : ∃ (s : State), s.alive .tly = true :=
  ⟨.reset, by decide⟩

/-- Witness for clause 3 of TallySamplesFoldsSweepsAndLedger. -/
theorem wit_37_3_TallySamplesFoldsSweepsAndLedger : ∃ (ue : List (Fin 67108864)) (s : State), s.alive .tly = true ∧
    s.running pTly = true :=
  ⟨[], runs .reset [pTly], by decide⟩

/-- Witness for clause 4 of TallySamplesFoldsSweepsAndLedger. -/
theorem wit_37_4_TallySamplesFoldsSweepsAndLedger : ∃ (s : State), s.alive .tly = true ∧ s.postBusy pTly = false ∧
    s.running pTly = true ∧ s.tly.sweep = none :=
  ⟨runs .reset [pTly], by decide⟩

/-- Witness for clause 5 of TallySamplesFoldsSweepsAndLedger. -/
theorem wit_37_5_TallySamplesFoldsSweepsAndLedger : ∃ (on : Bool) (s : State), s.alive .tly = true ∧ s.postBusy pTly
    = false :=
  ⟨true, .reset, by decide⟩

/-- Witness for clause 6 of TallySamplesFoldsSweepsAndLedger. -/
theorem wit_37_6_TallySamplesFoldsSweepsAndLedger : ∃ (s : State), s.alive .tly = true ∧ s.running pTly = true ∧
    s.fld pTly O.TLY_LEDGER_PERIOD 0 8 ≠ 0 :=
  ⟨runs .reset [pTly], by decide⟩

/-- Witness for clause 1 of LampsTilesAndCruiseObeyTheHost. -/
theorem wit_38_1_LampsTilesAndCruiseObeyTheHost :
    let ok := fun s : State => s.alive .lmp = true ∧ s.postBusy pLmp = false
    ∃ (v : W32) (s : State), ok s := by
  dsimp only
  refine ⟨0x8000, .reset, ?_⟩
  (repeat' apply And.intro) <;> decide

/-- Witness for clause 2 of LampsTilesAndCruiseObeyTheHost. -/
theorem wit_38_2_LampsTilesAndCruiseObeyTheHost : ∃ (n : Fin 4096) (s : State), s.alive .lmp = true ∧ n.val < 4032 ∧
    s.lmp.busy = none ∧ 2 ≤ s.tileState n :=
  ⟨4031, put .reset [(pLmp, State.tstat 4031, 0x40000000)], by decide⟩

/-- Witness for clause 3 of LampsTilesAndCruiseObeyTheHost. -/
theorem wit_38_3_LampsTilesAndCruiseObeyTheHost :
    let fitsEntry := fun (s : State) (n : Nat) =>
        let e := s.tile n
        let g := s.rd (State.jp e.port) (State.tbr O.JLK_T_GEOM e.pos)
        s.tileEn n = true ∧ s.enumerated e.port e.pos = true
        ∧ s.rd (State.jp e.port) (State.tbr O.JLK_T_SERIAL e.pos) = s.rd pLmp (O.LMP_TILE_EXP + 4 * n)
        ∧ bitsOf g 16 16 = e.w ∧ bitsOf g 0 16 = e.h ∧ decide (e.pos ∈ (s.jport e.port).fmt36) = e.fmt36
    ∃ (n : Fin 4096) (s : State), s.alive .lmp = true ∧ n.val < 4032 ∧ s.lmp.busy = none ∧ fitsEntry s n := by
  dsimp only
  refine ⟨0, { put .reset [(pJlk, State.tbr O.JLK_T_MODE 0, 0x80000000)] with tables :=
      [(State.tabKey pLmp 0 0 0, 0x80000000)] }, ?_⟩
  (repeat' apply And.intro) <;> decide

/-- Witness for clause 4 of LampsTilesAndCruiseObeyTheHost. -/
theorem wit_38_4_LampsTilesAndCruiseObeyTheHost : ∃ (n : Fin 4096) (s : State), s.alive .lmp = true ∧ s.lmp.busy ≠
    none :=
  ⟨4031, { State.reset with lmp := { busy := some 0 } }, by decide⟩

/-- Witness for clause 5 of LampsTilesAndCruiseObeyTheHost. -/
theorem wit_38_5_LampsTilesAndCruiseObeyTheHost : ∃ (n : Nat) (s : State), s.alive .lmp = true ∧ s.lmp.busy = some n
    ∧ n < 4032 :=
  ⟨4031, { State.reset with lmp := { busy := some 4031 } }, by decide⟩

/-- Witness for clause 6 of LampsTilesAndCruiseObeyTheHost. -/
theorem wit_38_6_LampsTilesAndCruiseObeyTheHost : ∃ (i : Fin 67108864) (s : State), s.alive .lmp = true :=
  ⟨67108863, .reset, by decide⟩

/-- Witness for clause 7 of LampsTilesAndCruiseObeyTheHost. -/
theorem wit_38_7_LampsTilesAndCruiseObeyTheHost :
    let ok := fun s : State => s.alive .lmp = true ∧ s.postBusy pLmp = false
    ∃ (b : Bool) (s : State), ok s ∧ s.cruising = false := by
  dsimp only
  refine ⟨true, .reset, ?_⟩
  (repeat' apply And.intro) <;> decide

/-- Witness for clause 8 of LampsTilesAndCruiseObeyTheHost. -/
theorem wit_38_8_LampsTilesAndCruiseObeyTheHost :
    let ok := fun s : State => s.alive .lmp = true ∧ s.postBusy pLmp = false
    ∃ (s : State), ok s := by
  dsimp only
  refine ⟨.reset, ?_⟩
  (repeat' apply And.intro) <;> decide

/-- Witness for clause 9 of LampsTilesAndCruiseObeyTheHost. -/
theorem wit_38_9_LampsTilesAndCruiseObeyTheHost : ∃ (p : Fin 64) (l : List Byte) (s : State), s.alive .jlk = true ∧
    s.running (State.jp p) = true ∧ (s.lstate p = 3 ∨ s.lstate p = 4) ∧ cellOk l = true ∧ (cellOf l).typ = tyLamp :=
  ⟨63, lampCell, put (runs .reset [pJlk + 63]) [(pJlk + 63, O.JLK_PORT_STAT, 0x30000000)],
      by (repeat' apply And.intro) <;> decide +kernel⟩

/-- Witness for clause 1 of PortsSendTheCellThatIsDue. -/
theorem wit_39_1_PortsSendTheCellThatIsDue : ∃ (p : Fin 64) (x : W64) (s : State), s.flt.life = .up :=
  ⟨63, 0, .reset, by decide⟩

/-- Witness for clause 2 of PortsSendTheCellThatIsDue. -/
theorem wit_39_2_PortsSendTheCellThatIsDue : ∃ (p : Fin 64) (s : State), s.alive .jlk = true :=
  ⟨63, .reset, by decide⟩

/-- Witness for clause 3 of PortsSendTheCellThatIsDue. -/
theorem wit_39_3_PortsSendTheCellThatIsDue : ∃ (p : Fin 64) (s : State), s.alive .jlk = true ∧ s.portSends p = true
    ∧ s.running pLnd = true :=
  ⟨0, put (runs .reset [pJlk, pLnd]) [(pJlk, O.JLK_PORT_STAT, 0x40000000)], by decide⟩

/-- Witness for clause 4 of PortsSendTheCellThatIsDue. -/
theorem wit_39_4_PortsSendTheCellThatIsDue : ∃ (p : Fin 64) (s : State), s.alive .jlk = true ∧ s.portSends p = true
    ∧ s.stopped pLnd = true ∧ s.cruisePort p = true :=
  ⟨0, { put (runs .reset [pJlk, pLmp]) [(pJlk, O.JLK_PORT_STAT, 0x40000000), (pLmp, O.LMP_CRUISE_STAT, 0x10000000)]
      with lmp := { ports := 1 } }, by decide⟩

/-- Witness for clause 1 of PortsTrainEnumerateAndFault. -/
theorem wit_40_1_PortsTrainEnumerateAndFault : ∃ (p : Fin 64) (inv : Bool) (s : State), s.alive .jlk = true ∧
    s.running (State.jp p) = true ∧ s.lstate p = 2 :=
  ⟨63, true, put (runs .reset [pJlk + 63]) [(pJlk + 63, O.JLK_PORT_STAT, 0x20000000)],
      by (repeat' apply And.intro) <;> decide⟩

/-- Witness for clause 2 of PortsTrainEnumerateAndFault. -/
theorem wit_40_2_PortsTrainEnumerateAndFault :
    let flag := fun (s : State) (p : Fin 64) (b : Nat) => s.bit (State.jp p) O.JLK_PORT_FLAGS b
    ∃ (p : Fin 64) (sig : Bool) (s : State), s.alive .jlk = true ∧ flag s p 2 = true := by
  dsimp only
  refine ⟨0, true, put .reset [(pJlk, O.JLK_PORT_FLAGS, 4)], ?_⟩
  (repeat' apply And.intro) <;> decide

/-- Witness for clause 3 of PortsTrainEnumerateAndFault. -/
theorem wit_40_3_PortsTrainEnumerateAndFault : ∃ (p : Fin 64) (s : State), s.alive .jlk = true ∧ s.lstate p = 2 :=
  ⟨0, put .reset [(pJlk, O.JLK_PORT_STAT, 0x20000000)], by (repeat' apply And.intro) <;> decide⟩

/-- Witness for clause 4 of PortsTrainEnumerateAndFault. -/
theorem wit_40_4_PortsTrainEnumerateAndFault : ∃ (p : Fin 64) (s : State), s.alive .jlk = true ∧ s.postBusy
    (State.jp p) = false :=
  ⟨0, .reset, by (repeat' apply And.intro) <;> decide⟩

/-- Witness for clause 5 of PortsTrainEnumerateAndFault. -/
theorem wit_40_5_PortsTrainEnumerateAndFault : ∃ (p : Fin 64) (s : State), s.alive .jlk = true :=
  ⟨0, .reset, by decide⟩

/-- Witness for clause 6 of PortsTrainEnumerateAndFault. -/
theorem wit_40_6_PortsTrainEnumerateAndFault : ∃ (p : Fin 64) (s : State), s.alive .jlk = true ∧ (s.jport p).phase =
    2 :=
  ⟨0, { put .reset [(pJlk, O.JLK_PORT_STAT, 0x30000000)] with jports := [(0, { phase := 2 })] },
      by (repeat' apply And.intro) <;> decide⟩

/-- Witness for clause 7 of PortsTrainEnumerateAndFault. -/
theorem wit_40_7_PortsTrainEnumerateAndFault : ∃ (p : Fin 64) (b : BitVec 2) (s : State), s.alive .jlk = true ∧
    s.lstate p ≠ 0 ∧ b ≠ 0 :=
  ⟨0, 3, put .reset [(pJlk, O.JLK_PORT_STAT, 0x40000000)], by (repeat' apply And.intro) <;> decide⟩

/-- Witness for clause 8 of PortsTrainEnumerateAndFault. -/
theorem wit_40_8_PortsTrainEnumerateAndFault : ∃ (p : Fin 64) (c : Bool) (s : State), s.alive .jlk = true ∧ s.lstate
    p = 7 :=
  ⟨0, true, put .reset [(pJlk, O.JLK_PORT_STAT, 0x70000000)], by (repeat' apply And.intro) <;> decide⟩

/-- Witness for clause 9 of PortsTrainEnumerateAndFault. -/
theorem wit_40_9_PortsTrainEnumerateAndFault : ∃ (p : Fin 64) (mv : BitVec 12) (s : State), s.alive .jlk = true :=
  ⟨0, 4095, .reset, by decide⟩

/-- Witness for clause 1 of PortsActOnCellsReceived. -/
theorem wit_41_1_PortsActOnCellsReceived :
    let up := fun (s : State) (p : Fin 64) => s.alive .jlk = true ∧ s.running (State.jp p) = true ∧ (s.lstate p = 3
        ∨ s.lstate p = 4)
    ∃ (p : Fin 64) (l : List Byte) (rtt : W32) (s : State), up s p ∧ cellOk l = false := by
  dsimp only
  refine ⟨0, [], 0, upPort, ?_⟩
  (repeat' apply And.intro) <;> decide

/-- Witness for clause 2 of PortsActOnCellsReceived. -/
theorem wit_41_2_PortsActOnCellsReceived :
    let up := fun (s : State) (p : Fin 64) => s.alive .jlk = true ∧ s.running (State.jp p) = true ∧ (s.lstate p = 3
        ∨ s.lstate p = 4)
    let valid := fun (l : List Byte) (typ : Nat) => cellOk l = true ∧ (cellOf l).typ = typ
    ∃ (p : Fin 64) (l : List Byte) (rtt : W32) (s : State), up s p ∧ valid l tyHello ∧ (cellOf l).byte 0 = 2 ∧
    (s.jport p).phase = 1 ∧
    let c := cellOf l
    bitsOf (c.byte 2) 5 3 = 0 := by
  dsimp only
  refine ⟨0, ({ typ := tyHello, body := [2] } : Cell).bytes, 0, { upPort with jports := [(0, { phase := 1 })] },
      ?_⟩
  (repeat' apply And.intro) <;> decide +kernel

/-- Witness for clause 3 of PortsActOnCellsReceived. -/
theorem wit_41_3_PortsActOnCellsReceived :
    let up := fun (s : State) (p : Fin 64) => s.alive .jlk = true ∧ s.running (State.jp p) = true ∧ (s.lstate p = 3
        ∨ s.lstate p = 4)
    let valid := fun (l : List Byte) (typ : Nat) => cellOk l = true ∧ (cellOf l).typ = typ
    ∃ (p : Fin 64) (l : List Byte) (s : State), up s p ∧ valid l tyStatus ∧ (cellOf l).tile < 63 := by
  dsimp only
  refine ⟨0, ({ typ := tyStatus, tile := 62 } : Cell).bytes, upPort, ?_⟩
  (repeat' apply And.intro) <;> decide +kernel

/-- Witness for clause 4 of PortsActOnCellsReceived. -/
theorem wit_41_4_PortsActOnCellsReceived : ∃ (p : Fin 64) (q : Fin 63) (s : State), s.alive .jlk = true ∧ s.lstate p
    = 4 ∧ s.enumerated p q = true :=
  ⟨0, 62, put upPort [(pJlk, O.JLK_PORT_STAT, 0x40000000), (pJlk, State.tbr O.JLK_T_MODE 62, 0x80000000)],
      by (repeat' apply And.intro) <;> decide⟩

/-- Witness for clause 5 of PortsActOnCellsReceived. -/
theorem wit_41_5_PortsActOnCellsReceived :
    let up := fun (s : State) (p : Fin 64) => s.alive .jlk = true ∧ s.running (State.jp p) = true ∧ (s.lstate p = 3
        ∨ s.lstate p = 4)
    let valid := fun (l : List Byte) (typ : Nat) => cellOk l = true ∧ (cellOf l).typ = typ
    ∃ (p : Fin 64) (l : List Byte) (s : State), up s p ∧ valid l tyMgmtUp := by
  dsimp only
  refine ⟨0, ({ typ := tyMgmtUp } : Cell).bytes, upPort, ?_⟩
  (repeat' apply And.intro) <;> decide +kernel

/-- Witness for clause 6 of PortsActOnCellsReceived. -/
theorem wit_41_6_PortsActOnCellsReceived : ∃ (n : Fin 4096) (o : ChOp) (s : State), s.alive .ysq = true ∧ s.liveOp n
    = some o :=
  ⟨4095, { cmds := [], wait := 1 }, { up .reset [State.ysqOf 4095] with subs := [(4095,
      { op := some { cmds := [], wait := 1 } })] }, by decide⟩

/-- Witness for clause 7 of PortsActOnCellsReceived. -/
theorem wit_41_7_PortsActOnCellsReceived : ∃ (p : Fin 64) (c u : W32) (s : State), s.alive .jlk = true ∧ s.running
    (State.jp p) = true :=
  ⟨0, 0, 0, upPort, by (repeat' apply And.intro) <;> decide⟩

/-- Witness for clause 1 of TilesActOnCellsReceived. -/
theorem wit_42_1_TilesActOnCellsReceived : ∃ (p : Fin 64) (k : Fin 128) (l : List Byte) (a : W64) (s : State),
    headOk l = false :=
  ⟨0, 0, [1], 0, .reset, by decide⟩

/-- Witness for clause 2 of TilesActOnCellsReceived. -/
theorem wit_42_2_TilesActOnCellsReceived :
    let at_ := fun (s : State) (p : Fin 64) (k : Fin 128) => s.tileSt p k
    let valid := fun (l : List Byte) (typ : Nat) => cellOk l = true ∧ (cellOf l).typ = typ
    let mine := fun (s : State) (p : Fin 64) (k : Fin 128) (l : List Byte) => (cellOf l).tile = 63 ∨ (at_ s p k).pos
        = some (cellOf l).tile
    ∃ (p : Fin 64) (k : Fin 128) (l : List Byte) (a : W64) (s : State), valid l tySync ∧ mine s p k l := by
  dsimp only
  refine ⟨0, 0, ({ typ := tySync } : Cell).bytes, 0, .reset, ?_⟩
  (repeat' apply And.intro) <;> decide +kernel

/-- Witness for clause 3 of TilesActOnCellsReceived. -/
theorem wit_42_3_TilesActOnCellsReceived :
    let at_ := fun (s : State) (p : Fin 64) (k : Fin 128) => s.tileSt p k
    let valid := fun (l : List Byte) (typ : Nat) => cellOk l = true ∧ (cellOf l).typ = typ
    ∃ (p : Fin 64) (k : Fin 128) (l : List Byte) (y : TSync) (h : TSlot) (s : State), valid l tyPixel ∧ (at_ s p
    k).pos = some (cellOf l).tile ∧ (at_ s p k).last = some y ∧ (cellOf l).feed = y.feed ∧ (at_ s p k).held =
    [h] ∧ h.sync = y ∧ h.black = false ∧ y.maint = false := by
  dsimp only
  refine ⟨0, 0, ({ typ := tyPixel, tile := 0 } : Cell).bytes, syncA, { sync := syncA }, { State.reset with tilesOf
      := [(0, { pos := some 0, last := some syncA, held := [{ sync := syncA }] })] }, ?_⟩
  (repeat' apply And.intro) <;> decide +kernel

/-- Witness for clause 4 of TilesActOnCellsReceived. -/
theorem wit_42_4_TilesActOnCellsReceived :
    let at_ := fun (s : State) (p : Fin 64) (k : Fin 128) => s.tileSt p k
    let valid := fun (l : List Byte) (typ : Nat) => cellOk l = true ∧ (cellOf l).typ = typ
    let mine := fun (s : State) (p : Fin 64) (k : Fin 128) (l : List Byte) => (cellOf l).tile = 63 ∨ (at_ s p k).pos
        = some (cellOf l).tile
    ∃ (p : Fin 64) (k : Fin 128) (l : List Byte) (a : W64) (s : State), valid l tyBlack ∧ mine s p k l ∧ bitOf
    ((cellOf l).byte 6) 3 = true := by
  dsimp only
  refine ⟨0, 127, ({ typ := tyBlack, body := padTo 6 [] ++ [8] } : Cell).bytes, 0, .reset, ?_⟩
  (repeat' apply And.intro) <;> decide +kernel

/-- Witness for clause 5 of TilesActOnCellsReceived. -/
theorem wit_42_5_TilesActOnCellsReceived :
    let valid := fun (l : List Byte) (typ : Nat) => cellOk l = true ∧ (cellOf l).typ = typ
    ∃ (p : Fin 64) (k : Fin 128) (l : List Byte) (pr : TileProps) (lock : Bool) (turn : W32) (s : State), valid l
    tyHello ∧ (cellOf l).byte 0 = 0 ∧ (cellOf l).byte 2 ≤ 62 := by
  dsimp only
  refine ⟨0, 0, ({ typ := tyHello, body := [0, 0, 62] } : Cell).bytes, {}, true, 0, .reset, ?_⟩
  (repeat' apply And.intro) <;> decide +kernel

/-- Witness for clause 6 of TilesActOnCellsReceived. -/
theorem wit_42_6_TilesActOnCellsReceived :
    let valid := fun (l : List Byte) (typ : Nat) => cellOk l = true ∧ (cellOf l).typ = typ
    ∃ (p : Fin 64) (k : Fin 128) (l : List Byte) (s : State), valid l tyHello ∧ (cellOf l).byte 0 = 1 := by
  dsimp only
  refine ⟨0, 0, ({ typ := tyHello, body := [1] } : Cell).bytes, .reset, ?_⟩
  (repeat' apply And.intro) <;> decide +kernel

/-- Witness for clause 7 of TilesActOnCellsReceived. -/
theorem wit_42_7_TilesActOnCellsReceived :
    let valid := fun (l : List Byte) (typ : Nat) => cellOk l = true ∧ (cellOf l).typ = typ
    ∃ (p : Fin 64) (k : Fin 128) (l : List Byte) (a : MgmtAns) (s : State), valid l tyMgmtDown := by
  dsimp only
  refine ⟨0, 0, ({ typ := tyMgmtDown } : Cell).bytes, ⟨0, 0, []⟩, .reset, ?_⟩
  (repeat' apply And.intro) <;> decide +kernel

/-- Witness for clause 8 of TilesActOnCellsReceived. -/
theorem wit_42_8_TilesActOnCellsReceived :
    let at_ := fun (s : State) (p : Fin 64) (k : Fin 128) => s.tileSt p k
    let valid := fun (l : List Byte) (typ : Nat) => cellOk l = true ∧ (cellOf l).typ = typ
    let mine := fun (s : State) (p : Fin 64) (k : Fin 128) (l : List Byte) => (cellOf l).tile = 63 ∨ (at_ s p k).pos
        = some (cellOf l).tile
    ∃ (p : Fin 64) (k : Fin 128) (l : List Byte) (s : State), valid l tyBulk ∧ mine s p k l := by
  dsimp only
  refine ⟨0, 0, ({ typ := tyBulk } : Cell).bytes, .reset, ?_⟩
  (repeat' apply And.intro) <;> decide +kernel

/-- Witness for clause 1 of ChannelProgramsStartResumeHaltAndRetry. -/
theorem wit_44_1_ChannelProgramsStartResumeHaltAndRetry :
    let sub := fun (j : Job) => bitsOf (j.dw 6) 0 12
    ∃ (r : JobRef) (j : Job) (s : State), s.alive .ysq = true ∧ s.jobReady r 0x30 j ∧
    let n := sub j
    let a := j.dw 7 + j.dw 8 * 2 ^ 32
    a % 16 = 0 ∧ s.running (State.ysqOf n) = true ∧ s.schState n = 0 ∧ s.cmdRoom n = true := by
  dsimp only
  refine ⟨r0, jb 0x30 [], started (runs .reset [pYsq]) (jb 0x30 []), ?_⟩
  (repeat' apply And.intro) <;> decide

/-- Witness for clause 2 of ChannelProgramsStartResumeHaltAndRetry. -/
theorem wit_44_2_ChannelProgramsStartResumeHaltAndRetry :
    let sub := fun (j : Job) => bitsOf (j.dw 6) 0 12
    ∃ (r : JobRef) (j : Job) (s : State), s.alive .ysq = true ∧ s.jobReady r 0x31 j ∧
    let n := sub j
    s.pstate (State.ysqOf n) ≠ 4 := by
  dsimp only
  refine ⟨r0, jb 0x31 [], started .reset (jb 0x31 []), ?_⟩
  (repeat' apply And.intro) <;> decide

/-- Witness for clause 3 of ChannelProgramsStartResumeHaltAndRetry. -/
theorem wit_44_3_ChannelProgramsStartResumeHaltAndRetry :
    let sub := fun (j : Job) => bitsOf (j.dw 6) 0 12
    ∃ (r : JobRef) (j : Job) (s : State), s.alive .ysq = true ∧ s.jobReady r 0x32 j ∧
    let n := sub j
    s.pstate (State.ysqOf n) ≠ 4 := by
  dsimp only
  refine ⟨r0, jb 0x32 [], started .reset (jb 0x32 []), ?_⟩
  (repeat' apply And.intro) <;> decide

/-- Witness for clause 4 of ChannelProgramsStartResumeHaltAndRetry. -/
theorem wit_44_4_ChannelProgramsStartResumeHaltAndRetry : ∃ (n : Fin 4096) (a : ChAns) (o : ChOp) (s : State),
    s.alive .ysq = true ∧ s.liveOp n = some o ∧ s.hostReady = true ∧ n.val % 64 ≠ 0 ∧ s.bridgeFault n = 0 ∧
    s.jaccept (n / 64) true = true :=
  ⟨1, chOk, { cmds := [], wait := 2 }, { put (up .reset [pYsq]) [(pJlk, O.JLK_PORT_STAT, 0x40010000)] with subs :=
      [(1, { op := some { cmds := [], wait := 2 } })] }, by (repeat' apply And.intro) <;> decide⟩

/-- Witness for clause 5 of ChannelProgramsStartResumeHaltAndRetry. -/
theorem wit_44_5_ChannelProgramsStartResumeHaltAndRetry : ∃ (n : Fin 4096) (a : ChAns) (s : State), s.alive .ysq =
    true ∧ (s.liveOp n = none ∨ s.hostReady = false) :=
  ⟨1, chOk, .reset, by decide⟩

/-- Witness for clause 6 of ChannelProgramsStartResumeHaltAndRetry. -/
theorem wit_44_6_ChannelProgramsStartResumeHaltAndRetry : ∃ (n : Fin 4096) (o : ChOp) (s : State), s.alive .ysq =
    true ∧ s.liveOp n = some o ∧ s.hostReady = true :=
  ⟨1, { cmds := [], wait := 1 }, { up .reset [pYsq] with subs := [(1, { op := some { cmds := [], wait := 1 } })] },
      by decide⟩

/-- Witness for clause 2 of ChannelCommandsBeginSuspendAndFail. -/
theorem wit_45_2_ChannelCommandsBeginSuspendAndFail : ∃ (n : Fin 4096) (a : ChAns) (s : State), s.alive .ysq = true
    ∧ s.chReady n = true ∧ s.hostReady = true ∧ a.mem = .ok ∧
    let b := s.subOf n
    let c := s.fetchCmd b.pc
    c.code = 8 ∧ b.pc % 16 = 0 := by
  dsimp only
  refine ⟨0, chOk, chState 0 (8 * 2 ^ 24) 0 0, ?_⟩
  (repeat' apply And.intro) <;> decide

/-- Witness for clause 4 of ChannelCommandsBeginSuspendAndFail. -/
theorem wit_45_4_ChannelCommandsBeginSuspendAndFail : ∃ (n : Fin 4096) (a : ChAns) (o : ChOp) (s : State), s.alive
    .ysq = true ∧ s.liveOp n = some o ∧ s.hostReady = true ∧ o.wait = 4 :=
  ⟨0, chOk, { cmds := [], wait := 4 }, { up .reset [pYsq] with subs := [(0,
      { op := some { cmds := [], wait := 4 } })] }, by decide⟩

/-- Witness for clause 1 of SequencerEventsPopsAndStoreErrors. -/
theorem wit_48_1_SequencerEventsPopsAndStoreErrors : ∃ (v : W32) (s : State), s.hostAlive = true :=
  ⟨1023, .reset, by decide⟩

/-- Witness for clause 2 of SequencerEventsPopsAndStoreErrors. -/
theorem wit_48_2_SequencerEventsPopsAndStoreErrors : ∃ (k : Fin 8) (s : State), s.alive .ysq = true ∧ s.uRuns k =
    true ∧ s.uFlag k 8 = true :=
  ⟨7, put (runs .reset [pYsq + 7]) [(pYsq + 7, O.YSQ_SEQ_FLAGS, 0x100)], by decide⟩

/-- Witness for clause 3 of SequencerEventsPopsAndStoreErrors. -/
theorem wit_48_3_SequencerEventsPopsAndStoreErrors : ∃ (k : Fin 8) (s : State), s.hostAlive = true :=
  ⟨7, .reset, by decide⟩

/-- Witness for clause 4 of SequencerEventsPopsAndStoreErrors. -/
theorem wit_48_4_SequencerEventsPopsAndStoreErrors : ∃ (n : Fin 4096) (s : State), s.alive .ysq = true :=
  ⟨4095, .reset, by decide⟩

/-- Witness for clause 5 of SequencerEventsPopsAndStoreErrors. -/
theorem wit_48_5_SequencerEventsPopsAndStoreErrors : ∃ (k : Fin 8) (s : State), s.alive .ysq = true :=
  ⟨7, .reset, by decide⟩

/-- Witness for clause 6 of SequencerEventsPopsAndStoreErrors. -/
theorem wit_48_6_SequencerEventsPopsAndStoreErrors : ∃ (f b : List (Fin 16384)) (s : State), s.alive .ycs = true :=
  ⟨[], [], .reset, by decide⟩

/-- Witness for clause 7 of SequencerEventsPopsAndStoreErrors. -/
theorem wit_48_7_SequencerEventsPopsAndStoreErrors : ∃ (s : State), s.hostAlive = true :=
  ⟨.reset, by decide⟩

/-- Witness for clause 2 of MicroWordsComputeAndChooseTheNext. -/
theorem wit_49_2_MicroWordsComputeAndChooseTheNext : ∃ (k : Fin 8) (s : State), s.alive .ysq = true ∧ s.uRuns k =
    true ∧ s.uFlag k 8 = true :=
  ⟨7, put (runs .reset [pYsq + 7]) [(pYsq + 7, O.YSQ_SEQ_FLAGS, 0x100)], by decide⟩

/-- Witness for clause 1 of SkidderChannelsMoveHaltAndResume. -/
theorem wit_52_1_SkidderChannelsMoveHaltAndResume : ∃ (n : Fin 32) (s : State), s.alive .skd = true ∧ 4 ≤ n.val :=
  ⟨4, .reset, by decide⟩

/-- Witness for clause 3 of SkidderChannelsMoveHaltAndResume. -/
theorem wit_52_3_SkidderChannelsMoveHaltAndResume :
    let reach := fun (s : State) (l : List Nat) => (0 ∈ l → s.hostReady = true) ∧ (1 ∈ l → s.hbmReady = true) ∧ (2 ∈
        l → s.sramReady = true)
    ∃ (n : Fin 32) (s : State), s.alive .skd = true ∧ 4 ≤ n.val ∧ s.skMoves n = true ∧ (s.skc n).desc = none ∧ reach
    s [s.descSpace n] := by
  dsimp only
  refine ⟨31, put (up .reset [pSkd]) [(pSkd, State.skr O.SKD_CH_STAT 31, 0x20000000)], ?_⟩
  (repeat' apply And.intro) <;> decide

/-- Witness for clause 4 of SkidderChannelsMoveHaltAndResume. -/
theorem wit_52_4_SkidderChannelsMoveHaltAndResume :
    let moving := fun (s : State) (n : Fin 32) (ws : List Nat) => s.alive .skd = true ∧ 4 ≤ n.val ∧ s.skMoves n =
        true ∧ (s.skc n).desc = some ws ∧ (s.skc n).flight = none
    let reach := fun (s : State) (l : List Nat) => (0 ∈ l → s.hostReady = true) ∧ (1 ∈ l → s.hbmReady = true) ∧ (2 ∈
        l → s.sramReady = true)
    ∃ (n : Fin 32) (ws : List Nat) (f : Bool) (s : State), moving s n ws ∧
    let d : SkDesc := ⟨ws⟩
    s.skDone n < d.len ∧ (reach s (if d.dspace = 3 then [d.sspace] else [d.sspace, d.dspace])) := by
  dsimp only
  refine ⟨4, [0, 4], true, movingState 0, ?_⟩
  (repeat' apply And.intro) <;> decide

/-- Witness for clause 5 of SkidderChannelsMoveHaltAndResume. -/
theorem wit_52_5_SkidderChannelsMoveHaltAndResume :
    let moving := fun (s : State) (n : Fin 32) (ws : List Nat) => s.alive .skd = true ∧ 4 ≤ n.val ∧ s.skMoves n =
        true ∧ (s.skc n).desc = some ws ∧ (s.skc n).flight = none
    let reach := fun (s : State) (l : List Nat) => (0 ∈ l → s.hostReady = true) ∧ (1 ∈ l → s.hbmReady = true) ∧ (2 ∈
        l → s.sramReady = true)
    ∃ (n : Fin 32) (ws : List Nat) (s : State), moving s n ws ∧
    let d : SkDesc := ⟨ws⟩
    d.len ≤ s.skDone n ∧ reach s [s.descSpace n] := by
  dsimp only
  refine ⟨4, [0, 4], movingState 4, ?_⟩
  (repeat' apply And.intro) <;> decide

/-- Witness for clause 6 of SkidderChannelsMoveHaltAndResume. -/
theorem wit_52_6_SkidderChannelsMoveHaltAndResume : ∃ (p : Fin 64) (s : State), s.alive .skd = true ∧ s.skdMoves =
    true :=
  ⟨63, runs .reset [pSkd], by decide⟩

/-- Witness for clause 7 of SkidderChannelsMoveHaltAndResume. -/
theorem wit_52_7_SkidderChannelsMoveHaltAndResume : ∃ (n : Fin 32) (isDesc isRead : Bool) (sp : Fin 4) (c : Fin 5)
    (a : W64) (s : State), s.alive .skd = true :=
  ⟨4, true, true, 0, 1, 0, .reset, by decide⟩

/-- Witness for clause 8 of SkidderChannelsMoveHaltAndResume. -/
theorem wit_52_8_SkidderChannelsMoveHaltAndResume : ∃ (s : State), s.alive .skd = true :=
  ⟨.reset, by decide⟩

/-- Witness for clause 9 of SkidderChannelsMoveHaltAndResume. -/
theorem wit_52_9_SkidderChannelsMoveHaltAndResume : ∃ (s : State), s.alive .skd = true :=
  ⟨.reset, by decide⟩

/-- Witness for clause 1 of SramErrorsRepairsAndTests. -/
theorem wit_53_1_SramErrorsRepairsAndTests : ∃ (lamp : Bool) (a : Fin 67108864) (s : State), s.alive .yrd = true :=
  ⟨true, 67108863, .reset, by decide⟩

/-- Witness for clause 2 of SramErrorsRepairsAndTests. -/
theorem wit_53_2_SramErrorsRepairsAndTests : ∃ (l : List (Fin 67108864)) (s : State), s.alive .yrd = true :=
  ⟨[], .reset, by decide⟩

/-- Witness for clause 3 of SramErrorsRepairsAndTests. -/
theorem wit_53_3_SramErrorsRepairsAndTests : ∃ (lamp : Bool) (a : Fin 67108864) (s : State), s.alive .yrd = true :=
  ⟨false, 0, .reset, by decide⟩

/-- Witness for clause 4 of SramErrorsRepairsAndTests. -/
theorem wit_53_4_SramErrorsRepairsAndTests : ∃ (l : List (Fin 131072)) (s : State), s.alive .yrd = true :=
  ⟨[], .reset, by decide⟩

/-- Witness for clause 5 of SramErrorsRepairsAndTests. -/
theorem wit_53_5_SramErrorsRepairsAndTests : ∃ (m : Fin 3) (s : State), s.alive .hbm = true :=
  ⟨2, .reset, by decide⟩

/-- Witness for clause 6 of SramErrorsRepairsAndTests. -/
theorem wit_53_6_SramErrorsRepairsAndTests : ∃ (m : Fin 3) (ok : Bool) (l : List (BitVec 30)) (s : State), s.alive
    .hbm = true :=
  ⟨2, true, [], .reset, by decide⟩

/-- Witness for clause 1 of HbmBringUpErrorsLanesAndRepair. -/
theorem wit_54_1_HbmBringUpErrorsLanesAndRepair : ∃ (n : Fin 2) (f : Option (Fin 16)) (l : List (Fin 16 × Bool)) (s
    : State), s.alive .hbm = true :=
  ⟨1, none, [], .reset, by decide⟩

/-- Witness for clause 2 of HbmBringUpErrorsLanesAndRepair. -/
theorem wit_54_2_HbmBringUpErrorsLanesAndRepair : ∃ (n : Fin 2) (s : State), s.alive .hbm = true :=
  ⟨1, .reset, by decide⟩

/-- Witness for clause 3 of HbmBringUpErrorsLanesAndRepair. -/
theorem wit_54_3_HbmBringUpErrorsLanesAndRepair : ∃ (a : Fin 51539607552) (s : State), s.alive .hbm = true :=
  ⟨51539607551, .reset, by decide⟩

/-- Witness for clause 5 of HbmBringUpErrorsLanesAndRepair. -/
theorem wit_54_5_HbmBringUpErrorsLanesAndRepair : ∃ (n : Fin 2) (ce ue : List (Fin 51539607552)) (s : State),
    s.alive .hbm = true :=
  ⟨1, [], [], .reset, by decide⟩

/-- Witness for clause 6 of HbmBringUpErrorsLanesAndRepair. -/
theorem wit_54_6_HbmBringUpErrorsLanesAndRepair : ∃ (n : Fin 2) (x : Fin 16) (ca : Bool) (l : List (Fin 16 × Bool))
    (s : State), s.alive .hbm = true :=
  ⟨0, 15, true, [], .reset, by decide⟩

/-- Witness for clause 7 of HbmBringUpErrorsLanesAndRepair. -/
theorem wit_54_7_HbmBringUpErrorsLanesAndRepair : ∃ (n : Fin 2) (e : Fin 16) (s : State), s.alive .hbm = true :=
  ⟨1, 15, .reset, by decide⟩

/-- Witness for clause 8 of HbmBringUpErrorsLanesAndRepair. -/
theorem wit_54_8_HbmBringUpErrorsLanesAndRepair : ∃ (n : Fin 2) (s : State), s.alive .hbm = true :=
  ⟨1, .reset, by decide⟩

/-- Witness for clause 1 of CororonLinksDiscoveryAndMemberTime. -/
theorem wit_55_1_CororonLinksDiscoveryAndMemberTime : ∃ (k : Fin 4) (l : List Byte) (a b : Option (BitVec 12)) (s :
    State), s.alive .crn = true :=
  ⟨3, [], none, none, .reset, by decide⟩

/-- Witness for clause 2 of CororonLinksDiscoveryAndMemberTime. -/
theorem wit_55_2_CororonLinksDiscoveryAndMemberTime : ∃ (k : Fin 4) (s : State), s.alive .crn = true :=
  ⟨3, .reset, by decide⟩

/-- Witness for clause 4 of CororonLinksDiscoveryAndMemberTime. -/
theorem wit_55_4_CororonLinksDiscoveryAndMemberTime : ∃ (e : Fin 64) (ws : List W32) (c : W32) (en : Bool) (s :
    State), s.alive .std = true :=
  ⟨63, [], 0, true, .reset, by decide⟩

/-- Witness for clause 5 of CororonLinksDiscoveryAndMemberTime. -/
theorem wit_55_5_CororonLinksDiscoveryAndMemberTime : ∃ (k : Fin 4) (t1 t2 t3 t4 : W64) (s : State), s.alive .crn =
    true :=
  ⟨3, 0, 0, 0, 0, .reset, by decide⟩

/-- Witness for clause 6 of CororonLinksDiscoveryAndMemberTime. -/
theorem wit_55_6_CororonLinksDiscoveryAndMemberTime : ∃ (k : Fin 4) (p : W64) (f : BitVec 16) (own : W64) (s :
    State), s.alive .tim = true :=
  ⟨3, 0, 0, 0, .reset, by decide⟩

/-- Witness for clause 1 of BeaconsIsolationAndSharedPictures. -/
theorem wit_56_1_BeaconsIsolationAndSharedPictures : ∃ (s : State), s.alive .std = true :=
  ⟨.reset, by decide⟩

/-- Witness for clause 2 of BeaconsIsolationAndSharedPictures. -/
theorem wit_56_2_BeaconsIsolationAndSharedPictures : ∃ (w : BitVec 48) (q e : W32) (x : Bool) (s : State), s.alive
    .std = true :=
  ⟨0, 0, 0, true, .reset, by decide⟩

/-- Witness for clause 3 of BeaconsIsolationAndSharedPictures. -/
theorem wit_56_3_BeaconsIsolationAndSharedPictures :
    let formed := fun (s : State) => s.alive .std = true ∧ s.isMember = true ∧ s.stdState = 2
    ∃ (s : State), formed s := by
  dsimp only
  refine ⟨{ put .reset [(pStd, O.STD_STAT, 0x80000000)] with flt := { bootMode := 2 } }, ?_⟩
  (repeat' apply And.intro) <;> decide

/-- Witness for clause 4 of BeaconsIsolationAndSharedPictures. -/
theorem wit_56_4_BeaconsIsolationAndSharedPictures : ∃ (k : Fin 4) (path : Option (Fin 4)) (lost : W64) (s : State),
    s.alive .std = true :=
  ⟨3, none, 0, .reset, by decide⟩

/-- Witness for clause 5 of BeaconsIsolationAndSharedPictures. -/
theorem wit_56_5_BeaconsIsolationAndSharedPictures : ∃ (s : State), s.alive .std = true :=
  ⟨.reset, by decide⟩

/-- Witness for clause 6 of BeaconsIsolationAndSharedPictures. -/
theorem wit_56_6_BeaconsIsolationAndSharedPictures : ∃ (e : Fin 64) (k : Fin 4) (s : State), s.alive .std = true :=
  ⟨63, 0, .reset, by decide⟩

/-- Witness for clause 7 of BeaconsIsolationAndSharedPictures. -/
theorem wit_56_7_BeaconsIsolationAndSharedPictures : ∃ (e : Fin 64) (s : State), s.alive .std = true :=
  ⟨63, .reset, by decide⟩

/-- Witness for clause 8 of BeaconsIsolationAndSharedPictures. -/
theorem wit_56_8_BeaconsIsolationAndSharedPictures : ∃ (n : Fin 256) (k : Option (Fin 64)) (s : State), s.alive .std
    = true :=
  ⟨255, none, .reset, by decide⟩

/-- Witness for clause 9 of BeaconsIsolationAndSharedPictures. -/
theorem wit_56_9_BeaconsIsolationAndSharedPictures : ∃ (n : Fin 256) (src : Fin 64) (pic : Option SharePic) (s :
    State), s.alive .std = true :=
  ⟨255, 0, none, .reset, by decide⟩

/-- Witnesses for clause 1 of ChannelCommandsBeginSuspendAndFail: the twelve commands, each with its own code. -/
theorem wit_45_1_ChannelCommandsBeginSuspendAndFail :
    ∀ w ∈ ([(0x01000001, 0), (0x01000001, 0x40000000), (0x02000001, 0), (0x02000001, 0x08000000), (0x03000000, 0),
      (0x03000008, 0x80010000), (0x03000000, 0x80020000), (0x03000000, 0x80030000), (0x04000001, 0), (0x0C000000, 0),
      (0x10000000, 0), (0x20000001, 0)] : List (Nat × Nat)),
      (chState 0 w.1 0x100 w.2).alive .ysq = true ∧ (chState 0 w.1 0x100 w.2).chReady 0 = true
        ∧ ((chState 0 w.1 0x100 w.2).fetchCmd 0).code = w.1 / 2 ^ 24
        ∧ ((chState 0 w.1 0x100 w.2).fetchCmd 0).pause = false := by decide

/-- Witnesses for the clauses on commands that begin, on a DIRECT path: all but BULK, and CONTROL with argument 0. -/
theorem wit_46_3_ChannelTransfersOnBothPaths :
    ∀ w ∈ ([(0x01000001, 0), (0x02000001, 0), (0x02000001, 0x08000000), (0x03000008, 0x80010000),
      (0x03000000, 0x80020000), (0x03000000, 0x80030000), (0x04000001, 0), (0x0C000000, 0), (0x10000000, 0),
      (0x20000001, 0)] : List (Nat × Nat)),
      (chState 0 w.1 0x100 w.2).chAt 0 chOk ((chState 0 w.1 0x100 w.2).fetchCmd 0) (opOf (chState 0 w.1 0x100 w.2) 0)
        ∧ (chState 0 w.1 0x100 w.2).directFault 0 = 0 ∧ chOk.fault = none ∧ chOk.addrAck = true := by
  unfold State.chAt
  decide

/-- The same on a BRIDGED path, BULK and CONTROL with argument 0 too. -/
theorem wit_46_4_ChannelTransfersOnBothPaths :
    ∀ w ∈ ([(0x01000001, 0), (0x01000001, 0x40000000), (0x02000001, 0), (0x02000001, 0x08000000), (0x03000000, 0),
      (0x03000008, 0x80010000), (0x04000001, 0), (0x0C000000, 0), (0x10000000, 0), (0x20000001, 0)] : List (Nat × Nat)),
      (chState 1 w.1 0x100 w.2).chAt 1 chOk ((chState 1 w.1 0x100 w.2).fetchCmd 0) (opOf (chState 1 w.1 0x100 w.2) 1)
        ∧ (chState 1 w.1 0x100 w.2).bridgeFault 1 = 0 ∧ (chState 1 w.1 0x100 w.2).jaccept 0 true = true := by
  unfold State.chAt
  decide

/-- Witness for clause 1 of ChannelTransfersOnBothPaths: a SEEK whose eight bytes are 0. -/
theorem wit_46_1_ChannelTransfersOnBothPaths :
    ∃ (a : ChAns) (c : ChCmd) (o : ChOp) (s : State), s.chAt 0 a c o ∧ c.local_ = 1 ∧ o.cmds.any (·.note) = false
      ∧ ∀ i, i < 4 → ((s.opData o).getD i 0).toNat = 0 :=
  ⟨chOk, (chState 0 0x03000008 0x100 0x80010000).fetchCmd 0, opOf (chState 0 0x03000008 0x100 0x80010000) 0,
    chState 0 0x03000008 0x100 0x80010000, by unfold State.chAt; decide⟩

/-- Witness for clause 1 of AdmissionAndLedgerRoutinesUseTags: the routine idle, and waiting for its tag, with no
TILE_CONFIRM in progress and with one. -/
theorem wit_47_1_AdmissionAndLedgerRoutinesUseTags :
    ∀ st ∈ [0, 0x80000000], ∃ (t : Fin 4032) (s : State), s.alive .ysq = true ∧ s.bit pLmp (State.tstat t) 26 = true
      ∧ s.running (State.ysqOf (s.tileSub t)) = true ∧ s.schState (s.tileSub t) = st / 2 ^ 29 ∧ s.lmp.busy = none := by
  intro st h
  refine ⟨0, put (runs .reset [pYsq]) [(pLmp, State.tstat 0, 0x04000000), (pYsq, State.schOff 1, st)], ?_⟩
  fin_cases h <;> decide

/-- Witness for clause 2 of AdmissionAndLedgerRoutinesUseTags. -/
theorem wit_47_2_AdmissionAndLedgerRoutinesUseTags :
    ∀ st ∈ [0, 0x80000000], ∃ (t : Fin 4032) (s : State), s.alive .ysq = true ∧ s.confirmed t = true
      ∧ s.running (State.ysqOf (s.tileSub t)) = true ∧ s.bit pLmp (State.tstat t) 24 = true
      ∧ s.ledgerRuns (s.tileSub t / 512) < max 1 (s.fld pYcs O.YCS_ROUTINE_CFG 0 8)
      ∧ s.schState (s.tileSub t) = st / 2 ^ 29 := by
  intro st h
  refine ⟨0, put (runs .reset [pYsq]) [(pLmp, State.tstat 0, 0x81000000), (pYsq, State.schOff 1, st)], ?_⟩
  fin_cases h <;> decide +kernel

/-- Witnesses for clause 1 of MicroWordsComputeAndChooseTheNext: every value of SEQ that needs no flag. -/
theorem wit_49_1_MicroWordsComputeAndChooseTheNext :
    ∀ q, q < 10 → (micro (q * 2 ^ 124)).alive .ysq = true ∧ (micro (q * 2 ^ 124)).uRuns 0 = true
      ∧ (micro (q * 2 ^ 124)).fetchPoor 0 = false ∧ (micro (q * 2 ^ 124)).uFlag 0 8 = false ∧ ((micro (q * 2 ^ 124)).uWord 0).seq = q
      ∧ (micro (q * 2 ^ 124)).uBad 0 ((micro (q * 2 ^ 124)).uWord 0) = false
      ∧ ((micro (q * 2 ^ 124)).uWord 0).mem = 0 ∧ ((micro (q * 2 ^ 124)).uWord 0).io = 0 := by decide

/-- Witness for clause 3 of MicroWordsComputeAndChooseTheNext: a reserved bit set. -/
theorem wit_49_3_MicroWordsComputeAndChooseTheNext :
    ∃ s : State, s.alive .ysq = true ∧ s.uRuns 0 = true ∧ s.uFlag 0 8 = false ∧ s.fetchPoor 0 = false ∧ s.uBad 0 (s.uWord 0) = true :=
  ⟨micro (2 ^ 64), by decide⟩

/-- Witnesses for the clauses of MicroWordsReachRegistersMemoryAndContexts: every value of MEM. -/
theorem wit_50_MicroWordsReachRegistersMemoryAndContexts :
    ∀ m, m < 12 → (micro (m * 2 ^ 80)).alive .ysq = true ∧ (micro (m * 2 ^ 80)).uRuns 0 = true
      ∧ (micro (m * 2 ^ 80)).fetchPoor 0 = false ∧ (micro (m * 2 ^ 80)).uFlag 0 8 = false ∧ ((micro (m * 2 ^ 80)).uWord 0).mem = m
      ∧ (micro (m * 2 ^ 80)).uBad 0 ((micro (m * 2 ^ 80)).uWord 0) = false := by decide

/-- Witnesses for the clauses of MicroWordsReachThePaths: every value of IO. -/
theorem wit_51_MicroWordsReachThePaths :
    ∀ m ∈ [1, 2, 3, 4, 5, 6, 7, 8, 0x10, 0x11, 0x12, 0x20, 0x21, 0x30],
      (micro (m * 2 ^ 72)).alive .ysq = true ∧ (micro (m * 2 ^ 72)).uRuns 0 = true
      ∧ (micro (m * 2 ^ 72)).fetchPoor 0 = false ∧ (micro (m * 2 ^ 72)).uFlag 0 8 = false ∧ ((micro (m * 2 ^ 72)).uWord 0).io = m
      ∧ (micro (m * 2 ^ 72)).uBad 0 ((micro (m * 2 ^ 72)).uWord 0) = false ∧ ((micro (m * 2 ^ 72)).uWord 0).mem = 0 := by
  decide

/-- Witness for clause 2 of SkidderChannelsMoveHaltAndResume. -/
theorem wit_52_2_SkidderChannelsMoveHaltAndResume :
    ∃ (n : Fin 32) (s : State), s.alive .skd = true ∧ n.val < 4 := ⟨3, .reset, by decide⟩

/-- Witness for HALT_CLR in SkidderChannelsMoveHaltAndResume: the Skidder HALTED. -/
theorem wit_52_9b_SkidderChannelsMoveHaltAndResume :
    ∃ s : State, s.alive .skd = true ∧ s.skDraining = false ∧ s.skHalted = true :=
  ⟨put (runs .reset [pSkd]) [(pSkd, O.SKD_STAT, 0x80000000)], by decide⟩

/-- Witness for BIST_DONE in SramErrorsRepairsAndTests: a test that runs. -/
theorem wit_53_6b_SramErrorsRepairsAndTests :
    ∃ (m : Fin 3) (s : State), s.alive .hbm = true ∧ s.bit (State.memPage m) O.YRD_MEM_STAT 2 = true :=
  ⟨0, put .reset [(State.memPage 0, O.YRD_MEM_STAT, 4)], by decide⟩

/-- Witness for HBM_UE of a layer's picture in HbmBringUpErrorsLanesAndRepair: the slot of feed 0 composes one layer. -/
theorem wit_54_4_HbmBringUpErrorsLanesAndRepair :
    ∃ (a : Fin 51539607552) (i k : Nat) (x : Scene) (v : LaySel) (s : State), s.alive .hbm = true ∧ s.flt.life = .up
      ∧ s.lnd.slot = some k ∧ (s.wfeed k).cur = some x ∧ s.lnd.sel[i]? = some v :=
  ⟨0, 0, 0, ⟨[], 0, 0⟩, ⟨0, 0, none⟩, { State.reset with lnd :=
    { slot := some 0, feeds := [(0, { cur := some ⟨[], 0, 0⟩ })], sel := [⟨0, 0, none⟩] } }, by decide⟩

/-- Witness for PPR_DONE in HbmBringUpErrorsLanesAndRepair: a repair under way. -/
theorem wit_54_8b_HbmBringUpErrorsLanesAndRepair :
    ∃ (n : Fin 2) (e : Nat) (s : State), s.alive .hbm = true ∧ sget (fun _ => none) s.mem.ppr n = some e ∧ e < 16 :=
  ⟨1, 15, { State.reset with mem := { ppr := [(1, some 15)] } }, by decide⟩

/-- Witness for DISCOVERY in CororonLinksDiscoveryAndMemberTime: the lead of two engines, and the member below it. -/
theorem wit_55_3_CororonLinksDiscoveryAndMemberTime :
    ∀ e : Fin 2, ∃ (d : Discovered) (s : State), s.alive .std = true
      ∧ (standNodes d.cables).findIdx? (fun n => n.label = d.own) = some e.val ∧ s.pstate pStd = 2
      ∧ ¬ (s.flt.bootMode = 2 ↔ e.val = 0) := by
  intro e
  refine ⟨⟨e, [⟨0, 1, 1, 2⟩], []⟩, { runs .reset [pStd] with flt := { bootMode := 2 * e } }, ?_⟩
  fin_cases e <;> decide

/-- Witness for TIME_CORRECTION in CororonLinksDiscoveryAndMemberTime: a member that joins. -/
theorem wit_55_6b_CororonLinksDiscoveryAndMemberTime :
    ∃ (k : Fin 4) (s : State), s.alive .tim = true ∧ s.isMember = true ∧ s.crnParent k = true ∧ s.crnState k = 2
      ∧ s.stand.joined = false :=
  ⟨0, { put .reset [(State.cp 0, O.CRN_LINK_STAT, 0x20000001)] with flt := { bootMode := 2 } }, by decide⟩

/-- Witness for the last clause of BeaconsIsolationAndSharedPictures: a share that sinks pictures of engine 1. -/
theorem wit_56_9b_BeaconsIsolationAndSharedPictures :
    ∃ (n : Fin 256) (src : Fin 64) (s : State), s.alive .std = true ∧ bitOf (s.shCfg n) 31 = true
      ∧ bitOf (s.shCfg n) 30 = true ∧ bitsOf (s.shCfg n) 16 6 = src.val ∧ s.running pStd = true :=
  ⟨0, 1, put (runs .reset [pStd]) [(pStd, O.STD_SH_CFG, 0xC0010000)], by decide⟩

/-- Witness for DescriptorErrorStopsItsChannelOnly: a descriptor of LENGTH 0. -/
theorem wit_58_1_DescriptorErrorStopsItsChannelOnly :
    ∃ (n : Fin 32) (s : State), s.alive .skd = true ∧ 4 ≤ n.val ∧ s.skMoves n = true ∧ (s.skc n).desc = none
      ∧ s.hostReady = true ∧ leWord (s.spaceBytes (s.descSpace n) (s.rd64 pSkd (State.skr O.SKD_CH_CUR_LO n)) 32) 4 = 0 :=
  ⟨31, put (up .reset [pSkd]) [(pSkd, State.skr O.SKD_CH_STAT 31, 0x20000000)], by decide⟩

/-- Witnesses for EndOfEventPopsOrFaults: both codes, with an entry that matches on top of the stack and with none. -/
theorem wit_59_1_EndOfEventPopsOrFaults :
    ∀ (fast : Bool) (e : Fin 3),
      let s := put (micro ((if fast then 9 else 8) * 2 ^ 124)) [(pYsq, O.YSQ_PSTK0, [0, 0x80000000, 0xC0000000].getD e 0)]
      s.alive .ysq = true ∧ s.uRuns 0 = true ∧ s.uFlag 0 8 = false ∧ s.fetchPoor 0 = false ∧ s.uBad 0 (s.uWord 0) = false
        ∧ (s.uWord 0).mem = 0 ∧ (s.uWord 0).io = 0 ∧ (s.uWord 0).seq = (if fast then 9 else 8)
        ∧ (s.pTop 0).map (fun e => bitOf e 30) = [none, some false, some true].getD e none := by
  dsimp only
  decide

/-! ## Ill-formed commands are refused, one for each check -/

theorem test_wf_push_window : Instr.wf (.pushWindowWrite 0 31 [1, 2]) = false ∧ Instr.wf (.pushWindowWrite 0 0 []) = false
    ∧ Instr.wf (.pushWindowWrite 0 31 [1]) = true := by decide

theorem test_wf_host_write : Instr.wf (.registerWrite ⟨0, 0, true, 0, 0⟩) = false
    ∧ Instr.wf (.registerWrite ⟨0, 1, true, 256, 0⟩) = false ∧ Instr.wf (.registerWrite ⟨0, 1, true, 255, 0⟩) = true := by
  decide

theorem test_wf_alias_write : Instr.wf (.aliasWrite ⟨0, 0, true, 0, 0⟩) = false
    ∧ Instr.wf (.aliasWrite ⟨0, 4, true, 2 ^ 32, 0⟩) = false ∧ Instr.wf (.aliasWrite ⟨0, 4, true, 1, 0⟩) = true := by decide

theorem test_wf_stand_window : Instr.wf (.standWindowAccess ⟨0, false, false, 0, 0, true, 0, 0, true, 0, none⟩) = false
    ∧ Instr.wf (.standWindowAccess ⟨0, false, false, 0, 4, true, 2 ^ 32, 0, true, 0, none⟩) = false := by decide

theorem test_wf_reg_message : Instr.wf (.regMessage (.access false false 0 0 true 0 0)) = false
    ∧ Instr.wf (.regMessage (.access false false 0 2 true 65536 0)) = false
    ∧ Instr.wf (.regMessage (.hostRead 0 0 true)) = false ∧ Instr.wf (.regMessage (.hostWrite 0 [])) = false := by decide

theorem test_wf_frame : Instr.wf (.frameReceived 0 ⟨[], true, 0, 0, 0, 0, 0, 0⟩) = false
    ∧ Instr.wf (.frameReceived 0 ⟨[0], true, 524288, 1, 0, 0, 0, 0⟩) = false := by decide

theorem test_wf_picture : Instr.wf (.pictureDecoded 1 9 none []) = false ∧ Instr.wf (.pictureDecoded 2 1 none []) = false
    ∧ Instr.wf (.pictureDecoded 0 0 (some ⟨0, 0, ⟨3, 8, [], [], []⟩, none, 0, [], [], [], false, [], [], 0⟩) []) = false
    ∧ Instr.wf (.pictureDecoded 0 0 (some ⟨0, 0, ⟨0, 17, [], [], []⟩, none, 0, [], [], [], false, [], [], 0⟩) []) = false
    ∧ Instr.wf (.pictureDecoded 0 0 (some ⟨0, 0, ⟨0, 8, [[1], [1, 2]], [], []⟩, none, 0, [], [], [], false, [], [], 0⟩) [])
      = false
    ∧ Instr.wf (.pictureDecoded 0 0 none [⟨0, 0, 2, 0, true, true, 0, 64, 0, 0, 8, 4, 0, true, true, true, [], true, false⟩])
      = false := by decide

/-- Commands that carry a cell, with one of 511 bytes. -/
theorem test_wf_cells : ∀ c ∈ ([fun l => .lampReportRx 0 l, fun l => .tileSyncRx 0 0 l 0, fun l => .tilePixelRx 0 0 l,
      fun l => .tileBlackRx 0 0 l 0, fun l => .enumRx 0 0 l false {} true 0, fun l => .assignRx 0 0 l,
      fun l => .descRx 0 l 0, fun l => .statusUp 0 l, fun l => .mgmtDownRx 0 0 l ⟨0, 0, []⟩, fun l => .mgmtUpRx 0 l,
      fun l => .bulkRx 0 0 l, fun l => .tileUpstreamCellRx 0 0 l] : List (List Byte → Instr)),
    (c (List.replicate 511 0)).wf = false ∧ (c (List.replicate 512 0)).wf = true := by decide +kernel

theorem test_wf_management : Instr.wf (.mgmtDownRx 0 0 (List.replicate 512 0) ⟨0, 0, List.replicate 481 0⟩) = false := by
  decide +kernel

/-- Channel commands with a path fault of code 0. -/
theorem test_wf_channel_answers : ∀ c ∈ ([.chanWrite, .bulkWrite, .channelRead, .netrxRead, .chanControl, .chanSeek, .busClear,
      .chanProbe, .chanSense, .chanGoto, .waitEvent, .channelNop, .pollMatch, .pollIntervalExpiry, .backoffRetry] :
      List (Fin 4096 → ChAns → Instr)),
    (c 0 { chOk with fault := some 0 }).wf = false ∧ (c 0 chOk).wf = true := by decide

theorem test_wf_flit : Instr.wf (.flitReceived 0 (List.replicate 63 0) none none) = false := by decide

theorem test_wf_discovery :
    Instr.wf (.discovery ⟨0, [⟨0, 1, 1, 2⟩, ⟨0, 1, 2, 0⟩], []⟩) = false ∧ Instr.wf (.discovery ⟨0, [⟨0, 1, 1, 2⟩], []⟩) = true := by
  decide

theorem test_wf_share : Instr.wf (.shareReceive 0 0 (some ⟨List.replicate 9 0, 0, 0, 0, [], true⟩)) = false
    ∧ Instr.wf (.shareReceive 0 0 (some ⟨[], 0, 1, 0, [[], []], true⟩)) = false := by decide

/-! ## Values that the spec's text and examples state -/

/-- The example after R26: PAGE_ID of JLK17. -/
theorem test_page_id : State.reset.rd (pJlk + 17) O.PAGE_ID = 0x18110102 := by decide

/-- The example of R39: the alias of LOCKED_WRITE of JLK17 clears that cause alone. -/
theorem test_alias_write_clears_one_cause :
    (nx (execAliasWrite ⟨0x00910278, 4, true, 0, 0⟩ (put .reset [(0x91, O.INT_CAUSE, 0x40000008)])) .reset).rd 0x91
      O.INT_CAUSE = 8 := by decide

/-- The same example: a full-word write of the bit has the same effect. -/
theorem test_cause_write_clears_one_cause :
    (nx (execRegisterWrite ⟨0x00910010, 4, true, 0x40000000, 0⟩ (put .reset [(0x91, O.INT_CAUSE, 0x40000008)])) .reset).rd
      0x91 O.INT_CAUSE = 8 := by decide

/-- The example of Table 13.3: SWAP 3 and SWAP 5. -/
theorem test_swap : (List.range 8).map (swapFrom 3) = [7, 6, 5, 4, 3, 2, 1, 0]
    ∧ (List.range 8).map (swapFrom 5) = [6, 7, 4, 5, 2, 3, 0, 1] := by decide

/-- The example of R396: HBM address 0x2_4000_0000 is channel 2, bank 1, and 0 in PC, STACK, SID and bank group. -/
theorem test_hbm_place : let p := hbmPlace mapMaskReset 0x240000000
    p.1 = 0 ∧ p.2.1 / 2 ^ 20 = 2 * 2 ^ 6 + 1 := by decide

/-- The example of R228: the grey of 32,296 at code 228 with BR 0x6000 drives 677. -/
theorem test_lamp_drive : drive1 (fun i => [0x06400000, 0, 0].getD i 0) (32296, 32296, 32296) 37519 0x6000 11 0xFFFF false
    = 677 := by decide

/-- The example of R279: DELAY of tile 2 of three. -/
theorem test_ranging : State.delayOf [⟨0, 830 * 16, 800, 400, 360⟩, ⟨1, 1600 * 16, 800, 400, 360⟩,
      ⟨2, 2370 * 16, 800, 400, 360⟩] ⟨2, 2370 * 16, 800, 400, 360⟩ = 13200 := by decide

/-- The example of R171: at D = 0.150 s the key target is 720,000 bits. -/
theorem test_key_target :
    State.encTarget { typ := 3, desc := [0, 6000, 3000], width := 1920, height := 1080, fnum := 30, enc := { d := 150 / 1000 } }
      true = 720000 := by decide +kernel

/-- The same example: S_skip is 384 B. -/
theorem test_skip_size : EncCfg.sSkip ⟨[0, 6000, 3000], 1920, 1080, 30, 1⟩ = 384 := by decide

/-- A step takes the front command, runs it and leaves the rest. -/
theorem test_step : (nx (step { State.reset with pending := [.sqDb 0 1, .l1Exit] }) .reset).pending = [.l1Exit]
    ∧ (nx (step { State.reset with pending := [.sqDb 0 1, .l1Exit] }) .reset).bit pWqm O.INT_CAUSE 2 = true := by decide

/-- The table gives no row bits, so no word spells a command. -/
theorem test_no_word : decodeTableWord 32 0 = none := rfl

end Sys2Proof.Tests
end

section
/-! PROOFS. What the operations that several statements share leave alone: an event of a block, a run over a list,
interrupt requests, the fault log and the Coppice inventory. -/
namespace Sys2Proof.Machine

/-- An event of a block that acts leads to its effect, with the queue of commands as it was. -/
theorem act_next {b : Blk} {f : State → State} {s : State} {P : State → Prop} (h : s.alive b = true)
    (hP : ∀ u, u = f s → P { u with pending := s.pending }) : ∃ t, act b f s = .next t ∧ P t :=
  ⟨_, by rw [act, if_pos h]; rfl, hP _ rfl⟩

/-- What every single step of a fold keeps, the fold keeps. -/
theorem foldl_keeps {α β γ : Type} (v : α → γ) (f : α → β → α) (l : List β) (a : α)
    (h : ∀ a, ∀ b ∈ l, v (f a b) = v a) : v (l.foldl f a) = v a := by
  induction l generalizing a with
  | nil => rfl
  | cons b l ih =>
    rw [List.foldl_cons, ih _ fun a c hc => h a c (List.mem_cons_of_mem _ hc)]
    exact h a b List.mem_cons_self

/-- What both branches of a choice have, the choice has. -/
theorem ite_keeps {α γ : Type} (v : α → γ) {c : Prop} [Decidable c] {a b : α} {x : γ} (ha : v a = x) (hb : v b = x) :
    v (if c then a else b) = x := by
  split
  · exact ha
  · exact hb

namespace State

/-! ## The memories -/

/-- The bytes of host memory, HBM and the staging area. -/
def mems (s : State) : Store Byte × Store Byte × Store Byte := (s.host, s.hbm, s.yard)

theorem memSame_of_mems {s t : State} (h : t.mems = s.mems) : memSame s t := by
  simp only [mems, Prod.mk.injEq] at h
  obtain ⟨hh, hb, hy⟩ := h
  exact ⟨fun a => by rw [hostByte, hh]; rfl, fun a => by rw [hbmByte, hb]; rfl, fun a => by rw [yardByte, hy]; rfl⟩

@[simp] theorem mems_wr (s : State) (p off v : Nat) : (s.wr p off v).mems = s.mems := rfl

/-! ## Interrupt requests -/

section
variable (s : State) (p m : Nat)

/-- What setting causes can change is what interrupt requests change. -/
theorem setCause_rest : s.setCause p m = sigRest s (s.setCause p m) := (signals_setCause s p m).rest

@[simp] theorem setCause_lnd : (s.setCause p m).lnd = s.lnd := (congrArg State.lnd (setCause_rest s p m)).trans rfl
@[simp] theorem setCause_flt : (s.setCause p m).flt = s.flt := (congrArg State.flt (setCause_rest s p m)).trans rfl
@[simp] theorem setCause_sq : (s.setCause p m).sq = s.sq := (congrArg State.sq (setCause_rest s p m)).trans rfl
@[simp] theorem setCause_slotIdx : (s.setCause p m).slotIdx = s.slotIdx :=
  (congrArg State.slotIdx (setCause_rest s p m)).trans rfl
@[simp] theorem setCause_mems : (s.setCause p m).mems = s.mems := (congrArg mems (setCause_rest s p m)).trans rfl

variable {s p m}

/-- A register that requests of the page do not touch. -/
theorem rd_setCause_other {p' off : Nat} (ho : off < 0x10000) (h : sigReg p p' off = false) :
    (s.setCause p m).rd p' off = s.rd p' off := (signals_setCause s p m).reg p' off ho h

end

/-- Requests change no register of the Landing but its causes. -/
theorem sigReg_lnd {p off : Nat} (h : p ≠ pLnd ∨ off ≠ O.INT_CAUSE) : sigReg p pLnd off = false := by
  have e : (decide (pLnd = p) && decide (off = O.INT_CAUSE)) = false := by
    rw [Bool.and_eq_false_iff, decide_eq_false_iff_not, decide_eq_false_iff_not]
    exact h.imp (fun h e => h e.symm) id
  have y : ¬ pLnd < pYsq + 8 := by decide
  simp [sigReg, e, y]

/-- A register of the Landing that is no cause, after causes are set on any page. -/
theorem rd_lnd_setCause (s : State) (p m : Nat) {off : Nat} (ho : off < 0x10000) (h : p ≠ pLnd ∨ off ≠ O.INT_CAUSE) :
    (s.setCause p m).rd pLnd off = s.rd pLnd off := rd_setCause_other ho (sigReg_lnd h)

end State
end Sys2Proof.Machine
end

section
/-! PROOFS. The slot of a wall frame: what starts one moves the slot in progress and the next one, and nothing it calls
does. -/
namespace Sys2Proof.Machine
namespace State

/-! ## Where the Landing stands in its wall frame -/

/-- The slot in progress, the next to start, and the slot being composed. -/
def slotPos (s : State) : Option Nat × Nat × Nat := (s.lnd.slot, s.lnd.next, s.slotIdx)

@[simp] theorem slotPos_wr (s : State) (p off v : Nat) : (s.wr p off v).slotPos = s.slotPos := rfl
@[simp] theorem slotPos_setFld (s : State) (p off lo n v : Nat) : (s.setFld p off lo n v).slotPos = s.slotPos := rfl
@[simp] theorem slotPos_setBit (s : State) (p off b : Nat) (v : Bool) : (s.setBit p off b v).slotPos = s.slotPos := rfl
@[simp] theorem slotPos_incr (s : State) (p off : Nat) : (s.incr p off).slotPos = s.slotPos := rfl
@[simp] theorem slotPos_setHbm (s : State) (a : Nat) (l : List Byte) : (s.setHbm a l).slotPos = s.slotPos := rfl
@[simp] theorem slotPos_modCtx (s : State) (c : Nat) (f : Ctx → Ctx) : (s.modCtx c f).slotPos = s.slotPos := rfl
@[simp] theorem slotPos_setFeed (s : State) (k : Nat) (f : Feed) : (s.setFeed k f).slotPos = s.slotPos := rfl
@[simp] theorem slotPos_modJport (s : State) (p : Nat) (f : JPort → JPort) : (s.modJport p f).slotPos = s.slotPos := rfl

@[simp] theorem slotPos_setCause (s : State) (p m : Nat) : (s.setCause p m).slotPos = s.slotPos := by simp [slotPos]

@[simp] theorem slotPos_startPort (s : State) (p : Nat) (c : Cond) : (s.startPort p c).slotPos = s.slotPos := by
  unfold startPort
  split <;> rfl

@[simp] theorem slotPos_endPort (s : State) (p : Nat) (c : Cond) : (s.endPort p c).slotPos = s.slotPos := rfl

@[simp] theorem slotPos_darken (s : State) (p : Nat) : (s.darken p).slotPos = s.slotPos := by
  unfold darken
  split
  · rfl
  · simp only
    split <;> rfl

theorem slotPos_portRateCheck (s : State) (p : Nat) : (s.portRateCheck p).slotPos = s.slotPos := by
  unfold portRateCheck
  split <;> simp

theorem slotPos_rateCheck (s : State) : s.rateCheck.slotPos = s.slotPos := by
  unfold rateCheck
  simp only
  rw [foldl_keeps slotPos, foldl_keeps slotPos]
  · exact fun t p _ => slotPos_portRateCheck t p
  · intro t p _
    split <;> simp

theorem slotPos_takeBrightness (s : State) : s.takeBrightness.slotPos = s.slotPos := rfl

theorem slotPos_tapEnd (s : State) (c kind : Nat) (disp : Int) : (s.tapEnd c kind disp).slotPos = s.slotPos := rfl

theorem slotPos_absentTaps (s : State) (disp : Int) : (s.absentTaps disp).slotPos = s.slotPos :=
  foldl_keeps slotPos _ _ _ fun t c _ => slotPos_tapEnd t c 2 disp

theorem slotPos_selectLayer (s : State) (k : Nat) (l : Lay) (disp : Int) (rt : LayRt) :
    (s.selectLayer k l disp rt).1.slotPos = s.slotPos := by
  unfold selectLayer
  simp only
  split
  · simp only
    split <;> simp
  · simp only
    split <;> split <;> simp

theorem slotPos_selectFeed (s : State) (k : Nat) (disp : Int) : (s.selectFeed k disp).slotPos = s.slotPos := by
  unfold selectFeed
  simp only
  split
  · rfl
  · generalize hr : List.foldl _ (s, _) _ = r
    have key : r.1.slotPos = s.slotPos := by
      rw [← hr]
      refine foldl_keeps (fun a : State × List LaySel × List LayRt => a.1.slotPos) _ _ _ fun a i _ => ?_
      split
      · rfl
      · exact slotPos_selectLayer ..
    exact key

theorem slotPos_flashGuard (s : State) (k : Nat) : (s.flashGuard k).slotPos = s.slotPos := by
  unfold flashGuard
  simp only
  refine ite_keeps slotPos rfl (ite_keeps slotPos ?_ ?_)
  · rw [slotPos_setCause, slotPos_setBit, slotPos_incr, slotPos_setFeed]
  · rw [slotPos_setFeed]

theorem slotPos_capture (s : State) (c k : Nat) : (s.capture c k).slotPos = s.slotPos := by
  unfold capture
  simp only
  rw [slotPos_modCtx, foldl_keeps slotPos, foldl_keeps slotPos]
  · exact fun t _ _ => slotPos_setHbm ..
  · exact fun t _ _ => foldl_keeps slotPos _ _ _ fun u _ _ => slotPos_setHbm ..

theorem slotPos_feedStart (s : State) (k : Nat) (disp : Int) : (s.feedStart k disp).slotPos = s.slotPos := by
  unfold feedStart
  simp only
  rw [foldl_keeps slotPos, slotPos_flashGuard, slotPos_selectFeed]
  exact fun t c _ => slotPos_capture t c k

theorem slotPos_queueSlot (s : State) (p slot : Nat) (maint : Bool) (disp : Nat) :
    (s.queueSlot p slot maint disp).slotPos = s.slotPos := by
  unfold queueSlot
  simp only [slotPos_modJport]
  split <;> split <;> simp

theorem slotPos_tallySample (s : State) : s.tallySample.slotPos = s.slotPos := by
  unfold tallySample
  simp only
  split
  · rfl
  · split
    · rfl
    · split
      · simp only [slotPos_setCause, slotPos_incr]; rfl
      · rfl

/-- Once the wall frame runs, its next slot starts. -/
theorem slotPos_slotBegin {s : State} (on : s.lnd.on = true) (run : s.running pLnd = true)
    (hn : s.lnd.next < s.slotsPerFrame) : s.slotBegin.slotPos = (some s.lnd.next, s.lnd.next + 1, s.lnd.next) := by
  have taps : ∀ (u : State) (d : Int), (if s.lnd.next = 0 then u.absentTaps d else u).slotPos = u.slotPos :=
    fun u d => ite_keeps slotPos (slotPos_absentTaps u d) rfl
  unfold slotBegin
  simp only
  rw [if_neg (by simp [on, run, hn]), slotPos_tallySample, foldl_keeps slotPos]
  · refine ite_keeps slotPos ?_ ?_
    · exact (taps _ _).trans ((slotPos_takeBrightness _).trans (slotPos_rateCheck _))
    · exact (slotPos_feedStart ..).trans ((taps _ _).trans ((slotPos_takeBrightness _).trans (slotPos_rateCheck _)))
  · exact fun t p _ => ite_keeps slotPos (slotPos_queueSlot ..) rfl

end State
end Sys2Proof.Machine
end

section
/-! PROOFS. Retiring a lane: which registers and parts of the state the record, the spare and the self-tests leave
alone. -/
namespace Sys2Proof.Machine

theorem regKey_ne_of_page {p off p' off' : Nat} (ho : off < 0x10000) (ho' : off' < 0x10000) (h : p ≠ p') :
    regKey p off ≠ regKey p' off' := by
  rw [Ne, regKey_eq_iff ho ho']
  exact fun e => h e.1

theorem regKey_ne_of_off {p off off' : Nat} (h : off ≠ off') : regKey p off ≠ regKey p off' := by
  simp only [regKey]
  omega

namespace State

/-! ## Faults and the Coppice (R455, R463) -/

/-- `t` is `s` but for registers, tables, the Coppice and what an interrupt request can change. -/
def FaultRest (s t : State) : Prop := t = { sigRest s t with flt := t.flt }

namespace FaultRest

theorem refl (s : State) : FaultRest s s := rfl

theorem trans {s t u : State} (h : FaultRest s t) (k : FaultRest t u) : FaultRest s u := by
  unfold FaultRest at h k
  rw [h] at k
  exact k

variable {s t : State} (h : FaultRest s t)
include h

theorem lnd : t.lnd = s.lnd := (congrArg State.lnd h).trans rfl
theorem jports : t.jports = s.jports := (congrArg State.jports h).trans rfl
theorem slotIdx : t.slotIdx = s.slotIdx := (congrArg State.slotIdx h).trans rfl
theorem mems : t.mems = s.mems := (congrArg State.mems h).trans rfl

end FaultRest

/-- `t` comes from `s` by the retirement of lanes whose bits stand in the first `m` words of LANE_RETIRED: the state of
the Landing's page stays, and of the registers from there on none changes beyond those words, and no bit falls. -/
structure Retiring (m : Nat) (s t : State) : Prop where
  rest : FaultRest s t
  low : ∀ off, off < O.INT_CAUSE → t.rd pLnd off = s.rd pLnd off
  grows : ∀ off b, O.LND_LANE_RETIRED ≤ off → off < 0x10000 → b < 32 → s.bit pLnd off b = true → t.bit pLnd off b = true
  high : ∀ off, O.LND_LANE_RETIRED + 4 * m ≤ off → off < 0x10000 → t.rd pLnd off = s.rd pLnd off

namespace Retiring

theorem refl (m : Nat) (s : State) : Retiring m s s := ⟨.refl s, fun _ _ => rfl, fun _ _ _ _ _ h => h, fun _ _ _ => rfl⟩

theorem trans {m : Nat} {s t u : State} (h : Retiring m s t) (k : Retiring m t u) : Retiring m s u :=
  ⟨h.rest.trans k.rest, fun off ho => (k.low off ho).trans (h.low off ho),
    fun off b h1 h2 h3 hb => k.grows off b h1 h2 h3 (h.grows off b h1 h2 h3 hb),
    fun off h1 h2 => (k.high off h1 h2).trans (h.high off h1 h2)⟩

/-- A change that leaves the registers concerned alone. -/
theorem ofRegs {m : Nat} {s t : State} (h : FaultRest s t)
    (hr : ∀ off, off < 0x10000 → off < O.INT_CAUSE ∨ O.LND_LANE_RETIRED ≤ off → t.rd pLnd off = s.rd pLnd off) :
    Retiring m s t := by
  refine ⟨h, fun off ho => hr off (ho.trans (by decide)) (.inl ho), fun off b h1 h2 _ hb => ?_,
    fun off h1 h2 => hr off h2 (.inr ((Nat.le_add_right _ _).trans h1))⟩
  rwa [bit, hr off h2 (.inr h1)]

/-- A write of another page, or below LANE_RETIRED. -/
theorem wr {m p off : Nat} (s : State) (v : Nat) (ho : off < 0x10000)
    (h : p ≠ pLnd ∨ O.INT_CAUSE ≤ off ∧ off < O.LND_LANE_RETIRED) : Retiring m s (s.wr p off v) := by
  refine ofRegs rfl fun o ho' hr => rd_wr_other s v ?_
  rw [Ne, regKey_eq_iff ho' ho]
  omega

theorem setTab {m : Nat} (s : State) (p k i v : Nat) : Retiring m s (s.setTab p k i v) := ofRegs rfl fun _ _ _ => rfl

theorem setFlt {m : Nat} (s : State) (f : Flt) : Retiring m s { s with flt := f } := ofRegs rfl fun _ _ _ => rfl

theorem setCause {m : Nat} (s : State) (p c : Nat) : Retiring m s (s.setCause p c) := by
  refine ofRegs ?_ fun off ho hr => rd_lnd_setCause s p c ho (.inr ?_)
  · exact (setCause_rest s p c).trans (by rw [sigRest, setCause_flt])
  · have : O.INT_CAUSE < O.LND_LANE_RETIRED := by decide
    omega

/-- A lane's bit of LANE_RETIRED is set. -/
theorem setRetired {m n : Nat} (s : State) (h : n / 32 < m) :
    Retiring m s (s.setBit pLnd (O.LND_LANE_RETIRED + 4 * (n / 32)) (n % 32) true) := by
  refine ⟨rfl, fun off ho => ?_, fun off b _ _ hb hs => ?_, fun off h1 h2 => ?_⟩
  · refine rd_wr_other s _ (regKey_ne_of_off ?_)
    have : O.INT_CAUSE < O.LND_LANE_RETIRED := by decide
    omega
  · by_cases e : off = O.LND_LANE_RETIRED + 4 * (n / 32)
    · subst e
      rw [setBit, bit_setFld _ _ _ _ _ _ _ hb]
      split
      · have : b - n % 32 = 0 := by omega
        rw [this]
        exact bitOf_b2n true
      · exact hs
    · rw [bit, setBit, setFld, rd_wr_other s _ (regKey_ne_of_off e)]
      exact hs
  · exact rd_wr_other s _ (regKey_ne_of_off (by omega))

theorem faultLog {m : Nat} (s : State) (cls : Nat) (spare noSpare : Bool) (page code info : Nat) :
    Retiring m s (s.faultLog cls spare noSpare page code info) := by
  unfold State.faultLog
  simp only
  refine .trans ?_ (setCause _ _ _)
  refine .trans (.trans ?_ (wr _ _ (by decide) (.inl (by decide)))) (wr _ _ (by decide) (.inl (by decide)))
  exact (((setTab ..).trans (setTab ..)).trans (setTab ..)).trans (setTab ..)

theorem errCapture {m : Nat} (s : State) (code info addr : Nat) : Retiring m s (s.errCapture pLnd code info addr) := by
  have err : ∀ (s : State) (off v : Nat), O.INT_CAUSE ≤ off ∧ off < O.LND_LANE_RETIRED → Retiring m s (s.wr pLnd off v) :=
    fun s off v h => wr s v (h.2.trans (by decide)) (.inr h)
  unfold State.errCapture
  simp only
  split
  · exact err _ _ _ (by decide)
  · refine .trans ?_ (setCause _ _ _)
    exact (((err _ _ _ (by decide)).trans (err _ _ _ (by decide))).trans (err _ _ _ (by decide))).trans
      (err _ _ _ (by decide))

theorem copTake {m : Nat} (s : State) (c : Nat) : Retiring m s (s.copTake c) := by
  unfold State.copTake
  simp only
  split
  · exact refl m s
  · split
    · exact ((setFlt _ _).trans (wr _ _ (by decide) (.inl (by decide)))).trans (setCause _ _ _)
    · exact setFlt _ _

theorem laneShow {m n : Nat} (s : State) (cls code : Nat) (spare noSpare : Bool) (h : n / 32 < m) :
    Retiring m s (s.laneShow n cls code spare noSpare) := by
  unfold State.laneShow
  simp only
  refine .trans (.trans (.trans ?_ (setCause _ _ _)) (setCause _ _ _)) (faultLog ..)
  exact (setRetired s h).trans (wr _ _ (by decide) (.inr (by decide)))

theorem laneTake {m : Nat} (s : State) : Retiring m s s.laneTake :=
  (wr _ _ (by decide) (.inr (by decide))).trans (copTake _ _)

theorem laneTests {m : Nat} (bad : List Nat) (i : Nat) (h : 4 ≤ m) :
    ∀ (fuel : Nat) (s : State), Retiring m s (s.laneTests bad i fuel)
  | 0, s => refl m s
  | fuel + 1, s => by
    unfold State.laneTests
    split
    · exact refl m s
    · rename_i k hk
      have hk : k < 104 := by
        have := List.mem_of_getElem? hk
        simpa using (List.mem_filter.mp this).1
      split
      · exact ((laneShow _ _ _ _ _ (by omega)).trans (laneTake _)).trans (laneTests bad i h fuel _)
      · exact refl m s

/-- A lane leaves service; where spares fail their self-tests, the words of every lane are concerned. -/
theorem laneOut {m n : Nat} (s : State) (cls code : Nat) (bad : List Nat) (h : n / 32 < m) (hb : bad = [] ∨ 4 ≤ m) :
    Retiring m s (s.laneOut n cls code bad) := by
  unfold State.laneOut
  simp only
  generalize hu : ite (bad = []) _ _ = u
  have hs : Retiring m s u := by
    rw [← hu]
    split
    · exact laneShow s cls code _ _ h
    · exact (laneShow s cls code _ _ h).trans (laneTests bad _ (hb.resolve_left ‹_›) _ _)
  refine hs.trans ?_
  split
  · exact (laneTake _).trans (faultLog ..)
  · exact (wr _ _ (by decide) (.inr (by decide))).trans (setFlt _ _)

theorem retireLane {n : Nat} (s : State) (bad : List Nat) (h : n < 104) : Retiring 4 s (s.retireLane n bad) := by
  unfold State.retireLane
  simp only
  have hs : Retiring 4 s ((s.errCapture pLnd 0x0100 n 0).laneOut n 1 0x0100 bad) :=
    (errCapture ..).trans (laneOut _ _ _ bad (by omega) (.inr (by decide)))
  split
  · exact (hs.trans (wr _ _ (by decide) (.inl (by decide)))).trans (setFlt _ _)
  · exact hs

theorem laneSwap (s : State) : ∃ m, Retiring m s s.laneSwap := by
  unfold State.laneSwap
  split
  · rename_i n hn
    refine ⟨n / 32 + 1, ?_⟩
    unfold laneReqDue
    rw [hn]
    exact ((laneOut s 0 0 [] (Nat.lt_succ_self _) (.inl rfl)).trans (wr _ _ (by decide) (.inl (by decide)))).trans
      (setFlt _ _)
  · exact ⟨0, refl 0 s⟩

end Retiring
end State
end Sys2Proof.Machine
end

section
/-! PROOFS. The Landing's counts of lanes after a retirement, and ports that go dark for a slot. -/
namespace Sys2Proof.Machine

/-- Where every bit of a number stands in another below bit 32, so does every field. -/
theorem bitsOf_le_bitsOf {a b : Nat} (lo n : Nat) (hn : lo + n ≤ 32)
    (h : ∀ i, i < 32 → bitOf a i = true → bitOf b i = true) : bitsOf a lo n ≤ bitsOf b lo n := by
  have e : bitsOf a lo n &&& bitsOf b lo n = bitsOf a lo n := by
    apply Nat.eq_of_testBit_eq
    intro i
    rw [Nat.testBit_and, testBit_bitsOf, testBit_bitsOf]
    by_cases hi : i < n
    · have hb := h (lo + i) (by omega)
      simp only [bitOf] at hb
      cases ha : a.testBit (lo + i)
      · simp
      · simp [hi, hb ha]
    · simp [hi]
  rw [← e]
  exact Nat.and_le_right

namespace State

/-! ## Retiring a lane (R220) -/

theorem Retiring.running_lnd {m : Nat} {s t : State} (h : Retiring m s t) : t.running pLnd = s.running pLnd := by
  rw [running, running, pstate, pstate, fld, fld, h.low O.PAGE_STAT (by decide)]

theorem Retiring.slotsPerFrame_le {m : Nat} {s t : State} (h : Retiring m s t) : s.slotsPerFrame ≤ t.slotsPerFrame := by
  have grows : ∀ i, i < 32 → s.bit pLnd O.LND_MODE_CUR i = true → t.bit pLnd O.LND_MODE_CUR i = true :=
    fun i hi => h.grows _ i (by decide) (by decide) hi
  have feeds : s.feeds ≤ t.feeds := bitsOf_le_bitsOf 0 4 (by decide) grows
  have maint : b2n s.maintEn ≤ b2n t.maintEn := by
    unfold maintEn
    cases hs : s.bit pLnd O.LND_MODE_CUR 28
    · exact Nat.zero_le _
    · rw [grows 28 (by decide) hs]
  simp only [slotsPerFrame]
  omega

theorem rd_setFlt (s : State) (f : Flt) (p off : Nat) : State.rd { s with flt := f } p off = s.rd p off := rfl

theorem rd_setCop (s : State) (c used lost p off : Nat) : (s.setCop c used lost).rd p off = s.rd p off := rfl

theorem rd_lnd_wr_dev (s : State) {o off : Nat} (v : Nat) (ho : off < 0x10000) (h : o < 0x10000) :
    (s.wr pDev o v).rd pLnd off = s.rd pLnd off := rd_wr_other s v (regKey_ne_of_page ho h (by decide))

theorem rd_setTab (s : State) (p k i v q off : Nat) : (s.setTab p k i v).rd q off = s.rd q off := rfl

/-- A fault log record changes no register of the Landing. -/
theorem rd_lnd_faultLog (s : State) (cls : Nat) (spare noSpare : Bool) (page code info : Nat) {off : Nat}
    (ho : off < 0x10000) : (s.faultLog cls spare noSpare page code info).rd pLnd off = s.rd pLnd off := by
  unfold faultLog
  simp only
  rw [rd_lnd_setCause _ _ _ ho (.inl (by decide)), incr, addReg,
    rd_lnd_wr_dev _ _ ho (by decide), rd_lnd_wr_dev _ _ ho (by decide), rd_setTab, rd_setTab, rd_setTab, rd_setTab]

/-- Taking a spare changes no register of the Landing. -/
theorem rd_lnd_copTake (s : State) (c : Nat) {off : Nat} (ho : off < 0x10000) :
    (s.copTake c).rd pLnd off = s.rd pLnd off := by
  unfold copTake
  simp only
  refine ite_keeps (fun t : State => t.rd pLnd off) rfl (ite_keeps (fun t : State => t.rd pLnd off) ?_ rfl)
  exact (rd_lnd_setCause _ _ _ ho (.inl (by decide))).trans
    (rd_lnd_wr_dev _ _ ho (by decide))

/-- The counts of lanes and spares stay where an error is recorded. -/
theorem rd_lanes_errCapture (s : State) (code info addr : Nat) :
    (s.errCapture pLnd code info addr).rd pLnd O.LND_LANES = s.rd pLnd O.LND_LANES := by
  unfold errCapture
  simp only
  refine ite_keeps (fun t : State => t.rd pLnd O.LND_LANES) (rd_wr_other _ _ (by decide)) ?_
  rw [rd_lnd_setCause _ _ _ (by decide) (.inr (by decide)), wr64, rd_wr_other _ _ (by decide),
    rd_wr_other _ _ (by decide), rd_wr_other _ _ (by decide), rd_wr_other _ _ (by decide)]

/-- Of LANES, showing a lane RETIRED changes the count of those alone. -/
theorem fld_lanes_laneShow (s : State) (n cls code : Nat) (spare noSpare : Bool) {lo k : Nat} (h : lo + k ≤ 24) :
    (s.laneShow n cls code spare noSpare).fld pLnd O.LND_LANES lo k = s.fld pLnd O.LND_LANES lo k := by
  unfold laneShow
  simp only
  rw [fld, rd_lnd_faultLog _ _ _ _ _ _ _ (by decide), rd_lnd_setCause _ _ _ (by decide) (.inl (by decide)),
    rd_lnd_setCause _ _ _ (by decide) (.inr (by decide)), ← fld, fld_setFld_other _ _ _ _ _ _ _ _ (by omega) (.inl h),
    fld, setBit, setFld, rd_wr_other _ _ (regKey_ne_of_off ?_)]
  · rfl
  · have : O.LND_LANES < O.LND_LANE_RETIRED := by decide
    omega

/-- A lane's bit stands once it is shown RETIRED. -/
theorem bit_retired_laneShow (s : State) {n : Nat} (cls code : Nat) (spare noSpare : Bool) (h : n < 128) :
    (s.laneShow n cls code spare noSpare).bit pLnd (O.LND_LANE_RETIRED + 4 * (n / 32)) (n % 32) = true := by
  have ho : O.LND_LANE_RETIRED + 4 * (n / 32) < 0x10000 := by simp only [O.LND_LANE_RETIRED]; omega
  have hl : O.LND_LANE_RETIRED + 4 * (n / 32) ≠ O.LND_LANES := by simp only [O.LND_LANE_RETIRED, O.LND_LANES]; omega
  have hc : O.LND_LANE_RETIRED + 4 * (n / 32) ≠ O.INT_CAUSE := by simp only [O.LND_LANE_RETIRED, O.INT_CAUSE]; omega
  unfold laneShow
  simp only
  rw [bit, rd_lnd_faultLog _ _ _ _ _ _ _ ho, rd_lnd_setCause _ _ _ ho (.inl (by decide)),
    rd_lnd_setCause _ _ _ ho (.inr hc), setFld, rd_wr_other _ _ (regKey_ne_of_off hl), ← bit,
    bit_setBit_same _ _ _ _ _ (by omega)]

theorem bit_retired_laneOut (s : State) {n : Nat} (cls code : Nat) (bad : List Nat) (h : n < 104) :
    (s.laneOut n cls code bad).bit pLnd (O.LND_LANE_RETIRED + 4 * (n / 32)) (n % 32) = true := by
  have keep : ∀ {t u : State}, Retiring 4 t u → t.bit pLnd (O.LND_LANE_RETIRED + 4 * (n / 32)) (n % 32) = true →
      u.bit pLnd (O.LND_LANE_RETIRED + 4 * (n / 32)) (n % 32) = true :=
    fun h => h.grows _ _ (Nat.le_add_right _ _) (by simp only [O.LND_LANE_RETIRED]; omega) (by omega)
  have shown := bit_retired_laneShow s (n := n) cls code ((s.lanesLeft.drop s.lanes).any fun k => k ∉ bad)
    (!(s.lanesLeft.drop s.lanes).any fun k => k ∉ bad) (by omega)
  unfold laneOut
  simp only
  generalize hu : ite (bad = []) _ _ = u
  have hs : u.bit pLnd (O.LND_LANE_RETIRED + 4 * (n / 32)) (n % 32) = true := by
    rw [← hu]
    exact ite_keeps (fun t : State => t.bit pLnd _ _) shown (keep (.laneTests bad _ (by decide) _ _) shown)
  split
  · exact keep ((Retiring.laneTake u).trans (.faultLog ..)) hs
  · exact keep ((Retiring.wr u _ (by decide) (.inr (by decide))).trans (.setFlt _ _)) hs

theorem bit_retired_retireLane (s : State) {n : Nat} (bad : List Nat) (h : n < 104) :
    (s.retireLane n bad).bit pLnd (O.LND_LANE_RETIRED + 4 * (n / 32)) (n % 32) = true := by
  have ho : O.LND_LANE_RETIRED + 4 * (n / 32) < 0x10000 := by simp only [O.LND_LANE_RETIRED]; omega
  have out := bit_retired_laneOut (s.errCapture pLnd 0x0100 n 0) 1 0x0100 bad h
  unfold retireLane
  simp only
  split
  · rwa [bit, rd_setFlt, rd_lnd_wr_dev _ _ ho (by decide), ← bit]
  · exact out

theorem fld_lanes_retireLane (s : State) (n lo k : Nat) : (s.retireLane n []).fld pLnd O.LND_LANES lo k
    = ((s.errCapture pLnd 0x0100 n 0).laneOut n 1 0x0100 []).fld pLnd O.LND_LANES lo k := by
  unfold retireLane
  simp only
  split
  · rw [fld, rd_setFlt, rd_lnd_wr_dev _ _ (by decide) (by decide), ← fld]
  · rfl

/-- A spare that takes a lane's place leaves the lanes in service as many as they were, and the spares one fewer. -/
theorem lanes_laneOut_spare (s : State) (n cls code : Nat) (h : s.fld pLnd O.LND_LANES 16 4 ≠ 0) :
    (s.laneOut n cls code []).fld pLnd O.LND_LANES 16 4 = s.fld pLnd O.LND_LANES 16 4 - 1
      ∧ (s.laneOut n cls code []).lanes = s.lanes := by
  have lt : s.fld pLnd O.LND_LANES 16 4 < 2 ^ 4 := bitsOf_lt ..
  unfold laneOut
  simp only [if_true]
  generalize hu : s.laneShow n cls code _ _ = u
  have shown : ∀ lo k, lo + k ≤ 24 → u.fld pLnd O.LND_LANES lo k = s.fld pLnd O.LND_LANES lo k :=
    fun lo k hk => hu ▸ fld_lanes_laneShow s n cls code _ _ hk
  have taken : ∀ i lo k, (u.laneTake.faultLog 0 true false pLnd 0 i).fld pLnd O.LND_LANES lo k
      = (u.setFld pLnd O.LND_LANES 16 4 (u.fld pLnd O.LND_LANES 16 4 - 1)).fld pLnd O.LND_LANES lo k := fun i lo k => by
    rw [fld, rd_lnd_faultLog _ _ _ _ _ _ _ (by decide), laneTake, rd_lnd_copTake _ _ (by decide), ← fld]
  rw [if_pos (by rw [shown _ _ (by decide)]; exact h)]
  generalize List.getD _ _ _ = i
  change _ ∧ State.fld _ pLnd O.LND_LANES 0 7 = s.fld pLnd O.LND_LANES 0 7
  rw [taken, taken, fld_setFld_same _ _ _ _ _ _ (by decide),
    fld_setFld_other _ _ _ _ _ _ _ _ (by decide) (.inl (by decide)), shown _ _ (by decide), shown _ _ (by decide)]
  exact ⟨Nat.mod_eq_of_lt (by omega), rfl⟩

/-- With no spare left, one lane fewer is in service. -/
theorem lanes_laneOut_none (s : State) (n cls code : Nat) (h : s.fld pLnd O.LND_LANES 16 4 = 0) :
    (s.laneOut n cls code []).lanes = s.lanes - 1 := by
  have lt : s.lanes < 2 ^ 7 := bitsOf_lt ..
  unfold laneOut
  simp only [if_true]
  generalize hu : s.laneShow n cls code _ _ = u
  have shown : ∀ lo k, lo + k ≤ 24 → u.fld pLnd O.LND_LANES lo k = s.fld pLnd O.LND_LANES lo k :=
    fun lo k hk => hu ▸ fld_lanes_laneShow s n cls code _ _ hk
  rw [if_neg (by rw [shown _ _ (by decide)]; exact not_not.mpr h), lanes, fld, copLose, rd_setCop, ← fld,
    fld_setFld_same _ _ _ _ _ _ (by decide), lanes, shown _ _ (by decide), ← lanes]
  exact Nat.mod_eq_of_lt (by omega)

/-! ## Ports that send BLACK for the slot (R14) -/

/-- `t` is `s` but for ports that have gone dark: their cells, the list of them, and what a sample stages for them. -/
def Darkened (s t : State) : Prop :=
  t = { s with lnd := { s.lnd with dark := t.lnd.dark }, tly := t.tly, jports := t.jports }

theorem Darkened.refl (s : State) : Darkened s s := rfl

theorem Darkened.trans {s t u : State} (h : Darkened s t) (k : Darkened t u) : Darkened s u := by
  unfold Darkened at h k
  rw [h] at k
  exact k

theorem darkened_modJport (s : State) (p : Nat) (f : JPort → JPort) : Darkened s (s.modJport p f) := rfl

theorem darkened_darken (s : State) (p : Nat) : Darkened s (s.darken p) := by
  unfold darken
  split
  · exact .refl s
  · simp only
    split <;> rfl

theorem darkened_slotDark (s : State) (p : Nat) : Darkened s (s.slotDark p) := by
  unfold slotDark slotBlackNow
  split
  · exact .refl s
  · exact (darkened_modJport s p _).trans (darkened_darken _ p)

theorem darkened_foldl (l : List Nat) (s : State) : Darkened s (l.foldl slotDark s) := by
  induction l generalizing s with
  | nil => exact .refl s
  | cons p l ih => exact (darkened_slotDark s p).trans (ih _)

section
variable {s t : State} (h : Darkened s t)
include h

theorem Darkened.regs : t.regs = s.regs := (congrArg State.regs h).trans rfl
theorem Darkened.next : t.lnd.next = s.lnd.next := (congrArg (·.lnd.next) h).trans rfl
theorem Darkened.mems : t.mems = s.mems := (congrArg State.mems h).trans rfl
theorem Darkened.rd (p off : Nat) : t.rd p off = s.rd p off := by rw [State.rd, h.regs]; rfl

end

@[simp] theorem jport_modJport_same (s : State) (p : Nat) (f : JPort → JPort) :
    (s.modJport p f).jport p = f (s.jport p) := sget_sset_same ..

theorem jport_modJport_other (s : State) {p q : Nat} (f : JPort → JPort) (h : q ≠ p) :
    (s.modJport p f).jport q = s.jport q := sget_sset_other _ _ _ h

@[simp] theorem jport_darken (s : State) (p q : Nat) : (s.darken p).jport q = s.jport q := by
  unfold darken
  split
  · rfl
  · simp only
    split <;> rfl

theorem jport_slotDark_other (s : State) {p q : Nat} (h : q ≠ p) : (s.slotDark p).jport q = s.jport q := by
  unfold slotDark slotBlackNow
  refine ite_keeps (fun t : State => t.jport q) rfl ?_
  rw [jport_darken, jport_modJport_other _ _ h]

theorem pix_slotDark_same (s : State) (p : Nat) : ((s.slotDark p).jport p).pix = [] := by
  unfold slotDark slotBlackNow
  split
  · rwa [← List.isEmpty_iff]
  · rw [jport_darken, jport_modJport_same]

/-- A port that is none of those that go dark keeps its cells. -/
theorem jport_darkened_other (s : State) {l : List Nat} {p : Nat} (h : p ∉ l) : (l.foldl slotDark s).jport p = s.jport p :=
  foldl_keeps (fun t : State => t.jport p) _ _ _ fun t _ hq => jport_slotDark_other t fun e => h (e ▸ hq)

/-- A port that goes dark has no pixel left to send. -/
theorem pix_darkened (s : State) (l : List Nat) {p : Nat} (h : p ∈ l ∨ (s.jport p).pix = []) :
    ((l.foldl slotDark s).jport p).pix = [] := by
  induction l generalizing s with
  | nil => exact h.resolve_left (List.not_mem_nil)
  | cons q l ih =>
    refine ih _ ?_
    by_cases e : p = q
    · subst e
      exact .inr (pix_slotDark_same s p)
    · rw [jport_slotDark_other s e]
      exact h.imp_left fun hp => (List.mem_cons.mp hp).resolve_left e

end State
end Sys2Proof.Machine
end

section
/-! PROOFS. O34: a clause each for the start and the end of a slot, the edges of CAM_SYNC, a lane that faults and the
end of a flash hold. -/
namespace Sys2Proof.Machine
namespace State

/-! ## The start of a slot -/

theorem slotEnd_of_none {s : State} (h : s.lnd.slot = none) (missed : List Nat) : s.slotEnd missed = s := by
  rw [slotEnd, h]

theorem epochApply_of_applied {s : State} (h : s.lnd.applied = true) : s.epochApply = s := by
  rw [epochApply, if_pos h]

/-- With no slot in progress, and before slot 0 the epoch applied, the wall frame's next slot starts. -/
theorem slotPos_slotStart {s : State} (on : s.lnd.on = true) (run : s.running pLnd = true) (slot : s.lnd.slot = none)
    (hn : s.lnd.next < s.slotsPerFrame) (applied : s.lnd.next = 0 → s.lnd.applied = true) :
    s.slotStart.slotPos = (some s.lnd.next, s.lnd.next + 1, s.lnd.next) := by
  obtain ⟨m, swap⟩ := Retiring.laneSwap s
  have lnd : s.laneSwap.lnd = s.lnd := swap.rest.lnd
  have epoch : (if s.laneSwap.lnd.next = 0 then s.laneSwap.epochApply else s.laneSwap) = s.laneSwap := by
    split
    · exact epochApply_of_applied (by rw [lnd] at *; exact applied ‹_›)
    · rfl
  unfold slotStart
  simp only
  rw [if_neg (by simp [on, run]), slotEnd_of_none slot, epoch, ← lnd]
  refine slotPos_slotBegin (by rw [lnd, on]) (by rw [swap.running_lnd, run]) ?_
  rw [lnd]
  exact hn.trans_le swap.slotsPerFrame_le

/-! ## The end of a slot -/

/-- The ports that still wait for pixels go dark; where there are any, slot `k` counts an underrun. -/
def portsLate (s : State) (k : Nat) : State :=
  let late := (List.range 64).filter s.portWaits
  let s := late.foldl slotDark s
  if late.isEmpty then s
  else ((s.incr pLnd (O.LND_UNDERRUN + 4 * k)).wr64 pLnd O.LND_UNDERRUN_PORTS_LO (portBits late)).setCause pLnd 4

/-- The end of a slot: after the ports that were late, only the count of missed captures and the contexts change, and the
slot is over. -/
theorem slotEnd_keeps {γ : Type} (v : State → γ) {s : State} {k : Nat} (missed : List Nat) (h : s.lnd.slot = some k)
    (hcount : ∀ t, v (t.incr pLnd O.LND_CNT_MISSED_CAPTURE) = v t) (htap : ∀ t c kind disp, v (t.tapEnd c kind disp) = v t)
    (hover : ∀ t, v { t.sampleSettled with lnd := { t.lnd with slot := none, dark := [] } } = v t) :
    v (s.slotEnd missed) = v (s.portsLate k) := by
  unfold slotEnd
  simp only [h]
  rw [hover]
  exact foldl_keeps v _ _ _ fun t c _ => (htap _ _ _ _).trans (ite_keeps v (hcount t) rfl)

theorem mems_sampleSettled (s : State) : s.sampleSettled.mems = s.mems := by
  unfold sampleSettled
  split <;> rfl

theorem rd_sampleSettled (s : State) (p off : Nat) : s.sampleSettled.rd p off = s.rd p off := by
  unfold sampleSettled
  split <;> rfl

theorem rd_slotEnd {s : State} {k : Nat} (missed : List Nat) (h : s.lnd.slot = some k) {off : Nat}
    (ho : off ≠ O.LND_CNT_MISSED_CAPTURE) : (s.slotEnd missed).rd pLnd off = (s.portsLate k).rd pLnd off :=
  slotEnd_keeps (·.rd pLnd off) missed h (fun t => rd_wr_other t _ (regKey_ne_of_off ho)) (fun _ _ _ _ => rfl)
    fun t => rd_sampleSettled t pLnd off

theorem next_portsLate (s : State) (k : Nat) : (s.portsLate k).lnd.next = s.lnd.next := by
  have dark := (darkened_foldl ((List.range 64).filter s.portWaits) s).next
  unfold portsLate
  refine ite_keeps (fun t : State => t.lnd.next) dark ?_
  rw [setCause_lnd]
  exact dark

theorem mems_portsLate (s : State) (k : Nat) : (s.portsLate k).mems = s.mems := by
  have dark := (darkened_foldl ((List.range 64).filter s.portWaits) s).mems
  unfold portsLate
  refine ite_keeps mems dark ?_
  rw [setCause_mems]
  exact dark

theorem mems_slotEnd (s : State) (missed : List Nat) : (s.slotEnd missed).mems = s.mems := by
  cases h : s.lnd.slot with
  | none => rw [slotEnd_of_none h]
  | some k =>
    exact (slotEnd_keeps mems missed h (fun _ => rfl) (fun _ _ _ _ => rfl) mems_sampleSettled).trans (mems_portsLate s k)

theorem next_slotEnd (s : State) (missed : List Nat) : (s.slotEnd missed).lnd.next = s.lnd.next := by
  cases h : s.lnd.slot with
  | none => rw [slotEnd_of_none h]
  | some k =>
    exact (slotEnd_keeps (·.lnd.next) missed h (fun _ => rfl) (fun _ _ _ _ => rfl) fun _ => rfl).trans
      (next_portsLate s k)

theorem slot_slotEnd (s : State) (missed : List Nat) : (s.slotEnd missed).lnd.slot = none := by
  cases h : s.lnd.slot with
  | none => rw [slotEnd_of_none h, h]
  | some k =>
    unfold slotEnd
    simp only [h]

/-- Where ports still wait, the slot's counter of underruns counts one, and the cause is set. -/
theorem portsLate_counts {s : State} {k : Nat} (hk : k < 9) (h : ∃ p, p < 64 ∧ s.portWaits p = true) :
    (s.portsLate k).rd pLnd (O.LND_UNDERRUN + 4 * k) = (s.rd pLnd (O.LND_UNDERRUN + 4 * k) + 1) % 2 ^ 32
      ∧ (s.portsLate k).bit pLnd O.INT_CAUSE 2 = true := by
  obtain ⟨p, hp, hw⟩ := h
  have late : ¬ ((List.range 64).filter s.portWaits).isEmpty = true := by
    rw [List.isEmpty_iff]
    exact List.ne_nil_of_mem (List.mem_filter.mpr ⟨List.mem_range.mpr hp, hw⟩)
  have dark := (darkened_foldl ((List.range 64).filter s.portWaits) s).rd pLnd (O.LND_UNDERRUN + 4 * k)
  unfold portsLate
  simp only
  rw [if_neg late]
  generalize List.foldl slotDark s _ = u at dark ⊢
  constructor
  · rw [rd_lnd_setCause _ _ _ (by simp only [O.LND_UNDERRUN]; omega)
        (.inr (by simp only [O.LND_UNDERRUN, O.INT_CAUSE]; omega)), wr64,
      rd_wr_other _ _ (regKey_ne_of_off (by simp only [O.LND_UNDERRUN, O.LND_UNDERRUN_PORTS_LO]; omega)),
      rd_wr_other _ _ (regKey_ne_of_off (by simp only [O.LND_UNDERRUN, O.LND_UNDERRUN_PORTS_LO]; omega)),
      incr, addReg, rd_wr_same, dark]
    rfl
  · rw [bit_setCause _ _ (by decide) (by decide)]
    exact Bool.or_true _

/-! ## CAM_SYNC -/

/-- The edge of an active pulse ends it. -/
theorem camEdge_active {s : State} {k stop : Nat} (h : sget (fun _ => none) s.lnd.cam k = some stop) (frame slot : Nat) :
    s.camEdge k frame slot = (s.reachTime stop).camTrail k := by
  rw [camEdge, h]

/-- An output that is not enabled starts no pulse. -/
theorem camEdge_disabled {s : State} {k : Nat} (h : sget (fun _ => none) s.lnd.cam k = none)
    (he : s.bit pTim (csr O.TIM_CS_CFG k) 31 = false) (frame slot : Nat) : s.camEdge k frame slot = s := by
  rw [bit] at he
  rw [camEdge, h]
  simp [camLead, he]

/-- The end of a pulse: at its time, the inactive level is driven. -/
theorem camTrail_reachTime (s : State) (k stop : Nat) : ∃ t, (s.reachTime stop).camTrail k
    = { s with tim := t, out := .camSync k (s.camLevel k false) :: s.out
               lnd := { s.lnd with cam := sset (fun _ => none) s.lnd.cam k none } } := by
  unfold reachTime
  split
  · exact ⟨_, rfl⟩
  · exact ⟨_, rfl⟩

/-! ## A lane that faults -/

/-- The ports that wait for a pixel. -/
def portsHit (s : State) (pixel : Option (Nat × Nat)) : List Nat :=
  (List.range 64).filter fun p => pixel.any fun q => s.waitsFor q.1 q.2 p

theorem laneFault_of_laneIn {s : State} {n : Nat} (hn : n < 104) (h : s.laneIn n = true) (pixel : Option (Nat × Nat))
    (bad : List Nat) : s.laneFault n pixel bad
      = (((s.portsHit pixel).foldl slotDark s).incr pLnd O.LND_CNT_LANE_FAULT).retireLane n bad := by
  rw [laneFault, if_neg (by rw [h]; simp [hn])]
  rfl

section
variable (s : State) (pixel : Option (Nat × Nat)) {n : Nat} (bad : List Nat) (hn : n < 104)

/-- A fault of lane `n`, with the ports that wait for the pixel. -/
def faulted : State := ((s.portsHit pixel).foldl slotDark s).incr pLnd O.LND_CNT_LANE_FAULT

theorem rd_faulted_other {off : Nat} (h : off ≠ O.LND_CNT_LANE_FAULT) : (s.faulted pixel).rd pLnd off = s.rd pLnd off := by
  rw [faulted, incr, addReg, rd_wr_other _ _ (regKey_ne_of_off h), (darkened_foldl _ _).rd]

theorem rd_faulted_count :
    (s.faulted pixel).rd pLnd O.LND_CNT_LANE_FAULT = (s.rd pLnd O.LND_CNT_LANE_FAULT + 1) % 2 ^ 32 := by
  rw [faulted, incr, addReg, rd_wr_same, (darkened_foldl _ _).rd]
  rfl

/-- Where a fault is recorded, the counts of lanes stay. -/
theorem fld_lanes_faulted_errCapture (lo k : Nat) : ((s.faulted pixel).errCapture pLnd 0x0100 n 0).fld pLnd O.LND_LANES lo k
    = s.fld pLnd O.LND_LANES lo k := by
  rw [fld, rd_lanes_errCapture, rd_faulted_other _ _ (by decide), ← fld]

theorem lanes_retire_spare (h : s.fld pLnd O.LND_LANES 16 4 ≠ 0) :
    ((s.faulted pixel).retireLane n []).fld pLnd O.LND_LANES 16 4 = s.fld pLnd O.LND_LANES 16 4 - 1
      ∧ ((s.faulted pixel).retireLane n []).lanes = s.lanes := by
  have counts := fld_lanes_faulted_errCapture s pixel (n := n)
  obtain ⟨spares, lanes⟩ := lanes_laneOut_spare ((s.faulted pixel).errCapture pLnd 0x0100 n 0) n 1 0x0100
    (by rwa [counts])
  refine ⟨?_, ?_⟩
  · rw [fld_lanes_retireLane, spares, counts]
  · exact (fld_lanes_retireLane _ n 0 7).trans (lanes.trans (counts 0 7))

theorem lanes_retire_none (h : s.fld pLnd O.LND_LANES 16 4 = 0) :
    ((s.faulted pixel).retireLane n []).lanes = s.lanes - 1 := by
  have counts := fld_lanes_faulted_errCapture s pixel (n := n)
  have lanes := lanes_laneOut_none ((s.faulted pixel).errCapture pLnd 0x0100 n 0) n 1 0x0100 (by rwa [counts])
  exact (fld_lanes_retireLane _ n 0 7).trans (lanes.trans (congrArg (· - 1) (counts 0 7)))

include hn

theorem count_retired : ((s.faulted pixel).retireLane n bad).rd pLnd O.LND_CNT_LANE_FAULT
    = (s.rd pLnd O.LND_CNT_LANE_FAULT + 1) % 2 ^ 32 :=
  ((Retiring.retireLane _ bad hn).high _ (by decide) (by decide)).trans (rd_faulted_count s pixel)

theorem jport_retired (p : Nat) : ((s.faulted pixel).retireLane n bad).jport p
    = ((s.portsHit pixel).foldl slotDark s).jport p := by
  rw [jport, (Retiring.retireLane _ bad hn).rest.jports]
  rfl

theorem mems_retired : ((s.faulted pixel).retireLane n bad).mems = s.mems :=
  (Retiring.retireLane _ bad hn).rest.mems.trans (darkened_foldl _ _).mems

end

/-! ## The end of a flash hold -/

theorem frozen_flashHoldEnd (s : State) {k : Nat} (hk : k < 32) : (s.flashHoldEnd k).frozen k = false :=
  bit_setBit_same _ _ _ _ _ hk

theorem wfeed_flashHoldEnd (s : State) (k : Nat) : (s.flashHoldEnd k).wfeed k
    = { s.wfeed k with lum := [], red := [], rt := (s.wfeed k).rt.map fun r => { r with froz := none } } :=
  sget_sset_same ..

theorem wfeed_flashHoldEnd_other (s : State) {k i : Nat} (h : i ≠ k) : (s.flashHoldEnd k).wfeed i = s.wfeed i :=
  sget_sset_other _ _ _ h

theorem mem_portsHit (s : State) (q : Option (BitVec 16 × BitVec 16)) (p : Nat) :
    p ∈ s.portsHit (q.map fun q => (q.1.toNat, q.2.toNat))
      ↔ p < 64 ∧ ∃ x y, q = some (x, y) ∧ s.waitsFor x.toNat y.toNat p = true := by
  rw [portsHit, List.mem_filter, List.mem_range]
  refine and_congr_right fun _ => ?_
  cases q with
  | none => simp
  | some q => exact ⟨fun h => ⟨q.1, q.2, rfl, h⟩, fun ⟨x, y, hq, h⟩ => by cases hq; exact h⟩

end State

/-- A lane in service that faults: the ports that wait for the pixel, the count, and the lane's retirement. -/
theorem exec_laneFault {s : State} {n : Fin 104} (q : Option (BitVec 16 × BitVec 16)) (bad : List Nat)
    (ha : s.alive .lnd = true) (run : s.running pLnd = true) (h : s.laneIn n = true) : exec (.laneFault ⟨n, q⟩ bad) s
      = act .lnd (fun s => (s.faulted (q.map fun q => (q.1.toNat, q.2.toNat))).retireLane n bad) s := by
  have fault := State.laneFault_of_laneIn n.isLt h (q.map fun q => (q.1.toNat, q.2.toNat)) bad
  change doing s (if s.alive .lnd then
    when (s.running pLnd) (·.laneFault n (q.map fun q => (q.1.toNat, q.2.toNat)) bad) s else _) = _
  rw [act, if_pos ha, if_pos ha, when, if_pos run, fault]
  rfl

/-- Settles O34, clause by clause: the slot's position, the late ports' counter, the pulse, the lane, the hold. -/
theorem slotsStartEndAndFault : Obligations.SlotsStartEndAndFault := by
  unfold Obligations.SlotsStartEndAndFault
  refine ⟨fun s ha => ?_, fun l s ha => ?_, fun k f n s ha => ?_, fun n q bad s ha run inServ => ?_, fun k s ha fr => ?_⟩
  · refine act_next (f := (·.slotStart)) ha fun u hu => ⟨fun h => ?_, fun on run slot hn applied => ?_⟩
    · have : u = s := hu.trans (if_pos (by simpa using h))
      rw [this]
    · have pos := State.slotPos_slotStart on run slot hn applied
      rw [← hu] at pos
      simp only [State.slotPos, Prod.mk.injEq] at pos
      exact pos
  · change ∃ t, act .lnd (·.slotEnd (l.map (·.val))) s = .next t ∧ _
    refine act_next ha fun u hu => ?_
    have slot : u.lnd.slot = none := by rw [hu]; exact State.slot_slotEnd ..
    have next : u.lnd.next = s.lnd.next := by rw [hu]; exact State.next_slotEnd ..
    have mems : memSame s u := State.memSame_of_mems (by rw [hu]; exact State.mems_slotEnd ..)
    refine ⟨slot, next, mems, fun h => ?_, fun k hk h9 hw => ?_⟩
    · rw [hu, State.slotEnd_of_none h]
    · have reg : ∀ off, off ≠ O.LND_CNT_MISSED_CAPTURE → u.rd pLnd off = (s.portsLate k).rd pLnd off :=
        fun off ho => by rw [hu]; exact State.rd_slotEnd _ hk ho
      obtain ⟨count, cause⟩ := State.portsLate_counts h9 hw
      rw [State.bit, ← reg _ (by decide)] at cause
      rw [← reg _ (by simp only [O.LND_UNDERRUN, O.LND_CNT_MISSED_CAPTURE]; omega)] at count
      exact ⟨count, cause⟩
  · refine act_next (f := fun s => s.camEdge k f.toNat n) ha fun u hu => ⟨fun stop h => ?_, fun h he => ?_⟩
    · obtain ⟨tim, trail⟩ := State.camTrail_reachTime s k stop
      rw [State.camEdge_active h, trail] at hu
      have cam : sget (fun _ => none) u.lnd.cam k.val = none := by
        rw [hu]
        exact sget_sset_same (fun _ => none) s.lnd.cam k.val none
      have out : u.out = .camSync k (s.camLevel k false) :: s.out := by rw [hu]
      have rest : u = { s with tim := u.tim, lnd := u.lnd, out := u.out } := by rw [hu]
      exact ⟨cam, out, congrArg (fun u => { u with pending := s.pending }) rest⟩
    · rw [hu, State.camEdge_disabled h he]
  · rw [exec_laneFault q bad ha run inServ]
    refine act_next ha fun u hu => ?_
    have hit := State.mem_portsHit s q
    generalize (q.map fun q => (q.1.toNat, q.2.toNat)) = pixel at hu hit
    have gone : u.bit pLnd (O.LND_LANE_RETIRED + 4 * (n / 32)) (n % 32) = true := by
      rw [hu]; exact State.bit_retired_retireLane _ bad n.isLt
    have count : u.rd pLnd O.LND_CNT_LANE_FAULT = (s.rd pLnd O.LND_CNT_LANE_FAULT + 1) % 2 ^ 32 := by
      rw [hu]; exact State.count_retired s pixel bad n.isLt
    have ports : ∀ p, u.jport p = ((s.portsHit pixel).foldl State.slotDark s).jport p := by
      rw [hu]; exact State.jport_retired s pixel bad n.isLt
    have mems : memSame s u := State.memSame_of_mems (by rw [hu]; exact State.mems_retired s pixel bad n.isLt)
    refine ⟨gone, count, fun p hp hw => ?_, fun p hp hw => ?_, fun hb h => ?_, fun hb h => ?_, mems⟩
    · exact (congrArg JPort.pix (ports p)).trans (State.pix_darkened s _ (.inl ((hit p).mpr ⟨hp, hw⟩)))
    · refine (ports p).trans (State.jport_darkened_other s fun h => ?_)
      obtain ⟨-, x, y, hq, hw'⟩ := (hit p).mp h
      exact Bool.false_ne_true ((hw x y hq).symm.trans hw')
    · have lanes := State.lanes_retire_spare s pixel (n := n) h
      rw [← hb, ← hu] at lanes
      exact lanes
    · have lanes := State.lanes_retire_none s pixel (n := n) h
      rw [← hb, ← hu] at lanes
      exact lanes
  · refine act_next (f := fun s => when (s.frozen k) (·.flashHoldEnd k) s) ha fun u hu => ?_
    rw [when, if_pos fr] at hu
    have thawed : u.frozen k = false := by rw [hu]; exact State.frozen_flashHoldEnd s (by omega)
    have feed := State.wfeed_flashHoldEnd s k
    have others : ∀ i, i ≠ k.val → u.wfeed i = s.wfeed i := by
      rw [hu]; exact fun i hi => State.wfeed_flashHoldEnd_other s hi
    have rest : u = { s with regs := u.regs, lnd := u.lnd } := by rw [hu]; rfl
    have mems : memSame s u := State.memSame_of_mems (by rw [hu]; rfl)
    rw [← hu] at feed
    exact ⟨thawed, congrArg Feed.lum feed, congrArg Feed.red feed, others,
      congrArg (fun u => { u with pending := s.pending }) rest, mems⟩

end Sys2Proof.Machine
end

section
/-! PROOFS. What the checks of a mode read, what a mode that comes into force writes, and what a feed without a scene
for the epoch keeps. -/
namespace Sys2Proof.Machine
namespace State

/-! ## Changes of the Landing alone -/

/-- `t` is `s` but for the Landing's state and, of the registers, those of its page at `offs`. -/
structure LndOnly (offs : List Nat) (s t : State) : Prop where
  rest : t = { s with regs := t.regs, lnd := t.lnd }
  regs : ∀ p off, off < 0x10000 → (p = pLnd → off ∉ offs) → t.rd p off = s.rd p off

namespace LndOnly

theorem refl (offs : List Nat) (s : State) : LndOnly offs s s := ⟨rfl, fun _ _ _ _ => rfl⟩

theorem trans {offs : List Nat} {s t u : State} (h : LndOnly offs s t) (k : LndOnly offs t u) : LndOnly offs s u := by
  refine ⟨?_, fun p off ho hp => (k.regs p off ho hp).trans (h.regs p off ho hp)⟩
  have e := k.rest
  rw [h.rest] at e
  exact e

theorem wr {offs : List Nat} (s : State) {off : Nat} (v : Nat) (hm : off ∈ offs) (ho : off < 0x10000) :
    LndOnly offs s (s.wr pLnd off v) := by
  refine ⟨rfl, fun p o ho' hp => rd_wr_other s v ?_⟩
  rw [Ne, regKey_eq_iff ho' ho]
  rintro ⟨rfl, rfl⟩
  exact hp rfl hm

theorem setLnd (offs : List Nat) (s : State) (l : Lnd) : LndOnly offs s { s with lnd := l } := ⟨rfl, fun _ _ _ _ => rfl⟩

section
variable {offs : List Nat} {s t : State} (h : LndOnly offs s t)
include h

theorem tim : t.tim = s.tim := (congrArg State.tim h.rest).trans rfl
theorem sq : t.sq = s.sq := (congrArg State.sq h.rest).trans rfl
theorem mems : t.mems = s.mems := (congrArg State.mems h.rest).trans rfl
theorem ctx (c : Nat) : t.ctx c = s.ctx c := (congrArg (·.ctx c) h.rest).trans rfl
theorem findJob (r : JobRef) : t.findJob r = s.findJob r := (congrArg (·.findJob r) h.rest).trans rfl
theorem jobOpen (r : JobRef) : t.jobOpen r = s.jobOpen r := (congrArg (·.jobOpen r) h.rest).trans rfl
theorem tilesIn (k0 k1 : Nat) : t.tilesIn k0 k1 = s.tilesIn k0 k1 := (congrArg (·.tilesIn k0 k1) h.rest).trans rfl
theorem activeCopy (p i : Nat) : t.activeCopy p i = s.activeCopy p i := (congrArg (·.activeCopy p i) h.rest).trans rfl
theorem frateNum : t.frateNum = s.frateNum := (congrArg State.frateNum h.rest).trans rfl
theorem frateDen : t.frateDen = s.frateDen := (congrArg State.frateDen h.rest).trans rfl
theorem nowFx : t.nowFx = s.nowFx := (congrArg State.nowFx h.rest).trans rfl
theorem periodFx : t.periodFx = s.periodFx := (congrArg State.periodFx h.rest).trans rfl

theorem rd_page {p off : Nat} (ho : off < 0x10000) (hp : p ≠ pLnd) : t.rd p off = s.rd p off :=
  h.regs p off ho fun e => absurd e hp

theorem gridAfter (x : Int) : t.gridAfter x = s.gridAfter x := by
  have ofs : t.rd pTim O.TIM_FRAME_OFS = s.rd pTim O.TIM_FRAME_OFS := h.rd_page (by decide) (by decide)
  have at_ : ∀ n d k, t.gridAt n d k = s.gridAt n d k := fun n d k => by rw [gridAt, gridAt, ofs]
  have first : ∀ n d k, t.gridFirst n d k = s.gridFirst n d k := fun n d k => by
    simp only [gridFirst, ofs, at_]
  simp only [State.gridAfter, h.tim, first, h.frateNum, h.frateDen, h.periodFx]

theorem nextBoundary : t.nextBoundary = s.nextBoundary := by
  simp only [State.nextBoundary, h.tim, h.gridAfter, h.periodFx]

theorem leadOk (e n : Nat) : t.leadOk e n = s.leadOk e n := by
  rw [State.leadOk, State.leadOk, epochAhead, epochAhead, h.tim, h.nowFx, h.nextBoundary, h.periodFx]

theorem engines : t.engines = s.engines := by
  rw [State.engines, State.engines, fld, fld, h.rd_page (by decide) (by decide)]

theorem portRate {p : Nat} (hp : p < 64) : t.portRate p = s.portRate p := by
  have page : pJlk + p ≠ pLnd := by simp only [pJlk, pLnd]; omega
  rw [State.portRate, State.portRate, lstate, lstate, fld, fld, fld, fld, fld, fld,
    h.rd_page (p := pJlk + p) (off := O.JLK_PORT_STAT) (by decide) page,
    h.rd_page (p := pJlk + p) (off := O.JLK_PORT_CTL) (by decide) page]

/-- Whether a mode keeps the limits: the same where the loads that wait are the same and the lanes stand. -/
theorem modeFits (hl : t.lnd.loads = s.lnd.loads) (ho : O.LND_LANES ∉ offs) (m : ModeNext) :
    t.modeFits m = s.modeFits m := by
  have copy : ∀ i e, t.copyAt i e = s.copyAt i e := fun i e => by
    simp only [copyAt, hl, h.activeCopy, h.jobOpen]
  have lanes : t.lanes = s.lanes := by
    rw [State.lanes, State.lanes, fld, fld, h.regs _ _ (by decide) fun _ => ho]
  have ports : ∀ (l : List TileCfg) (r : SlotRate), ((List.range 64).all fun p => portFits l p (t.portRate p) r)
      = (List.range 64).all fun p => portFits l p (s.portRate p) r := fun l r => by
    rw [Bool.eq_iff_iff, List.all_eq_true, List.all_eq_true]
    exact forall₂_congr fun p hp => by rw [h.portRate (List.mem_range.mp hp)]
  simp only [State.modeFits, ratesFit, devLimit, copy, lanes, ports, h.tilesIn]

end
end LndOnly

/-! ## A mode is armed (R193) -/

/-- The reasons of Table 8.1 are numbered up to 6. -/
theorem armReason_lt {s : State} {m : ModeNext} {r : Nat} (h : s.armReason m = some r) : r < 7 := by
  unfold armReason modeReason at h
  split at h
  · rename_i q hq
    cases h
    split_ifs at hq <;> cases hq <;> decide
  · split_ifs at h <;> cases h <;> decide

/-- What a write of MODE_LATE, or another register that no check reads, leaves of the reasons. -/
theorem armReason_of_lndOnly {offs : List Nat} {s t : State} (h : LndOnly offs s t) (hl : t.lnd = s.lnd)
    (ho : O.LND_LANES ∉ offs) (m : ModeNext) : t.armReason m = s.armReason m := by
  simp only [armReason, modeReason, h.modeFits (congrArg Lnd.loads hl) ho, h.leadOk, h.engines, hl]

/-- MODE_LATE reads 0 from here on. -/
theorem lndOnly_clearLate (s : State) :
    LndOnly [O.LND_MODE_LATE_LO, O.LND_MODE_LATE_HI] s (s.wr64 pLnd O.LND_MODE_LATE_LO 0) :=
  (LndOnly.wr s _ (by decide) (by decide)).trans (LndOnly.wr _ _ (by decide) (by decide))

theorem nextMode_of_lndOnly {offs : List Nat} {s t : State} (h : LndOnly offs s t)
    (ho : ∀ o ∈ offs, o < O.LND_MN_CFG ∨ O.LND_MN_EPOCH < o) : t.nextMode = s.nextMode := by
  have mn : ∀ off, O.LND_MN_CFG ≤ off → off ≤ O.LND_MN_EPOCH → t.rd pLnd off = s.rd pLnd off := fun off h1 h2 =>
    h.regs _ _ (h2.trans_lt (by decide)) fun _ hm => by
      have := ho off hm
      omega
  simp only [nextMode, mn _ (show O.LND_MN_CFG ≤ O.LND_MN_CFG by decide) (by decide),
    mn _ (show O.LND_MN_CFG ≤ O.LND_MN_FRATE_NUM by decide) (by decide),
    mn _ (show O.LND_MN_CFG ≤ O.LND_MN_FRATE_DEN by decide) (by decide),
    mn _ (show O.LND_MN_CFG ≤ O.LND_MN_COLOUR by decide) (by decide),
    mn _ (show O.LND_MN_CFG ≤ O.LND_MN_EPOCH by decide) (by decide)]

/-- The reasons that an arm has, which clears MODE_LATE before. -/
theorem armReason_clearLate (s : State) : (s.wr64 pLnd O.LND_MODE_LATE_LO 0).armReason
    (s.wr64 pLnd O.LND_MODE_LATE_LO 0).nextMode = s.armReason s.nextMode := by
  have late := lndOnly_clearLate s
  rw [nextMode_of_lndOnly late (by decide), armReason_of_lndOnly late rfl (by decide)]

theorem modeArm_of_reason {s : State} {r : Nat} (h : s.armReason s.nextMode = some r) : s.modeArm
    = ((s.wr64 pLnd O.LND_MODE_LATE_LO 0).wr pLnd O.LND_MODE_STAT (4 * 2 ^ 28 + r)).setCause pLnd 0x80 := by
  rw [← armReason_clearLate] at h
  simp only [modeArm, h]

theorem modeArm_of_sound {s : State} (h : s.armReason s.nextMode = none) : s.modeArm
    = (s.wr64 pLnd O.LND_MODE_LATE_LO 0).armMode s.nextMode := by
  rw [← armReason_clearLate] at h
  simp only [modeArm, h]
  rw [nextMode_of_lndOnly (lndOnly_clearLate s) (by decide)]

/-! ## A mode comes into force (R196) -/

/-- FEED_COST follows, and no other register of the Landing changes. -/
theorem lndOnly_setCosts (s : State) :
    LndOnly ((List.range 8).map fun k => O.LND_FEED_COST + 4 * k) s ((List.range 8).foldl (fun s k => s.setCost k) s) := by
  have step : ∀ (l : List Nat) (s : State), (∀ k ∈ l, k < 8) →
      LndOnly ((List.range 8).map fun k => O.LND_FEED_COST + 4 * k) s (l.foldl (fun s k => s.setCost k) s) := by
    intro l
    induction l with
    | nil => exact fun s _ => .refl _ s
    | cons k l ih =>
      intro s hl
      have hk : k < 8 := hl k List.mem_cons_self
      refine LndOnly.trans (.wr s _ ?_ ?_) (ih _ fun i hi => hl i (List.mem_cons_of_mem _ hi))
      · exact List.mem_map.mpr ⟨k, List.mem_range.mpr hk, rfl⟩
      · simp only [O.LND_FEED_COST]; omega
  exact step _ s fun k hk => List.mem_range.mp hk

theorem lnd_setCosts (s : State) : ((List.range 8).foldl (fun s k => s.setCost k) s).lnd = s.lnd :=
  foldl_keeps State.lnd _ _ _ fun _ _ _ => rfl

theorem mems_cruiseMode (s : State) : s.cruiseMode.mems = s.mems := by
  unfold cruiseMode
  exact ite_keeps mems (mems_wr ..) rfl

theorem lnd_cruiseMode (s : State) : s.cruiseMode.lnd = s.lnd := by
  unfold cruiseMode
  exact ite_keeps State.lnd (wr_lnd ..) rfl

theorem rd_lnd_cruiseMode (s : State) {off : Nat} (ho : off < 0x10000) : s.cruiseMode.rd pLnd off = s.rd pLnd off := by
  unfold cruiseMode
  exact ite_keeps (fun t : State => t.rd pLnd off) (rd_wr_other s _ (regKey_ne_of_page ho (by decide) (by decide))) rfl

/-- The registers of the mode in force take those of a mode. -/
def wrMode (s : State) (m : ModeNext) : State :=
  (((s.wr pLnd O.LND_MODE_CUR m.cfg).wr pLnd O.LND_COLOUR_CUR m.colour).wr pLnd O.LND_FRATE_NUM_CUR m.num).wr pLnd
    O.LND_FRATE_DEN_CUR m.den

/-- After those registers, only FEED_COST and Cruise follow. -/
theorem rd_lnd_loadMode (s : State) (m : ModeNext) {off : Nat} (ho : off < 0x10000)
    (hc : off < O.LND_FEED_COST ∨ O.LND_FEED_COST + 32 ≤ off) : (s.loadMode m).rd pLnd off = (s.wrMode m).rd pLnd off := by
  refine (rd_lnd_cruiseMode _ ho).trans (((lndOnly_setCosts _).regs _ _ ho fun _ hm => ?_).trans rfl)
  obtain ⟨k, hk, rfl⟩ := List.mem_map.mp hm
  have := List.mem_range.mp hk
  omega

theorem lnd_loadMode (s : State) (m : ModeNext) : (s.loadMode m).lnd = { s.lnd with modeId := s.nextModeId } :=
  (lnd_cruiseMode _).trans ((lnd_setCosts _).trans rfl)

theorem mems_loadMode (s : State) (m : ModeNext) : (s.loadMode m).mems = s.mems :=
  (mems_cruiseMode _).trans ((lndOnly_setCosts _).mems.trans rfl)

/-- A new rate concerns stand time and the contexts. -/
theorem newRate_keeps {γ : Type} (v : State → γ) (s : State) (htim : ∀ t : Tim, v { s with tim := t } = v s)
    (hctx : ∀ (t : State) c f, v (t.modCtx c f) = v t) : v s.newRate = v s := by
  unfold newRate
  simp only
  rw [foldl_keeps v _ _ _ fun t c _ => ite_keeps v (hctx t c _) rfl]
  exact htim _

/-- A mode in force, with the rate anew if F changes. -/
def modeLoaded (s : State) (m : ModeNext) : State :=
  let t := { s with lnd := { s.lnd with armed := none, ann := some m } }.loadMode m
  if s.rateChanges m then t.newRate else t

theorem modeApply_of_due {s : State} {m : ModeNext} (ha : s.lnd.armed = some m) (he : m.epoch = s.tim.wframe % 2 ^ 32)
    (hf : m.stand = true ∨ s.modeFits m = true) : s.modeApply
      = { s.modeLoaded m with lnd := { (s.modeLoaded m).lnd with passing := some 3 } } := by
  have fits : ({ s with lnd := { s.lnd with armed := none } } : State).modeFits m = s.modeFits m :=
    (LndOnly.setLnd [] s _).modeFits rfl (by decide) m
  unfold modeApply
  simp only [ha]
  rw [if_neg (not_not.mpr he), fits, if_neg (by rcases hf with h | h <;> simp [h])]
  rfl

theorem modeApply_of_unfit {s : State} {m : ModeNext} (ha : s.lnd.armed = some m) (he : m.epoch = s.tim.wframe % 2 ^ 32)
    (hs : m.stand = false) (hf : s.modeFits m = false) : s.modeApply
      = (({ s with lnd := { s.lnd with armed := none } } : State).wr pLnd O.LND_MODE_STAT (4 * 2 ^ 28 + 3)).setCause pLnd
        0x80 := by
  have fits : ({ s with lnd := { s.lnd with armed := none } } : State).modeFits m = s.modeFits m :=
    (LndOnly.setLnd [] s _).modeFits rfl (by decide) m
  unfold modeApply
  simp only [ha]
  rw [if_neg (not_not.mpr he), fits, if_pos (by simp [hs, hf])]

theorem modeApply_of_unarmed {s : State} (h : s.lnd.armed = none) : s.modeApply = s := by
  rw [modeApply, h]

section
variable (s : State) (m : ModeNext)

theorem rd_lnd_modeLoaded {off : Nat} (ho : off < 0x10000) (hc : off < O.LND_FEED_COST ∨ O.LND_FEED_COST + 32 ≤ off) :
    (s.modeLoaded m).rd pLnd off = (s.wrMode m).rd pLnd off := by
  have load := rd_lnd_loadMode { s with lnd := { s.lnd with armed := none, ann := some m } } m ho hc
  exact ite_keeps (fun t : State => t.rd pLnd off)
    ((newRate_keeps (fun t : State => t.rd pLnd off) _ (fun _ => rfl) fun _ _ _ => rfl).trans load) load

theorem lnd_modeLoaded :
    (s.modeLoaded m).lnd = { s.lnd with armed := none, ann := some m, modeId := s.nextModeId } := by
  have load := lnd_loadMode { s with lnd := { s.lnd with armed := none, ann := some m } } m
  exact ite_keeps State.lnd ((newRate_keeps State.lnd _ (fun _ => rfl) fun _ _ _ => rfl).trans load) load

theorem mems_modeLoaded : (s.modeLoaded m).mems = s.mems := by
  have load := mems_loadMode { s with lnd := { s.lnd with armed := none, ann := some m } } m
  exact ite_keeps mems ((newRate_keeps mems _ (fun _ => rfl) fun _ _ _ => rfl).trans load) load

end

end State
end Sys2Proof.Machine
end

section
/-! PROOFS. What applies at an epoch: a job's outcome, a feed's scene, and the operations in their order. -/
namespace Sys2Proof.Machine

/-- A search after a replacement in place of what it looks for. -/
theorem find?_map_ite {α : Type} (p : α → Bool) (f : α → α) (hf : ∀ a, p (f a) = p a) (l : List α) :
    (l.map fun a => if p a then f a else a).find? p = (l.find? p).map f := by
  induction l with
  | nil => rfl
  | cons a l ih =>
    by_cases h : p a
    · simp [h, hf]
    · simp [h, ih]

namespace State

/-! ## Jobs -/

/-- A job is one that is started, or else one that a reset cut off. -/
theorem findJob_eq_or (s : State) (r : JobRef) :
    s.findJob r = ((s.sqOf r.q).started.find? (isJob r)).or ((s.sqOf r.q).ghosts.find? (isJob r)) := by
  unfold findJob
  simp only
  split <;> rename_i h <;> rw [h] <;> rfl

theorem sqOf_setSq_same (s : State) (q : Nat) (v : Sq) : (s.setSq q v).sqOf q = v := sget_sset_same ..

theorem findJob_setJob (s : State) (r : JobRef) (f : Job → Job) (hf : ∀ j, isJob r (f j) = isJob r j) :
    (s.setJob r f).findJob r = (s.findJob r).map f := by
  rw [findJob_eq_or, findJob_eq_or, setJob]
  by_cases h : (s.sqOf r.q).started.any (isJob r) = true
  · have here : ((s.sqOf r.q).started.find? (isJob r)).isSome := by rwa [List.isSome_find?]
    obtain ⟨j, hj⟩ := Option.isSome_iff_exists.mp here
    rw [if_pos h, sqOf_setSq_same, find?_map_ite _ _ hf, hj]
    rfl
  · have gone : (s.sqOf r.q).started.find? (isJob r) = none := by simpa using h
    rw [if_neg h, sqOf_setSq_same, gone, find?_map_ite _ _ hf]
    rfl

/-- The outcome of a job that is open is the one that its block gives it. -/
theorem jobEnded_finish {s : State} {r : JobRef} (o : JobOut) (h : s.jobOpen r = true) : (s.finish r o).jobEnded r o := by
  obtain ⟨j, hj, ho⟩ := (Option.any_eq_true ..).mp h
  rw [jobEnded, finish, findJob_setJob, hj]
  · simp only [Option.map_some, if_pos ho]
  · intro j
    split <;> rfl

theorem findJob_of_sq {s t : State} (h : t.sq = s.sq) (r : JobRef) : t.findJob r = s.findJob r := by
  simp only [findJob, sqOf, h]

/-! ## Scenes at an epoch (R201) -/

theorem wfeed_setFeed_same (s : State) (k : Nat) (f : Feed) : (s.setFeed k f).wfeed k = f := sget_sset_same ..

theorem wfeed_setFeed_other (s : State) {k i : Nat} (f : Feed) (h : i ≠ k) : (s.setFeed k f).wfeed i = s.wfeed i :=
  sget_sset_other _ _ _ h

theorem wfeed_wr (s : State) (p off v i : Nat) : (s.wr p off v).wfeed i = s.wfeed i := rfl

/-- `t` is `s` but for flags of the Landing's page: no feed's scenes change. -/
structure FeedsStay (s t : State) : Prop where
  only : LndOnly [O.LND_FLAGS] s t
  lnd : t.lnd = { s.lnd with feeds := t.lnd.feeds }
  feeds : ∀ i, t.wfeed i = s.wfeed i

theorem FeedsStay.refl (s : State) : FeedsStay s s := ⟨.refl _ s, rfl, fun _ => rfl⟩

theorem FeedsStay.trans {s t u : State} (h : FeedsStay s t) (k : FeedsStay t u) : FeedsStay s u := by
  refine ⟨h.only.trans k.only, ?_, fun i => (k.feeds i).trans (h.feeds i)⟩
  have e := k.lnd
  rw [h.lnd] at e
  exact e

theorem feedsStay_sceneFlags (s : State) (k : Nat) : FeedsStay s (s.sceneFlags k) :=
  ⟨(LndOnly.wr s _ (by decide) (by decide)).trans (LndOnly.wr _ _ (by decide) (by decide)), rfl, fun _ => rfl⟩

/-- A feed with no scene waiting keeps what it has. -/
theorem feedsStay_applyScene {s : State} {k : Nat} (h : (s.wfeed k).pend = []) : FeedsStay s (s.applyScene k) := by
  have live : s.liveScenes k = [] := by rw [liveScenes, h, List.filter_nil]
  unfold applyScene
  simp only [live, List.find?_nil]
  refine FeedsStay.trans ⟨.setLnd _ s _, rfl, fun i => ?_⟩ (feedsStay_sceneFlags _ k)
  by_cases e : i = k
  · rw [e]
    exact (wfeed_setFeed_same s k _).trans (by rw [← h])
  · exact wfeed_setFeed_other s _ e

theorem feedsStay_foldl {s : State} (l : List Nat) (h : ∀ k ∈ l, (s.wfeed k).pend = []) :
    FeedsStay s (l.foldl applyScene s) := by
  induction l generalizing s with
  | nil => exact .refl s
  | cons k l ih =>
    have stay := feedsStay_applyScene (h k List.mem_cons_self)
    exact stay.trans (ih fun i hi => by rw [stay.feeds]; exact h i (List.mem_cons_of_mem _ hi))

theorem sceneInvalid_of_lndOnly {offs : List Nat} {s t : State} (h : LndOnly offs s t) (ho : O.LND_MODE_CUR ∉ offs)
    (c : Scene) : t.sceneInvalid c = s.sceneInvalid c := by
  have feeds : t.feeds = s.feeds := by rw [feeds, feeds, fld, fld, h.regs _ _ (by decide) fun _ => ho]
  simp only [sceneInvalid, feeds, h.ctx]

/-- A sound scene of this epoch comes into force, and its job ends. -/
theorem applyScene_of_due {s : State} {k : Nat} {sc : Scene} {r : JobRef} (hp : s.liveScenes k = [(sc, r)])
    (hw : (s.wfeed k).wait = []) (he : sc.epoch = s.tim.wframe % 2 ^ 32) (hv : s.sceneInvalid sc = none) :
    ∃ f, s.applyScene k = (((s.setFeed k f).setScene k (some sc)).finish r { status := 0, result := sc.epoch }).setCause
      pLnd 1 := by
  have found : [(sc, r)].find? (fun e => decide (e.1.epoch = s.tim.wframe % 2 ^ 32)) = some (sc, r) := by
    rw [List.find?_cons_of_pos]
    exact decide_eq_true he
  have valid : ∀ f, (s.setFeed k f).sceneInvalid sc = none := fun f =>
    (sceneInvalid_of_lndOnly (LndOnly.setLnd [] s _) (by decide) sc).trans hv
  refine ⟨{ s.wfeed k with pend := [(sc, r)].filter fun e => e.2 ≠ r, wait := (s.wfeed k).wait.drop 1 }, ?_⟩
  unfold applyScene
  simp only [hp, found, hw, valid]
  rfl

section
variable (s : State) (k : Nat) (sc : Scene)

theorem cur_setScene : ((s.setScene k (some sc)).wfeed k).cur = some sc := by
  unfold setScene
  simp only
  rw [(feedsStay_sceneFlags _ k).feeds, setCost, wr64, wfeed_wr, wfeed_wr, wfeed_wr, wfeed_wr, wfeed_setFeed_same]

theorem rd_epoch_setScene {k : Nat} (hk : k < 8) : (s.setScene k (some sc)).rd pLnd (O.LND_SCENE_EPOCH + 4 * k)
    = sc.epoch % 2 ^ 32 := by
  have ho : O.LND_SCENE_EPOCH + 4 * k < 0x10000 := by simp only [O.LND_SCENE_EPOCH]; omega
  unfold setScene
  simp only
  rw [(feedsStay_sceneFlags _ k).only.regs _ _ ho, setCost, wr64, rd_wr_other _ _ (regKey_ne_of_off ?_),
    rd_wr_other _ _ (regKey_ne_of_off ?_), rd_wr_other _ _ (regKey_ne_of_off ?_), rd_wr_same]
  · rfl
  all_goals simp [O.LND_SCENE_EPOCH, O.LND_SCENE_TAG, O.LND_FEED_COST, O.LND_FLAGS]
  all_goals omega

theorem sq_setScene (c : Option Scene) : (s.setScene k c).sq = s.sq := rfl
theorem mems_setScene (c : Option Scene) : (s.setScene k c).mems = s.mems := rfl
theorem mems_finish (r : JobRef) (o : JobOut) : (s.finish r o).mems = s.mems := by
  unfold finish setJob
  exact ite_keeps mems rfl rfl
theorem lnd_finish (r : JobRef) (o : JobOut) : (s.finish r o).lnd = s.lnd := by
  unfold finish setJob
  exact ite_keeps State.lnd rfl rfl
theorem regs_finish (r : JobRef) (o : JobOut) : (s.finish r o).regs = s.regs := by
  unfold finish setJob
  exact ite_keeps State.regs rfl rfl

end

/-! ## The operations of an epoch (R22) -/

theorem tableSwaps_of_no_loads {s : State} (h : s.lnd.loads = []) : s.tableSwaps = s := by
  unfold tableSwaps
  simp only [h, List.filter_nil, List.map_nil, List.foldl_nil, swapDue, List.isEmpty_nil, if_true]
  rw [← h]

/-- The epoch of this wall frame has been applied. -/
def epochDone (s : State) : State := { s with lnd := { s.lnd with applied := true } }

/-- With no operation of the stand and no load of a table waiting, an epoch brings a mode and scenes. -/
theorem epochApply_of_local {s : State} (ha : s.lnd.applied = false) (hp : s.stand.pend = none)
    (hl : s.modeApply.lnd.loads = []) : s.epochApply = ((List.range 8).foldl applyScene s.modeApply).epochDone := by
  rw [epochApply, if_neg (by simp [ha]), hp]
  simp only [Option.filter_none, Option.any_none, Option.isSome_none, Bool.false_eq_true, if_false,
    tableSwaps_of_no_loads hl]
  rfl

theorem applied_epochApply (s : State) : s.epochApply.lnd.applied = true := by
  cases h : s.lnd.applied with
  | true => rw [epochApply_of_applied h, h]
  | false =>
    rw [epochApply, if_neg (by simp [h])]

end State
end Sys2Proof.Machine
end

section
/-! PROOFS. O33: the mode armed, cancelled and applied, a scene at its epoch, and a member's resynchronisation. -/
namespace Sys2Proof.Machine
namespace State

/-! ## Arming (R193) -/

theorem rd_armMode (s : State) (m : ModeNext) (p off : Nat) :
    (s.armMode m).rd p off = (s.wr pLnd O.LND_MODE_STAT (2 * 2 ^ 28)).rd p off := rfl

/-- An arm writes MODE_LATE and MODE_STAT, and a refusal requests an interrupt: MODE_LATE reads 0. -/
theorem late_modeArm (s : State) : s.modeArm.rd64 pLnd O.LND_MODE_LATE_LO = 0 := by
  have late : ∀ v, ((s.wr64 pLnd O.LND_MODE_LATE_LO 0).wr pLnd O.LND_MODE_STAT v).rd64 pLnd O.LND_MODE_LATE_LO = 0 :=
    fun v => by
      rw [rd64, rd_wr_other _ _ (by decide), rd_wr_other _ _ (by decide), wr64, rd_wr_same,
        rd_wr_other _ _ (by decide), rd_wr_same]
      rfl
  cases h : s.armReason s.nextMode with
  | some r =>
    rw [modeArm_of_reason h, rd64, rd_lnd_setCause _ _ _ (by decide) (.inr (by decide)),
      rd_lnd_setCause _ _ _ (by decide) (.inr (by decide))]
    exact late _
  | none =>
    rw [modeArm_of_sound h, rd64, rd_armMode, rd_armMode]
    exact late _

theorem modeArm_rest (s : State) : s.modeArm = { sigRest s s.modeArm with lnd := s.modeArm.lnd } := by
  cases h : s.armReason s.nextMode with
  | some r =>
    rw [modeArm_of_reason h]
    generalize hu : (s.wr64 pLnd O.LND_MODE_LATE_LO 0).wr pLnd O.LND_MODE_STAT (4 * 2 ^ 28 + r) = u
    have rest : u = { s with regs := u.regs } := by rw [← hu]; rfl
    have cause := setCause_rest u pLnd 0x80
    rw [setCause_lnd]
    generalize u.setCause pLnd 0x80 = w at cause ⊢
    rw [cause, rest]
    rfl
  | none =>
    rw [modeArm_of_sound h]
    rfl

theorem mems_modeArm (s : State) : s.modeArm.mems = s.mems := (congrArg mems (modeArm_rest s)).trans rfl

theorem modeArm_refused {s : State} {r : Nat} (h : s.armReason s.nextMode = some r) :
    s.modeArm.rd pLnd O.LND_MODE_STAT = 4 * 2 ^ 28 + r ∧ s.modeArm.bit pLnd O.INT_CAUSE 7 = true
      ∧ s.modeArm.lnd = s.lnd := by
  have lt := armReason_lt h
  rw [modeArm_of_reason h]
  refine ⟨?_, ?_, ?_⟩
  · rw [rd_lnd_setCause _ _ _ (by decide) (.inr (by decide)), rd_wr_same]
    omega
  · rw [bit_setCause _ _ (by decide) (by decide)]
    exact Bool.or_true _
  · rw [setCause_lnd]
    rfl

theorem modeArm_armed {s : State} (h : s.armReason s.nextMode = none) :
    s.modeArm.rd pLnd O.LND_MODE_STAT = 2 * 2 ^ 28 ∧ s.modeArm.lnd.armed = some s.nextMode := by
  rw [modeArm_of_sound h]
  exact ⟨(rd_armMode ..).trans (rd_wr_same ..), rfl⟩

/-! ## Cancelling (R194) -/

theorem modeCancel_of_cancelled {s : State} {m : ModeNext} (ha : s.lnd.armed = some m) (hs : m.stand = false)
    (hl : s.leadOk m.epoch 2 = true) : s.modeCancel
      = { s.wr pLnd O.LND_MODE_STAT (5 * 2 ^ 28) with lnd := { s.lnd with armed := none } } := by
  simp only [modeCancel, ha]
  rw [if_pos (by simp [hs, hl])]

theorem modeCancel_of_kept {s : State} {m : ModeNext} (ha : s.lnd.armed = some m)
    (h : m.stand = true ∨ s.leadOk m.epoch 2 = false) : s.modeCancel = s := by
  simp only [modeCancel, ha]
  rw [if_neg (by rcases h with h | h <;> simp [h])]

/-! ## Applying (R22, R196) -/

section
variable {s : State} {m : ModeNext} (ha : s.lnd.armed = some m) (he : m.epoch = s.tim.wframe % 2 ^ 32)
include ha he

/-- A mode whose epoch has come is armed no more, and what waits for the epoch beside it stays. -/
theorem modeApply_keeps : s.modeApply.lnd.armed = none ∧ s.modeApply.lnd.loads = s.lnd.loads
    ∧ (∀ i, s.modeApply.wfeed i = s.wfeed i) ∧ s.modeApply.mems = s.mems := by
  by_cases hf : m.stand = true ∨ s.modeFits m = true
  · have lnd := lnd_modeLoaded s m
    have mems := mems_modeLoaded s m
    rw [modeApply_of_due ha he hf]
    generalize s.modeLoaded m = u at lnd mems ⊢
    simp only [wfeed, lnd]
    exact ⟨trivial, trivial, fun _ => trivial, mems⟩
  · simp only [not_or, Bool.not_eq_true] at hf
    rw [modeApply_of_unfit ha he hf.1 hf.2, setCause_mems]
    simp only [wfeed, setCause_lnd]
    exact ⟨rfl, rfl, fun _ => rfl, rfl⟩

/-- A mode that comes into force: its registers and identifier, with MODE_STAT as it was. -/
theorem modeApply_applied (hf : m.stand = true ∨ s.modeFits m = true) :
    s.modeApply.rd pLnd O.LND_MODE_CUR = m.cfg % 2 ^ 32 ∧ s.modeApply.rd pLnd O.LND_FRATE_NUM_CUR = m.num % 2 ^ 32
      ∧ s.modeApply.rd pLnd O.LND_FRATE_DEN_CUR = m.den % 2 ^ 32
      ∧ s.modeApply.rd pLnd O.LND_COLOUR_CUR = m.colour % 2 ^ 32 ∧ s.modeApply.lnd.modeId = s.nextModeId
      ∧ s.modeApply.rd pLnd O.LND_MODE_STAT = s.rd pLnd O.LND_MODE_STAT ∧ s.modeApply.lnd.passing = some 3 := by
  have reg : ∀ off, off < O.LND_FEED_COST → s.modeApply.rd pLnd off = (s.wrMode m).rd pLnd off := fun off ho => by
    rw [modeApply_of_due ha he hf]
    exact rd_lnd_modeLoaded s m (ho.trans (by decide)) (.inl ho)
  rw [reg _ (by decide), reg _ (by decide), reg _ (by decide), reg _ (by decide), reg _ (by decide),
    modeApply_of_due ha he hf]
  refine ⟨?_, ?_, ?_, ?_, congrArg Lnd.modeId (lnd_modeLoaded s m), ?_, rfl⟩
  · rw [wrMode, rd_wr_other _ _ (by decide), rd_wr_other _ _ (by decide), rd_wr_other _ _ (by decide), rd_wr_same]
    rfl
  · rw [wrMode, rd_wr_other _ _ (by decide), rd_wr_same]
    rfl
  · rw [wrMode, rd_wr_same]
    rfl
  · rw [wrMode, rd_wr_other _ _ (by decide), rd_wr_other _ _ (by decide), rd_wr_same]
    rfl
  · rw [wrMode, rd_wr_other _ _ (by decide), rd_wr_other _ _ (by decide), rd_wr_other _ _ (by decide),
      rd_wr_other _ _ (by decide)]

/-- A local mode that no longer fits: refused with reason 3, and the mode in force stays. -/
theorem modeApply_refused (hs : m.stand = false) (hf : s.modeFits m = false) :
    s.modeApply.rd pLnd O.LND_MODE_STAT = 4 * 2 ^ 28 + 3 ∧ s.modeApply.bit pLnd O.INT_CAUSE 7 = true
      ∧ s.modeApply.rd pLnd O.LND_MODE_CUR = s.rd pLnd O.LND_MODE_CUR ∧ s.modeApply.lnd.modeId = s.lnd.modeId := by
  rw [modeApply_of_unfit ha he hs hf]
  refine ⟨?_, ?_, ?_, ?_⟩
  · rw [rd_lnd_setCause _ _ _ (by decide) (.inr (by decide)), rd_wr_same]
    rfl
  · rw [bit_setCause _ _ (by decide) (by decide)]
    exact Bool.or_true _
  · rw [rd_lnd_setCause _ _ _ (by decide) (.inr (by decide)), rd_wr_other _ _ (by decide)]
    rfl
  · rw [setCause_lnd]
    rfl

end

theorem wfeed_setScene_other (s : State) {k i : Nat} (c : Option Scene) (h : i ≠ k) :
    (s.setScene k c).wfeed i = s.wfeed i := by
  unfold setScene
  simp only
  rw [(feedsStay_sceneFlags _ k).feeds, setCost, wr64, wfeed_wr, wfeed_wr, wfeed_wr, wfeed_wr,
    wfeed_setFeed_other _ _ h]

/-- What a sound scene of the epoch does: it is in force, its job ends, and no other feed's scenes change. -/
structure SceneApplied (k : Nat) (sc : Scene) (r : JobRef) (s t : State) : Prop where
  others : ∀ i, i ≠ k → t.wfeed i = s.wfeed i
  cur : (t.wfeed k).cur = some sc
  ended : t.jobEnded r { status := 0, result := sc.epoch }
  epoch : t.rd pLnd (O.LND_SCENE_EPOCH + 4 * k) = sc.epoch % 2 ^ 32
  cause : t.bit pLnd O.INT_CAUSE 0 = true
  mems : t.mems = s.mems

theorem SceneApplied.ofStays {k : Nat} {sc : Scene} {r : JobRef} {s u w t : State} (hk : k < 8) (before : FeedsStay s u)
    (h : SceneApplied k sc r u w) (after : FeedsStay w t) : SceneApplied k sc r s t where
  others i hi := (after.feeds i).trans ((h.others i hi).trans (before.feeds i))
  cur := (congrArg Feed.cur (after.feeds k)).trans h.cur
  ended := by
    rw [jobEnded, after.only.findJob]
    exact h.ended
  epoch := by
    have ho : O.LND_SCENE_EPOCH + 4 * k < 0x10000 := by simp only [O.LND_SCENE_EPOCH]; omega
    refine (after.only.regs _ _ ho fun _ hm => ?_).trans h.epoch
    have := List.mem_singleton.mp hm
    simp only [O.LND_SCENE_EPOCH, O.LND_FLAGS] at this
    omega
  cause := by
    rw [bit, after.only.regs _ _ (by decide) fun _ => by decide]
    exact h.cause
  mems := after.only.mems.trans (h.mems.trans before.only.mems)

theorem sceneApplied_applyScene {s : State} {k : Nat} {sc : Scene} {r : JobRef} (hk : k < 8)
    (hp : (s.wfeed k).pend = [(sc, r)]) (hw : (s.wfeed k).wait = []) (ho : s.jobOpen r = true)
    (he : sc.epoch = s.tim.wframe % 2 ^ 32) (hv : s.sceneInvalid sc = none) :
    SceneApplied k sc r s (s.applyScene k) := by
  have live : s.liveScenes k = [(sc, r)] := by rw [liveScenes, hp, List.filter_singleton, ho]; rfl
  obtain ⟨f, hf⟩ := applyScene_of_due live hw he hv
  have off : O.LND_SCENE_EPOCH + 4 * k < 0x10000 := by simp only [O.LND_SCENE_EPOCH]; omega
  have cause : O.LND_SCENE_EPOCH + 4 * k ≠ O.INT_CAUSE := by simp only [O.LND_SCENE_EPOCH, O.INT_CAUSE]; omega
  rw [hf]
  constructor
  case others =>
    intro i hi
    rw [wfeed, setCause_lnd, lnd_finish, ← wfeed, wfeed_setScene_other _ _ hi, wfeed_setFeed_other _ _ hi]
  case cur => rw [wfeed, setCause_lnd, lnd_finish, ← wfeed, cur_setScene]
  case ended =>
    rw [jobEnded, findJob_of_sq (setCause_sq ..)]
    exact jobEnded_finish _ ((congrArg (Option.any _) (findJob_of_sq (sq_setScene _ k _) r)).trans ho)
  case epoch => rw [rd_lnd_setCause _ _ _ off (.inr cause), rd, regs_finish, ← rd, rd_epoch_setScene _ _ hk]
  case cause =>
    rw [bit_setCause _ _ (by decide) (by decide)]
    exact Bool.or_true _
  case mems =>
    rw [setCause_mems, mems_finish, mems_setScene]
    rfl

/-- The scenes of an epoch where only feed `k` has one, and a sound one. -/
theorem sceneApplied_foldl {s : State} {k : Nat} {sc : Scene} {r : JobRef} (hk : k < 8)
    (idle : ∀ i, i < 8 → i ≠ k → (s.wfeed i).pend = []) (hp : (s.wfeed k).pend = [(sc, r)]) (hw : (s.wfeed k).wait = [])
    (ho : s.jobOpen r = true) (he : sc.epoch = s.tim.wframe % 2 ^ 32) (hv : s.sceneInvalid sc = none) :
    SceneApplied k sc r s ((List.range 8).foldl applyScene s) := by
  obtain ⟨l₁, l₂, hl⟩ := List.append_of_mem (List.mem_range.mpr hk)
  have nodup : (k :: (l₁ ++ l₂)).Nodup := List.nodup_middle.mp (hl ▸ List.nodup_range)
  have others : ∀ i, i ∈ l₁ ++ l₂ → i < 8 ∧ i ≠ k := fun i hi => by
    refine ⟨List.mem_range.mp (hl ▸ ?_), fun e => (List.nodup_cons.mp nodup).1 (e ▸ hi)⟩
    rw [List.mem_append, List.mem_cons]
    exact (List.mem_append.mp hi).imp_right .inr
  have before : FeedsStay s (l₁.foldl applyScene s) := feedsStay_foldl l₁ fun i hi => by
    obtain ⟨h8, hn⟩ := others i (List.mem_append_left _ hi)
    exact idle i h8 hn
  rw [hl, List.foldl_append, List.foldl_cons]
  generalize l₁.foldl applyScene s = u at before ⊢
  have applied : SceneApplied k sc r u (u.applyScene k) := by
    refine sceneApplied_applyScene hk ?_ ?_ ?_ ?_ ((sceneInvalid_of_lndOnly before.only (by decide) sc).trans hv)
    · rw [before.feeds, hp]
    · rw [before.feeds, hw]
    · rw [before.only.jobOpen, ho]
    · rw [before.only.tim, he]
  refine .ofStays hk before applied (feedsStay_foldl l₂ fun i hi => ?_)
  obtain ⟨h8, hn⟩ := others i (List.mem_append_right _ hi)
  rw [applied.others i hn, before.feeds, idle i h8 hn]

/-- An epoch that brings only such a scene. -/
theorem sceneApplied_epochApply {s : State} {k : Nat} {sc : Scene} {r : JobRef} (hd : s.lnd.applied = false)
    (hm : s.lnd.armed = none) (hs : s.stand.pend = none) (hl : s.lnd.loads = []) (hk : k < 8)
    (idle : ∀ i, i < 8 → i ≠ k → (s.wfeed i).pend = []) (hp : (s.wfeed k).pend = [(sc, r)]) (hw : (s.wfeed k).wait = [])
    (ho : s.jobOpen r = true) (he : sc.epoch = s.tim.wframe % 2 ^ 32) (hv : s.sceneInvalid sc = none) :
    SceneApplied k sc r s s.epochApply := by
  have mode : s.modeApply = s := modeApply_of_unarmed hm
  have scene := sceneApplied_foldl hk idle hp hw ho he hv
  rw [epochApply_of_local hd hs (by rw [mode, hl]), mode]
  generalize (List.range 8).foldl applyScene s = w at scene ⊢
  exact ⟨scene.others, scene.cur, scene.ended, scene.epoch, scene.cause, scene.mems⟩

/-- An epoch that brings no scene: after the mode, only flags and the mark that it has been applied. -/
theorem epochApply_of_idle {s : State} (hd : s.lnd.applied = false) (hs : s.stand.pend = none)
    (hl : s.modeApply.lnd.loads = []) (hf : ∀ k, k < 8 → (s.modeApply.wfeed k).pend = []) :
    (∀ off, off < 0x10000 → off ≠ O.LND_FLAGS → s.epochApply.rd pLnd off = s.modeApply.rd pLnd off)
      ∧ (∃ f, s.epochApply.lnd = { s.modeApply.lnd with feeds := f, applied := true })
      ∧ s.epochApply.mems = s.modeApply.mems := by
  have fold := feedsStay_foldl (s := s.modeApply) (List.range 8) fun k hk => hf k (List.mem_range.mp hk)
  rw [epochApply_of_local hd hs hl]
  generalize (List.range 8).foldl applyScene s.modeApply = w at fold ⊢
  refine ⟨fun off ho hn => ?_, ⟨w.lnd.feeds, ?_⟩, fold.only.mems⟩
  · exact fold.only.regs _ _ ho fun _ hm => hn (List.mem_singleton.mp hm)
  · rw [epochDone, fold.lnd]

/-! ## The pages that restart for a mode (R196) -/

theorem blkOf_pLnd : blkOf pLnd = some .lnd := by decide

theorem pageQuiet_of_passing {s : State} {n : Nat} (h : s.lnd.passing = some n) :
    s.pageQuiet pLnd = s.modePasses false := by
  have core : coreOfPage pLnd = none := by decide
  simp only [pageQuiet, blkOf_pLnd, core, h, Option.isSome_some, and_self, if_true]

theorem pageReady_of_passing {s : State} {n : Nat} (h : s.lnd.passing = some n) :
    s.pageReady pLnd true [] = s.modePasses true := by
  simp only [pageReady, blkOf_pLnd, h, Option.isSome_some, and_self, if_true]

/-- With the restart over, the mode is APPLIED, and its cause set. -/
theorem modeSettled_of_passing {s : State} {n : Nat} (h : s.lnd.passing = some n) :
    s.modeSettled.rd pLnd O.LND_MODE_STAT = 3 * 2 ^ 28 ∧ s.modeSettled.bit pLnd O.INT_CAUSE 6 = true
      ∧ s.modeSettled.lnd = { s.lnd with passing := none }
      ∧ s.modeSettled = { sigRest s s.modeSettled with lnd := s.modeSettled.lnd } := by
  have stat : ((s.wr pLnd O.LND_MODE_STAT (3 * 2 ^ 28)).setCause pLnd 0x40).rd pLnd O.LND_MODE_STAT = 3 * 2 ^ 28 := by
    rw [rd_lnd_setCause _ _ _ (by decide) (.inr (by decide)), rd_wr_same]
    rfl
  have cause : ((s.wr pLnd O.LND_MODE_STAT (3 * 2 ^ 28)).setCause pLnd 0x40).bit pLnd O.INT_CAUSE 6 = true := by
    rw [bit_setCause _ _ (by decide) (by decide)]
    exact Bool.or_true _
  have rest := setCause_rest (s.wr pLnd O.LND_MODE_STAT (3 * 2 ^ 28)) pLnd 0x40
  simp only [modeSettled, h]
  generalize (s.wr pLnd O.LND_MODE_STAT (3 * 2 ^ 28)).setCause pLnd 0x40 = u at stat cause rest ⊢
  exact ⟨stat, cause, trivial, (congrArg (fun u => { u with lnd := { s.lnd with passing := none } }) rest).trans rfl⟩

theorem modePasses_stopping {s : State} (h : s.lnd.passing = some 3) :
    s.modePasses false = { s with lnd := { s.lnd with passing := some 0 } } := by simp only [modePasses, h]

theorem modePasses_stopped {s : State} (h : s.lnd.passing = some 0) :
    s.modePasses false = { s with lnd := { s.lnd with passing := some 1 } } := by simp only [modePasses, h]

theorem modePasses_starting {s : State} (h : s.lnd.passing = some 1) : s.modePasses true = s.modeSettled := by
  simp only [modePasses, h]

/-! ## A member's resynchronisation (R425) -/

/-- Without a reset, and in the mode in force: MISSED clears, and the sequence number is taken. -/
theorem resync_of_modeInForce {s : State} {m : StandMode} (hm : s.isMember = true) (hs : s.stdState = 2)
    (hf : s.modeInForce { standModeOf m.cfg.toNat m.num.toNat m.den.toNat m.colour.toNat 0 with
      epoch := s.tim.wframe % 2 ^ 32 } = true) (opSeq : Nat) : s.resync m false opSeq
    = ((({ s with stand := { s.stand with pend := none } } : State).setBit pStd O.STD_FLAGS 3 false).endGlob .missed).wr
      pStd O.STD_OP_SEQ opSeq := by
  exact (if_neg (by simp [hm, hs])).trans (congrArg
    (fun u : State => ((u.setBit pStd O.STD_FLAGS 3 false).endGlob .missed).wr pStd O.STD_OP_SEQ opSeq) (if_pos hf))

end State

/-- Settles O33, clause by clause: an arm, a cancel, what an epoch applies, the pages of a mode, a resynchronisation. -/
theorem modesAreArmedCancelledAndApplied : Obligations.ModesAreArmedCancelledAndApplied := by
  unfold Obligations.ModesAreArmedCancelledAndApplied
  refine ⟨fun s ha hb => ?_, fun m s ha hb hm => ?_, fun s ha => ?_, fun m s ha hd hm he hp hl hf => ?_,
    fun p n s ha hp hn => ?_, fun k sc r s ha hd hm hp hl hk idle hf hw ho he hv => ?_, fun m op s ha hm hs hf => ?_⟩
  · change ∃ t, act .lnd (fun s => s.pwWrite pLnd (·.modeArm)) s = .next t ∧ _
    refine act_next ha fun u hu => ?_
    rw [State.pwWrite, hb] at hu
    have hu : u = s.modeArm := hu
    have late := State.late_modeArm s
    have rest := State.modeArm_rest s
    have mems := State.mems_modeArm s
    have refused : ∀ r, s.armReason s.nextMode = some r → _ := fun r h => State.modeArm_refused h
    have armed : s.armReason s.nextMode = none → _ := fun h => State.modeArm_armed h
    rw [← hu] at late rest mems
    simp only [← hu] at refused armed
    exact ⟨late, congrArg (fun u => { u with pending := s.pending }) rest, State.memSame_of_mems mems, refused, armed⟩
  · change ∃ t, act .lnd (fun s => s.pwWrite pLnd (·.modeCancel)) s = .next t ∧ _
    refine act_next ha fun u hu => ?_
    rw [State.pwWrite, hb] at hu
    have hu : u = s.modeCancel := hu
    refine ⟨fun hs hl => ?_, fun h => ?_⟩
    · rw [State.modeCancel_of_cancelled hm hs hl] at hu
      have stat : u.rd pLnd O.LND_MODE_STAT = 5 * 2 ^ 28 := by
        rw [hu]
        exact State.rd_wr_same s pLnd O.LND_MODE_STAT (5 * 2 ^ 28)
      have lnd : u.lnd = { s.lnd with armed := none } := by rw [hu]
      have rest : u = { s with regs := u.regs, lnd := u.lnd } := by rw [hu]; rfl
      exact ⟨stat, lnd, congrArg (fun u => { u with pending := s.pending }) rest⟩
    · rw [hu, State.modeCancel_of_kept hm h]
  · change ∃ t, act .lnd (·.epochApply) s = .next t ∧ _
    refine act_next ha fun u hu => ?_
    have applied : u.lnd.applied = true := by rw [hu]; exact State.applied_epochApply s
    exact ⟨applied, fun h => by rw [hu, State.epochApply_of_applied h]⟩
  · change ∃ t, act .lnd (·.epochApply) s = .next t ∧ _
    refine act_next ha fun u hu => ?_
    obtain ⟨armed, loads, feeds, mems⟩ := State.modeApply_keeps hm he
    obtain ⟨reg, ⟨f, lnd⟩, same⟩ := State.epochApply_of_idle hd hp (loads.trans hl) fun k hk => by rw [feeds, hf k hk]
    have hu : u = s.epochApply := hu
    rw [← hu] at lnd same
    simp only [← hu] at reg
    have same : memSame s u := State.memSame_of_mems (same.trans mems)
    refine ⟨?_, ?_, same, fun hf => ?_, fun hs hf => ?_⟩
    · exact (congrArg Lnd.armed lnd).trans armed
    · exact congrArg Lnd.applied lnd
    · obtain ⟨cur, num, den, colour, modeId, stat, passing⟩ := State.modeApply_applied hm he hf
      rw [← reg _ (by decide) (by decide)] at cur num den colour stat
      exact ⟨cur, num, den, colour, (congrArg Lnd.modeId lnd).trans modeId, stat, (congrArg Lnd.passing lnd).trans passing⟩
    · obtain ⟨stat, cause, cur, modeId⟩ := State.modeApply_refused hm he hs hf
      rw [State.bit] at cause
      rw [← reg _ (by decide) (by decide)] at stat cause cur
      exact ⟨stat, cause, cur, (congrArg Lnd.modeId lnd).trans modeId⟩
  · obtain ⟨p, hlt⟩ := p
    obtain rfl : p = pLnd := hp
    constructor
    · change ∃ t, act .lnd (·.pageQuiet pLnd) s = .next t ∧ _
      refine act_next ha fun u hu => ?_
      have hu := hu.trans (State.pageQuiet_of_passing hn)
      refine ⟨fun h => ?_, fun h => ?_⟩
      · rw [hu, State.modePasses_stopping (h ▸ hn)]
      · rw [hu, State.modePasses_stopped (h ▸ hn)]
    · change ∃ t, act .lnd (·.pageReady pLnd true []) s = .next t ∧ _
      refine act_next ha fun u hu => fun h => ?_
      subst h
      have hu := hu.trans ((State.pageReady_of_passing hn).trans (State.modePasses_starting hn))
      obtain ⟨stat, cause, lnd, rest⟩ := State.modeSettled_of_passing hn
      rw [← hu] at stat cause lnd rest
      exact ⟨stat, cause, lnd, congrArg (fun u => { u with pending := s.pending }) rest⟩
  · change ∃ t, act .lnd (·.epochApply) s = .next t ∧ _
    refine act_next ha fun u hu => ?_
    have scene := State.sceneApplied_epochApply hd hm hp hl hk idle hf hw ho he hv
    have hu : u = s.epochApply := hu
    rw [← hu] at scene
    obtain ⟨-, cur, ended, epoch, cause, mems⟩ := scene
    rw [he, Nat.mod_mod, ← he] at epoch
    exact ⟨cur, ended, epoch, cause, State.memSame_of_mems mems⟩
  · change ∃ t, act .std (·.resync m false op.toNat) s = .next t ∧ _
    refine act_next ha fun u hu => ?_
    have hu := hu.trans (State.resync_of_modeInForce hm hs hf op.toNat)
    have seq : u.rd pStd O.STD_OP_SEQ = op.toNat := by
      rw [hu, State.rd_wr_same]
      exact Nat.mod_eq_of_lt op.isLt
    have missed : u.bit pStd O.STD_FLAGS 3 = false := by
      rw [hu, State.bit, State.rd_wr_other _ _ (by decide)]
      exact State.bit_setBit_same _ _ _ _ _ (by decide)
    have stand : u.stand = { s.stand with pend := none } := by rw [hu]; rfl
    have lnd : u.lnd = s.lnd := by rw [hu]; rfl
    exact ⟨seq, missed, stand, lnd, State.memSame_of_mems (by rw [hu]; rfl)⟩

end Sys2Proof.Machine
end

section
/-! PROOFS. O28 fails: its rules speak of every state, also of one whose store of contexts lists a context twice. A
decode context's move ends with every free encode core starting its next picture; the cores find their contexts by the
entries of the store, a context is read by its first entry, and the two differ there. On a store in canonical form they
agree (`encServeAll_of_canonical`), so the counterexample is a matter of the statement's range of states. -/
namespace Sys2Proof.Machine
open State

/-- An entry of a store in canonical form is the one that a read finds. -/
theorem sget_of_mem_swfFrom {α : Type} [DecidableEq α] (d : Nat → α) {k : Nat} {v : α} :
    ∀ {lo : Nat} {m : Store α}, swfFrom d lo m = true → (k, v) ∈ m → lo ≤ k ∧ sget d m k = v
  | lo, (a, b) :: r, hm, hk => by
    simp only [swfFrom, Bool.and_eq_true, decide_eq_true_eq] at hm
    obtain ⟨⟨ha, -⟩, hr⟩ := hm
    rcases List.mem_cons.mp hk with h | h
    · cases h
      exact ⟨ha, by rw [sget, if_pos rfl]⟩
    · obtain ⟨hlo, hv⟩ := sget_of_mem_swfFrom d hr h
      exact ⟨by omega, by rw [sget, if_neg (by omega), hv]⟩

/-- With the contexts in canonical form and no encode context's picture due, no encode core starts a picture. -/
theorem encServe_of_canonical {s : State} (hs : swf (fun _ => {}) s.ctxs = true)
    (hd : ∀ k, (s.ctx k).typ = 3 → (s.ctx k).enc.pic = none) (k : Nat) : s.encServe k = s := by
  have none_due : ((s.onCore 3 k).filter fun c => (s.ctx c).enc.pic.isSome ∧ (s.ctx c).mig.isNone) = [] := by
    refine List.filter_eq_nil_iff.mpr fun c hc => ?_
    obtain ⟨⟨c, x⟩, he, rfl⟩ := List.mem_map.mp hc
    obtain ⟨he, hx⟩ := List.mem_filter.mp he
    have read : s.ctx c = x := (sget_of_mem_swfFrom _ hs he).2
    have ht : x.typ = 3 := (of_decide_eq_true hx).1
    simp [hd c (read ▸ ht)]
  unfold encServe
  split
  · rfl
  · simp only [none_due]
    rfl

/-- On a store of contexts in canonical form the service that ends a move or a close starts no picture either, so O28's
failure takes a store that lists a context twice. -/
theorem encServeAll_of_canonical {s : State} (hs : swf (fun _ => {}) s.ctxs = true)
    (hd : ∀ k, (s.ctx k).typ = 3 → (s.ctx k).enc.pic = none) : s.encServeAll = s := by
  unfold encServeAll
  induction List.range 18 with
  | nil => rfl
  | cons k l ih => rw [List.foldl_cons, encServe_of_canonical hs hd, ih]

/-- A CTX_MIGRATE of context 7 to core 0, started. -/
def migrateJob : Job := ⟨0, 1, 4, 7, 0, [0], false, false, 0, false, [], 0, none, false, none⟩

/-- Encode core 0 is in service. Context 5 is a closed decode context that holds a picture; a second entry of the store
lists the same context as an encode context on core 0. Context 7 is a decode context on core 0. -/
def doubledCtx : State where
  regs := [(regKey pEnc O.PAGE_STAT, 2)]
  sq := [(0, { started := [migrateJob] })]
  ctxs := [(5, { typ := 1, enc := { pic := some { pts := 0 } } }), (5, { typ := 3, st := 1, cores := [0] }),
    (7, { st := 1, cores := [0] })]

theorem doubledCtx_typ (k : Nat) : (doubledCtx.ctx k).typ ≠ 3 := by
  simp only [ctx, doubledCtx, sget]
  split
  · decide
  · split <;> decide

/-- The picture of context 5 is started by the CTX_MIGRATE of context 7. -/
theorem migrate_starts_doubledCtx :
    ((after (.ctxMigrate ⟨0, 0, 0⟩) doubledCtx).ctx 5).enc.pic.map (·.started)
      ≠ (doubledCtx.ctx 5).enc.pic.map (·.started) := by
  decide

/-- Refutes O28: a CTX_MIGRATE of context 7 starts the picture of context 5, which the store of contexts lists twice. -/
theorem not_contextsOpenChangeMoveAndClose : ¬ Obligations.ContextsOpenChangeMoveAndClose := by
  unfold Obligations.ContextsOpenChangeMoveAndClose
  rintro ⟨-, -, -, migrate⟩
  obtain ⟨t, ht, others, -⟩ := migrate ⟨0, 0, 0⟩ migrateJob 0 doubledCtx ⟨by decide, by decide, rfl, rfl, rfl⟩
    (fun k h => absurd h (doubledCtx_typ k)) (by decide) (by decide) (by decide) (by decide) (by decide)
  have unchanged : t.ctx 5 = doubledCtx.ctx 5 := others 5 (by decide)
  have reached : after (.ctxMigrate ⟨0, 0, 0⟩) doubledCtx = t := by rw [after, ht]
  exact migrate_starts_doubledCtx (by rw [reached, unchanged])

end Sys2Proof.Machine
end

section
/-! PROOFS. The register model: accesses and events that reach a page, changes of a page's own registers, and what
interrupt requests and page states leave of them. -/
namespace Sys2Proof.Machine

/-- An access of the host that the registers answer leads to its effect, with the queue of commands as it was. -/
theorem access_next {f : State → State} {s : State} {P : State → Prop} (h : s.hostAlive = true)
    (hP : ∀ u, u = f s → P { u with pending := s.pending }) : ∃ t, access f s = .next t ∧ P t :=
  ⟨_, by rw [access, if_pos h]; rfl, hP _ rfl⟩

/-- An event of a page of a block that acts leads to its effect. -/
theorem onPage_next {p : Nat} {b : Blk} {f : State → State} {s : State} {P : State → Prop} (hb : blkOf p = some b)
    (h : s.alive b = true) (hP : ∀ u, u = f s → P { u with pending := s.pending }) :
    ∃ t, onPage p f s = .next t ∧ P t := by
  simp only [onPage, hb]
  exact act_next h hP

theorem blkOf_range {p : Nat} {b : Blk} (hb : blkOf p = some b) : b.first ≤ p ∧ p < b.first + b.count := by
  simpa using List.find?_some hb

/-- A page of one block is no page of another. -/
theorem page_ne_of_blkOf {p q : Nat} {b c : Blk} (hb : blkOf p = some b) (hq : blkOf q = some c) (h : b ≠ c) : p ≠ q := by
  rintro rfl
  exact h (Option.some.inj (hb.symm.trans hq))

/-- The rows of the common page header are those of every page of a block. -/
theorem regDesc?_header {p off : Nat} {b : Blk} (hb : blkOf p = some b) (ho : off < 0x100) :
    regDesc? p off = regsCommon.find? (·.covers off) := by
  simp only [regDesc?, hb, if_pos ho]

theorem regKey_page {p off : Nat} (ho : off < 0x10000) : regKey p off / 0x10000 = p := by simp only [regKey]; omega

theorem regKey_word {p off : Nat} (ho : off < 0x10000) : regKey p off % 0x10000 = off := by simp only [regKey]; omega

namespace State

/-! ## The memories

Each of these is about a value that is a variable: checked with the value itself, the equation would have the kernel work
the value out. -/

theorem mems_setRegs (s : State) (m : Store W32) : mems { s with regs := m } = s.mems := rfl
theorem mems_setPosted (s : State) (m : Store (Option Posted)) : mems { s with posted := m } = s.mems := rfl
theorem mems_setWindows (s : State) (m : Store Window) : mems { s with windows := m } = s.mems := rfl
theorem rd_setPosted (s : State) (m : Store (Option Posted)) (p off : Nat) :
    State.rd { s with posted := m } p off = s.rd p off := rfl
@[simp] theorem mems_setFld (s : State) (p off lo n v : Nat) : (s.setFld p off lo n v).mems = s.mems := mems_wr ..
@[simp] theorem mems_setBit (s : State) (p off b : Nat) (v : Bool) : (s.setBit p off b v).mems = s.mems := mems_wr ..
@[simp] theorem mems_wr64 (s : State) (p off v : Nat) : (s.wr64 p off v).mems = s.mems := (mems_wr ..).trans (mems_wr ..)

/-! ## Changes of one page's registers -/

/-- `t` is `s` but for the registers of page `p` at `offs`. -/
structure PageRegs (p : Nat) (offs : List Nat) (s t : State) : Prop where
  rest : t = { s with regs := t.regs }
  regs : ∀ q off, off < 0x10000 → (q = p → off ∉ offs) → t.rd q off = s.rd q off

namespace PageRegs

variable {p : Nat} {offs : List Nat} {s t u : State}

theorem refl (p : Nat) (offs : List Nat) (s : State) : PageRegs p offs s s := ⟨rfl, fun _ _ _ _ => rfl⟩

theorem trans (h : PageRegs p offs s t) (k : PageRegs p offs t u) : PageRegs p offs s u := by
  refine ⟨?_, fun q off ho hq => (k.regs q off ho hq).trans (h.regs q off ho hq)⟩
  have e := k.rest
  rw [h.rest] at e
  exact e

theorem wr (s : State) {off : Nat} (v : Nat) (hm : off ∈ offs) (ho : off < 0x10000) : PageRegs p offs s (s.wr p off v) := by
  refine ⟨rfl, fun q o ho' hq => rd_wr_other s v ?_⟩
  rw [Ne, regKey_eq_iff ho' ho]
  rintro ⟨rfl, rfl⟩
  exact hq rfl hm

theorem wr64 (s : State) {off : Nat} (v : Nat) (hm : off ∈ offs) (hm' : off + 4 ∈ offs) (ho : off + 4 < 0x10000) :
    PageRegs p offs s (s.wr64 p off v) :=
  (wr s v hm (by omega)).trans (wr _ _ hm' ho)

/-- A change made only on a condition. -/
theorem ite {c : Prop} [Decidable c] (ht : PageRegs p offs s t) (hu : PageRegs p offs s u) :
    PageRegs p offs s (if c then t else u) := by
  split
  · exact ht
  · exact hu

theorem mono {offs' : List Nat} (h : PageRegs p offs s t) (hm : ∀ off ∈ offs, off ∈ offs') : PageRegs p offs' s t :=
  ⟨h.rest, fun q off ho hq => h.regs q off ho fun e hm' => hq e (hm off hm')⟩

theorem mems (h : PageRegs p offs s t) : t.mems = s.mems := (congrArg State.mems h.rest).trans rfl

end PageRegs

/-- A bit clear of the field written reads as before. -/
theorem bit_setFld_other (s : State) {p off lo n b : Nat} (v : Nat) (hb : b < 32) (h : b < lo ∨ lo + n ≤ b) :
    (s.setFld p off lo n v).bit p off b = s.bit p off b :=
  (bit_setFld s p off lo n v b hb).trans (if_neg (by omega))

/-! ## Interrupt requests and the common page header (R29, R35) -/

/-- Of the common header, requests change INT_CAUSE alone. -/
theorem sigReg_header {p q off : Nat} (ho : off < 0x100) (hc : off ≠ O.INT_CAUSE) : sigReg p q off = false := by
  simp only [sigReg, Bool.or_eq_false_iff, Bool.and_eq_false_iff, decide_eq_false_iff_not]
  simp only [O.EIC_CNT_RAISES, O.EIC_CNT_COALESCED, O.EIC_CNT_DISABLED, O.YSQ_EVT_LATCH, O.HIF_PM_STAT, O.HIF_PBA]
  omega

/-- Requests change no register of DEV but its causes. -/
theorem sigReg_dev {p off : Nat} (h : off ≠ O.INT_CAUSE) : sigReg p pDev off = false := by
  simp [sigReg, h]

theorem rd_header_setCause (s : State) (p m : Nat) {q off : Nat} (ho : off < 0x100) (hc : off ≠ O.INT_CAUSE) :
    (s.setCause p m).rd q off = s.rd q off := rd_setCause_other (by omega) (sigReg_header ho hc)

theorem posted_setCause (s : State) (p m : Nat) : (s.setCause p m).posted = s.posted :=
  (congrArg State.posted (setCause_rest s p m)).trans rfl

/-! ## Page states (R33) -/

theorem pstate_of_rd {s t : State} {p : Nat} (h : t.rd p O.PAGE_STAT = s.rd p O.PAGE_STAT) : t.pstate p = s.pstate p := by
  rw [pstate, pstate, fld, fld, h]

/-- The page is in the state entered, whether it was there before or not. -/
theorem pstate_setPstate (s : State) {p st : Nat} (h : st < 8) : (s.setPstate p st).pstate p = st := by
  unfold setPstate
  split
  · assumption
  · rw [pstate_of_rd (rd_header_setCause _ _ _ (by decide) (by decide)), pstate, fld_setFld_same _ _ _ _ _ _ (by decide)]
    exact Nat.mod_eq_of_lt h

/-- A page state entered changes, beside what its request changes, the page's PAGE_STAT alone. -/
theorem rd_setPstate (s : State) (p st : Nat) {q off : Nat} (ho : off < 0x10000) (hs : sigReg p q off = false)
    (h : q = p → off ≠ O.PAGE_STAT) : (s.setPstate p st).rd q off = s.rd q off := by
  unfold setPstate
  refine ite_keeps (fun t : State => t.rd q off) rfl ?_
  rw [rd_setCause_other ho hs, setFld, rd_wr_other]
  rw [Ne, regKey_eq_iff ho (by decide)]
  exact fun e => h e.1 e.2

theorem rd_header_setPstate (s : State) (p st : Nat) {q off : Nat} (ho : off < 0x100) (hc : off ≠ O.INT_CAUSE)
    (h : off ≠ O.PAGE_STAT) : (s.setPstate p st).rd q off = s.rd q off :=
  rd_setPstate s p st (by omega) (sigReg_header ho hc) fun _ => h

theorem bit_ctl_setPstate (s : State) (p st b : Nat) : (s.setPstate p st).bit p O.PAGE_CTL b = s.bit p O.PAGE_CTL b := by
  rw [bit, bit, rd_header_setPstate _ _ _ (by decide) (by decide) (by decide)]

/-- POST_BUSY does not follow the page's state. -/
theorem postBusy_setPstate (s : State) (p st : Nat) : (s.setPstate p st).postBusy p = s.postBusy p := by
  unfold setPstate
  refine ite_keeps (fun t : State => t.postBusy p) rfl ?_
  rw [postBusy, bit, rd_header_setCause _ _ _ (by decide) (by decide), ← bit,
    bit_setFld_other _ _ (by decide) (.inr (by decide)), ← postBusy]

@[simp] theorem mems_setPstate (s : State) (p st : Nat) : (s.setPstate p st).mems = s.mems := by
  unfold setPstate
  exact ite_keeps mems rfl ((setCause_mems ..).trans (mems_setFld ..))

theorem posted_setPstate (s : State) (p st : Nat) : (s.setPstate p st).posted = s.posted := by
  unfold setPstate
  exact ite_keeps State.posted rfl ((posted_setCause ..).trans (wr_posted ..))

theorem coreOfPage_of_blkOf {p : Nat} {b : Blk} (hb : blkOf p = some b) (h : b ∉ [Blk.dec, .xsd, .enc]) :
    coreOfPage p = none := by
  unfold coreOfPage
  rw [hb]
  split <;> simp_all

/-- RUN = 1 starts a STOPPED page, but a codec core's and STD's. -/
theorem applyRun_of_stopped {s : State} {p : Nat} {b : Blk} (hb : blkOf p = some b) (hc : coreOfPage p = none)
    (hp : p ≠ pStd) (hs : s.pstate p = 0) : s.applyRun p true = (s.setBit p O.PAGE_CTL 0 true).setPstate p 1 := by
  have still : (s.setBit p O.PAGE_CTL 0 true).pstate p = 0 := (pstate_of_rd (rd_wr_other s _ (by simp [regKey]))).trans hs
  simp [applyRun, hb, runIdle, hc, still, startPage, hp]

end State
end Sys2Proof.Machine
end

section
/-! PROOFS. O13: the page state machine of R33 and the soft reset of R34, a lemma for what each event does to a page
whose block adds nothing of its own. -/
namespace Sys2Proof.Machine
namespace State

/-! ## The Skidder settles (R370) -/

/-- A register of a channel is none of the common header. -/
theorem rd_header_wr_skr (s : State) {o off : Nat} (n v : Nat) (h : off < 0x100) (ho : 0x100 ≤ o) :
    (s.wr pSkd (skr o n) v).rd pSkd off = s.rd pSkd off :=
  rd_wr_other s v (regKey_ne_of_off (by rw [skr]; omega))

theorem rd_jput (s : State) (p : Nat) (c : JCell) (q off : Nat) : (s.jput p c).rd q off = s.rd q off := by
  unfold jput
  exact ite_keeps (fun t : State => t.rd q off) rfl rfl

theorem rd_modSkc (s : State) (n : Nat) (f : SkCh → SkCh) (p off : Nat) : (s.modSkc n f).rd p off = s.rd p off := rfl

theorem rd_header_skCell (s : State) (n : Nat) (d : SkDesc) (data : List Byte) {off : Nat} (h : off < 0x100) :
    (s.skCell n d data).rd pSkd off = s.rd pSkd off := by
  unfold skCell addReg64 wr64
  simp only
  rw [rd_wr_other _ _ (regKey_ne_of_off (by simp only [skr, O.SKD_CH_BYTES_LO]; omega)),
    rd_header_wr_skr _ _ _ h (by decide), rd_header_wr_skr _ _ _ h (by decide), rd_header_wr_skr _ _ _ h (by decide),
    rd_jput]

theorem rd_header_skLand (s : State) (n : Nat) {off : Nat} (h : off < 0x100) :
    (s.skLand n).rd pSkd off = s.rd pSkd off := by
  unfold skLand
  split
  · exact ite_keeps (fun t : State => t.rd pSkd off) (rd_header_skCell _ _ _ _ h) rfl
  · rfl

theorem rd_header_skPark (s : State) (n : Nat) {off : Nat} (h : off < 0x100) :
    (s.skPark n).rd pSkd off = s.rd pSkd off := by
  have wait : (s.setSkState n 2).rd pSkd off = s.rd pSkd off := rd_header_wr_skr _ _ _ h (by decide)
  unfold skPark
  simp only
  split
  · exact wait
  · rw [incr, addReg, rd_wr_other _ _ (regKey_ne_of_off (by simp only [O.SKD_CNT_PARKS]; omega)), setFld,
      rd_header_wr_skr _ _ _ h (by decide), rd_modSkc, wait]

/-- Bursts that end as SKD stops change no register of its common header. -/
theorem rd_header_skSettle (s : State) {off : Nat} (h : off < 0x100) : s.skSettle.rd pSkd off = s.rd pSkd off :=
  foldl_keeps (fun t : State => t.rd pSkd off) _ _ _ fun t n _ =>
    ite_keeps (fun t : State => t.rd pSkd off) ((rd_header_skPark _ n h).trans (rd_header_skLand t n h))
      (rd_header_skLand t n h)

/-! ## RUN, readiness and quiescence (Table 2.7) -/

/-- What comes before a page of these blocks stops: the Skidder ends the bursts it has started. -/
def settles (s : State) (b : Blk) : State := if b = .skd then s.skSettle else s

theorem rd_header_settles (s : State) {p off : Nat} {b : Blk} (hb : blkOf p = some b) (h : off < 0x100) :
    (s.settles b).rd p off = s.rd p off := by
  unfold settles
  split
  · subst b
    have hp : p = pSkd := by
      obtain ⟨lo, hi⟩ := blkOf_range hb
      exact Nat.le_antisymm (Nat.le_of_lt_succ hi) lo
    rw [hp, rd_header_skSettle s h]
  · rfl

/-- RUN = 0 stops a RUNNING page. -/
theorem applyRun_of_running {s : State} {p : Nat} {b : Blk} (hb : blkOf p = some b)
    (hm : b ∈ [Blk.eic, .skd, .chk, .dbk, .yrd, .tim]) (hs : s.pstate p = 2) :
    s.applyRun p false = ((s.setBit p O.PAGE_CTL 0 false).settles b).setPstate p 3 := by
  have still : (s.setBit p O.PAGE_CTL 0 false).pstate p = 2 := (pstate_of_rd (rd_wr_other s _ (by simp [regKey]))).trans hs
  have core : coreOfPage p = none := coreOfPage_of_blkOf hb fun h => by revert h hm; cases b <;> decide
  simp only [List.mem_cons, List.not_mem_nil, or_false] at hm
  rcases hm with rfl | rfl | rfl | rfl | rfl | rfl <;>
    simp [applyRun, hb, runIdle, core, still, stopPage, leaveRunning, cruiseFollows, settles]

section
variable {s : State} {p : Nat} {b : Blk} (hb : blkOf p = some b) (hm : b ∈ [Blk.wqm, .eic, .skd, .chk, .dbk])
include hb hm

/-- The pages of these blocks are no codec core's, nor DEV's, nor the Landing's or STD's, whose state has more to it. -/
theorem plain_page : coreOfPage p = none ∧ p ≠ pDev ∧ p ≠ pLnd ∧ p ≠ pStd := by
  have other : ∀ {q : Nat} (c : Blk), blkOf q = some c → c ∉ [Blk.wqm, .eic, .skd, .chk, .dbk] → p ≠ q :=
    fun c hq hc => page_ne_of_blkOf hb hq fun e => hc (e ▸ hm)
  refine ⟨coreOfPage_of_blkOf hb fun h => ?_, other .dev (by decide) (by decide), other .lnd (by decide) (by decide),
    other .std (by decide) (by decide)⟩
  revert h hm
  cases b <;> decide

/-- PAGE_READY: the state after STARTING is as RUN says. -/
theorem pageReady_of_starting (hs : s.pstate p = 1) (ok : Bool) (bad : List Nat) :
    s.pageReady p ok bad = s.setPstate p (if s.bit p O.PAGE_CTL 0 then 2 else 3) := by
  obtain ⟨core, -, lnd, -⟩ := plain_page hb hm
  simp only [List.mem_cons, List.not_mem_nil, or_false] at hm
  rcases hm with rfl | rfl | rfl | rfl | rfl <;>
    simp [pageReady, hb, lnd, hs, blockReady, core, prepare, startFault, enterRunning, apply_ite (s.setPstate p)]

/-- PAGE_QUIESCENT: the state after STOPPING is as RUN says. -/
theorem pageQuiet_of_stopping (hs : s.pstate p = 3) (hq : b = .skd → s.skQuiet = true) :
    s.pageQuiet p = s.setPstate p (if s.bit p O.PAGE_CTL 0 then 1 else 0) := by
  obtain ⟨core, -, lnd, std⟩ := plain_page hb hm
  have quiet : s.blockQuiet b p = true := by
    simp only [List.mem_cons, List.not_mem_nil, or_false] at hm
    rcases hm with rfl | rfl | rfl | rfl | rfl <;> simp [blockQuiet, core, hq]
  simp [pageQuiet, hb, core, lnd, hs, quiet, settlePage, startPage, std, apply_ite (s.setPstate p)]

end

/-! ## Time limits -/

section
variable (s : State) (p code info addr : Nat)

/-- An error captured with nothing captured before. -/
theorem rd_capture_errCapture (h : s.bit p O.ERR_CAPTURE 31 = false) :
    (s.errCapture p code info addr).rd p O.ERR_CAPTURE = (2 ^ 31 + code) % 2 ^ 32 := by
  unfold errCapture
  simp only [h]
  rw [if_neg (by decide), rd_header_setCause _ _ _ (by decide) (by decide), wr64,
    rd_wr_other _ _ (regKey_ne_of_off (by decide)), rd_wr_other _ _ (regKey_ne_of_off (by decide)),
    rd_wr_other _ _ (regKey_ne_of_off (by decide))]
  exact rd_wr_same ..

/-- An error captured changes no register of another page but what the request changes. -/
theorem rd_errCapture_other {q off : Nat} (ho : off < 0x10000) (hq : q ≠ p) (hs : sigReg p q off = false) :
    (s.errCapture p code info addr).rd q off = s.rd q off := by
  have far : ∀ (t : State) (o v : Nat), o < 0x10000 → (t.wr p o v).rd q off = t.rd q off :=
    fun t o v h => rd_wr_other t v (regKey_ne_of_page ho h hq)
  unfold errCapture
  refine ite_keeps (fun t : State => t.rd q off) (far _ _ _ (by decide)) ?_
  rw [rd_setCause_other ho hs, wr64, far _ _ _ (by decide), far _ _ _ (by decide), far _ _ _ (by decide),
    far _ _ _ (by decide)]

@[simp] theorem mems_errCapture : (s.errCapture p code info addr).mems = s.mems := by
  unfold errCapture
  split
  · exact mems_setBit ..
  · dsimp only
    rw [setCause_mems, mems_wr64, mems_wr, mems_wr]

variable (cls : Nat) (spare noSpare : Bool)

@[simp] theorem mems_faultLog : (s.faultLog cls spare noSpare p code info).mems = s.mems :=
  (Retiring.faultLog (m := 0) s ..).rest.mems

/-- A fault-log record changes no register of another page but what DEV's request changes. -/
theorem rd_faultLog_other {q off : Nat} (ho : off < 0x10000) (hq : q ≠ pDev) (hs : sigReg pDev q off = false) :
    (s.faultLog cls spare noSpare p code info).rd q off = s.rd q off := by
  unfold faultLog
  simp only
  rw [rd_setCause_other ho hs, incr, addReg, rd_wr_other _ _ (regKey_ne_of_page ho (by decide) hq),
    rd_wr_other _ _ (regKey_ne_of_page ho (by decide) hq), rd_setTab, rd_setTab, rd_setTab, rd_setTab]

/-- FLOG_COUNT counts the record. -/
theorem rd_count_faultLog : (s.faultLog cls spare noSpare p code info).rd pDev O.DEV_FLOG_COUNT
    = (s.rd pDev O.DEV_FLOG_COUNT + 1) % 2 ^ 32 := by
  unfold faultLog
  simp only
  rw [rd_setCause_other (by decide) (by decide), incr, addReg, rd_wr_same, rd_wr_other _ _ (by decide), rd_setTab,
    rd_setTab, rd_setTab, rd_setTab]
  norm_num

end

/-- The first fault of a page that is not RUNNING: captured, logged, and the page in FAULT. -/
theorem pageFault_of_not_running {s : State} {p code : Nat} (b : Blk) (info : Nat) (h2 : s.pstate p ≠ 2)
    (h5 : s.pstate p ≠ 5) (hp : p ≠ pDev) (hc : s.bit p O.ERR_CAPTURE 31 = false) (hcode : code < 2 ^ 31) :
    (s.pageFault b p code info).pstate p = 4 ∧ (s.pageFault b p code info).rd p O.ERR_CAPTURE = 2 ^ 31 + code
      ∧ (s.pageFault b p code info).rd pDev O.DEV_FLOG_COUNT = (s.rd pDev O.DEV_FLOG_COUNT + 1) % 2 ^ 32
      ∧ (s.pageFault b p code info).mems = s.mems := by
  have fault : s.pageFault b p code info = (s.containedFault p code info 0).setPstate p 4 := by
    simp [pageFault, running, h2, h5]
  rw [fault, containedFault]
  refine ⟨pstate_setPstate _ (by decide), ?_, ?_, by simp⟩
  · rw [rd_header_setPstate _ _ _ (by decide) (by decide) (by decide),
      rd_faultLog_other _ _ _ _ _ _ _ (by decide) hp (sigReg_header (by decide) (by decide)),
      rd_capture_errCapture _ _ _ _ _ hc]
    exact Nat.mod_eq_of_lt (by omega)
  · rw [rd_setPstate _ _ _ (by decide) (sigReg_dev (by decide)) fun _ => by decide, rd_count_faultLog,
      rd_errCapture_other _ _ _ _ _ (by decide) hp.symm (sigReg_dev (by decide))]

section
variable {s : State} {p : Nat} {b : Blk} (hb : blkOf p = some b) (hm : b ∈ [Blk.wqm, .eic, .skd, .chk, .dbk])
include hb hm

theorem startTimeout_of_starting (hs : s.pstate p = 1) : s.startTimeout p = s.pageFault b p 1 0 := by
  have limit : s.startLimit b = true := by revert hm; cases b <;> simp [startLimit]
  simp [startTimeout, hb, hs, limit]

theorem stopTimeout_of_stopping (hs : s.pstate p = 3) : s.stopTimeout p = s.pageFault b p 2 0 := by
  have seq : b ≠ .ysq := by rintro rfl; exact absurd hm (by decide)
  simp [stopTimeout, hb, hs, seq]

end

/-! ## Soft reset (R34) -/

/-- A soft reset of a block that keeps nothing beside its registers. -/
theorem softReset_of_blk {s : State} {p : Nat} {b : Blk} (hb : blkOf p = some b) (hm : b ∈ [Blk.eic, .hbm, .yrd]) :
    s.softReset p = s.softRegs b p := by
  have core : coreOfPage p = none := coreOfPage_of_blkOf hb fun h => by revert h hm; cases b <;> decide
  simp only [List.mem_cons, List.not_mem_nil, or_false] at hm
  rcases hm with rfl | rfl | rfl <;> simp [softReset, hb, core, leaveRunning, softState, cruiseFollows]

/-- Of the common header, a soft reset keeps the mask, the route and the window's registers. -/
theorem softKeeps_header (b : Blk) (p : Nat) {off : Nat} (h : off < 0x100) :
    softKeeps b p off = [O.INT_MASK, O.INT_ROUTE, O.IND_SEL, O.IND_CTL].contains off := if_pos h

section
variable (s : State) (b : Blk) (p : Nat)

/-- Where a register stands after the registers of page `p` are reset, PAGE_CTL and PAGE_STAT apart. -/
theorem rd_softRegs {q off : Nat} (ho : off < 0x10000) (h : q = p → off ≠ O.PAGE_CTL ∧ off ≠ O.PAGE_STAT) :
    (s.softRegs b p).rd q off
      = if q ≠ p ∨ softKeeps b p off = true then s.rd q off else (regReset (regKey q off)).toNat := by
  have ctl : regKey q off ≠ regKey p O.PAGE_CTL := by
    rw [Ne, regKey_eq_iff ho (by decide)]; exact fun e => (h e.1).1 e.2
  have stat : regKey q off ≠ regKey p O.PAGE_STAT := by
    rw [Ne, regKey_eq_iff ho (by decide)]; exact fun e => (h e.1).2 e.2
  have kept := sget_filter regReset s.regs (fun k => decide (k / 0x10000 ≠ p) || softKeeps b p (k % 0x10000)) (regKey q off)
  simp only [regKey_page ho, regKey_word ho, Bool.or_eq_true, decide_eq_true_eq] at kept
  refine (rd_wr_other _ _ ctl).trans ((rd_wr_other _ _ stat).trans ((congrArg BitVec.toNat kept).trans ?_))
  exact apply_ite ..

theorem rd_ctl_softRegs : (s.softRegs b p).rd p O.PAGE_CTL = 0 := rd_wr_same ..

/-- The page is STOPPED, unless it is RETIRED. -/
theorem pstate_softRegs (h : s.pstate p ≠ 5) : (s.softRegs b p).pstate p = 0 := by
  have stat : (s.softRegs b p).rd p O.PAGE_STAT = b2n (s.postBusy p) * 2 ^ 8 := by
    refine (rd_wr_other _ _ (regKey_ne_of_off (by decide))).trans ((rd_wr_same ..).trans ?_)
    cases s.postBusy p <;> simp [b2n, h]
  rw [pstate, fld, stat]
  cases s.postBusy p <;> rfl

theorem mems_softRegs : (s.softRegs b p).mems = s.mems :=
  (mems_setWindows ..).trans ((mems_wr ..).trans ((mems_wr ..).trans (mems_setRegs ..)))

end

/-- No cause stands after power-on reset. -/
theorem regReset_cause {p : Nat} {b : Blk} (hb : blkOf p = some b) :
    regReset (regKey p O.INT_CAUSE) = 0 := by
  have page : regKey p O.INT_CAUSE / 0x10000 = p := regKey_page (by decide)
  have word : regKey p O.INT_CAUSE % 0x10000 = O.INT_CAUSE := regKey_word (by decide)
  have low : ¬ 0x800 ≤ O.INT_CAUSE := by decide
  have desc : regDesc? p O.INT_CAUSE = some ⟨O.INT_CAUSE, 4, 1, .w1c, 0xFFFFFFFF, 0, false⟩ :=
    (regDesc?_header hb (by decide)).trans (by decide)
  rw [regReset]
  simp only [page, word, hb, desc]
  rw [if_neg (by decide), if_neg (fun h => absurd h.1 (by decide)), if_neg (fun h => absurd h.1 (by decide)),
    if_neg (fun h => low h.2.1), if_neg (fun h => absurd h.1 (by decide))]
  rfl

end State

/-- Settles O13, an event at a time: each leads to a page state entered (`setPstate`), to the fault of a page, or to the
registers of a soft reset. -/
theorem pageStatesFollowTable27 : Obligations.PageStatesFollowTable27 := by
  unfold Obligations.PageStatesFollowTable27
  refine ⟨?_, ?_, ?_, ?_, ?_, ?_, ?_⟩
  · intro p b s hb ha hs core std
    refine onPage_next hb ha fun u hu => ?_
    rw [State.applyRun_of_stopped hb core std hs] at hu
    have st : u.pstate p = 1 := by rw [hu]; exact State.pstate_setPstate _ (by decide)
    have run : u.bit p O.PAGE_CTL 0 = true := by
      rw [hu, State.bit_ctl_setPstate, State.bit_setBit_same _ _ _ _ _ (by decide)]
    have mems : u.mems = s.mems := by rw [hu, State.mems_setPstate, State.mems_setBit]
    exact ⟨st, run, State.memSame_of_mems mems⟩
  · intro p b s hb hm ha hs
    refine onPage_next hb ha fun u hu => ?_
    rw [State.applyRun_of_running hb hm hs] at hu
    have st : u.pstate p = 3 := by rw [hu]; exact State.pstate_setPstate _ (by decide)
    have run : u.bit p O.PAGE_CTL 0 = false := by
      rw [hu, State.bit_ctl_setPstate, State.bit, State.rd_header_settles _ hb (by decide), ← State.bit,
        State.bit_setBit_same _ _ _ _ _ (by decide)]
    have mems : b ≠ .skd → u.mems = s.mems := fun skd => by
      rw [hu, State.settles, if_neg skd, State.mems_setPstate, State.mems_setBit]
    exact ⟨st, run, fun skd => State.memSame_of_mems (mems skd)⟩
  · intro p b ok bad s hb hm ha hs
    refine onPage_next hb ha fun u hu => ?_
    rw [State.pageReady_of_starting hb hm hs] at hu
    have st : u.pstate p = if s.bit p O.PAGE_CTL 0 then 2 else 3 := by
      rw [hu]; exact State.pstate_setPstate _ (by split <;> decide)
    have mems : u.mems = s.mems := by rw [hu, State.mems_setPstate]
    exact ⟨st, State.memSame_of_mems mems⟩
  · intro p b s hb hm ha hs quiet
    refine onPage_next hb ha fun u hu => ?_
    rw [State.pageQuiet_of_stopping hb hm hs quiet] at hu
    have st : u.pstate p = if s.bit p O.PAGE_CTL 0 then 1 else 0 := by
      rw [hu]; exact State.pstate_setPstate _ (by split <;> decide)
    have mems : u.mems = s.mems := by rw [hu, State.mems_setPstate]
    exact ⟨st, State.memSame_of_mems mems⟩
  · intro p b s hb hm ha hs free
    refine onPage_next hb ha fun u hu => ?_
    obtain ⟨-, dev, -⟩ := State.plain_page hb hm
    obtain ⟨st, code, count, mems⟩ := State.pageFault_of_not_running b 0 (code := 1) (by rw [hs]; decide)
      (by rw [hs]; decide) dev free (by decide)
    rw [← State.startTimeout_of_starting hb hm hs, ← hu] at st code count mems
    exact ⟨st, code, count, State.memSame_of_mems mems⟩
  · intro p b s hb hm ha hs free
    refine onPage_next hb ha fun u hu => ?_
    obtain ⟨-, dev, -⟩ := State.plain_page hb hm
    obtain ⟨st, code, count, mems⟩ := State.pageFault_of_not_running b 0 (code := 2) (by rw [hs]; decide)
      (by rw [hs]; decide) dev free (by decide)
    rw [← State.stopTimeout_of_stopping hb hm hs, ← hu] at st code count mems
    exact ⟨st, code, count, State.memSame_of_mems mems⟩
  · intro p b s hb hm ha free gone
    refine onPage_next hb ha fun u hu => ?_
    rw [State.pwWrite, if_neg (by simp [free]), State.softReset_of_blk hb hm] at hu
    have st : u.pstate p = 0 := by rw [hu]; exact State.pstate_softRegs s b p gone
    have ctl : u.rd p O.PAGE_CTL = 0 := by rw [hu]; exact State.rd_ctl_softRegs s b p
    have lost : State.softKeeps b p O.INT_CAUSE = false := (State.softKeeps_header b p (by decide)).trans (by decide)
    have cause : u.rd p O.INT_CAUSE = 0 := by
      rw [hu, State.rd_softRegs s b p (by decide) fun _ => by decide, if_neg (by simp [lost]), State.regReset_cause hb]
      rfl
    have mask : u.rd p O.INT_MASK = s.rd p O.INT_MASK := by
      rw [hu, State.rd_softRegs s b p (by decide) fun _ => by decide,
        if_pos (.inr (State.softKeeps_header b p (by decide)))]
    have route : u.rd p O.INT_ROUTE = s.rd p O.INT_ROUTE := by
      rw [hu, State.rd_softRegs s b p (by decide) fun _ => by decide,
        if_pos (.inr (State.softKeeps_header b p (by decide)))]
    have mems : u.mems = s.mems := by rw [hu, State.mems_softRegs]
    refine ⟨st, ctl, cause, mask, route, fun q off ho hq => ?_, State.memSame_of_mems mems⟩
    have other : q ≠ p := of_decide_eq_false hq
    change u.rd q off = s.rd q off
    rw [hu, State.rd_softRegs s b p ho fun e => absurd e other, if_pos (.inl other)]

end Sys2Proof.Machine
end

section
/-! PROOFS. The path of an access of the host to a register word of a page, in either direction (R27, R49). -/
namespace Sys2Proof.Machine
namespace State

/-- The data of an access that carries one register word. -/
theorem toNat_word (v : W32) : (v.setWidth 1024).toNat % 2 ^ 32 = v.toNat := by
  rw [BitVec.toNat_setWidth_of_le (by decide)]
  exact Nat.mod_eq_of_lt v.isLt

section
variable {p off : Nat} {b : Blk} (hb : blkOf p = some b) (ho : off < 0x10000) (hw : off % 4 = 0)
include hb ho hw

/-- A 32-bit access to BAR0 reaches the word it addresses. -/
theorem bar0_word (s : State) (write : Bool) (data : Nat) : s.bar0 true write (p * 0x10000 + off) 4 true data
    = if write then s.pageWrite p off false data else s.pageRead p off false := by
  have page : (p * 0x10000 + off) / 0x10000 = p := regKey_page ho
  have word : (p * 0x10000 + off) % 0x10000 = off := regKey_word ho
  have wqp : p ≠ 0x100 := by
    rintro rfl
    have none : blkOf 0x100 = none := by decide
    exact Option.some_ne_none b (hb.symm.trans none)
  unfold bar0
  simp [page, word, wqp, hb, hw]

/-- A 32-bit write of the host to a register that is neither IND_DATA nor STEP. -/
theorem hostWrite_word {d : RegDesc} (s : State) {a : HostWrite} (hoff : a.off = p * 0x10000 + off) (hsize : a.size = 4)
    (hbe : a.allBE = true) (hd : regDesc? p off = some d) (hi : off ≠ O.IND_DATA) (hs : isStep p off = false) :
    s.hostWrite false a = s.writeReg b p off (a.data.toNat % 2 ^ 32) d := by
  simp [hostWrite, barAccess, hoff, hsize, hbe, bar0_word hb ho hw, pageWrite, hb, hd, hs, hi, hostEnds]

end

/-- A host write of a word of the common header, but IND_DATA. -/
theorem headWrite_of_page {p off : Nat} {b : Blk} (hb : blkOf p = some b) (s : State) (v : W32) (req : BitVec 16)
    {d : RegDesc} (ho : off < 0x100) (hw : off % 4 = 0) (hd : regsCommon.find? (·.covers off) = some d) (hi : off ≠ O.IND_DATA) :
    s.headWrite p off v req = s.writeReg b p off v.toNat d := by
  have step : isStep p off = false := by
    have h1 : off ≠ O.TIM_STEP_LO := by simp only [O.TIM_STEP_LO]; omega
    have h2 : off ≠ O.TIM_STEP_HI := by simp only [O.TIM_STEP_HI]; omega
    simp [isStep, h1, h2]
  refine (hostWrite_word hb (by omega) hw s rfl rfl rfl ((regDesc?_header hb ho).trans hd) hi step).trans ?_
  exact congrArg (s.writeReg b p off · d) (toNat_word v)

/-- Beyond the common header a write takes the effect that the block gives it. -/
theorem writeReg_own {off : Nat} (s : State) (b : Blk) (p v : Nat) (d : RegDesc) (ho : 0x100 ≤ off) :
    s.writeReg b p off v d = s.writeOwn b p off v d := by
  have far : ∀ o, o < 0x100 → off ≠ o := fun o h => by omega
  unfold writeReg
  rw [if_neg (far _ (by decide)), if_neg (far _ (by decide)), if_neg (far _ (by decide)),
    if_neg (not_or.mpr ⟨far _ (by decide), far _ (by decide)⟩), if_neg (by omega)]

end State
end Sys2Proof.Machine
end

section
/-! PROOFS. O14: a posted write held, lost, and applied (R40). -/
namespace Sys2Proof.Machine
namespace State

/-! ## A write is posted -/

theorem blkOf_pLmp : blkOf pLmp = some .lmp := by decide

/-- A 32-bit write of the host to LMP.BRIGHTNESS is posted. -/
theorem hostWrite_brightness (s : State) {a : HostWrite} (hoff : a.off = pLmp * 0x10000 + O.LMP_BRIGHTNESS)
    (hsize : a.size = 4) (hbe : a.allBE = true) : s.hostWrite false a
      = s.post pLmp ⟨O.LMP_BRIGHTNESS, BitVec.ofNat 64 (a.data.toNat % 2 ^ 32), false, none⟩ := by
  have desc : regDesc? pLmp O.LMP_BRIGHTNESS = some ⟨O.LMP_BRIGHTNESS, 4, 1, .pw, 0xFFFF, 0x8000, false⟩ := by decide
  rw [hostWrite_word blkOf_pLmp (by decide) (by decide) s hoff hsize hbe desc (by decide) (by decide),
    writeReg_own _ _ _ _ _ (by decide), writeOwn]
  exact if_neg (by decide)

/-- A write posted to a page with none pending is held with POST_BUSY, and nothing else changes. -/
theorem post_of_free {s : State} {p : Nat} (h : s.postBusy p = false) (w : Posted) : (s.post p w).postBusy p = true
    ∧ sget (fun _ => none) (s.post p w).posted p = some w
    ∧ (∀ off, off ≠ O.PAGE_STAT → (s.post p w).rd p off = s.rd p off) ∧ (s.post p w).mems = s.mems := by
  rw [post, if_neg (by simp [h])]
  refine ⟨?_, sget_sset_same (fun _ => none) s.posted p (some w), fun off ho => ?_, ?_⟩
  · rw [postBusy, bit, rd_setPosted, ← bit, bit_setBit_same _ _ _ _ _ (by decide)]
  · rw [rd_setPosted, setBit, setFld, rd_wr_other _ _ (regKey_ne_of_off ho)]
  · rw [mems_setPosted, mems_setBit]

/-- A write posted to a page with one pending. -/
theorem post_of_busy {s : State} {p : Nat} (h : s.postBusy p = true) (w : Posted) : s.post p w = s.postLost p := by
  rw [post, if_pos h]

/-- A lost write: POST_LOST and its cause, and nothing held. -/
theorem postLost_effect (s : State) {p : Nat} (hp : p ≠ pEic) : (s.postLost p).posted = s.posted
    ∧ (s.postLost p).bit p O.PAGE_STAT 9 = true ∧ (s.postLost p).bit p O.INT_CAUSE 29 = true
    ∧ (s.postLost p).mems = s.mems := by
  unfold postLost
  refine ⟨(posted_setCause ..).trans (wr_posted ..), ?_, ?_, (setCause_mems ..).trans (mems_setBit ..)⟩
  · rw [bit, rd_header_setCause _ _ _ (by decide) (by decide), ← bit, bit_setBit_same _ _ _ _ _ (by decide)]
  · rw [bit_setCause _ _ hp (by decide), Bool.or_eq_true]
    exact .inr (by decide)

/-! ## A posted write is applied -/

/-- The page with no write pending any more. -/
def released (s : State) (p : Nat) : State :=
  { s with posted := sset (fun _ => none) s.posted p none }.setBit p O.PAGE_STAT 8 false

theorem applyPosted_of_held {s : State} {p : Nat} {w : Posted} (h : sget (fun _ => none) s.posted p = some w) :
    s.applyPosted p = if w.off = O.PAGE_CTL then (s.released p).applyPageCtl p w.data.toNat w.bit
      else (s.released p).applyBlock p w.off w.data := by
  simp only [applyPosted, h]
  rfl

theorem applyPosted_of_none {s : State} {p : Nat} (h : sget (fun _ => none) s.posted p = none) : s.applyPosted p = s := by
  simp only [applyPosted, h]

section
variable (s : State) (p : Nat)

theorem held_released : sget (fun _ => none) (s.released p).posted p = none :=
  sget_sset_same (fun _ => none) s.posted p none

theorem postBusy_released : (s.released p).postBusy p = false := bit_setBit_same _ _ _ _ _ (by decide)

theorem pstate_released : (s.released p).pstate p = s.pstate p :=
  fld_setFld_other _ _ _ _ _ _ _ _ (by decide) (.inl (by decide))

theorem mems_released : (s.released p).mems = s.mems := (mems_setBit ..).trans (mems_setPosted ..)

theorem pageRegs_released {offs : List Nat} (h : O.PAGE_STAT ∈ offs) :
    PageRegs p offs { s with posted := sset (fun _ => none) s.posted p none } (s.released p) := .wr _ _ h (by decide)

end

/-- The posted brightness takes effect. -/
theorem applyPosted_brightness {s : State} {v : W64}
    (h : sget (fun _ => none) s.posted pLmp = some ⟨O.LMP_BRIGHTNESS, v, false, none⟩) :
    s.applyPosted pLmp = (s.released pLmp).wr pLmp O.LMP_BRIGHTNESS (v.toNat % 2 ^ 32 % 65536) := by
  rw [applyPosted_of_held h]
  rfl

/-- A posted RUN = 1 starts a STOPPED page. -/
theorem applyPosted_run {s : State} {p : Nat} {b : Blk} {v : W64} (hb : blkOf p = some b) (hc : coreOfPage p = none)
    (hp : p ≠ pStd) (hs : s.pstate p = 0) (h : sget (fun _ => none) s.posted p = some ⟨O.PAGE_CTL, v, false, none⟩)
    (hrun : bitOf v.toNat 0 = true) (hreset : bitOf v.toNat 1 = false) :
    s.applyPosted p = ((s.released p).setBit p O.PAGE_CTL 0 true).setPstate p 1 := by
  rw [applyPosted_of_held h, if_pos rfl, applyPageCtl]
  simp only [hrun, hreset]
  exact applyRun_of_stopped hb hc hp ((pstate_released s p).trans hs)

end State

/-- Settles O14: a write of BRIGHTNESS is `post`; what is held takes effect on the page `released` of it. -/
theorem postedWritesWaitAndApply : Obligations.PostedWritesWaitAndApply := by
  unfold Obligations.PostedWritesWaitAndApply
  refine ⟨?_, ?_, ?_, ?_, ?_⟩
  · intro a s ha hoff hsize hbe free
    change ∃ t, access (·.hostWrite false a) s = .next t ∧ _
    refine access_next ha fun u hu => ?_
    obtain ⟨busy, held, regs, mems⟩ := State.post_of_free free
      ⟨O.LMP_BRIGHTNESS, BitVec.ofNat 64 (a.data.toNat % 2 ^ 32), false, none⟩
    rw [← State.hostWrite_brightness s hoff hsize hbe, ← hu] at busy held regs mems
    exact ⟨busy, held, regs _ (by decide), State.memSame_of_mems mems⟩
  · intro a s ha hoff hsize hbe busy
    change ∃ t, access (·.hostWrite false a) s = .next t ∧ _
    refine access_next ha fun u hu => ?_
    obtain ⟨posted, lost, cause, mems⟩ := State.postLost_effect s (p := pLmp) (by decide)
    rw [State.hostWrite_brightness s hoff hsize hbe, State.post_of_busy busy] at hu
    rw [← hu] at posted lost cause mems
    exact ⟨congrArg (fun m => sget (fun _ => none) m pLmp) posted, lost, cause, State.memSame_of_mems mems⟩
  · intro v s ha h
    change ∃ t, onPage pLmp (·.applyPosted pLmp) s = .next t ∧ _
    refine onPage_next State.blkOf_pLmp ha fun u hu => ?_
    rw [State.applyPosted_brightness h] at hu
    have value : u.rd pLmp O.LMP_BRIGHTNESS = v.toNat % 2 ^ 16 := by
      rw [hu, State.rd_wr_same]
      omega
    have busy : u.postBusy pLmp = false := by
      rw [hu, State.postBusy, State.bit, State.rd_wr_other _ _ (by decide)]
      exact State.postBusy_released s pLmp
    have held : sget (fun _ => none) u.posted pLmp = none := by rw [hu]; exact State.held_released s pLmp
    have rest : u = { s with regs := u.regs, posted := u.posted } := by rw [hu]; rfl
    refine ⟨value, busy, held, congrArg (fun u => { u with pending := s.pending }) rest, fun q off ho hq => ?_⟩
    have regs := (State.pageRegs_released (offs := [O.LMP_BRIGHTNESS, O.PAGE_STAT]) s pLmp (by decide)).trans
      (.wr _ (v.toNat % 2 ^ 32 % 65536) (off := O.LMP_BRIGHTNESS) (by decide) (by decide))
    rw [← hu] at regs
    exact regs.regs q off ho fun e => by simpa [e] using hq
  · intro p b v s hb hm ha hs h hrun hreset
    change ∃ t, onPage p (·.applyPosted p) s = .next t ∧ _
    refine onPage_next hb ha fun u hu => ?_
    obtain ⟨core, -, -, std⟩ := State.plain_page hb (List.mem_cons_of_mem _ hm)
    rw [State.applyPosted_run hb core std hs h hrun hreset] at hu
    have st : u.pstate p = 1 := by rw [hu]; exact State.pstate_setPstate _ (by decide)
    have busy : u.postBusy p = false := by
      rw [hu, State.postBusy_setPstate, State.postBusy, State.bit, State.setBit, State.setFld,
        State.rd_wr_other _ _ (regKey_ne_of_off (by decide))]
      exact State.postBusy_released s p
    have held : sget (fun _ => none) u.posted p = none := by
      rw [hu, State.posted_setPstate]; exact State.held_released s p
    have mems : u.mems = s.mems := by rw [hu, State.mems_setPstate, State.mems_setBit, State.mems_released]
    exact ⟨st, busy, held, State.memSame_of_mems mems⟩
  · intro p s h
    have same : onPage p (·.applyPosted p) s = .next s := by
      unfold onPage
      split
      · rw [act, doing, State.applyPosted_of_none h, ite_self]
      · rfl
    exact same

end Sys2Proof.Machine
end

section
/-! PROOFS. O15: causes cleared and forced (R35, R37), an access that no page answers (R27, R51), and the log re-armed. -/
namespace Sys2Proof.Machine
namespace State

/-! ## A request that is raised again -/

/-- Raising the targets of a page other than the EIC's own changes no cause of the page. -/
theorem rd_cause_reRaise (s : State) {p : Nat} (hp : p ≠ pEic) : (s.reRaise p).rd p O.INT_CAUSE = s.rd p O.INT_CAUSE := by
  unfold reRaise
  refine ite_keeps (fun t : State => t.rd p O.INT_CAUSE) ?_ rfl
  refine (signals_raiseTargetsWith pEic _ (fun s src h => signals_eicRaise pEic s src h) s p).reg p _ (by decide) ?_
  simp [sigReg, hp, O.HIF_PBA, O.INT_CAUSE]

theorem rd_header_reRaise (s : State) (p : Nat) {q off : Nat} (ho : off < 0x100) (hc : off ≠ O.INT_CAUSE) :
    (s.reRaise p).rd q off = s.rd q off := (signals_reRaise s p).reg q off (by omega) (sigReg_header ho hc)

theorem mems_reRaise (s : State) (p : Nat) : (s.reRaise p).mems = s.mems :=
  (congrArg mems (signals_reRaise s p).rest).trans rfl

/-! ## INT_CAUSE (R35) -/

/-- The registers that error capture fills. -/
def captureRegs : List Nat := [O.ERR_CAPTURE, O.ERR_INFO, O.ERR_ADDR_LO, O.ERR_ADDR_HI]

theorem pageRegs_rearmCapture (s : State) (p : Nat) : PageRegs p captureRegs s (s.rearmCapture p) :=
  ((PageRegs.wr s 0 (by decide) (by decide)).trans (.wr _ 0 (by decide) (by decide))).trans
    (.wr64 _ 0 (by decide) (by decide) (by decide))

theorem rd_capture_rearmCapture (s : State) (p : Nat) : (s.rearmCapture p).rd p O.ERR_CAPTURE = 0
    ∧ (s.rearmCapture p).rd p O.ERR_INFO = 0 ∧ (s.rearmCapture p).rd64 p O.ERR_ADDR_LO = 0 := by
  have other : ∀ (t : State) (off o v : Nat), off ≠ o → (t.wr p o v).rd p off = t.rd p off :=
    fun t off o v h => rd_wr_other t v (regKey_ne_of_off h)
  unfold rearmCapture wr64 rd64
  refine ⟨?_, ?_, ?_⟩
  · rw [other _ _ _ _ (by decide), other _ _ _ _ (by decide), other _ _ _ _ (by decide), rd_wr_same]
  · rw [other _ _ _ _ (by decide), other _ _ _ _ (by decide), rd_wr_same]
  · rw [other _ _ _ _ (by decide), rd_wr_same, rd_wr_same]
    rfl

/-- POST_LOST and LOCKED_WRITE clear with their causes. -/
def stickyCleared (s : State) (p v : Nat) : State :=
  let s := if bitOf v 30 then s.setBit p O.PAGE_STAT 10 false else s
  if bitOf v 29 then s.setBit p O.PAGE_STAT 9 false else s

theorem pageRegs_stickyCleared (s : State) (p v : Nat) : PageRegs p [O.PAGE_STAT] s (s.stickyCleared p v) := by
  have lock : PageRegs p [O.PAGE_STAT] s (if bitOf v 30 then s.setBit p O.PAGE_STAT 10 false else s) :=
    .ite (.wr _ _ (by decide) (by decide)) (.refl ..)
  exact .ite (lock.trans (.wr _ _ (by decide) (by decide))) lock

/-- Causes clear with what belongs to them, before a request left at 1 is raised again. -/
def causesCleared (s : State) (p v : Nat) : State :=
  let s := s.wr p O.INT_CAUSE (clrMask (s.rd p O.INT_CAUSE) v)
  (if bitOf v 31 then s.rearmCapture p else s).stickyCleared p v

/-- A host write of INT_CAUSE clears the implemented causes written. -/
theorem headWrite_cause {p : Nat} {b : Blk} (hb : blkOf p = some b) (s : State) (v : W32) (req : BitVec 16) :
    s.headWrite p O.INT_CAUSE v req = s.clearCauses p (v.toNat &&& causeBits b) := by
  rw [headWrite_of_page hb s v req (by decide) (by decide) (d := ⟨O.INT_CAUSE, 4, 1, .w1c, 0xFFFFFFFF, 0, false⟩)
    (by decide) (by decide)]
  exact if_pos rfl

theorem clearCauses_eq (s : State) (p v : Nat) : s.clearCauses p v = (s.causesCleared p v).reRaise p := rfl

/-- After INT_CAUSE, only the registers of error capture and the sticky bits follow. -/
theorem pageRegs_causesCleared (s : State) (p v : Nat) : PageRegs p (O.PAGE_STAT :: captureRegs)
    (s.wr p O.INT_CAUSE (clrMask (s.rd p O.INT_CAUSE) v)) (s.causesCleared p v) := by
  refine .trans ?_ ((pageRegs_stickyCleared _ p v).mono (by decide))
  exact .ite ((pageRegs_rearmCapture _ p).mono (by decide)) (.refl ..)

/-- A W1C write of INT_CAUSE: the causes written clear, error capture is re-armed with bit 31, and beside those and what
the request changes only the sticky bits of PAGE_STAT can change. -/
theorem clearCauses_effect (s : State) {p : Nat} (v : Nat) (hp : p ≠ pEic) :
    (s.clearCauses p v).rd p O.INT_CAUSE = clrMask (s.rd p O.INT_CAUSE) v
    ∧ (bitOf v 31 = true → (s.clearCauses p v).rd p O.ERR_CAPTURE = 0 ∧ (s.clearCauses p v).rd p O.ERR_INFO = 0
        ∧ (s.clearCauses p v).rd64 p O.ERR_ADDR_LO = 0)
    ∧ (∀ q off, off < 0x10000 → sigReg p q off = false → (q = p → off ∉ O.PAGE_STAT :: captureRegs) →
        (s.clearCauses p v).rd q off = s.rd q off)
    ∧ (s.clearCauses p v).mems = s.mems := by
  have cleared := pageRegs_causesCleared s p v
  have lt : clrMask (s.rd p O.INT_CAUSE) v < 4294967296 := Nat.and_le_left.trans_lt (rd_lt s p O.INT_CAUSE)
  rw [clearCauses_eq]
  refine ⟨?_, fun h => ?_, fun q off ho hs hq => ?_, (mems_reRaise ..).trans (cleared.mems.trans (mems_wr ..))⟩
  · rw [rd_cause_reRaise _ hp, cleared.regs _ _ (by decide) fun _ => by decide, rd_wr_same, Nat.mod_eq_of_lt lt]
  · have word : ∀ off ∈ captureRegs, ((s.causesCleared p v).reRaise p).rd p off
        = ((s.wr p O.INT_CAUSE (clrMask (s.rd p O.INT_CAUSE) v)).rearmCapture p).rd p off := by
      intro off ho
      have low : off < 0x100 ∧ off ≠ O.INT_CAUSE ∧ off ≠ O.PAGE_STAT := by
        revert off; decide
      obtain ⟨low, cause, stat⟩ := low
      rw [rd_header_reRaise _ _ low cause, causesCleared, if_pos h]
      exact (pageRegs_stickyCleared _ p v).regs p off (by omega) fun _ => by simpa using stat
    rw [rd64, word _ (by decide), word _ (by decide), word _ (by decide), word _ (by decide)]
    exact rd_capture_rearmCapture _ p
  · rw [(signals_reRaise _ p).reg q off ho hs, cleared.regs q off ho hq]
    refine rd_wr_other s _ ?_
    rw [Ne, regKey_eq_iff ho (by decide)]
    rintro ⟨rfl, rfl⟩
    exact absurd hs (by simp [sigReg])

/-! ## INT_FORCE (R35) -/

/-- A host write of INT_FORCE forces the causes written. -/
theorem headWrite_force {p : Nat} {b : Blk} (hb : blkOf p = some b) (s : State) (v : W32) (req : BitVec 16) :
    s.headWrite p O.INT_FORCE v req = s.forceCauses p v.toNat := by
  rw [headWrite_of_page hb s v req (by decide) (by decide) (d := ⟨O.INT_FORCE, 4, 1, .wo, 0xFFFFFFFF, 0, false⟩)
    (by decide) (by decide), writeReg, if_neg (by decide), if_neg (by decide)]
  exact if_pos rfl

/-- A write of INT_FORCE sets the implemented causes written, and nothing else but what the request changes. -/
theorem forceCauses_effect (s : State) {p : Nat} {b : Blk} (hb : blkOf p = some b) (v : Nat) (hp : p ≠ pEic) :
    (s.forceCauses p v).rd p O.INT_CAUSE = (s.rd p O.INT_CAUSE ||| (v &&& causeBits b)) % 2 ^ 32
    ∧ regsSame (sigReg p) s (s.forceCauses p v) ∧ (s.forceCauses p v).mems = s.mems := by
  have force : s.forceCauses p v
      = (s.wr p O.INT_CAUSE (s.rd p O.INT_CAUSE ||| (v &&& causeBits b))).reRaise p := by simp only [forceCauses, hb]
  rw [force]
  refine ⟨?_, ?_, (mems_reRaise ..).trans (mems_wr ..)⟩
  · rw [rd_cause_reRaise _ hp]
    exact rd_wr_same ..
  · exact ((Signals.wr s _ (by simp [sigReg]) (by decide) (by decide)).trans (signals_reRaise _ p)).reg

/-! ## Bus errors (R50, R51) -/

section
variable {p off : Nat} (hb : blkOf p = none) (hp : p ≠ 0x100) (ho : off < 0x10000)
include hb hp ho

/-- No page answers where no block is. -/
theorem bar0_of_none (s : State) (data : Nat) :
    s.bar0 true true (p * 0x10000 + off) 4 true data = { st := s, err := some .reserved } := by
  have page : (p * 0x10000 + off) / 0x10000 = p := regKey_page ho
  simp [bar0, page, hb, hp]

theorem headWrite_of_none (s : State) (v : W32) (req : BitVec 16) :
    s.headWrite p off v req = s.busError true .reserved 0 (p * 0x10000 + off) req := by
  rw [headWrite, hostWrite, barAccess, if_neg (by decide), bar0_of_none hb hp ho]
  rfl

end

section
variable (s : State) (write : Bool) (c : BusCause) (bar addr : Nat) (req : BitVec 16) (engine : Nat)

/-- A bus error counted, and logged while the log is armed. -/
def busNoted : State :=
  let s := s.incrSat pHif O.HIF_BUSERR_COUNT
  if s.bit pHif O.HIF_BUSERR_LOG 31 then s.setBit pHif O.HIF_BUSERR_LOG 30 true
  else
    (s.wr pHif O.HIF_BUSERR_LOG (2 ^ 31 + b2n (!write) * 2 ^ 29 + c.code * 2 ^ 24 + bar * 2 ^ 22 + engine * 2 ^ 16
      + req.toNat)).wr64 pHif O.HIF_BUSERR_ADDR_LO addr

/-- Beyond its record, a bus error reports outside and sets causes. -/
theorem busError_eq : ∃ l m, s.busError write c bar addr req engine
    = { s.busNoted write c bar addr req engine with out := l }.setCause pHif m := by
  cases write <;> exact ⟨_, _, rfl⟩

theorem rd_log_incrSat : (s.incrSat pHif O.HIF_BUSERR_COUNT).rd pHif O.HIF_BUSERR_LOG = s.rd pHif O.HIF_BUSERR_LOG := by
  unfold incrSat
  exact ite_keeps (fun t : State => t.rd pHif O.HIF_BUSERR_LOG) rfl (rd_wr_other _ _ (by decide))

/-- The log of a bus error while it is armed. -/
theorem rd_log_busError (h : s.bit pHif O.HIF_BUSERR_LOG 31 = false) :
    (s.busError write c bar addr req engine).rd pHif O.HIF_BUSERR_LOG
      = (2 ^ 31 + b2n (!write) * 2 ^ 29 + c.code * 2 ^ 24 + bar * 2 ^ 22 + engine * 2 ^ 16 + req.toNat) % 2 ^ 32 := by
  obtain ⟨l, m, e⟩ := busError_eq s write c bar addr req engine
  rw [e, rd_setCause_other (by decide) (by decide)]
  change (s.busNoted write c bar addr req engine).rd _ _ = _
  unfold busNoted wr64
  simp only [bit, rd_log_incrSat]
  rw [bit] at h
  rw [h, if_neg (by decide), rd_wr_other _ _ (by decide), rd_wr_other _ _ (by decide)]
  exact rd_wr_same ..

theorem mems_busError : (s.busError write c bar addr req engine).mems = s.mems := by
  obtain ⟨l, m, e⟩ := busError_eq s write c bar addr req engine
  have counted : (s.incrSat pHif O.HIF_BUSERR_COUNT).mems = s.mems := by
    unfold incrSat
    exact ite_keeps mems rfl (mems_wr ..)
  rw [e, setCause_mems]
  change (s.busNoted write c bar addr req engine).mems = _
  unfold busNoted
  exact ite_keeps mems ((mems_setBit ..).trans counted) ((mems_wr64 ..).trans ((mems_wr ..).trans counted))

end

/-- The log of a write to a reserved place: VALID, and the cause. -/
theorem log_reserved (s : State) (addr : Nat) (req : BitVec 16) (h : s.bit pHif O.HIF_BUSERR_LOG 31 = false) :
    (s.busError true .reserved 0 addr req).bit pHif O.HIF_BUSERR_LOG 31 = true
      ∧ (s.busError true .reserved 0 addr req).fld pHif O.HIF_BUSERR_LOG 24 4 = BusCause.reserved.code := by
  have lt := req.isLt
  rw [bit, fld, rd_log_busError _ _ _ _ _ _ _ h]
  have word : (2 ^ 31 + b2n (!true) * 2 ^ 29 + BusCause.reserved.code * 2 ^ 24 + 0 * 2 ^ 22 + 0 * 2 ^ 16 + req.toNat) % 2 ^ 32
      = 2 ^ 16 * 0x8300 + req.toNat := by
    rw [show b2n (!true) = 0 from rfl, show BusCause.reserved.code = 3 from rfl]
    omega
  rw [word]
  constructor
  · rw [bitOf, Nat.testBit_two_pow_mul_add _ lt]
    rfl
  · rw [bitsOf, Nat.shiftRight_eq_div_pow, show BusCause.reserved.code = 3 from rfl]
    omega

theorem pageRegs_clearBusLog (s : State) : PageRegs pHif [O.HIF_BUSERR_LOG, O.HIF_BUSERR_COUNT] s s.clearBusLog :=
  (PageRegs.wr s _ (by decide) (by decide)).trans (.wr _ _ (by decide) (by decide))

/-- The log re-armed: VALID, MORE and the count clear, and the address stays. -/
theorem clearBusLog_effect (s : State) : s.clearBusLog.bit pHif O.HIF_BUSERR_LOG 31 = false
    ∧ s.clearBusLog.bit pHif O.HIF_BUSERR_LOG 30 = false ∧ s.clearBusLog.rd pHif O.HIF_BUSERR_COUNT = 0
    ∧ s.clearBusLog.rd64 pHif O.HIF_BUSERR_ADDR_LO = s.rd64 pHif O.HIF_BUSERR_ADDR_LO := by
  have log : s.clearBusLog.rd pHif O.HIF_BUSERR_LOG
      = (s.setFld pHif O.HIF_BUSERR_LOG 30 2 0).rd pHif O.HIF_BUSERR_LOG := rd_wr_other _ _ (by decide)
  have addr : ∀ off, off ≠ O.HIF_BUSERR_LOG → off ≠ O.HIF_BUSERR_COUNT → s.clearBusLog.rd pHif off = s.rd pHif off :=
    fun off h1 h2 => (rd_wr_other _ _ (regKey_ne_of_off h2)).trans (rd_wr_other _ _ (regKey_ne_of_off h1))
  refine ⟨?_, ?_, rd_wr_same .., ?_⟩
  · rw [bit, log, ← bit, bit_setFld _ _ _ _ _ _ _ (by decide)]
    rfl
  · rw [bit, log, ← bit, bit_setFld _ _ _ _ _ _ _ (by decide)]
    rfl
  · rw [rd64, rd64, addr _ (by decide) (by decide), addr _ (by decide) (by decide)]

end State

/-- Settles O15: INT_CAUSE and INT_FORCE by what their writes do to a page, a page without a block by the bus error. -/
theorem interruptCausesClearedAndForced : Obligations.InterruptCausesClearedAndForced := by
  unfold Obligations.InterruptCausesClearedAndForced
  refine ⟨?_, ?_, ?_, ?_⟩
  · intro p b v req s ha hb he
    have hp : p.val ≠ pEic := page_ne_of_blkOf hb (c := .eic) (by decide) he
    change ∃ t, access (·.headWrite p O.INT_CAUSE v req) s = .next t ∧ _
    refine access_next ha fun u hu => ?_
    rw [State.headWrite_cause hb] at hu
    obtain ⟨cause, capture, regs, mems⟩ := State.clearCauses_effect s (v.toNat &&& causeBits b) hp
    rw [← hu] at cause capture regs mems
    refine ⟨cause, capture, fun q off ho hq => ?_, State.memSame_of_mems mems⟩
    obtain ⟨sig, page⟩ := Bool.or_eq_false_iff.mp hq
    refine regs q off ho sig fun e => ?_
    simpa [e, State.captureRegs, and_assoc, and_comm] using page
  · intro p b v req s ha hb he
    have hp : p.val ≠ pEic := page_ne_of_blkOf hb (c := .eic) (by decide) he
    change ∃ t, access (·.headWrite p O.INT_FORCE v req) s = .next t ∧ _
    refine access_next ha fun u hu => ?_
    rw [State.headWrite_force hb] at hu
    obtain ⟨cause, regs, mems⟩ := State.forceCauses_effect s hb v.toNat hp
    rw [← hu] at cause regs mems
    exact ⟨cause, regs, State.memSame_of_mems mems⟩
  · intro p v req s ha hb hp armed c hc
    have logged : ∀ off, off < 0x10000 → ∃ t, access (·.headWrite p off v req) s = .next t
        ∧ t.bit pHif O.HIF_BUSERR_LOG 31 = true ∧ t.fld pHif O.HIF_BUSERR_LOG 24 4 = BusCause.reserved.code
        ∧ memSame s t := by
      intro off ho
      refine access_next ha fun u hu => ?_
      rw [State.headWrite_of_none hb hp ho s v req] at hu
      obtain ⟨valid, cause⟩ := State.log_reserved s (p * 0x10000 + off) req armed
      rw [← hu] at valid cause
      exact ⟨valid, cause, State.memSame_of_mems (by rw [hu]; exact State.mems_busError ..)⟩
    rcases List.mem_pair.mp hc with rfl | rfl
    · exact logged O.INT_CAUSE (by decide)
    · exact logged O.INT_FORCE (by decide)
  · intro s ha
    change ∃ t, access (·.clearBusLog) s = .next t ∧ _
    refine access_next ha fun u hu => ?_
    obtain ⟨valid, more, count, addr⟩ := State.clearBusLog_effect s
    rw [← hu] at valid more count addr
    have regs := State.pageRegs_clearBusLog s
    rw [← hu] at regs
    exact ⟨valid, more, count, addr, congrArg (fun u => { u with pending := s.pending }) regs.rest,
      State.memSame_of_mems regs.mems⟩

end Sys2Proof.Machine
end

section
/-! PROOFS. O16: the indirect window (R43-R48) selects a word, reads it, writes one of the EIC's source table, and moves
on with AINC. -/
namespace Sys2Proof.Machine
namespace State

/-! ## The selection (R43, R44) -/

/-- A host write of IND_SEL or IND_CTL selects. -/
theorem headWrite_sel {p : Nat} {b : Blk} (hb : blkOf p = some b) (s : State) (ctl : Bool) (v : W32) (req : BitVec 16) :
    s.headWrite p (if ctl then O.IND_CTL else O.IND_SEL) v req
      = s.selWrite p (if ctl then O.IND_CTL else O.IND_SEL) v.toNat := by
  cases ctl
  · rw [headWrite_of_page hb s v req (by decide) (by decide) (d := ⟨O.IND_SEL, 4, 1, .rw, 0xFFFFFFFF, 0, false⟩)
      (by decide) (by decide), writeReg, if_neg (by decide), if_neg (by decide), if_neg (by decide)]
    exact if_pos (.inl rfl)
  · rw [headWrite_of_page hb s v req (by decide) (by decide) (d := ⟨O.IND_CTL, 4, 1, .rw, 7, 0, false⟩)
      (by decide) (by decide), writeReg, if_neg (by decide), if_neg (by decide), if_neg (by decide)]
    exact if_pos (.inr rfl)

theorem window_setWindow (s : State) (p : Nat) (w : Window) : (s.setWindow p w).window p = w := sget_sset_same ..

theorem rd_setWindow (s : State) (p : Nat) (w : Window) (q off : Nat) : (s.setWindow p w).rd q off = s.rd q off := rfl

/-- A change of registers and then of a window is one of those two; of any registers, as for the memories above. -/
theorem setWindow_setRegs_rest (s : State) (m : Store W32) (p : Nat) (w : Window) :
    State.setWindow { s with regs := m } p w = { s with
      regs := (State.setWindow { s with regs := m } p w).regs
      windows := (State.setWindow { s with regs := m } p w).windows } := rfl

/-- A selection sets the register, of IND_CTL its three bits, and no other; the phase is LOW and END is left. -/
theorem selWrite_effect (s : State) (p : Nat) {off : Nat} (v : Nat) (ho : off < 0x10000) :
    (s.selWrite p off v).window p = {}
      ∧ (s.selWrite p off v).rd p off = (if off = O.IND_CTL then v % 8 else v) % 2 ^ 32
      ∧ s.selWrite p off v = { s with regs := (s.selWrite p off v).regs, windows := (s.selWrite p off v).windows }
      ∧ ∀ q o, o < 0x10000 → (q = p → o ≠ off) → (s.selWrite p off v).rd q o = s.rd q o := by
  unfold selWrite
  refine ⟨window_setWindow .., ?_, setWindow_setRegs_rest s _ p {}, fun q o ho' hq => ?_⟩
  · rw [rd_setWindow]
    exact rd_wr_same ..
  · rw [rd_setWindow, rd_wr_other]
    rw [Ne, regKey_eq_iff ho' ho]
    exact fun e => hq e.1 e.2

/-! ## AINC (R43) -/

theorem advance_of_clear {s : State} {p : Nat} (h : s.bit p O.IND_CTL 0 = false) : s.advance p = s := by
  simp [advance, h]

/-- Below the last INDEX, AINC advances it and keeps TABLE. -/
theorem advance_of_set {s : State} {p : Nat} (h : s.bit p O.IND_CTL 0 = true) (hi : s.fld p O.IND_SEL 0 24 < 0xFFFFFF) :
    (s.advance p).fld p O.IND_SEL 0 24 = s.fld p O.IND_SEL 0 24 + 1
      ∧ (s.advance p).fld p O.IND_SEL 24 8 = s.fld p O.IND_SEL 24 8 := by
  have next : s.advance p = s.setFld p O.IND_SEL 0 24 (s.fld p O.IND_SEL 0 24 + 1) := by
    have last : s.fld p O.IND_SEL 0 24 ≠ 0xFFFFFF := by omega
    simp [advance, h, last]
  rw [next, fld_setFld_same _ _ _ _ _ _ (by decide), fld_setFld_other _ _ _ _ _ _ _ _ (by decide) (.inr (by decide))]
  exact ⟨Nat.mod_eq_of_lt (by omega), rfl⟩

/-- AINC changes INDEX, or what the window keeps. -/
theorem advance_keeps {γ : Type} (v : State → γ) (s : State) (p : Nat) (hw : ∀ w, v (s.setWindow p w) = v s)
    (hi : ∀ i, v (s.setFld p O.IND_SEL 0 24 i) = v s) : v (s.advance p) = v s := by
  unfold advance
  exact ite_keeps v rfl (ite_keeps v (hw _) (hi _))

theorem out_advance (s : State) (p : Nat) : (s.advance p).out = s.out :=
  advance_keeps State.out s p (fun _ => rfl) fun _ => wr_out ..

theorem tables_advance (s : State) (p : Nat) : (s.advance p).tables = s.tables :=
  advance_keeps State.tables s p (fun _ => rfl) fun _ => wr_tables ..

theorem mems_advance (s : State) (p : Nat) : (s.advance p).mems = s.mems :=
  advance_keeps mems s p (fun _ => mems_setWindows ..) fun _ => mems_setFld ..

theorem rd_advance (s : State) (p : Nat) {q off : Nat} (ho : off < 0x10000) (h : q = p → off ≠ O.IND_SEL) :
    (s.advance p).rd q off = s.rd q off := by
  refine advance_keeps (fun t : State => t.rd q off) s p (fun w => rd_setWindow s p w q off) fun i => rd_wr_other s _ ?_
  rw [Ne, regKey_eq_iff ho (by decide)]
  exact fun e => h e.1 e.2

/-! ## A read of IND_DATA (R44, R46, R47) -/

theorem find_ind_data : regsCommon.find? (·.covers O.IND_DATA) = some ⟨O.IND_DATA, 4, 1, .rw, 0xFFFFFFFF, 0, false⟩ := by
  decide

theorem isStep_ind_data (p : Nat) : isStep p O.IND_DATA = false := by
  simp [isStep]

/-- A 32-bit read of a word inside the table, in phase LOW and outside END, whose entry is sound. -/
theorem indRead_of_word {s : State} {p k i : Nat} (hend : (s.window p).ended = false) (hph : (s.window p).phase = .low)
    (hwide : s.bit p O.IND_CTL 1 = false) (hin : (s.windowIn p).isSome) (hidx : s.windowIndex p = (k, i))
    (hok : s.poorEntry p k (s.windowCopy p k) i = none) :
    s.indRead p = ⟨s.advance p, s.readTab p k (s.windowCopy p k) i, none⟩ := by
  have inside : ¬(s.windowIn p).isNone = true := by simpa [Option.isNone_iff_eq_none, Option.isSome_iff_ne_none] using hin
  simp only [indRead, hend, hph, hwide, tableRead, hidx, hok]
  rw [if_neg (by decide), if_neg inside, if_neg (by decide)]

/-- A host read of IND_DATA reaches the window. -/
theorem bar0_indRead (s : State) {p : Nat} {b : Blk} (hb : blkOf p = some b) :
    s.bar0 true false (p * 0x10000 + O.IND_DATA) 4 true 0 = s.indRead p := by
  have desc := (regDesc?_header hb (off := O.IND_DATA) (by decide)).trans find_ind_data
  rw [bar0_word hb (by decide) (by decide)]
  simp [pageRead, desc, isStep_ind_data]

/-! ## A write of IND_DATA (R46, R48) -/

/-- A word of a table of which no entry has more to it: the word written is stored. -/
theorem putTable_eic (s : State) {i : Nat} (v : Nat) (h : i % 2 = 0) : ∃ m, s.putTable pEic 0 i v
    = { s.setTabAt pEic 0 0 i v with mem := m } := by
  have copy : ∀ t : State, t.writeCopy pEic 0 = 0 := fun t => by simp [writeCopy, isStandby]
  unfold putTable
  simp only [copy]
  rw [if_neg (by decide), if_neg (by omega), if_neg (by decide), if_neg (by decide), if_neg (by decide),
    if_neg (by decide)]
  exact ⟨_, rfl⟩

/-- A 32-bit write of an even word of the EIC's source table. -/
theorem indWrite_eic {s : State} {n : Nat} (hend : (s.window pEic).ended = false) (hph : (s.window pEic).phase = .low)
    (hwide : s.bit pEic O.IND_CTL 1 = false) (hidx : s.windowIndex pEic = (0, 2 * n)) (hn : n < 1024) (v : Nat) :
    s.indWrite pEic v = { st := (s.putTable pEic 0 (2 * n) v).advance pEic } := by
  have info : tabInfo pEic 0 = some (2048, .live) := by decide
  have inside : s.windowIn pEic = some .live := by
    simp [windowIn, hidx, info, hwide]
    omega
  simp [indWrite, hend, hph, inside, tabWritable, hwide, hidx, tableWrite, isStandby]

/-- A host write of IND_DATA reaches the window. -/
theorem headWrite_indWrite (s : State) {p : Nat} {b : Blk} (hb : blkOf p = some b) (v : W32) (req : BitVec 16) :
    s.headWrite p O.IND_DATA v req = hostEnds true 0 (p * 0x10000 + O.IND_DATA) req 0 (s.indWrite p v.toNat) := by
  have desc := (regDesc?_header hb (off := O.IND_DATA) (by decide)).trans find_ind_data
  have data : (v.setWidth 1024).toNat = v.toNat := BitVec.toNat_setWidth_of_le (by decide)
  rw [headWrite, hostWrite, barAccess, if_neg (by decide), bar0_word hb (by decide) (by decide), if_pos rfl, data]
  simp [pageWrite, hb, desc, isStep_ind_data, b2n]

/-- A table word other than the one written. -/
theorem tabAt_setTabAt_other (s : State) {p k c i p' k' c' i' : Nat} (v : Nat) (hk : k < 256) (hc : c < 2) (hi : i < 2 ^ 24)
    (hk' : k' < 256) (hc' : c' < 2) (hi' : i' < 2 ^ 24) (h : (p', k', c', i') ≠ (p, k, c, i)) :
    (s.setTabAt p k c i v).tabAt p' k' c' i' = s.tabAt p' k' c' i' := by
  rw [tabAt_setTabAt, if_neg]
  intro e
  simp only [tabKey] at e
  refine h ?_
  simp only [Prod.mk.injEq]
  norm_num at *
  omega

end State

/-- Settles O16: a host access of the window is `selWrite`, `indRead` or `indWrite`, and AINC is `advance`. -/
theorem windowsSelectReadAndWrite : Obligations.WindowsSelectReadAndWrite := by
  unfold Obligations.WindowsSelectReadAndWrite
  refine ⟨?_, ?_, ?_⟩
  · intro p b ctl v req s ha hb
    change ∃ t, access (·.headWrite p (if ctl then O.IND_CTL else O.IND_SEL) v req) s = .next t ∧ _
    refine access_next ha fun u hu => ?_
    rw [State.headWrite_sel hb] at hu
    obtain ⟨window, value, rest, regs⟩ := State.selWrite_effect s p (off := if ctl then O.IND_CTL else O.IND_SEL) v.toNat
      (by split <;> decide)
    rw [← hu] at window value rest regs
    have value : u.rd p (if ctl then O.IND_CTL else O.IND_SEL) = if ctl then v.toNat % 8 else v.toNat := by
      rw [value]
      have lt := v.isLt
      cases ctl
      · exact Nat.mod_eq_of_lt lt
      · exact Nat.mod_eq_of_lt (show v.toNat % 8 < 2 ^ 32 by omega)
    refine ⟨window, value, congrArg (fun u => { u with pending := s.pending }) rest, fun q off ho hq => ?_⟩
    refine regs q off ho fun e => ?_
    rintro rfl
    cases ctl <;> simp [e] at hq
  · intro p b req s ha hb hend hph hwide hin a hok
    change ∃ t, access (fun s => State.hostEnds false 0 (p * 0x10000 + O.IND_DATA) req 0
      (s.bar0 true false (p * 0x10000 + O.IND_DATA) 4 true 0)) s = .next t ∧ _
    refine access_next ha fun u hu => ?_
    rw [State.bar0_indRead s hb, State.indRead_of_word hend hph hwide hin (k := a.1) (i := a.2) rfl hok] at hu
    have hu : u = (s.advance p).emit (.readData (BitVec.ofNat 64 (s.readTab p a.1 (s.windowCopy p a.1) a.2))) := hu
    have out : u.out = .readData (BitVec.ofNat 64 (s.readTab p a.1 (s.windowCopy p a.1) a.2)) :: s.out := by
      rw [hu]
      exact congrArg _ (State.out_advance s p)
    have ainc : s.bit p O.IND_CTL 0 = true → s.fld p O.IND_SEL 0 24 < 0xFFFFFF →
        u.fld p O.IND_SEL 0 24 = s.fld p O.IND_SEL 0 24 + 1 ∧ u.fld p O.IND_SEL 24 8 = s.fld p O.IND_SEL 24 8 := by
      rw [hu]
      exact State.advance_of_set
    have still : s.bit p O.IND_CTL 0 = false → u = { s with out := u.out } := fun h => by
      rw [hu, State.advance_of_clear h]
      rfl
    have mems : u.mems = s.mems := by
      rw [hu]
      exact State.mems_advance s p
    exact ⟨out, ainc, fun h => congrArg (fun u => { u with pending := s.pending }) (still h), State.memSame_of_mems mems⟩
  · intro n v req s ha hn hend hph hwide hidx
    change ∃ t, access (·.headWrite pEic O.IND_DATA v req) s = .next t ∧ _
    refine access_next ha fun u hu => ?_
    obtain ⟨m, put⟩ := State.putTable_eic s (i := 2 * n) v.toNat (by omega)
    rw [State.headWrite_indWrite s (b := .eic) (by decide), State.indWrite_eic hend hph hwide hidx hn, put] at hu
    have hu : u = ({ s.setTabAt pEic 0 0 (2 * n) v.toNat with mem := m } : State).advance pEic := hu
    have tabs : ∀ p k c i, u.tabAt p k c i = (s.setTabAt pEic 0 0 (2 * n) v.toNat).tabAt p k c i := fun p k c i => by
      rw [State.tabAt, hu, State.tables_advance]
      rfl
    have word : u.tabAt pEic 0 0 (2 * n) = v.toNat := by
      rw [tabs, State.tabAt_setTabAt, if_pos rfl]
      exact Nat.mod_eq_of_lt v.isLt
    have others : ∀ p k c i, k < 256 → c < 2 → i < 2 ^ 24 → (p, k, c, i) ≠ (pEic, 0, 0, 2 * n) →
        u.tabAt p k c i = s.tabAt p k c i := fun p k c i hk hc hi h => by
      rw [tabs]
      exact State.tabAt_setTabAt_other s _ (by decide) (by decide) (by omega) hk hc hi h
    have mems : u.mems = s.mems := by
      rw [hu, State.mems_advance]
      rfl
    refine ⟨word, others, fun q off ho hq => ?_, State.memSame_of_mems mems⟩
    change u.rd q off = s.rd q off
    rw [hu, State.rd_advance _ _ ho fun e => by simpa [e] using hq]
    rfl

end Sys2Proof.Machine
end

section
/-! PROOFS. Registers of the work queues, and O7 and O8: doorbells that are accepted or refused, and writes of a push
window. -/
namespace Sys2Proof.Machine
namespace State

/-! ## Registers of a queue's block -/

/-- Two registers of one queue's block lie apart. -/
theorem sqr_ne {a b : Nat} (q : Nat) (h : a ≠ b) : sqr a q ≠ sqr b q := by
  simp only [sqr]
  omega

/-- A register of a page other than the one written reads as before. -/
theorem rd_wr_off (s : State) {p a b : Nat} (v : Nat) (h : b ≠ a) : (s.wr p a v).rd p b = s.rd p b :=
  rd_wr_other s v (regKey_ne_of_off h)

theorem rd_setFld_off (s : State) {p a b : Nat} (lo n v : Nat) (h : b ≠ a) : (s.setFld p a lo n v).rd p b = s.rd p b :=
  rd_wr_off s _ h

theorem rd_setBit_off (s : State) {p a b : Nat} (i : Nat) (v : Bool) (h : b ≠ a) : (s.setBit p a i v).rd p b = s.rd p b :=
  rd_wr_off s _ h

theorem fld_of_rd {s t : State} {p off : Nat} (lo n : Nat) (h : t.rd p off = s.rd p off) : t.fld p off lo n = s.fld p off lo n :=
  congrArg (bitsOf · lo n) h

theorem bit_of_rd {s t : State} {p off : Nat} (b : Nat) (h : t.rd p off = s.rd p off) : t.bit p off b = s.bit p off b :=
  congrArg (bitOf · b) h

/-- The register of one of a page's queues, below the end of the page. -/
theorem sqr_lt {a q : Nat} (ha : a < 0x7020) (hq : q < 528) : sqr a q < 0x10000 := by
  simp only [sqr]
  omega

/-- What a change of the registers `offs` of a page leaves alone, as the statements say it. -/
theorem PageRegs.regsSame {p : Nat} {offs : List Nat} {s t : State} (h : PageRegs p offs s t) {may : Nat → Nat → Bool}
    (hm : ∀ off ∈ offs, may p off = true) : regsSame may s t :=
  fun q off ho hn => h.regs q off ho fun e hmem => by rw [e, hm off hmem] at hn; cases hn

/-! ## Doorbells (R65, R79) -/

/-- An accepted submission doorbell moves the tail; beside it only what the engine keeps of the queues changes. -/
theorem sqDoorbell_of_fits {s : State} {q v : Nat} (hst : s.qState q = 1) (ht : v % 2 ^ 16 < s.qSize q)
    (ha : (v % 2 ^ 16 + s.qSize q - s.qTail q % s.qSize q) % s.qSize q
      ≤ s.qSize q - 1 - (s.qTail q + s.qSize q - s.qHead q % s.qSize q) % s.qSize q) :
    ∃ m, s.sqDoorbell q v = { s.setFld pWqm (sqr O.WQM_QPTR q) 16 16 (v % 2 ^ 16) with sq := m } := by
  unfold sqDoorbell
  simp only
  rw [if_neg (not_not.mpr (show (s.setSq q _).qState q = 1 from hst)), if_pos ⟨ht, ha⟩]
  exact ⟨_, rfl⟩

/-- An accepted completion doorbell moves the head. -/
theorem cqDoorbell_of_fits {s : State} {c v : Nat} (hact : s.cActive c = true) (hh : v % 2 ^ 16 < s.cSize c)
    (ha : (v % 2 ^ 16 + s.cSize c - s.fld pWqm (sqr O.WQM_CQHEAD c) 0 16) % s.cSize c
      ≤ (s.cTail c + s.cSize c - s.fld pWqm (sqr O.WQM_CQHEAD c) 0 16) % s.cSize c) :
    s.cqDoorbell c v = s.setFld pWqm (sqr O.WQM_CQHEAD c) 0 16 (v % 2 ^ 16) := by
  unfold cqDoorbell
  exact if_pos ⟨hact, hh, ha⟩

/-- A queue's tail moves: no other register of the queue does. -/
theorem pageRegs_setTail (s : State) {q : Nat} (v : Nat) (hq : q < 528) :
    PageRegs pWqm [sqr O.WQM_QPTR q] s (s.setFld pWqm (sqr O.WQM_QPTR q) 16 16 v) :=
  .wr s _ List.mem_cons_self (sqr_lt (by decide) hq)

theorem pageRegs_setHead (s : State) {c : Nat} (v : Nat) (hc : c < 256) :
    PageRegs pWqm [sqr O.WQM_CQHEAD c] s (s.setFld pWqm (sqr O.WQM_CQHEAD c) 0 16 v) :=
  .wr s _ List.mem_cons_self (sqr_lt (by decide) (by omega))

theorem qState_setTail (s : State) (q v : Nat) : (s.setFld pWqm (sqr O.WQM_QPTR q) 16 16 v).qState q = s.qState q :=
  fld_of_rd _ _ (rd_setFld_off s _ _ _ (sqr_ne q (by decide)))

theorem qTail_setTail (s : State) (q v : Nat) : (s.setFld pWqm (sqr O.WQM_QPTR q) 16 16 v).qTail q = v % 2 ^ 16 :=
  fld_setFld_same _ _ _ _ _ _ (by decide)

/-- Requests change no register of WQM but its causes. -/
theorem sigReg_wqm {p off : Nat} (h : off ≠ O.INT_CAUSE) : sigReg p pWqm off = false := by
  have seq : ¬ pYsq ≤ pWqm := by decide
  simp [sigReg, h, seq]

theorem rd_wqm_setCause (s : State) (p m : Nat) {off : Nat} (ho : off < 0x10000) (h : off ≠ O.INT_CAUSE) :
    (s.setCause p m).rd pWqm off = s.rd pWqm off := rd_setCause_other ho (sigReg_wqm h)

/-- A submission doorbell that is out of range puts the queue in ERROR. -/
theorem sqDoorbell_of_overrun {s : State} {q v : Nat} (hst : s.qState q = 1) (h : ¬ (v % 2 ^ 16 < s.qSize q ∧
    (v % 2 ^ 16 + s.qSize q - s.qTail q % s.qSize q) % s.qSize q
      ≤ s.qSize q - 1 - (s.qTail q + s.qSize q - s.qHead q % s.qSize q) % s.qSize q)) :
    s.sqDoorbell q v = (s.setSq q { s.sqOf q with win := [] }).queueError q 0x0A (s.qTail q) := by
  unfold sqDoorbell
  simp only
  exact (if_neg (not_not.mpr (show (s.setSq q _).qState q = 1 from hst))).trans (if_neg h)

theorem sqDoorbell_of_not_active {s : State} {q v : Nat} (hst : s.qState q ≠ 1) :
    s.sqDoorbell q v = (s.setSq q { s.sqOf q with win := [] }).setCause pWqm 4 :=
  if_pos hst

theorem cqDoorbell_of_not_active {s : State} {c v : Nat} (hact : s.cActive c = false) :
    s.cqDoorbell c v = s.setCause pWqm 8 :=
  if_neg fun h => by rw [hact] at h; cases h.1

/-- The records of a queue in ERROR, before the interrupt request. -/
def wrError (s : State) (q code idx : Nat) : State :=
  ((s.wr pWqm (sqr O.WQM_QERR q) (2 ^ 31 + code * 2 ^ 16 + idx % 2 ^ 16)).setQState q 3).setQerrMap q true

/-- An error that is no malformed entry is recorded, and requests an interrupt. -/
theorem queueError_of_sound (s : State) (q : Nat) {code : Nat} (idx : Nat) (h : 9 < code) :
    s.queueError q code idx = (s.wrError q code idx).setCause pWqm 1 := by
  unfold queueError
  simp only
  rw [if_neg (by omega)]
  rfl

/-- The word of QERR_MAP that holds a queue's bit, below the queues' own registers. -/
theorem qerrMap_lt {q : Nat} (hq : q < 528) : O.WQM_QERR_MAP + 4 * (q / 32) < 0x144 := by
  simp only [O.WQM_QERR_MAP]
  omega

theorem le_sqr {a : Nat} (q : Nat) (ha : 0x800 ≤ a) : 0x800 ≤ sqr a q := by
  simp only [sqr]
  omega

/-- QERR holds the record, QSTAT the state and QERR_MAP the queue's bit; every register above QERR_MAP but those two is as
before. -/
theorem wrError_effect (s : State) {q : Nat} (code idx : Nat) (hq : q < 528) :
    (s.wrError q code idx).qState q = 3
      ∧ (s.wrError q code idx).rd pWqm (sqr O.WQM_QERR q) = (2 ^ 31 + code * 2 ^ 16 + idx % 2 ^ 16) % 2 ^ 32
      ∧ (s.wrError q code idx).bit pWqm (O.WQM_QERR_MAP + 4 * (q / 32)) (q % 32) = true
      ∧ ∀ off, 0x800 ≤ off → off ≠ sqr O.WQM_QERR q → off ≠ sqr O.WQM_QSTAT q →
          (s.wrError q code idx).rd pWqm off = s.rd pWqm off := by
  have map := qerrMap_lt hq
  have above : ∀ (t : State) off, 0x800 ≤ off → (t.setQerrMap q true).rd pWqm off = t.rd pWqm off :=
    fun t off ho => rd_setBit_off t _ _ (by omega)
  refine ⟨?_, ?_, bit_setBit_same _ _ _ _ _ (by omega), fun off ho h1 h2 => ?_⟩
  · exact (fld_of_rd _ _ (above _ _ (le_sqr q (by decide)))).trans (fld_setFld_same _ _ _ _ _ _ (by decide))
  · exact (above _ _ (le_sqr q (by decide))).trans ((rd_setFld_off _ _ _ _ (sqr_ne q (by decide))).trans (rd_wr_same ..))
  · exact (above _ _ ho).trans ((rd_setFld_off _ _ _ _ h2).trans (rd_wr_off _ _ h1))

/-! ## Push windows (R76) -/

/-- The words of a write inside a push window stand at their places of it, and only what the engine keeps of the queues
changes. -/
theorem pushWrite_of_fits {s : State} {q dw : Nat} {data : List W32} (hd : data ≠ []) (hl : dw + data.length ≤ 32) :
    s.pushWrite q dw data = { s with sq := (s.pushWrite q dw data).sq }
      ∧ ∀ i, i < data.length → (dw + i, data.getD i 0) ∈ ((s.pushWrite q dw data).sqOf q).win := by
  have shape : s.pushWrite q dw data = s.setSq q { s.sqOf q with
      win := (data.zipIdx.map fun e => (dw + e.2, e.1))
        ++ (s.sqOf q).win.filter fun e => !(data.zipIdx.map fun e => (dw + e.2, e.1)).any fun n => n.1 = e.1 } := by
    unfold pushWrite
    exact if_neg (by simp [hd]; omega)
  refine ⟨by rw [shape]; rfl, fun i hi => ?_⟩
  rw [shape, sqOf_setSq_same]
  refine List.mem_append_left _ (List.mem_map.mpr ⟨(data.getD i 0, i), ?_, rfl⟩)
  rw [List.mem_zipIdx_iff_getElem?, List.getD_eq_getElem?_getD, List.getElem?_eq_getElem hi]
  rfl

end State

/-- Settles O7: each row is one register written, or one queue's record. -/
theorem doorbellsAcceptedMoveTailAndHead : Obligations.DoorbellsAcceptedMoveTailAndHead := by
  unfold Obligations.DoorbellsAcceptedMoveTailAndHead
  refine ⟨?_, ?_, ?_⟩
  · intro q v s ha hst ht hadv
    change ∃ t, act .wqm (·.sqDoorbell q v.toNat) s = .next t ∧ _
    refine act_next ha fun u hu => ?_
    obtain ⟨m, door⟩ := State.sqDoorbell_of_fits hst ht hadv
    rw [door] at hu
    generalize hw : s.setFld pWqm (State.sqr O.WQM_QPTR q) 16 16 (v.toNat % 2 ^ 16) = w at hu
    have regs := State.pageRegs_setTail s (v.toNat % 2 ^ 16) q.isLt
    have state := (State.qState_setTail s q (v.toNat % 2 ^ 16)).trans hst
    have tail := State.qTail_setTail s q (v.toNat % 2 ^ 16)
    rw [hw] at regs state tail
    have only : w = { s with regs := w.regs } := regs.rest
    subst hu
    refine ⟨tail.trans (Nat.mod_mod _ _), state, ?_, State.memSame_of_mems regs.mems, regs.regsSame (by simp)⟩
    rw [only]
  · intro c v s ha hact hh hadv
    change ∃ t, act .wqm (·.cqDoorbell c v.toNat) s = .next t ∧ _
    refine act_next ha fun u hu => ?_
    rw [State.cqDoorbell_of_fits hact hh hadv] at hu
    have regs := State.pageRegs_setHead s (v.toNat % 2 ^ 16) c.isLt
    have head := State.fld_setFld_same s pWqm (State.sqr O.WQM_CQHEAD c) 0 16 (v.toNat % 2 ^ 16) (by decide)
    rw [← hu] at regs head
    exact ⟨head.trans (Nat.mod_mod _ _), congrArg (fun u => { u with pending := s.pending }) regs.rest,
      State.memSame_of_mems regs.mems, regs.regsSame (by simp)⟩
  · intro q dw data s ha hd hl
    change ∃ t, act .wqm (·.pushWrite q dw data) s = .next t ∧ _
    refine act_next ha fun u hu => ?_
    obtain ⟨rest, words⟩ := State.pushWrite_of_fits (s := s) (q := q) hd hl
    rw [← hu] at rest words
    exact ⟨congrArg (fun u => { u with pending := s.pending }) rest,
      State.memSame_of_mems ((congrArg State.mems rest).trans rfl), words⟩

/-- Settles O8: an overrun records an error of its queue, the others set a cause and nothing else. -/
theorem doorbellsRefusedRaiseTheirCause : Obligations.DoorbellsRefusedRaiseTheirCause := by
  unfold Obligations.DoorbellsRefusedRaiseTheirCause
  have signal : ∀ (s w : State) (m b : Nat), b < 32 → bitOf m b = true → w.regs = s.regs → w.mems = s.mems →
      (w.setCause pWqm m).bit pWqm O.INT_CAUSE b = true ∧ regsSame (sigReg pWqm) s (w.setCause pWqm m)
        ∧ memSame s (w.setCause pWqm m) := fun s w m b hb hm hr hmem => by
    have regs : ∀ p off, w.rd p off = s.rd p off := fun p off => by rw [State.rd, State.rd, hr]
    refine ⟨?_, fun p off ho hs => ?_, State.memSame_of_mems ((State.setCause_mems ..).trans hmem)⟩
    · rw [State.bit_setCause _ _ (by decide) hb, hm, Bool.or_true]
    · exact (State.rd_setCause_other ho hs).trans (regs p off)
  refine ⟨?_, ?_, ?_⟩
  · intro q v s ha hst hover
    change ∃ t, act .wqm (·.sqDoorbell q v.toNat) s = .next t ∧ _
    refine act_next ha fun u hu => ?_
    rw [State.sqDoorbell_of_overrun hst hover, State.queueError_of_sound _ _ _ (by decide)] at hu
    generalize hw : s.setSq q { s.sqOf q with win := [] } = w at hu
    have still : ∀ off, w.rd pWqm off = s.rd pWqm off := fun off => by rw [← hw]; rfl
    obtain ⟨state, record, map, others⟩ := State.wrError_effect w 0x0A (s.qTail q) q.isLt
    have regs : ∀ off, off < 0x10000 → off ≠ O.INT_CAUSE → u.rd pWqm off = (w.wrError q 0x0A (s.qTail q)).rd pWqm off :=
      fun off ho hc => by rw [hu]; exact State.rd_wqm_setCause _ _ _ ho hc
    have mapLt := State.qerrMap_lt q.isLt
    have own : ∀ a, 0x800 ≤ a → a < 0x7020 →
        u.rd pWqm (State.sqr a q) = (w.wrError q 0x0A (s.qTail q)).rd pWqm (State.sqr a q) := fun a h1 h2 =>
      regs _ (State.sqr_lt h2 q.isLt) fun e => absurd (State.le_sqr q h1) (by rw [e]; decide)
    refine ⟨?_, ?_, ?_, ?_, ?_, ?_⟩
    · exact (State.fld_of_rd _ _ (own _ (by decide) (by decide))).trans state
    · refine (State.fld_of_rd _ _ (own _ (by decide) (by decide))).trans (State.fld_of_rd _ _ ?_)
      exact (others _ (State.le_sqr q (by decide)) (State.sqr_ne q (by decide)) (State.sqr_ne q (by decide))).trans
        (still _)
    · refine (own _ (by decide) (by decide)).trans (record.trans ?_)
      have lt : s.qTail q < 2 ^ 16 := bitsOf_lt _ _ _
      omega
    · refine (State.bit_of_rd _ (regs _ (by omega) fun e => ?_)).trans map
      have : O.INT_CAUSE < O.WQM_QERR_MAP := by decide
      omega
    · have off : ∀ a, 0x2000 ≤ a → O.WQM_CNT_MALFORMED ≠ State.sqr a q := fun a h => by
        simp only [State.sqr, O.WQM_CNT_MALFORMED]; omega
      exact (regs _ (by decide) (by decide)).trans
        ((others _ (by decide) (off _ (by decide)) (off _ (by decide))).trans (still _))
    · have cause := State.bit_setCause (w.wrError q 0x0A (s.qTail q)) 1 (show pWqm ≠ pEic by decide) (b := 0) (by decide)
      rw [← hu] at cause
      exact cause.trans (by simp [bitOf])
  · intro q v s ha hst
    change ∃ t, act .wqm (·.sqDoorbell q v.toNat) s = .next t ∧ _
    refine act_next ha fun u hu => ?_
    rw [State.sqDoorbell_of_not_active hst] at hu
    have effect := signal s (s.setSq q { s.sqOf q with win := [] }) 4 2 (by decide) (by decide) rfl rfl
    rw [← hu] at effect
    exact effect
  · intro c v s ha hact
    change ∃ t, act .wqm (·.cqDoorbell c v.toNat) s = .next t ∧ _
    refine act_next ha fun u hu => ?_
    rw [State.cqDoorbell_of_not_active hact] at hu
    have effect := signal s s 8 3 (by decide) (by decide) rfl rfl
    rw [← hu] at effect
    exact effect

end Sys2Proof.Machine
end

section
/-! PROOFS. O10 fails: of an entry fetched beyond those that a closing context still serves it says that the job has ended
with BAD_STATE only while the count of those entries stands at 0. The model counts on: the second entry fetched beyond
them finds the count at -1, and its job has ended with BAD_STATE too, as R69 asks. -/
namespace Sys2Proof.Machine
open State

/-- WQM runs with the host link up, and the arbiter's round stands at queue 0. That queue is ACTIVE with sixteen entries,
and a NOP stands at its fetch index below the doorbell; `n` entries that an accepted CTX_CLOSE serves are left. -/
def closedQueue (n : Int) : State where
  regs := [(regKey pHif O.HIF_PM_STAT, 1), (regKey pWqm O.PAGE_STAT, 2), (regKey pWqm O.WQM_QCFG, 0x80000004),
    (regKey pWqm O.WQM_QSTAT, 0x40000000), (regKey pWqm O.WQM_QPTR, 0x00020000)]
  host := [(3, 0x7F), (6, 0xFF), (7, 0xFF)]
  sq := [(0, { shut := some n })]
  arb := 16

set_option maxRecDepth 2000 in
/-- A fetch beyond the entries served leads from a count of 0 to one of -1. -/
theorem shut_after_fetch : ((after (.entryFetch true) (closedQueue 0)).sqOf 0).shut = some (-1) := by decide

set_option maxRecDepth 2000 in
/-- At a count of -1 the job of the entry fetched has ended with BAD_STATE. -/
theorem ready_after_fetch : ((after (.entryFetch true) (closedQueue (-1))).sqOf 0).ready.map (·.out)
    = [some { status := stBadState }] := by
  decide

set_option maxRecDepth 2000 in
/-- Refutes O10: the second entry fetched beyond a close makes a job that has ended with BAD_STATE. -/
theorem not_jobsFetchedAndStarted : ¬ Obligations.JobsFetchedAndStarted := by
  unfold Obligations.JobsFetchedAndStarted
  rintro ⟨fetch, -, -⟩
  obtain ⟨t, j, ht, -, ready, -⟩ := fetch 16 (closedQueue (-1)) (by decide) (by decide) (by decide) (by decide) (by decide)
    (by decide) (by decide) (by decide)
  have reached : after (.entryFetch true) (closedQueue (-1)) = t := by rw [after, ht]
  have ready : (t.sqOf 0).ready.map (·.out) = [none] := congrArg (List.map (·.out)) ready
  rw [← reached, ready_after_fetch] at ready
  exact absurd ready (by decide)

end Sys2Proof.Machine
end

section
/-! PROOFS. O9: queues are enabled, start to drain and become DISABLED. -/
namespace Sys2Proof.Machine

/-- A field of the register written is the one given, where the mask of a merging write covers it. -/
theorem bitsOf_merge {old v m lo n : Nat} (hm : ∀ i < n, bitOf m (lo + i) = true) (hl : lo + n ≤ 32) :
    bitsOf (clrMask old m ||| (v &&& m)) lo n = bitsOf v lo n := by
  apply Nat.eq_of_testBit_eq
  intro i
  rw [testBit_bitsOf, testBit_bitsOf]
  by_cases hi : i < n
  · have old := bitOf_clrMask old m (lo + i) (by omega)
    rw [hm i hi] at old
    have mask : m.testBit (lo + i) = true := hm i hi
    rw [Nat.testBit_or, Nat.testBit_and, mask, show (clrMask _ m).testBit (lo + i) = false by simpa [bitOf] using old]
    simp
  · simp [hi]

namespace State

theorem mems_setSq (s : State) (q : Nat) (v : Sq) : (s.setSq q v).mems = s.mems := rfl
theorem rd_setSq (s : State) (q : Nat) (v : Sq) (p off : Nat) : (s.setSq q v).rd p off = s.rd p off := rfl
theorem sqOf_wr (s : State) (p off v q : Nat) : (s.wr p off v).sqOf q = s.sqOf q := rfl
theorem sqOf_setFld (s : State) (p off lo n v q : Nat) : (s.setFld p off lo n v).sqOf q = s.sqOf q := sqOf_wr ..
theorem sqOf_setBit (s : State) (p off b : Nat) (v : Bool) (q : Nat) : (s.setBit p off b v).sqOf q = s.sqOf q := sqOf_wr ..

/-! ## Enabling and draining a queue (R58-R60) -/

/-- A queue enabled is ACTIVE, with no error and with head, fetch index and tail at START; its other fields are as before. -/
theorem queueEnable_effect (s : State) {q : Nat} (hq : q < 528) :
    (s.queueEnable q).qState q = 1 ∧ (s.queueEnable q).bit pWqm (sqr O.WQM_QCFG q) 31 = true
      ∧ (s.queueEnable q).rd pWqm (sqr O.WQM_QERR q) = 0
      ∧ (∀ lo n, lo + n ≤ 31 → (s.queueEnable q).fld pWqm (sqr O.WQM_QCFG q) lo n = s.fld pWqm (sqr O.WQM_QCFG q) lo n)
      ∧ (s.queueEnable q).qHead q = s.fld pWqm (sqr O.WQM_QPTR q) 0 16
      ∧ (s.queueEnable q).qTail q = s.fld pWqm (sqr O.WQM_QPTR q) 0 16
      ∧ ((s.queueEnable q).sqOf q).fetch = s.fld pWqm (sqr O.WQM_QPTR q) 0 16
      ∧ (s.queueEnable q).mems = s.mems := by
  unfold queueEnable
  simp only
  generalize hst : s.fld pWqm (sqr O.WQM_QPTR q) 0 16 = st
  have lt : st % 2 ^ 16 = st := Nat.mod_eq_of_lt (hst ▸ bitsOf_lt _ _ _)
  generalize ha : s.setFld pWqm (sqr O.WQM_QPTR q) 16 16 st = a
  generalize hb : a.setFld pWqm (sqr O.WQM_QSTAT q) 0 16 st = b
  generalize hc : b.setSq q { b.sqOf q with fetch := st, finished := [], shut := (b.sqOf q).shut.map fun _ => 0 } = c
  generalize hd : (c.setBit pWqm (sqr O.WQM_QCFG q) 31 true).setQState q 1 = d
  have map := qerrMap_lt hq
  have last : ∀ off, 0x800 ≤ off → off ≠ sqr O.WQM_QERR q →
      ((d.wr pWqm (sqr O.WQM_QERR q) 0).setQerrMap q false).rd pWqm off = d.rd pWqm off := fun off ho hne =>
    (rd_setBit_off _ _ _ (by omega)).trans (rd_wr_off _ _ hne)
  have same : ∀ off, c.rd pWqm off = b.rd pWqm off := fun off => by rw [← hc, rd_setSq]
  have qcfg : d.rd pWqm (sqr O.WQM_QCFG q) = (c.setBit pWqm (sqr O.WQM_QCFG q) 31 true).rd pWqm (sqr O.WQM_QCFG q) := by
    rw [← hd]
    exact rd_setFld_off _ _ _ _ (sqr_ne q (by decide))
  have toQcfg := (last _ (le_sqr q (by decide)) (sqr_ne q (by decide))).trans qcfg
  have toQstat := last (sqr O.WQM_QSTAT q) (le_sqr q (by decide)) (sqr_ne q (by decide))
  have toQptr := last (sqr O.WQM_QPTR q) (le_sqr q (by decide)) (sqr_ne q (by decide))
  refine ⟨?_, ?_, ?_, fun lo n h => ?_, ?_, ?_, ?_, ?_⟩
  · rw [qState, fld_of_rd _ _ toQstat, ← hd]
    exact fld_setFld_same _ _ _ _ _ _ (by decide)
  · exact (bit_of_rd _ toQcfg).trans (bit_setBit_same _ _ _ _ _ (by decide))
  · rw [setQerrMap, rd_setBit_off _ _ _ (fun e => absurd (le_sqr (a := O.WQM_QERR) q (by decide)) (by omega)), rd_wr_same]
  · rw [fld_of_rd _ _ toQcfg, setBit, fld_setFld_other _ _ _ _ _ _ _ _ (by omega) (by omega)]
    refine fld_of_rd _ _ ((same _).trans ?_)
    rw [← hb, ← ha]
    exact (rd_setFld_off _ _ _ _ (sqr_ne q (by decide))).trans (rd_setFld_off _ _ _ _ (sqr_ne q (by decide)))
  · rw [qHead, fld_of_rd _ _ toQstat, ← hd, setQState, fld_setFld_other _ _ _ _ _ _ _ _ (by decide) (by decide)]
    refine (fld_of_rd _ _ ((rd_setBit_off _ _ _ (sqr_ne q (by decide))).trans (same _))).trans ?_
    rw [← hb, fld_setFld_same _ _ _ _ _ _ (by decide), lt]
  · rw [qTail, fld_of_rd _ _ toQptr, ← hd]
    refine (fld_of_rd _ _ (((rd_setFld_off _ _ _ _ (sqr_ne q (by decide))).trans
      (rd_setBit_off _ _ _ (sqr_ne q (by decide)))).trans (same _))).trans ?_
    rw [← hb, fld_of_rd _ _ (rd_setFld_off _ _ _ _ (sqr_ne q (by decide))), ← ha, fld_setFld_same _ _ _ _ _ _ (by decide), lt]
  · rw [setQerrMap, sqOf_setBit, sqOf_wr, ← hd, setQState, sqOf_setFld, sqOf_setBit, ← hc, sqOf_setSq_same]
  · rw [setQerrMap, mems_setBit, mems_wr, ← hd, setQState, mems_setFld, mems_setBit, ← hc, mems_setSq, ← hb, mems_setFld,
      ← ha, mems_setFld]

/-- A queue that starts to drain keeps nothing that it fetched; its published head stays. -/
theorem queueDrain_effect (s : State) (q : Nat) :
    (s.queueDrain q).qState q = 2 ∧ (s.queueDrain q).bit pWqm (sqr O.WQM_QCFG q) 31 = false
      ∧ (s.queueDrain q).qHead q = s.qHead q
      ∧ (s.queueDrain q).sqOf q = { s.sqOf q with chain := [], ready := [], pushes := [], cut := none }
      ∧ (s.queueDrain q).mems = s.mems := by
  unfold queueDrain
  simp only
  generalize ha : s.setBit pWqm (sqr O.WQM_QCFG q) 31 false = a
  generalize hb : a.setQState q 2 = b
  refine ⟨?_, ?_, ?_, ?_, ?_⟩
  · rw [qState, fld_of_rd _ _ (rd_setSq ..), ← hb]
    exact fld_setFld_same _ _ _ _ _ _ (by decide)
  · rw [bit_of_rd _ (rd_setSq ..), ← hb, setQState, bit_of_rd _ (rd_setFld_off _ _ _ _ (sqr_ne q (by decide))), ← ha]
    exact bit_setBit_same _ _ _ _ _ (by decide)
  · rw [qHead, fld_of_rd _ _ (rd_setSq ..), ← hb, setQState, fld_setFld_other _ _ _ _ _ _ _ _ (by decide) (by decide), ← ha]
    exact fld_of_rd _ _ (rd_setBit_off _ _ _ (sqr_ne q (by decide)))
  · rw [sqOf_setSq_same, ← hb, setQState, sqOf_setFld, ← ha, sqOf_setBit]
  · rw [mems_setSq, ← hb, setQState, mems_setFld, ← ha, mems_setBit]

/-- The write that enables a DISABLED queue. -/
theorem qcfgWrite_of_enable (drain : State → Nat → State) {s : State} {q v : Nat} (hst : s.qState q = 0)
    (hen : bitOf v 31 = true) (hsz : 4 ≤ bitsOf v 0 4) (hcq : s.cActive (bitsOf v 16 8) = true) :
    s.qcfgWrite drain q v
      = (s.wr pWqm (sqr O.WQM_QCFG q) (clrMask (s.rd pWqm (sqr O.WQM_QCFG q)) 0x60FF000F ||| (v &&& 0x60FF000F))).queueEnable q := by
  unfold qcfgWrite
  simp only [hst, hen, if_pos]
  generalize hw : s.wr pWqm (sqr O.WQM_QCFG q) _ = w
  have field : ∀ lo n, (∀ i < n, bitOf 0x60FF000F (lo + i) = true) → lo + n ≤ 32 →
      bitsOf (w.rd pWqm (sqr O.WQM_QCFG q)) lo n = bitsOf v lo n := fun lo n hm hl => by
    rw [← hw, rd_wr_same, bitsOf_mod _ _ _ hl, bitsOf_merge hm hl]
  have cq : w.qCq q = bitsOf v 16 8 := field 16 8 (by decide) (by decide)
  have act : w.cActive (bitsOf v 16 8) = true := by
    rw [cActive, ← hw, bit_of_rd _ (rd_wr_off _ _ _)]
    · exact hcq
    · simp only [sqr, O.WQM_CQSTAT, O.WQM_QCFG]
      have := bitsOf_lt v 16 8
      omega
  rw [cq, if_pos]
  exact ⟨act, decide_eq_true ((field 0 4 (by decide) (by decide)).symm ▸ hsz)⟩

/-- The write that disables an ACTIVE queue and names its fields as they are. -/
theorem qcfgWrite_of_disable (drain : State → Nat → State) {s : State} {q v : Nat} (hst : s.qState q = 1)
    (hen : bitOf v 31 = false) (hf : v &&& 0x60FF000F = s.rd pWqm (sqr O.WQM_QCFG q) &&& 0x60FF000F) :
    s.qcfgWrite drain q v = drain (s.queueDrain q) q := by
  unfold qcfgWrite
  simp only [hst, hen, hf, ne_eq, not_true, if_false, Nat.one_ne_zero]

/-- Nothing is taken back of a queue whose jobs have all ended. -/
theorem withdrawQueue_of_idle {s : State} {q : Nat} (hs : (s.sqOf q).started = []) (hg : (s.sqOf q).ghosts = []) :
    s.withdrawQueue q = s := by
  unfold withdrawQueue
  split
  · rw [hs, hg]
    rfl
  · rfl

/-! ## Enabling a completion queue (R77) -/

/-- The write that enables an inactive completion queue keeps the size given and starts the queue anew. -/
theorem cqcfgWrite_of_enable {s : State} {c v : Nat} (hact : s.cActive c = false) (hen : bitOf v 31 = true)
    (hsz : 4 ≤ bitsOf v 0 4) : ∃ w, bitsOf w 0 4 = bitsOf v 0 4 ∧ s.cqcfgWrite c v
      = ((((s.wr pWqm (sqr O.WQM_CQCFG c) w).setBit pWqm (sqr O.WQM_CQCFG c) 31 true).wr pWqm (sqr O.WQM_CQSTAT c)
          (2 ^ 30 + 2 ^ 29)).wr pWqm (sqr O.WQM_CQHEAD c) 0).setCq c {} := by
  refine ⟨putBits (putBits (putBits (s.rd pWqm (sqr O.WQM_CQCFG c)) 30 1 (bitsOf v 30 1)) 16 11 (bitsOf v 16 11)) 0 4
    (bitsOf v 0 4), (bitsOf_putBits_same ..).trans (Nat.mod_eq_of_lt (bitsOf_lt _ _ _)), ?_⟩
  unfold cqcfgWrite
  simp only [hact, hen, Bool.false_and, Bool.false_eq_true, if_false]
  refine if_pos (decide_eq_true ?_)
  rw [bitsOf_putBits_same, Nat.mod_eq_of_lt (bitsOf_lt _ _ _)]
  exact hsz

theorem mems_setCq (s : State) (c : Nat) (v : Cq) : (s.setCq c v).mems = s.mems := rfl
theorem rd_setCq (s : State) (c : Nat) (v : Cq) (p off : Nat) : (s.setCq c v).rd p off = s.rd p off := rfl

/-- A completion queue started anew is active and empty, with PHASE 1 and the size of its CQCFG. -/
theorem cq_started_effect (s t : State) (c w : Nat)
    (ht : t = ((((s.wr pWqm (sqr O.WQM_CQCFG c) w).setBit pWqm (sqr O.WQM_CQCFG c) 31 true).wr pWqm (sqr O.WQM_CQSTAT c)
      (2 ^ 30 + 2 ^ 29)).wr pWqm (sqr O.WQM_CQHEAD c) 0).setCq c {}) :
    t.cActive c = true ∧ t.cTail c = 0 ∧ t.rd pWqm (sqr O.WQM_CQHEAD c) = 0 ∧ t.bit pWqm (sqr O.WQM_CQSTAT c) 29 = true
      ∧ t.cSize c = 2 ^ bitsOf w 0 4 ∧ t.mems = s.mems := by
  generalize ha : s.wr pWqm (sqr O.WQM_CQCFG c) w = a at ht
  generalize hb : a.setBit pWqm (sqr O.WQM_CQCFG c) 31 true = b at ht
  have stat : t.rd pWqm (sqr O.WQM_CQSTAT c) = 2 ^ 30 + 2 ^ 29 := by
    rw [ht, rd_setCq, rd_wr_off _ _ (sqr_ne c (by decide)), rd_wr_same]
    rfl
  have cfg : t.rd pWqm (sqr O.WQM_CQCFG c) = b.rd pWqm (sqr O.WQM_CQCFG c) := by
    rw [ht, rd_setCq, rd_wr_off _ _ (sqr_ne c (by decide)), rd_wr_off _ _ (sqr_ne c (by decide))]
  refine ⟨?_, ?_, ?_, ?_, ?_, ?_⟩
  · exact (congrArg (bitOf · 30) stat).trans (by decide)
  · exact (congrArg (bitsOf · 0 16) stat).trans (by decide)
  · rw [ht, rd_setCq, rd_wr_same]
  · exact (congrArg (bitOf · 29) stat).trans (by decide)
  · rw [cSize, fld_of_rd _ _ cfg, ← hb, setBit, fld_setFld_other _ _ _ _ _ _ _ _ (by decide) (by decide), ← ha, fld,
      rd_wr_same, bitsOf_mod _ _ _ (by decide)]
  · rw [ht, mems_setCq, mems_wr, mems_wr, ← hb, mems_setBit, ← ha, mems_wr]

end State

/-- Settles O9: each row leads to the state of the queue that Table 3.10 has for it. -/
theorem queuesEnableDrainAndDisable : Obligations.QueuesEnableDrainAndDisable := by
  unfold Obligations.QueuesEnableDrainAndDisable
  refine ⟨?_, ?_, ?_, ?_⟩
  · intro q v s ha hst hen hsz hcq
    change ∃ t, act .wqm (·.qcfgWrite State.withdrawQueue q v.toNat) s = .next t ∧ _
    refine act_next ha fun u hu => ?_
    rw [State.qcfgWrite_of_enable _ hst hen hsz hcq] at hu
    generalize hw : s.wr pWqm (State.sqr O.WQM_QCFG q) _ = w at hu
    have given : ∀ lo n, (∀ i < n, bitOf 0x60FF000F (lo + i) = true) → lo + n ≤ 32 →
        w.fld pWqm (State.sqr O.WQM_QCFG q) lo n = bitsOf v.toNat lo n := fun lo n hm hl => by
      rw [State.fld, ← hw, State.rd_wr_same, bitsOf_mod _ _ _ hl, bitsOf_merge hm hl]
    have start : w.fld pWqm (State.sqr O.WQM_QPTR q) 0 16 = s.fld pWqm (State.sqr O.WQM_QPTR q) 0 16 := by
      rw [← hw]
      exact State.fld_of_rd _ _ (State.rd_wr_off _ _ (State.sqr_ne q (by decide)))
    have mem : w.mems = s.mems := by rw [← hw, State.mems_wr]
    obtain ⟨state, enabled, error, fields, head, tail, fetch, mems⟩ := State.queueEnable_effect w q.isLt
    rw [← hu] at state enabled error fields head tail fetch mems
    refine ⟨state, enabled, error, ?_, ?_, head.trans start, tail.trans head.symm, fetch.trans head.symm,
      State.memSame_of_mems (mems.trans mem)⟩
    · exact (fields 16 8 (by decide)).trans (given 16 8 (by decide) (by decide))
    · exact congrArg (2 ^ ·) ((fields 0 4 (by decide)).trans (given 0 4 (by decide) (by decide)))
  · intro q v s ha hst hen hf hstarted hghosts
    change ∃ t, act .wqm (·.qcfgWrite State.withdrawQueue q v.toNat) s = .next t ∧ _
    refine act_next ha fun u hu => ?_
    obtain ⟨state, disabled, head, kept, mems⟩ := State.queueDrain_effect s q
    rw [State.qcfgWrite_of_disable _ hst hen hf, State.withdrawQueue_of_idle (by rw [kept]; exact hstarted)
      (by rw [kept]; exact hghosts)] at hu
    rw [← hu] at state disabled head kept mems
    have kept : u.sqOf q = _ := kept
    refine ⟨state, disabled, ?_, ?_, ?_, head, State.memSame_of_mems mems⟩
    · exact congrArg (·.ready) kept
    · exact congrArg (·.chain) kept
    · exact congrArg (·.pushes) kept
  · intro q s ha hst hstarted
    change ∃ t, act .wqm (fun s => when (s.qState q = 2 ∧ (s.sqOf q).started = []) (·.setQState q 0) s) s = .next t ∧ _
    refine act_next ha fun u hu => ?_
    have moved : u = s.setQState q 0 := hu.trans (if_pos (decide_eq_true ⟨hst, hstarted⟩))
    have regs : State.PageRegs pWqm [State.sqr O.WQM_QSTAT q] s (s.setQState q 0) :=
      .wr s _ List.mem_cons_self (State.sqr_lt (by decide) q.isLt)
    have state : (s.setQState q 0).qState q = 0 := State.fld_setFld_same _ _ _ _ _ _ (by decide)
    have head : (s.setQState q 0).qHead q = s.qHead q := State.fld_setFld_other _ _ _ _ _ _ _ _ (by decide) (by decide)
    rw [← moved] at regs state head
    exact ⟨state, head, congrArg (fun u => { u with pending := s.pending }) regs.rest, regs.regsSame (by simp)⟩
  · intro c v s ha hact hen hsz
    change ∃ t, act .wqm (·.cqcfgWrite c v.toNat) s = .next t ∧ _
    refine act_next ha fun u hu => ?_
    obtain ⟨w, hw, shape⟩ := State.cqcfgWrite_of_enable hact hen hsz
    obtain ⟨active, tail, head, phase, size, mems⟩ := State.cq_started_effect s u c w (hu.trans shape)
    exact ⟨active, tail, head, phase, size.trans (congrArg (2 ^ ·) hw), State.memSame_of_mems mems⟩

end Sys2Proof.Machine
end

section
/-! PROOFS. O11: the completion entry of a finished job, and the moderated message. -/
namespace Sys2Proof.Machine

/-- A run of bytes read where it was written. -/
theorem sgetList_ssetList {α : Type} [DecidableEq α] (d : Nat → α) (m : Store α) (k : Nat) (l : List α) :
    sgetList d (ssetList d m k l) k l.length = l := by
  apply List.ext_getElem (by simp [sgetList])
  intro i _ hi
  simp only [sgetList, List.getElem_map, List.getElem_range]
  rw [sget_ssetList, if_pos (by omega), Nat.add_sub_cancel_left, List.getD_eq_getElem?_getD, List.getElem?_eq_getElem hi]
  rfl

theorem sgetList_ssetList_of_length {α : Type} [DecidableEq α] {d : Nat → α} {m : Store α} {k n : Nat} {l : List α}
    (h : l.length = n) : sgetList d (ssetList d m k l) k n = l := h ▸ sgetList_ssetList d m k l

theorem length_leBytes (n v : Nat) : (leBytes n v).length = n := by
  induction n generalizing v with
  | zero => rfl
  | succ n ih => simp [leBytes, ih]

namespace State

/-- `t` is `s` but for what neither the entry written nor the queue's own record of it holds. -/
structure EntryStays (q : Nat) (s t : State) : Prop where
  host : t.host = s.host
  hbm : t.hbm = s.hbm
  sq : t.sq = s.sq
  stat : t.rd pWqm (sqr O.WQM_QSTAT q) = s.rd pWqm (sqr O.WQM_QSTAT q)

namespace EntryStays

variable {q : Nat} {s t u : State}

theorem refl (q : Nat) (s : State) : EntryStays q s s := ⟨rfl, rfl, rfl, rfl⟩

theorem trans (h : EntryStays q s t) (k : EntryStays q t u) : EntryStays q s u :=
  ⟨k.host.trans h.host, k.hbm.trans h.hbm, k.sq.trans h.sq, k.stat.trans h.stat⟩

theorem wr (s : State) {off : Nat} (v : Nat) (h : sqr O.WQM_QSTAT q ≠ off) : EntryStays q s (s.wr pWqm off v) :=
  ⟨rfl, rfl, rfl, rd_wr_off s v h⟩

theorem setCq (q : Nat) (s : State) (c : Nat) (v : Cq) : EntryStays q s (s.setCq c v) := ⟨rfl, rfl, rfl, rfl⟩

theorem ofSignals (hq : q < 528) (h : Signals pWqm s t) : EntryStays q s t :=
  ⟨(congrArg State.host h.rest).trans rfl, (congrArg State.hbm h.rest).trans rfl, (congrArg State.sq h.rest).trans rfl,
    h.reg _ _ (sqr_lt (by decide) hq)
      (sigReg_wqm fun e => absurd (le_sqr (a := O.WQM_QSTAT) q (by decide)) (by rw [e]; decide))⟩

end EntryStays

theorem qstat_lt {q : Nat} (hq : q < 528) : sqr O.WQM_QSTAT q < 0x7000 := by
  simp only [sqr, O.WQM_QSTAT]
  omega

theorem le_qstat (q : Nat) : 0x2000 ≤ sqr O.WQM_QSTAT q := by
  simp only [sqr, O.WQM_QSTAT]
  omega

theorem le_cqr {a : Nat} (c : Nat) (ha : 0x7000 ≤ a) : 0x7000 ≤ sqr a c := by
  simp only [sqr]
  omega

/-- The register of a completion queue is none of a submission queue's QSTAT. -/
theorem qstat_ne_cqr {q a : Nat} (c : Nat) (hq : q < 528) (ha : 0x7000 ≤ a) : sqr O.WQM_QSTAT q ≠ sqr a c := by
  have := qstat_lt hq
  have := le_cqr c ha
  omega

/-- Sending a completion queue's message or counting an entry for it. -/
theorem entryStays_moderate {q : Nat} (hq : q < 528) (s : State) (c : Nat) (now : Bool) :
    EntryStays q s (s.moderate c now) := by
  unfold moderate
  split
  · exact .refl q s
  · simp only
    split
    · exact (EntryStays.setCq q s c {}).trans (.ofSignals hq (signals_sendVector _ _ _ (bitsOf_lt _ _ _)))
    · exact .setCq q s c _

/-- The bytes of a completion entry. -/
def entryBytes (ws : List W32) : List Byte := (ws.map fun w => leBytes 4 w.toNat).flatten

/-- A completion entry written while host requests may be issued stands at the tail of its ring. -/
theorem entryStays_writeCqe {s : State} {q : Nat} (hq : q < 528) (c : Nat) (ws : List W32) (urgent : Bool)
    (hr : s.hostReady = true) :
    EntryStays q (s.setHost (s.rd64 pWqm (sqr O.WQM_CQ_BASE_LO c) + 16 * s.cTail c) (entryBytes ws))
      (s.writeCqe c ws urgent) := by
  have tail : ∀ t v, EntryStays q t (t.setFld pWqm (sqr O.WQM_CQSTAT c) 0 16 v) := fun t v =>
    .wr t _ (qstat_ne_cqr c hq (by decide))
  unfold writeCqe
  simp only [hr, if_true]
  split
  · exact (tail _ _).trans (.wr _ _ (qstat_ne_cqr c hq (by decide)))
  · exact tail _ _

/-- The words of a completed job's entry (R72). -/
def entryWords (q h ph : Nat) (j : Job) (o : JobOut) : List W32 :=
  [BitVec.ofNat 32 (q * 2 ^ 16 + j.tag), BitVec.ofNat 32 (h * 2 ^ 16 + o.status), BitVec.ofNat 32 o.result,
    BitVec.ofNat 32 (ph * 2 ^ 31 + if o.status = 0 then 0 else o.detail % 2 ^ 16)]

/-- The queue's own record of a job that completes: it is no longer started, and the head is published. -/
def publish (s : State) (q : Nat) (j : Job) : State :=
  let hf := advanceHead (s.qSize q) 65536 (s.qHead q) ((j.first, j.count) :: (s.sqOf q).finished)
  (s.setSq q { s.sqOf q with
    started := (s.sqOf q).started.filter (fun x => x.first ≠ j.first), finished := hf.2 }).setFld pWqm (sqr O.WQM_QSTAT q) 0 16 hf.1

/-- A job that completes is recorded by its queue; then its entry is written, and beside both only the counts and what
moderation keeps change. -/
theorem entryStays_completeJob {s : State} {r : JobRef} {j : Job} {o : JobOut}
    (hf : (s.sqOf r.q).started.find? (isJob r) = some j) (ho : j.out = some o) (hm : s.mayComplete r.q j = true) :
    EntryStays r.q ((s.publish r.q j).writeCqe (s.qCq r.q) (entryWords r.q
      (advanceHead (s.qSize r.q) 65536 (s.qHead r.q) ((j.first, j.count) :: (s.sqOf r.q).finished)).1
      (b2n ((s.publish r.q j).bit pWqm (sqr O.WQM_CQSTAT (s.qCq r.q)) 29)) j o) (j.urgent || o.status ≠ 0))
      (s.completeJob r) := by
  unfold completeJob
  simp only [hf, ho, hm, Bool.not_true, Bool.false_eq_true, if_false]
  refine .trans ?_ (entryStays_moderate r.q.isLt _ _ _)
  refine .trans ?_ (.wr _ _ fun e => absurd (le_qstat r.q) (by rw [e]; decide))
  refine .trans ?_ (.wr _ _ (sqr_ne r.q (by decide)))
  exact .wr _ _ (qstat_ne_cqr _ r.q.isLt (by decide))

theorem publish_rd (s : State) {q off : Nat} (j : Job) (h : off ≠ sqr O.WQM_QSTAT q) :
    (s.publish q j).rd pWqm off = s.rd pWqm off := (rd_setFld_off _ _ _ _ h).trans (rd_setSq ..)

theorem publish_qHead (s : State) (q : Nat) (j : Job) : (s.publish q j).qHead q
    = (advanceHead (s.qSize q) 65536 (s.qHead q) ((j.first, j.count) :: (s.sqOf q).finished)).1 % 2 ^ 16 :=
  fld_setFld_same _ _ _ _ _ _ (by decide)

theorem publish_started (s : State) (q : Nat) (j : Job) :
    ((s.publish q j).sqOf q).started = (s.sqOf q).started.filter (fun x => x.first ≠ j.first) := by
  rw [publish, sqOf_setFld, sqOf_setSq_same]

theorem mems_publish (s : State) (q : Nat) (j : Job) : (s.publish q j).mems = s.mems := by
  rw [publish, mems_setFld, mems_setSq]

/-- Whether host requests may be issued turns on the state of the link, of the function and of the stand alone. -/
theorem hostReady_congr {s t : State} (hf : t.flt = s.flt) (hstd : t.rd pStd O.STD_STAT = s.rd pStd O.STD_STAT)
    (hpm : t.rd pHif O.HIF_PM_STAT = s.rd pHif O.HIF_PM_STAT) : t.hostReady = s.hostReady := by
  simp only [hostReady, isMember, hf, fld_of_rd _ _ hstd, bit_of_rd _ hpm]
  rfl

/-- Recording a job does not change whether host requests may be issued. -/
theorem hostReady_publish (s : State) {q : Nat} (j : Job) (hq : q < 528) : (s.publish q j).hostReady = s.hostReady := by
  have other : ∀ p off, off < 0x10000 → p ≠ pWqm → (s.publish q j).rd p off = s.rd p off := fun p off ho hp =>
    (rd_wr_other _ _ (regKey_ne_of_page ho (sqr_lt (by decide) hq) hp)).trans (rd_setSq ..)
  exact hostReady_congr rfl (other _ _ (by decide) (by decide)) (other _ _ (by decide) (by decide))

theorem not_d3hot_of_hostReady {s : State} (h : s.hostReady = true) : s.bit pHif O.HIF_PM_STAT 2 = false := by
  simpa using (Bool.and_eq_true_iff.mp h).2

/-- A message that may be sent leaves at once. -/
theorem sendVector_of_ready {s : State} {v : Nat} (hr : s.hostReady = true) (hm : s.vecMasked v = false) :
    s.sendVector v = s.issueMsix v := by
  simp only [sendVector, not_d3hot_of_hostReady hr, hr, hm, Bool.not_true, Bool.or_self, Bool.false_eq_true, if_false]

/-- The message of a vector is the one its table entry holds. -/
theorem out_issueMsix (s : State) (v : Nat) : (s.issueMsix v).out
    = .msix v (s.rd64 pHif (O.HIF_MSIX_ADDR_LO + 16 * v)) (BitVec.ofNat 32 (s.rd pHif (O.HIF_MSIX_DATA + 16 * v))) :: s.out := rfl

theorem rd_wakeLink_wqm (s : State) (off : Nat) (ho : off < 0x10000) : s.wakeLink.rd pWqm off = s.rd pWqm off :=
  rd_wr_other s _ (regKey_ne_of_page ho (by decide) (by decide))

theorem cq_of_signals {p : Nat} {s t : State} (h : Signals p s t) : t.cq = s.cq := (congrArg State.cq h.rest).trans rfl

theorem mems_of_signals {p : Nat} {s t : State} (h : Signals p s t) : t.mems = s.mems :=
  (congrArg State.mems h.rest).trans rfl

theorem host_setHost (s : State) (a : Nat) (l : List Byte) : (s.setHost a l).host = ssetList (fun _ => 0) s.host a l := rfl

theorem rd_setHost_wqm (s : State) (a : Nat) (l : List Byte) {off : Nat} (ho : off < 0x10000) :
    (s.setHost a l).rd pWqm off = s.rd pWqm off := rd_wakeLink_wqm s off ho

theorem cqOf_setCq_same (s : State) (c : Nat) (v : Cq) : (s.setCq c v).cqOf c = v := sget_sset_same ..

/-- The bytes of an entry are its four words. -/
theorem entryBytes_entryWords (q h ph : Nat) (j : Job) (o : JobOut) : entryBytes (entryWords q h ph j o)
    = (([q * 2 ^ 16 + j.tag, h * 2 ^ 16 + o.status, o.result,
        ph * 2 ^ 31 + if o.status = 0 then 0 else o.detail % 2 ^ 16] : List Nat).map fun w => leBytes 4 (w % 2 ^ 32)).flatten := by
  simp only [entryBytes, entryWords, List.map_cons, List.map_nil, BitVec.toNat_ofNat]

theorem length_entryBytes (q h ph : Nat) (j : Job) (o : JobOut) : (entryBytes (entryWords q h ph j o)).length = 16 := by
  simp only [entryBytes, entryWords, List.map_cons, List.map_nil, List.flatten_cons, List.flatten_nil, List.length_append,
    length_leBytes, List.length_nil]

end State

/-- Settles O11: the queue records the job, the entry is written, and nothing after it touches memory or the head. -/
theorem completionEntriesAndMessages : Obligations.CompletionEntriesAndMessages := by
  unfold Obligations.CompletionEntriesAndMessages
  refine ⟨?_, ?_⟩
  · intro r j o s ha hready hfind ho hmay
    simp only
    change ∃ t, act .wqm (·.completeJob r) s = .next t ∧ _
    refine act_next ha fun u hu => ?_
    have rest := State.entryStays_completeJob hfind ho hmay
    rw [← hu] at rest
    have started := State.publish_started s r.q j
    have head := State.publish_qHead s r.q j
    have mems := State.mems_publish s r.q j
    have ready := (State.hostReady_publish s j r.q.isLt).trans hready
    have reg : ∀ a, 0x7000 ≤ a → (s.publish r.q j).rd pWqm (State.sqr a (s.qCq r.q)) = s.rd pWqm (State.sqr a (s.qCq r.q)) :=
      fun a h => State.publish_rd s j (State.qstat_ne_cqr _ r.q.isLt h).symm
    have base : (s.publish r.q j).rd64 pWqm (State.sqr O.WQM_CQ_BASE_LO (s.qCq r.q))
        = s.rd64 pWqm (State.sqr O.WQM_CQ_BASE_LO (s.qCq r.q)) := by
      have hi : State.sqr O.WQM_CQ_BASE_LO (s.qCq r.q) + 4 = State.sqr O.WQM_CQ_BASE_HI (s.qCq r.q) := by
        simp only [State.sqr, O.WQM_CQ_BASE_LO, O.WQM_CQ_BASE_HI]
        omega
      rw [State.rd64, State.rd64, hi, reg _ (by decide), reg _ (by decide)]
    have tail : (s.publish r.q j).cTail (s.qCq r.q) = s.cTail (s.qCq r.q) := State.fld_of_rd _ _ (reg _ (by decide))
    have phase := State.bit_of_rd 29 (reg O.WQM_CQSTAT (by decide))
    rw [phase] at rest
    generalize hh : (State.advanceHead (s.qSize r.q) 65536 (s.qHead r.q) ((j.first, j.count) :: (s.sqOf r.q).finished)).1 = h
      at rest head ⊢
    generalize s.publish r.q j = w at rest started head mems ready base tail
    have write := State.entryStays_writeCqe r.q.isLt (s.qCq r.q) (State.entryWords r.q h
      (b2n (s.bit pWqm (State.sqr O.WQM_CQSTAT (s.qCq r.q)) 29)) j o) (j.urgent || o.status ≠ 0) ready
    obtain ⟨host, hbm, sq, stat⟩ := write.trans rest
    rw [base, tail] at host
    have entry := State.length_entryBytes r.q h (b2n (s.bit pWqm (State.sqr O.WQM_CQSTAT (s.qCq r.q)) 29)) j o
    have bytes := State.entryBytes_entryWords r.q h (b2n (s.bit pWqm (State.sqr O.WQM_CQSTAT (s.qCq r.q)) 29)) j o
    have wHost : w.host = s.host := congrArg (·.1) mems
    have wHbm : w.hbm = s.hbm := congrArg (·.2.1) mems
    rw [State.host_setHost, wHost] at host
    refine ⟨?_, fun x hx => ?_, fun x => ?_, ?_, ?_⟩
    · change sgetList _ u.host _ 16 = _
      rw [host, ← bytes]
      exact sgetList_ssetList_of_length entry
    · change sget _ u.host x = _
      rw [host, sget_ssetList, entry, if_neg (by omega)]
      rfl
    · change sget _ u.hbm x = _
      rw [hbm, State.setHost_hbm, wHbm]
      rfl
    · change (sget _ u.sq r.q.val).started = _
      rw [sq, State.setHost_sq]
      exact started
    · exact (congrArg (bitsOf · 0 16) (stat.trans (State.rd_setHost_wqm w _ _ (State.sqr_lt (by decide) r.q.isLt)))).trans head
  · intro c s ha hready htime hact hien
    simp only
    intro hmask
    change ∃ t, act .wqm (fun s => when ((s.cqOf c).timing && s.cActive c && s.bit pWqm (State.sqr O.WQM_CQCFG c) 30)
      (·.cqMessage c) s) s = .next t ∧ _
    refine act_next ha fun u hu => ?_
    rw [htime, hact, hien] at hu
    have sent := hu.trans (State.sendVector_of_ready (s := s.setCq c {}) hready hmask)
    have effect := State.signals_issueMsix pWqm (s.setCq c {}) (s.fld pWqm (State.sqr O.WQM_CQCFG c) 16 11)
    have out := State.out_issueMsix (s.setCq c {}) (s.fld pWqm (State.sqr O.WQM_CQCFG c) 16 11)
    rw [← sent] at effect out
    refine ⟨?_, out, fun p off ho hs => (effect.reg p off ho hs).trans (State.rd_setCq ..),
      State.memSame_of_mems ((State.mems_of_signals effect).trans (State.mems_setCq s c {}))⟩
    have cq := State.cq_of_signals effect
    change sget _ u.cq c = _
    rw [cq]
    exact State.cqOf_setCq_same s c {}

end Sys2Proof.Machine
end

section
/-! PROOFS. What requests and the channel programs leave of the host link: the lemmas for O12. -/
namespace Sys2Proof.Machine
namespace State

/-! ## What an interrupt request keeps, beside what `Signals` says -/

/-- A part of the state that the steps of an interrupt request keep. A message of power management is sent in D3hot only. -/
structure RequestsKeep {γ : Type} (v : State → γ) : Prop where
  wr : ∀ s q off x, off = O.INT_CAUSE ∨ pHif < q → v (s.wr q off x) = v s
  pba : ∀ s n b, v (s.setPba n b) = v s
  wake : ∀ s, v (wakeLink s) = v s
  emit : ∀ s o, v (emit s o) = v s
  pme : ∀ s, s.bit pHif O.HIF_PM_STAT 2 = true → v (pmeSend s) = v s
  tab : ∀ s i x, v (s.setTab pEic 0 i x) = v s
  sat : ∀ (s : State) l, v { s with eicSat := l } = v s

theorem d3hot_setPba (s : State) (n : Nat) (b : Bool) :
    (s.setPba n b).bit pHif O.HIF_PM_STAT 2 = s.bit pHif O.HIF_PM_STAT 2 :=
  bit_of_rd _ (rd_setBit_off _ _ _ (by simp only [O.HIF_PM_STAT, O.HIF_PBA]; omega))

namespace RequestsKeep

variable {γ : Type} {v : State → γ} (h : RequestsKeep v)
include h

theorem issueMsix (s : State) (n : Nat) : v (s.issueMsix n) = v s := (h.emit _ _).trans (h.wake s)

theorem sendVector (s : State) (n : Nat) : v (s.sendVector n) = v s := by
  unfold State.sendVector
  split
  next d3 => exact (h.pme _ ((d3hot_setPba ..).trans d3)).trans (h.pba ..)
  next => exact ite_keeps v (h.pba ..) (h.issueMsix ..)

theorem raiseTargets {raise : State → Nat → State} (hr : ∀ s n, v (raise s n) = v s) (s : State) (p : Nat) :
    v (raiseTargetsWith raise s p) = v s := by
  have first : v (if bitOf (s.rd p O.INT_ROUTE) 30 then raise s (bitsOf (s.rd p O.INT_ROUTE) 0 10) else s) = v s :=
    ite_keeps v (hr ..) rfl
  exact ite_keeps v ((h.sendVector ..).trans first) first

theorem setCauseWith {raise : State → Nat → State} (hr : ∀ s n, v (raise s n) = v s) (s : State) (p m : Nat) :
    v (setCauseWith raise s p m) = v s := by
  have caused := h.wr s p O.INT_CAUSE (s.rd p O.INT_CAUSE ||| m) (.inl rfl)
  exact ite_keeps v ((h.raiseTargets hr ..).trans caused) caused

theorem eicRaise : ∀ (n : Nat) (s : State) (src : Nat), v (eicRaiseF n s src) = v s
  | 0, _, _ => rfl
  | n + 1, s, src => by
    have count : ∀ (t : State) off, v (t.incr pEic off) = v t := fun t off => h.wr _ _ _ _ (.inr (by decide))
    have entry : ∀ (t : State) (l : List Nat) i x, v { t.setTab pEic 0 i x with eicSat := l } = v t := fun t l i x =>
      (h.sat _ _).trans (h.tab ..)
    refine Eq.trans ?_ (count s O.EIC_CNT_RAISES)
    refine ite_keeps v (h.wr _ _ _ _ (.inr (Nat.lt_add_right _ (by decide)))) ?_
    refine ite_keeps v ((h.setCauseWith (eicRaise n) ..).trans (count ..)) ?_
    refine ite_keeps v (entry ..) ?_
    refine Eq.trans ?_ (count _ O.EIC_CNT_COALESCED)
    refine ite_keeps v ?_ (h.tab ..)
    exact ite_keeps v rfl ((h.setCauseWith (eicRaise n) ..).trans (h.sat ..))

theorem setCause (s : State) (p m : Nat) : v (s.setCause p m) = v s := h.setCauseWith (h.eicRaise 3) s p m

end RequestsKeep

/-- A register of HIF reads as before a write of a page's causes, or of any register of a page beyond HIF. -/
theorem rd_hif_wr (s : State) {q off x a : Nat} (ha : a < 0x10000) (h : off = O.INT_CAUSE ∧ a ≠ off ∨ pHif < q) :
    (s.wr q off x).rd pHif a = s.rd pHif a := by
  refine rd_wr_other _ _ ?_
  simp only [regKey, pHif, O.INT_CAUSE] at h ⊢
  omega

/-- The completions held are those held before. -/
theorem requestsKeep_held : RequestsKeep (·.hif.held) where
  wr _ _ _ _ _ := rfl
  pba _ _ _ := rfl
  wake _ := rfl
  emit _ _ := rfl
  tab _ _ _ := rfl
  sat _ _ := rfl
  pme s _ := by
    unfold pmeSend
    exact ite_keeps (fun t : State => t.hif.held) rfl (ite_keeps (fun t : State => t.hif.held) rfl rfl)

/-- The Function Mask is not a matter of requests. -/
theorem requestsKeep_funcMask : RequestsKeep (·.hif.funcMask) where
  wr _ _ _ _ _ := rfl
  pba _ _ _ := rfl
  wake _ := rfl
  emit _ _ := rfl
  tab _ _ _ := rfl
  sat _ _ := rfl
  pme s _ := by
    unfold pmeSend
    exact ite_keeps (fun t : State => t.hif.funcMask) rfl (ite_keeps (fun t : State => t.hif.funcMask) rfl rfl)

/-! ## The link as a function out of D3hot shows it -/

/-- LINK_UP and PME_PENDING, LINK_STAT and what the host interface keeps beside registers; nothing in D3hot. -/
def linkView (s : State) : Option (Bool × Bool × Nat × Hif) :=
  if s.bit pHif O.HIF_PM_STAT 2 then none
  else some (s.bit pHif O.HIF_PM_STAT 0, s.bit pHif O.HIF_PM_STAT 3, s.rd pHif O.HIF_LINK_STAT, s.hif)

theorem linkView_congr {s t : State} (h2 : t.bit pHif O.HIF_PM_STAT 2 = s.bit pHif O.HIF_PM_STAT 2)
    (h0 : t.bit pHif O.HIF_PM_STAT 0 = s.bit pHif O.HIF_PM_STAT 0)
    (h3 : t.bit pHif O.HIF_PM_STAT 3 = s.bit pHif O.HIF_PM_STAT 3)
    (hl : t.rd pHif O.HIF_LINK_STAT = s.rd pHif O.HIF_LINK_STAT) (hh : t.hif = s.hif) : t.linkView = s.linkView := by
  simp only [linkView, h2, h0, h3, hl, hh]

/-- A change of neither of the two registers nor of what the interface keeps. -/
theorem linkView_of_rd {s t : State} (hp : t.rd pHif O.HIF_PM_STAT = s.rd pHif O.HIF_PM_STAT)
    (hl : t.rd pHif O.HIF_LINK_STAT = s.rd pHif O.HIF_LINK_STAT) (hh : t.hif = s.hif) : t.linkView = s.linkView :=
  linkView_congr (bit_of_rd _ hp) (bit_of_rd _ hp) (bit_of_rd _ hp) hl hh

theorem linkView_wakeLink (s : State) : s.wakeLink.linkView = s.linkView :=
  linkView_congr (bit_setFld_other _ _ (by decide) (by decide)) (bit_setFld_other _ _ (by decide) (by decide))
    (bit_setFld_other _ _ (by decide) (by decide)) (rd_setBit_off _ _ _ (by decide)) rfl

theorem linkView_wr (s : State) {q off : Nat} (x : Nat) (h : off = O.INT_CAUSE ∨ pHif < q) :
    (s.wr q off x).linkView = s.linkView := by
  have other : ∀ a, a ≠ O.INT_CAUSE → a < 0x10000 → (s.wr q off x).rd pHif a = s.rd pHif a := fun a hne ha =>
    rd_hif_wr s ha (h.imp_left fun e => ⟨e, e ▸ hne⟩)
  exact linkView_of_rd (other _ (by decide) (by decide)) (other _ (by decide) (by decide)) rfl

theorem requestsKeep_linkView : RequestsKeep linkView where
  wr s _ _ x h := linkView_wr s x h
  pba s n b := linkView_of_rd (rd_setBit_off _ _ _ (by simp only [O.HIF_PM_STAT, O.HIF_PBA]; omega))
    (rd_setBit_off _ _ _ (by simp only [O.HIF_LINK_STAT, O.HIF_PBA]; omega)) rfl
  wake := linkView_wakeLink
  emit _ _ := rfl
  tab _ _ _ := rfl
  sat _ _ := rfl
  pme s d3 := by
    have still : ∀ t : State, t.bit pHif O.HIF_PM_STAT 2 = true → t.linkView = none := fun t h => if_pos h
    rw [still s d3]
    refine still _ ?_
    unfold pmeSend
    refine ite_keeps (fun t : State => t.bit pHif O.HIF_PM_STAT 2) d3 (ite_keeps (fun t : State => t.bit pHif O.HIF_PM_STAT 2) ?_ d3)
    exact (bit_setFld_other s (p := pHif) (off := O.HIF_PM_STAT) (lo := 3) (n := 1) (b2n true) (by decide)
      (by decide)).trans d3

@[simp] theorem linkView_setCause (s : State) (p m : Nat) : (s.setCause p m).linkView = s.linkView :=
  requestsKeep_linkView.setCause s p m

@[simp] theorem linkView_setHost (s : State) (a : Nat) (l : List Byte) : (s.setHost a l).linkView = s.linkView :=
  linkView_wakeLink s

@[simp] theorem linkView_putJobData (areas : List (Nat × Nat)) (s : State) (l : List Byte) :
    (s.putJobData areas l).linkView = s.linkView := by
  induction areas generalizing s l with
  | nil => rfl
  | cons a r ih => exact ite_keeps linkView rfl ((ih ..).trans (linkView_setHost ..))

end State
end Sys2Proof.Machine
end

section
/-! PROOFS. The channel programs that go on when host memory can be reached again keep the host link: for O12. -/
namespace Sys2Proof.Machine
namespace State

theorem pHif_lt_ysqOf (n : Nat) : pHif < ysqOf n := Nat.lt_add_right _ (by decide)

/-- A register of a sequencer's page is none of HIF's. -/
theorem linkView_wr_ysq (s : State) (n off x : Nat) : (s.wr (ysqOf n) off x).linkView = s.linkView :=
  linkView_wr s x (.inr (pHif_lt_ysqOf n))

@[simp] theorem linkView_setFld_ysq (s : State) (n off lo k x : Nat) :
    (s.setFld (ysqOf n) off lo k x).linkView = s.linkView := linkView_wr_ysq ..

@[simp] theorem linkView_setBit_ysq (s : State) (n off b : Nat) (x : Bool) :
    (s.setBit (ysqOf n) off b x).linkView = s.linkView := linkView_wr_ysq ..

@[simp] theorem linkView_incr_ysq (s : State) (n off : Nat) : (s.incr (ysqOf n) off).linkView = s.linkView :=
  linkView_wr_ysq ..

@[simp] theorem linkView_modSub (s : State) (n : Nat) (f : Sub → Sub) : (s.modSub n f).linkView = s.linkView := rfl
@[simp] theorem linkView_modOp (s : State) (n : Nat) (f : ChOp → ChOp) : (s.modOp n f).linkView = s.linkView := rfl
@[simp] theorem linkView_modSeq (s : State) (k : Nat) (f : Seq → Seq) : (s.modSeq k f).linkView = s.linkView := rfl
@[simp] theorem linkView_advanceDev (s : State) (n k : Nat) : (s.advanceDev n k).linkView = s.linkView := rfl
@[simp] theorem linkView_takeQueued (s : State) (n : Nat) : (s.takeQueued n).linkView = s.linkView := rfl
@[simp] theorem linkView_setMgmt (s : State) (l : List (Nat × Nat)) : linkView { s with mgmt := l } = s.linkView := rfl
theorem linkView_setPosts (s : State) (l : List Post) : linkView { s with posts := l } = s.linkView := rfl

@[simp] theorem linkView_setWaiting (s : State) (n : Nat) (b : Bool) : (s.setWaiting n b).linkView = s.linkView :=
  linkView_setBit_ysq ..

@[simp] theorem linkView_jput (s : State) (p : Nat) (c : JCell) : (s.jput p c).linkView = s.linkView :=
  ite_keeps linkView rfl rfl

@[simp] theorem linkView_postNow (s : State) (p : Post) : (s.postNow p).linkView = s.linkView := by
  unfold postNow
  simp only
  split
  · simp only [setSch, linkView_setFld_ysq, linkView_setCause, linkView_setBit_ysq, linkView_setHost]
  · simp only [linkView_setFld_ysq, linkView_setCause, linkView_setBit_ysq, linkView_setHost]

@[simp] theorem linkView_postStatus (s : State) (n kind next : Nat) (after : Option Nat) :
    (s.postStatus n kind next after).linkView = s.linkView :=
  ite_keeps linkView (linkView_postNow ..) (linkView_setPosts ..)

@[simp] theorem linkView_endProgramAt (s : State) (n next : Nat) : (s.endProgramAt n next).linkView = s.linkView := by
  rw [endProgramAt, linkView_postStatus, linkView_setWaiting, linkView_modSub]

@[simp] theorem linkView_setEnd (s : State) (n last endc reason resid retries : Nat) (noted : Bool) :
    (s.setEnd n last endc reason resid retries noted).linkView = s.linkView := by
  unfold setEnd
  simp only
  split <;> split <;> simp only [linkView_incr_ysq, linkView_modSub]

@[simp] theorem linkView_endOp (s : State) (n endc reason : Nat) : (s.endOp n endc reason).linkView = s.linkView := by
  unfold endOp
  split
  · rfl
  · simp only
    split <;> simp only [linkView_setWaiting, linkView_modSub, linkView_endProgramAt, linkView_setEnd]

@[simp] theorem linkView_deviceError (s : State) (n reason : Nat) : (s.deviceError n reason).linkView = s.linkView :=
  linkView_endOp ..

@[simp] theorem linkView_postNotes (s : State) (n : Nat) : (s.postNotes n).linkView = s.linkView := by
  unfold postNotes
  split
  · rfl
  · simp only [linkView_modOp]
    exact foldl_keeps linkView _ _ _ fun t e _ => ite_keeps linkView (linkView_postStatus ..) rfl

@[simp] theorem linkView_storeIn (s : State) (o : ChOp) (l : List Byte) : (s.storeIn o l).linkView = s.linkView :=
  ite_keeps linkView rfl (linkView_putJobData ..)

@[simp] theorem linkView_sendReq (s : State) (n : Nat) : (s.sendReq n).linkView = s.linkView := by
  unfold sendReq
  split
  · rfl
  · split
    · rfl
    · simp only [linkView_modOp, linkView_modSub, linkView_setMgmt, linkView_jput]

@[simp] theorem linkView_refused (s : State) (n : Nat) : (s.refused n).linkView = s.linkView := by
  unfold refused
  split
  · rfl
  · refine ite_keeps linkView ?_ (ite_keeps linkView ?_ (ite_keeps linkView ?_ ?_)) <;>
      simp only [linkView_setWaiting, linkView_modOp, linkView_deviceError]

@[simp] theorem linkView_pollEnd (s : State) (n : Nat) (data : List Byte) : (s.pollEnd n data).linkView = s.linkView := by
  unfold pollEnd
  split
  · rfl
  · split <;> simp only [linkView_endOp, linkView_modOp, linkView_setWaiting]

@[simp] theorem linkView_movedBy (s : State) (n got : Nat) : (s.movedBy n got).linkView = s.linkView := by
  unfold movedBy
  split
  · rfl
  next o _ =>
    have advanced : (if o.head.code = 4 then s else s.advanceDev n got).linkView = s.linkView :=
      ite_keeps linkView rfl (linkView_advanceDev ..)
    simp only
    split
    · simp only [linkView_endOp, linkView_postNotes, linkView_modOp, advanced]
    · split <;> simp only [linkView_endOp, linkView_sendReq, linkView_postNotes, linkView_modOp, advanced]

@[simp] theorem linkView_bridgeReply (s : State) (n tid status len : Nat) (data : List Byte) :
    (s.bridgeReply n tid status len data).linkView = s.linkView := by
  unfold bridgeReply
  split
  · rfl
  next o _ =>
    have stored : ∀ l, (if o.head.isIn then s.storeIn o l else s).linkView = s.linkView := fun l =>
      ite_keeps linkView (linkView_storeIn ..) rfl
    split
    · rfl
    · split
      · split <;> simp only [linkView_pollEnd, linkView_movedBy, stored]
      · exact linkView_refused ..
      · split <;> simp only [linkView_deviceError, linkView_setWaiting, linkView_modOp]
      all_goals exact linkView_deviceError ..

@[simp] theorem linkView_replyTaken (s : State) (n tid : Nat) (b : List Byte) :
    (s.replyTaken n tid b).linkView = s.linkView := linkView_bridgeReply ..

theorem linkView_bulkFill (fuel n : Nat) (s : State) : (bulkFill fuel n s).linkView = s.linkView := by
  induction fuel generalizing s with
  | zero => rfl
  | succ fuel ih =>
    unfold bulkFill
    split
    · rfl
    · split
      · rfl
      · simp only [ih, linkView_postNotes, linkView_modOp, linkView_advanceDev, linkView_jput]

theorem linkView_yarderRoom (s : State) (p : Nat) : (s.yarderRoom p).linkView = s.linkView := by
  refine foldl_keeps linkView _ _ _ fun t q _ => ?_
  simp only
  split
  · exact ite_keeps linkView (linkView_sendReq ..) (ite_keeps linkView (linkView_bulkFill ..) rfl)
  · rfl

/-- The programs that go on change nothing of the link. -/
theorem linkView_yarderResumes (s : State) : s.yarderResumes.linkView = s.linkView := by
  unfold yarderResumes
  refine ite_keeps linkView rfl ?_
  rw [foldl_keeps linkView _ _ _ fun t p _ => linkView_yarderRoom t p,
    foldl_keeps linkView _ _ _ fun t k _ => foldl_keeps linkView _ _ _ fun u e _ => ?_,
    foldl_keeps linkView _ _ _ fun t p _ => linkView_postNow t p]
  · exact linkView_setPosts ..
  · rw [linkView_replyTaken, linkView_takeQueued]

end State
end Sys2Proof.Machine
end

section
/-! PROOFS. O12: link, power state and unmasking events. -/
namespace Sys2Proof.Machine
namespace State

/-! ## Held completions and pending messages (R85, R488) -/

theorem hostReady_of_up {s : State} (hm : s.isMember = false) (h0 : s.bit pHif O.HIF_PM_STAT 0 = true)
    (h2 : s.bit pHif O.HIF_PM_STAT 2 = false) : s.hostReady = true := by
  simp only [hostReady, hm, h0, h2, Bool.false_eq_true, if_false, Bool.not_false, Bool.and_self]

/-- What the view holds, out of D3hot. -/
theorem linkView_eq_some {s : State} {b0 b3 : Bool} {l : Nat} {h : Hif} (e : s.linkView = some (b0, b3, l, h)) :
    s.bit pHif O.HIF_PM_STAT 2 = false ∧ s.bit pHif O.HIF_PM_STAT 0 = b0 ∧ s.bit pHif O.HIF_PM_STAT 3 = b3
      ∧ s.rd pHif O.HIF_LINK_STAT = l ∧ s.hif = h := by
  unfold linkView at e
  split at e
  · cases e
  next d3 =>
    simp only [Option.some.injEq, Prod.mk.injEq] at e
    obtain ⟨h0, h3, hl, hh⟩ := e
    exact ⟨by simpa using d3, h0, h3, hl, hh⟩

theorem linkView_of_d0 {s : State} (h : s.bit pHif O.HIF_PM_STAT 2 = false) :
    s.linkView = some (s.bit pHif O.HIF_PM_STAT 0, s.bit pHif O.HIF_PM_STAT 3, s.rd pHif O.HIF_LINK_STAT, s.hif) :=
  if_neg (by rw [h]; decide)

/-- What a request keeps, a pending message that is sent keeps. -/
theorem RequestsKeep.sendPending {γ : Type} {v : State → γ} (h : RequestsKeep v) (s : State) : v s.sendPending = v s :=
  foldl_keeps v _ _ _ fun _ _ _ => ite_keeps v ((h.issueMsix ..).trans (h.pba ..)) rfl

theorem rd_setHif (s : State) (h : Hif) (p off : Nat) : State.rd { s with hif := h } p off = s.rd p off := rfl

/-- The completions held are written: none is held any more, and the link is as before. -/
theorem linkView_writeHeld {s : State} {b0 b3 : Bool} {l : Nat} {h : Hif} (e : s.linkView = some (b0, b3, l, h)) :
    s.writeHeld.linkView = some (b0, b3, l, { h with held := [] }) := by
  have wrote := foldl_keeps linkView (fun (s : State) (h : HeldCqe) =>
    s.setHost h.addr ((h.words.map fun w => leBytes 4 w.toNat).flatten)) s.hif.held s fun t c _ => linkView_setHost ..
  unfold writeHeld
  simp only
  generalize List.foldl _ s s.hif.held = t at wrote
  obtain ⟨h2, h0, h3, hl, hh⟩ := linkView_eq_some (wrote.trans e)
  have same : ∀ a, a ≠ O.HIF_HELD_CQE → State.rd { t.wr pHif O.HIF_HELD_CQE 0 with hif := { t.hif with held := [] } } pHif a
      = t.rd pHif a := fun a ha => (rd_setHif ..).trans (rd_wr_off t 0 ha)
  have pm := same O.HIF_PM_STAT (by decide)
  rw [linkView_of_d0 ((bit_of_rd _ pm).trans h2), bit_of_rd _ pm, bit_of_rd _ pm, same _ (by decide), h0, h3, hl, hh]

/-- Host requests may be issued again: no completion is held any more, and the link is as before. -/
theorem linkView_hostReturns {s : State} {b3 : Bool} {l : Nat} {h : Hif} (hm : s.isMember = false)
    (e : s.linkView = some (true, b3, l, h)) :
    s.hostReturns.yarderResumes.linkView = some (true, b3, l, { h with held := [] }) := by
  obtain ⟨h2, h0, -⟩ := linkView_eq_some e
  rw [linkView_yarderResumes, hostReturns, if_pos (hostReady_of_up hm h0 h2), requestsKeep_linkView.sendPending]
  exact linkView_writeHeld e

theorem isMember_congr {s t : State} (hf : t.flt = s.flt) (hstd : t.rd pStd O.STD_STAT = s.rd pStd O.STD_STAT) :
    t.isMember = s.isMember := by
  simp only [isMember, hf, fld_of_rd _ _ hstd]

theorem isMember_wr_hif (s : State) {off : Nat} (x : Nat) (ho : off < 0x10000) : (s.wr pHif off x).isMember = s.isMember :=
  isMember_congr rfl (rd_wr_other s x (regKey_ne_of_page (by decide) ho (by decide)))

theorem isMember_setFld_hif (s : State) {off : Nat} (lo n x : Nat) (ho : off < 0x10000) :
    (s.setFld pHif off lo n x).isMember = s.isMember := isMember_wr_hif s _ ho

theorem isMember_setCause_hif (s : State) (m : Nat) : (s.setCause pHif m).isMember = s.isMember :=
  isMember_congr ((congrArg State.flt (signals_setCause s pHif m).rest).trans rfl)
    (rd_setCause_other (by decide) (by decide))

/-! ## The events (R55, R85, R488) -/

/-- The function returns from D3hot while the link is up. -/
theorem d0Return_effect {s : State} (hm : s.isMember = false) (hup : s.bit pHif O.HIF_PM_STAT 0 = true) :
    ∃ l, (s.setFld pHif O.HIF_PM_STAT 2 2 0).hostReturns.yarderResumes.linkView
      = some (true, false, l, { s.hif with held := [] }) := by
  have bits : ∀ i, i < 32 → (s.setFld pHif O.HIF_PM_STAT 2 2 0).bit pHif O.HIF_PM_STAT i
      = if 2 ≤ i ∧ i < 4 then bitOf 0 (i - 2) else s.bit pHif O.HIF_PM_STAT i := fun i hi => bit_setFld _ _ _ _ _ _ _ hi
  have view := linkView_of_d0 ((bits 2 (by decide)).trans (if_pos (by decide)))
  rw [bits 0 (by decide), bits 3 (by decide), if_neg (by decide), hup, setFld_hif] at view
  exact ⟨_, linkView_hostReturns ((isMember_setFld_hif s 2 2 0 (by decide)).trans hm) view⟩

/-- The link goes down: LINK_UP and L1 are clear, the cause is set, and what is held stays held. -/
theorem linkDown_effect (s : State) (t : State) (ht : t = (s.setFld pHif O.HIF_PM_STAT 0 2 0).setCause pHif 2) :
    t.bit pHif O.HIF_PM_STAT 0 = false ∧ t.bit pHif O.HIF_PM_STAT 1 = false ∧ t.bit pHif O.INT_CAUSE 1 = true
      ∧ t.hif.held = s.hif.held ∧ t.mems = s.mems := by
  have bits : ∀ i, i < 2 → (s.setFld pHif O.HIF_PM_STAT 0 2 0).bit pHif O.HIF_PM_STAT i = false := fun i hi => by
    rw [bit_setFld _ _ _ _ _ _ _ (by omega), if_pos (by omega)]
    exact Nat.zero_testBit _
  have held : (s.setFld pHif O.HIF_PM_STAT 0 2 0).hif = s.hif := setFld_hif ..
  have mems := mems_setFld s pHif O.HIF_PM_STAT 0 2 0
  generalize s.setFld pHif O.HIF_PM_STAT 0 2 0 = w at ht bits held mems
  have req := signals_setCause w pHif 2
  have cause := bit_setCause w 2 (show pHif ≠ pEic by decide) (b := 1) (by decide)
  have heldSame := requestsKeep_held.setCause w pHif 2
  rw [← ht] at req cause heldSame
  have l1 : ¬ t.bit pHif O.HIF_PM_STAT 1 = true := fun h => by
    have := req.l1 h
    rw [bits 1 (by decide)] at this
    cases this
  exact ⟨(req.pm 0 (by decide) (by decide) (by decide)).trans (bits 0 (by decide)), Bool.eq_false_iff.mpr l1,
    cause.trans ((congrArg (_ || ·) (by decide : bitOf 2 1 = true)).trans (Bool.or_true _)),
    heldSame.trans (congrArg (·.held) held), (mems_of_signals req).trans mems⟩

/-- What the interface keeps after configuration software has set the base addresses and the read size. -/
def configured (h : Hif) (bars : W64 × W64 × W64) (m : Nat) : Hif :=
  { h with maxRead := 128 * 2 ^ m, bar0 := bars.1 >>> 25 <<< 25, bar2 := bars.2.1 >>> 25 <<< 25, bar4 := bars.2.2 >>> 32 <<< 32 }

/-- The link has trained: the width and speed stand in LINK_STAT, and the interface is configured. -/
def trained (s : State) (l : Nat) (bars : W64 × W64 × W64) (m : Nat) : State :=
  State.wr { s with hif := configured s.hif bars m } pHif O.HIF_LINK_STAT l

theorem wr_setBars (s : State) (l : Nat) (bars : W64 × W64 × W64) (m : Nat) :
    (setBars { s with hif := { s.hif with maxRead := 128 * 2 ^ m } } bars).wr pHif O.HIF_LINK_STAT l
      = s.trained l bars m := rfl

theorem rd_trained (s : State) (l : Nat) (bars : W64 × W64 × W64) (m : Nat) {a : Nat} (h : a ≠ O.HIF_LINK_STAT) :
    (s.trained l bars m).rd pHif a = s.rd pHif a := (rd_wr_off _ _ h).trans (rd_setHif ..)

theorem hif_trained (s : State) (l : Nat) (bars : W64 × W64 × W64) (m : Nat) :
    (s.trained l bars m).hif = configured s.hif bars m := wr_hif ..

theorem linkView_trained {s : State} {l : Nat} (bars : W64 × W64 × W64) (m : Nat) (hl : l < 2 ^ 32)
    (h2 : s.bit pHif O.HIF_PM_STAT 2 = false) : (s.trained l bars m).linkView
      = some (s.bit pHif O.HIF_PM_STAT 0, s.bit pHif O.HIF_PM_STAT 3, l, configured s.hif bars m) := by
  have pm := rd_trained s l bars m (a := O.HIF_PM_STAT) (by decide)
  have stat : (s.trained l bars m).rd pHif O.HIF_LINK_STAT = l := (rd_wr_same ..).trans (Nat.mod_eq_of_lt hl)
  rw [linkView_of_d0 ((bit_of_rd _ pm).trans h2), bit_of_rd _ pm, bit_of_rd _ pm, stat, hif_trained]

theorem isMember_trained (s : State) (l : Nat) (bars : W64 × W64 × W64) (m : Nat) :
    (s.trained l bars m).isMember = s.isMember := by
  rw [trained, isMember_wr_hif _ _ (by decide)]
  exact isMember_congr rfl (rd_setHif ..)

/-- The link comes up. -/
theorem linkUp_effect {s : State} {l : Nat} (c : Prop) [Decidable c] (bars : W64 × W64 × W64) (m : Nat)
    (hl : l < 2 ^ 32) (hm : s.isMember = false) (h2 : s.bit pHif O.HIF_PM_STAT 2 = false) :
    ∃ b3, (if c then ((s.setBit pHif O.HIF_PM_STAT 0 true).trained l bars m).setCause pHif 4
        else (s.setBit pHif O.HIF_PM_STAT 0 true).trained l bars m).hostReturns.yarderResumes.linkView
      = some (true, b3, l, { configured s.hif bars m with held := [] }) := by
  have view := linkView_trained (s := s.setBit pHif O.HIF_PM_STAT 0 true) bars m hl
    ((bit_setFld_other _ _ (by decide) (by decide)).trans h2)
  rw [bit_setBit_same _ _ _ _ _ (by decide), setBit_hif] at view
  have member : ((s.setBit pHif O.HIF_PM_STAT 0 true).trained l bars m).isMember = false :=
    (isMember_trained ..).trans ((isMember_setFld_hif s 0 1 _ (by decide)).trans hm)
  generalize (s.setBit pHif O.HIF_PM_STAT 0 true).trained l bars m = w at view member
  refine ⟨(s.setBit pHif O.HIF_PM_STAT 0 true).bit pHif O.HIF_PM_STAT 3, linkView_hostReturns ?_ ?_⟩
  · exact ite_keeps isMember ((isMember_setCause_hif w 4).trans member) member
  · exact ite_keeps linkView ((linkView_setCause ..).trans view) view

/-- A link that is up counts a Recovery. -/
theorem rd_incrSat (s : State) (p off : Nat) (h : s.rd p off < 2 ^ 32 - 1) : (s.incrSat p off).rd p off = s.rd p off + 1 := by
  rw [incrSat, if_neg (by omega)]
  exact (rd_wr_same ..).trans (Nat.mod_eq_of_lt (by omega))

theorem mems_incrSat (s : State) (p off : Nat) : (s.incrSat p off).mems = s.mems := ite_keeps mems rfl (mems_wr ..)

theorem rd_incrSat_off (s : State) {p a b : Nat} (h : b ≠ a) : (s.incrSat p a).rd p b = s.rd p b :=
  ite_keeps (fun t : State => t.rd p b) rfl (rd_wr_off _ _ h)

theorem mems_setHif (s : State) (h : Hif) : mems { s with hif := h } = s.mems := rfl

theorem mems_trained (s : State) (l : Nat) (bars : W64 × W64 × W64) (m : Nat) : (s.trained l bars m).mems = s.mems := by
  rw [trained, mems_wr, mems_setHif]

/-- The link degrades: what it has trained to stands in LINK_STAT, and the cause is set. -/
theorem linkDegraded_effect (s : State) (c : Prop) [Decidable c] {l : Nat} (hl : l < 2 ^ 32) (t : State)
    (ht : t = ((if c then s.incrSat pHif O.HIF_LINK_RECOV else s).wr pHif O.HIF_LINK_STAT l).setCause pHif 4) :
    t.rd pHif O.HIF_LINK_STAT = l ∧ t.bit pHif O.INT_CAUSE 2 = true ∧ t.mems = s.mems := by
  have mems : (if c then s.incrSat pHif O.HIF_LINK_RECOV else s).mems = s.mems := ite_keeps mems (mems_incrSat ..) rfl
  generalize (if c then s.incrSat pHif O.HIF_LINK_RECOV else s) = w at ht mems
  have req := signals_setCause (w.wr pHif O.HIF_LINK_STAT l) pHif 4
  have cause := bit_setCause (w.wr pHif O.HIF_LINK_STAT l) 4 (show pHif ≠ pEic by decide) (b := 2) (by decide)
  rw [← ht] at req cause
  refine ⟨(req.reg _ _ (by decide) (by decide)).trans ((rd_wr_same ..).trans (Nat.mod_eq_of_lt hl)), ?_, ?_⟩
  · exact cause.trans ((congrArg (_ || ·) (by decide : bitOf 4 2 = true)).trans (Bool.or_true _))
  · exact (mems_of_signals req).trans ((mems_wr ..).trans mems)

/-- An event that changes nothing. -/
theorem act_of_still {b : Blk} {f : State → State} {s : State} (h : f s = s) : act b f s = .next s := by
  rw [act, h, ite_self]
  rfl

/-! ## Masks of the vectors (R83) -/

theorem requestsKeep_mems : RequestsKeep mems where
  wr _ _ _ _ _ := mems_wr ..
  pba _ _ _ := mems_setBit ..
  wake _ := mems_setBit ..
  emit _ _ := rfl
  tab _ _ _ := rfl
  sat _ _ := rfl
  pme s _ := mems_of_signals (signals_pmeSend pHif s)

/-- What the vector's own Mask bit is clear of. -/
theorem rd_setMask (s : State) (v : Nat) (b : Bool) {off : Nat} (h : off < O.HIF_MSIX_ADDR_LO ∨ off % 16 ≠ 12) :
    (s.setBit pHif (O.HIF_MSIX_CTRL + 16 * v) 0 b).rd pHif off = s.rd pHif off :=
  rd_setBit_off _ _ _ (by simp only [O.HIF_MSIX_CTRL, O.HIF_MSIX_ADDR_LO] at h ⊢; omega)

theorem rd_setPba (s : State) {v : Nat} (b : Bool) {off : Nat} (hv : v < 2048) (h : O.HIF_MSIX_ADDR_LO ≤ off) :
    (s.setPba v b).rd pHif off = s.rd pHif off :=
  rd_setBit_off _ _ _ (by simp only [O.HIF_PBA, O.HIF_MSIX_ADDR_LO] at h ⊢; omega)

theorem rd_issueMsix (s : State) (v : Nat) {off : Nat} (h : off ≠ O.HIF_PM_STAT) :
    (s.issueMsix v).rd pHif off = s.rd pHif off := rd_setBit_off s _ _ h

theorem mems_issueMsix (s : State) (v : Nat) : (s.issueMsix v).mems = s.mems := mems_of_signals (signals_issueMsix pHif s v)

/-- An unmasked vector: its message leaves if it was pending, and it is pending no more. -/
theorem unmaskOne_effect (s : State) {v : Nat} (hv : v < 2048) (hr : s.hostReady = true) (hf : s.hif.funcMask = false) :
    (s.unmaskOne v).bit pHif (O.HIF_MSIX_CTRL + 16 * v) 0 = false
      ∧ (s.unmaskOne v).bit pHif (O.HIF_PBA + 4 * (v / 32)) (v % 32) = false
      ∧ (s.unmaskOne v).out = (if s.bit pHif (O.HIF_PBA + 4 * (v / 32)) (v % 32) then
          .msix v (s.rd64 pHif (O.HIF_MSIX_ADDR_LO + 16 * v)) (BitVec.ofNat 32 (s.rd pHif (O.HIF_MSIX_DATA + 16 * v)))
            :: s.out else s.out)
      ∧ (s.unmaskOne v).mems = s.mems := by
  have low : ∀ off, off < O.HIF_MSIX_ADDR_LO ∨ off % 16 ≠ 12 →
      (s.setBit pHif (O.HIF_MSIX_CTRL + 16 * v) 0 false).rd pHif off = s.rd pHif off := fun off h => rd_setMask s v false h
  have ctrl : O.HIF_MSIX_CTRL + 16 * v < 0x10000 := by simp only [O.HIF_MSIX_CTRL]; omega
  have open_ : (s.setBit pHif (O.HIF_MSIX_CTRL + 16 * v) 0 false).bit pHif (O.HIF_MSIX_CTRL + 16 * v) 0 = false :=
    bit_setBit_same _ _ _ _ _ (by decide)
  have ready : (s.setBit pHif (O.HIF_MSIX_CTRL + 16 * v) 0 false).hostReady = true :=
    (hostReady_congr (setBit_flt s pHif _ 0 false)
      (rd_wr_other s _ (regKey_ne_of_page (p := pStd) (off := O.STD_STAT) (by decide) ctrl (by decide)))
      (low O.HIF_PM_STAT (by decide))).trans hr
  have pend := bit_of_rd (v % 32) (low (O.HIF_PBA + 4 * (v / 32)) (by simp only [O.HIF_PBA, O.HIF_MSIX_ADDR_LO]; omega))
  have func : (s.setBit pHif (O.HIF_MSIX_CTRL + 16 * v) 0 false).hif.funcMask = false := by rw [setBit_hif, hf]
  have mems := mems_setBit s pHif (O.HIF_MSIX_CTRL + 16 * v) 0 false
  have out := setBit_out s pHif (O.HIF_MSIX_CTRL + 16 * v) 0 false
  have lo := low (O.HIF_MSIX_ADDR_LO + 16 * v) (.inr (by simp only [O.HIF_MSIX_ADDR_LO]; omega))
  have hi := low (O.HIF_MSIX_ADDR_LO + 16 * v + 4) (.inr (by simp only [O.HIF_MSIX_ADDR_LO]; omega))
  have data := low (O.HIF_MSIX_DATA + 16 * v) (.inr (by simp only [O.HIF_MSIX_DATA]; omega))
  unfold unmaskOne
  simp only
  generalize s.setBit pHif (O.HIF_MSIX_CTRL + 16 * v) 0 false = w at *
  have mask : w.vecMasked v = false := by rw [vecMasked, func, open_]; rfl
  rw [pend, mask, ready]
  cases hp : s.bit pHif (O.HIF_PBA + 4 * (v / 32)) (v % 32) with
  | false => exact ⟨open_, pend.trans hp, out, mems⟩
  | true =>
    have message := out_issueMsix (w.setPba v false) v
    have table : ∀ off, O.HIF_MSIX_ADDR_LO ≤ off → (w.setPba v false).rd pHif off = w.rd pHif off := fun off h =>
      rd_setPba w false hv h
    have pba : (w.setPba v false).bit pHif (O.HIF_PBA + 4 * (v / 32)) (v % 32) = false :=
      bit_setBit_same _ _ _ _ _ (by omega)
    have sentMems := (mems_issueMsix (w.setPba v false) v).trans (mems_setBit ..)
    have outPba : (w.setPba v false).out = w.out := setBit_out ..
    rw [rd64, table _ (by omega), table _ (by omega), table _ (by simp only [O.HIF_MSIX_ADDR_LO, O.HIF_MSIX_DATA]; omega), lo, hi,
      data, outPba, out] at message
    simp only [Bool.not_false, Bool.and_self, if_true]
    refine ⟨?_, ?_, message, sentMems.trans mems⟩
    · exact (bit_of_rd _ ((rd_issueMsix _ _ (by simp only [O.HIF_MSIX_CTRL, O.HIF_PM_STAT]; omega)).trans
        (table _ (by simp only [O.HIF_MSIX_CTRL, O.HIF_MSIX_ADDR_LO]; omega)))).trans open_
    · exact (bit_of_rd _ (rd_issueMsix _ _ (by simp only [O.HIF_PBA, O.HIF_PM_STAT]; omega))).trans pba

end State

/-- Settles O12: each event is one or two registers written, and what then waits is sent without touching them. -/
theorem hostLinkStatesFollowTheirEvents : Obligations.HostLinkStatesFollowTheirEvents := by
  unfold Obligations.HostLinkStatesFollowTheirEvents
  simp only
  have pmRegs : ∀ (s : State) lo n x, State.PageRegs pHif [O.HIF_PM_STAT] s (s.setFld pHif O.HIF_PM_STAT lo n x) :=
    fun s lo n x => .wr s _ List.mem_cons_self (by decide)
  refine ⟨?_, ?_, ?_, ?_, ?_, ?_, ?_, ?_, ?_, ?_, ?_, ?_⟩
  · intro s ha
    change ∃ t, act .hif (·.wakeLink) s = .next t ∧ _
    refine act_next ha fun u hu => ?_
    have regs := pmRegs s 1 1 (b2n false)
    have low : s.wakeLink.bit pHif O.HIF_PM_STAT 1 = false := State.bit_setBit_same _ _ _ _ _ (by decide)
    change State.PageRegs _ _ _ s.wakeLink at regs
    rw [← hu] at regs low
    exact ⟨low, congrArg (fun u => { u with pending := s.pending }) regs.rest, regs.regsSame (by simp)⟩
  · intro s ha hup
    change ∃ t, act .hif (fun s => when (s.bit pHif O.HIF_PM_STAT 0) (·.setBit pHif O.HIF_PM_STAT 1 true) s) s = .next t ∧ _
    refine act_next ha fun u hu => ?_
    have hu : u = s.setBit pHif O.HIF_PM_STAT 1 true := hu.trans (if_pos hup)
    have regs := pmRegs s 1 1 (b2n true)
    have high : (s.setBit pHif O.HIF_PM_STAT 1 true).bit pHif O.HIF_PM_STAT 1 = true :=
      State.bit_setBit_same _ _ _ _ _ (by decide)
    change State.PageRegs _ _ _ (s.setBit pHif O.HIF_PM_STAT 1 true) at regs
    rw [← hu] at regs high
    exact ⟨high, congrArg (fun u => { u with pending := s.pending }) regs.rest, regs.regsSame (by simp)⟩
  · intro e s ha
    change ∃ t, act .hif (fun s => { s.setBit pHif O.HIF_PM_STAT 2 true with hif := { s.hif with pmeEn := e } }) s
      = .next t ∧ _
    refine act_next ha fun u hu => ?_
    have regs := pmRegs s 2 1 (b2n true)
    have d3 : (s.setBit pHif O.HIF_PM_STAT 2 true).bit pHif O.HIF_PM_STAT 2 = true :=
      State.bit_setBit_same _ _ _ _ _ (by decide)
    have up : (s.setBit pHif O.HIF_PM_STAT 2 true).bit pHif O.HIF_PM_STAT 0 = s.bit pHif O.HIF_PM_STAT 0 :=
      State.bit_setFld_other _ _ (by decide) (by decide)
    change State.PageRegs _ _ _ (s.setBit pHif O.HIF_PM_STAT 2 true) at regs
    generalize s.setBit pHif O.HIF_PM_STAT 2 true = w at hu regs d3 up
    subst hu
    exact ⟨d3, rfl, up, regs.regsSame (by simp), State.memSame_of_mems regs.mems⟩
  · intro s ha hm hup hd3
    change ∃ t, act .hif (fun s => when (s.bit pHif O.HIF_PM_STAT 2)
      (fun s => (s.setFld pHif O.HIF_PM_STAT 2 2 0).hostReturns.yarderResumes) s) s = .next t ∧ _
    refine act_next ha fun u hu => ?_
    have hu : u = (s.setFld pHif O.HIF_PM_STAT 2 2 0).hostReturns.yarderResumes := hu.trans (if_pos hd3)
    obtain ⟨l, after⟩ := State.d0Return_effect hm hup
    rw [← hu] at after
    obtain ⟨h2, -, h3, -, hif⟩ := State.linkView_eq_some after
    exact ⟨h2, h3, congrArg (·.held) hif⟩
  · intro s ha hm hup
    change ∃ t, act .hif (fun s => when (s.bit pHif O.HIF_PM_STAT 0 && !s.isMember)
      (fun s => (s.setFld pHif O.HIF_PM_STAT 0 2 0).setCause pHif 2) s) s = .next t ∧ _
    refine act_next ha fun u hu => ?_
    obtain ⟨h0, h1, cause, held, mems⟩ := State.linkDown_effect s u (hu.trans (if_pos (by rw [hup, hm]; rfl)))
    exact ⟨h0, h1, cause, held, State.memSame_of_mems mems⟩
  · intro w v bars m s ha hm hdown hd0
    have run : exec (.linkUp w ⟨v, bars, m⟩) s = execLinkUp w ⟨v, bars, m⟩ s := rfl
    rw [run, execLinkUp]
    refine act_next ha fun u hu => ?_
    obtain ⟨b3, after⟩ := State.linkUp_effect (s := s) (l := w * 16 + v) (w.val < 4) bars m (by omega) hm hd0
    simp only [hm, hdown, Bool.false_eq_true, if_false, State.wr_setBars] at hu
    rw [← hu] at after
    obtain ⟨-, h0, -, stat, hif⟩ := State.linkView_eq_some after
    exact ⟨h0, stat, congrArg (·.held) hif, congrArg (·.maxRead) hif, congrArg (·.bar0) hif, congrArg (·.bar2) hif,
      congrArg (·.bar4) hif⟩
  · intro w v bars m s ha hm hup hrec hw
    have run : exec (.linkUp w ⟨v, bars, m⟩) s = execLinkUp w ⟨v, bars, m⟩ s := rfl
    rw [run, execLinkUp]
    refine act_next ha fun u hu => ?_
    have wide : ¬ w.val < 4 := by omega
    simp only [hm, hup, Bool.false_eq_true, if_false, if_true, wide, State.wr_setBars] at hu
    have pm := State.rd_incrSat_off s (p := pHif) (a := O.HIF_LINK_RECOV) (b := O.HIF_PM_STAT) (by decide)
    have count := State.rd_incrSat s pHif O.HIF_LINK_RECOV hrec
    have mems := State.mems_incrSat s pHif O.HIF_LINK_RECOV
    generalize s.incrSat pHif O.HIF_LINK_RECOV = r at hu pm count mems
    have keeps := fun a (h : a ≠ O.HIF_LINK_STAT) => State.rd_trained r (w * 16 + v) bars m h
    have mem := State.mems_trained r (w * 16 + v) bars m
    rw [← hu] at keeps mem
    exact ⟨(State.bit_of_rd 0 ((keeps _ (by decide)).trans pm)).trans hup, (keeps _ (by decide)).trans count,
      State.memSame_of_mems (mem.trans mems)⟩
  · intro w v bars m s hm
    have up : exec (.linkUp w ⟨v, bars, m⟩) s = execLinkUp w ⟨v, bars, m⟩ s := rfl
    have down : exec .linkDown s = execLinkDown s := rfl
    rw [up, down, execLinkUp, execLinkDown]
    refine ⟨State.act_of_still (if_pos hm), State.act_of_still (if_neg ?_)⟩
    rw [hm, Bool.not_true, Bool.and_false]
    decide
  · intro w v s ha
    have run : exec (.linkDegraded w v) s = execLinkDegraded w v s := rfl
    rw [run, execLinkDegraded]
    refine act_next ha fun u hu => ?_
    obtain ⟨stat, cause, mems⟩ := State.linkDegraded_effect s _ (l := w * 16 + v) (by omega) u hu
    exact ⟨stat, cause, State.memSame_of_mems mems⟩
  · intro v s ha hr hf
    have run : exec (.vectorUnmask ⟨some v, false⟩) s = access (·.unmaskOne v) s := rfl
    rw [run]
    refine access_next ha fun u hu => ?_
    obtain ⟨mask, pend, out, mems⟩ := State.unmaskOne_effect s v.isLt hr hf
    rw [← hu] at mask pend out mems
    exact ⟨mask, pend, out, State.memSame_of_mems mems⟩
  · intro v s ha
    have run : exec (.vectorUnmask ⟨some v, true⟩) s = access (·.setBit pHif (O.HIF_MSIX_CTRL + 16 * v) 0 true) s := rfl
    rw [run]
    refine access_next ha fun u hu => ?_
    have masked : (s.setBit pHif (O.HIF_MSIX_CTRL + 16 * v) 0 true).vecMasked v = true := by
      rw [State.vecMasked, State.bit_setBit_same _ _ _ _ _ (by decide), Bool.or_true]
    have out := State.setBit_out s pHif (O.HIF_MSIX_CTRL + 16 * v) 0 true
    have mems := State.mems_setBit s pHif (O.HIF_MSIX_CTRL + 16 * v) 0 true
    rw [← hu] at masked out mems
    exact ⟨masked, out, State.memSame_of_mems mems⟩
  · intro s ha
    have run : ∀ b, exec (.vectorUnmask ⟨none, b⟩) s = execVectorUnmask ⟨none, b⟩ s := fun _ => rfl
    rw [run, run, execVectorUnmask, execVectorUnmask]
    refine ⟨?_, access_next ha fun u hu => ?_⟩
    · rw [access, if_pos ha]
      rfl
    · have hu : u = if State.hostReady { s with hif := { s.hif with funcMask := false } }
          then State.sendPending { s with hif := { s.hif with funcMask := false } }
          else { s with hif := { s.hif with funcMask := false } } := hu
      generalize hw : ({ s with hif := { s.hif with funcMask := false } } : State) = w at hu
      have func : w.hif.funcMask = false := by rw [← hw]
      have mems : w.mems = s.mems := by rw [← hw, State.mems_setHif]
      have sent : w.sendPending.hif.funcMask = w.hif.funcMask := State.requestsKeep_funcMask.sendPending w
      have sentMems := State.requestsKeep_mems.sendPending w
      split at hu
      · rw [← hu] at sent sentMems
        exact ⟨sent.trans func, State.memSame_of_mems (sentMems.trans mems)⟩
      · rw [← hu] at func mems
        exact ⟨func, State.memSame_of_mems mems⟩

end Sys2Proof.Machine
end

section
/-! PROOFS. O35, scenes: SCENE_SUBMIT keeps a sound scene for its epoch. -/
namespace Sys2Proof.Machine
namespace State

/-! ## A change of jobs, scenes and registers -/

/-- `t` is `s` but for jobs, what the Landing keeps, and registers. -/
def ScenesOnly (s t : State) : Prop := t = { s with sq := t.sq, lnd := t.lnd, regs := t.regs }

namespace ScenesOnly

variable {s t u : State}

theorem trans (h : ScenesOnly s t) (k : ScenesOnly t u) : ScenesOnly s u := by
  unfold ScenesOnly at *
  rw [h] at k
  exact k

theorem mems (h : ScenesOnly s t) : t.mems = s.mems := (congrArg State.mems h).trans rfl

theorem wakeLink (s : State) : ScenesOnly s s.wakeLink := rfl

theorem setSq (s : State) (q : Nat) (v : Sq) : ScenesOnly s (s.setSq q v) := rfl

theorem setJob (s : State) (r : JobRef) (f : Job → Job) : ScenesOnly s (s.setJob r f) := by
  unfold State.setJob
  simp only
  split
  · exact setSq ..
  · exact setSq ..

theorem finish (s : State) (r : JobRef) (o : JobOut) : ScenesOnly s (s.finish r o) := setJob ..
theorem takeJob (s : State) (r : JobRef) (e : Option Nat) : ScenesOnly s (s.takeJob r e) := setJob ..
theorem setLnd (s : State) (l : Lnd) : ScenesOnly s { s with lnd := l } := rfl
theorem setFeed (s : State) (k : Nat) (f : Feed) : ScenesOnly s (s.setFeed k f) := rfl

theorem sceneFlags (s : State) (k : Nat) : ScenesOnly s (s.sceneFlags k) := by
  unfold ScenesOnly
  have e := (feedsStay_sceneFlags s k).only.rest
  have sq := (feedsStay_sceneFlags s k).only.sq
  rw [sq]
  exact e

end ScenesOnly

/-- Placing a scene changes jobs, scenes and the Landing's flags. -/
theorem scenesOnly_placeScene (s : State) (r : JobRef) (j : Job) : ScenesOnly s (s.placeScene r j) := by
  unfold placeScene
  simp only
  split
  · exact .finish ..
  · refine (ScenesOnly.setLnd s { s.lnd with serial := s.lnd.serial + 1 }).trans ?_
    split
    · exact (((ScenesOnly.finish ..).trans (.setFeed ..)).trans (.takeJob ..)).trans (.sceneFlags ..)
    · split
      · exact ((ScenesOnly.finish ..).trans (.takeJob ..)).trans (.setFeed ..)
      · split
        · exact (ScenesOnly.takeJob ..).trans (.setFeed ..)
        · exact ((ScenesOnly.takeJob ..).trans (.setFeed ..)).trans (.sceneFlags ..)

theorem scenesOnly_sceneSubmit (s : State) (ok : Bool) (r : JobRef) (j : Job) :
    ScenesOnly s (s.sceneSubmit ok r j) := by
  unfold sceneSubmit
  simp only
  split
  · exact .finish ..
  · split
    · exact .finish ..
    · exact scenesOnly_placeScene ..

/-! ## The epoch of a scene -/

/-- Whether an epoch is far enough ahead turns on stand time and the grid alone. -/
theorem leadOk_congr {s t : State} (ht : t.tim = s.tim) (ho : t.rd pTim O.TIM_FRAME_OFS = s.rd pTim O.TIM_FRAME_OFS)
    (e n : Nat) : t.leadOk e n = s.leadOk e n := by
  have num : t.frateNum = s.frateNum := by rw [frateNum, frateNum, ht]
  have den : t.frateDen = s.frateDen := by rw [frateDen, frateDen, ht]
  have per : t.periodFx = s.periodFx := by rw [periodFx, periodFx, nominalFx, nominalFx, num, den, ht]
  have at_ : ∀ a b k, t.gridAt a b k = s.gridAt a b k := fun a b k => by rw [gridAt, gridAt, ho]
  have after : ∀ x, t.gridAfter x = s.gridAfter x := fun x => by
    simp only [gridAfter, gridFirst, at_, ho, ht, num, den, per]
  have next : t.nextBoundary = s.nextBoundary := by
    rw [nextBoundary, nextBoundary, ht, after, per]
  rw [leadOk, leadOk, epochAhead, epochAhead, nowFx, nowFx, ht, next, per]

theorem leadOk_wakeLink (s : State) (e n : Nat) : s.wakeLink.leadOk e n = s.leadOk e n :=
  leadOk_congr (setBit_tim ..) (rd_wr_other s _ (regKey_ne_of_page (by decide) (by decide) (by decide))) e n

/-! ## A job that its block takes -/

theorem findJob_takeJob (s : State) (r : JobRef) (e : Option Nat) :
    (s.takeJob r e).findJob r = (s.findJob r).map fun j => { j with taken := true, epoch := e } :=
  findJob_setJob s r _ fun _ => rfl

theorem withJob_of_ready {s : State} {r : JobRef} {op : Nat} {j : Job} (f : Job → State → State) (h : s.jobReady r op j) :
    s.withJob r op f = f j s := by
  obtain ⟨-, found, hop, hout, htaken⟩ := h
  unfold withJob
  rw [found]
  exact if_pos ⟨hop, hout, by rw [htaken]; rfl⟩

theorem withHbm_of_ready {s : State} (f : State → State) (h : s.hbmReady = true) : s.withHbm f = f s := if_pos h

theorem withHost_of_ready {s : State} (f : State → State) (h : s.hostReady = true) : s.withHost f = f s.wakeLink := if_pos h

theorem jobOpen_of_ready {s : State} {r : JobRef} {op : Nat} {j : Job} (h : s.jobReady r op j) : s.jobOpen r = true := by
  obtain ⟨-, found, -, hout, -⟩ := h
  rw [jobOpen, found]
  simp [hout]

theorem jobOpen_of_sq {s t : State} (h : t.sq = s.sq) (r : JobRef) : t.jobOpen r = s.jobOpen r := by
  rw [jobOpen, jobOpen, findJob_of_sq h]

theorem sq_wakeLink (s : State) : s.wakeLink.sq = s.sq := setBit_sq ..

/-! ## A scene that is kept -/

theorem findJob_setFeed (s : State) (k : Nat) (f : Feed) (r : JobRef) : (s.setFeed k f).findJob r = s.findJob r := rfl

/-- A sound scene in time, where none of its epoch waits and a buffer is free, joins those that wait. -/
theorem placeScene_of_room {s : State} {r : JobRef} {j : Job} {k : Nat} (hk : k = bitsOf (j.dw 6) 0 3)
    (ht : s.leadOk (s.sceneOf j).epoch 1 = true)
    (hn : ((s.liveScenes k).any fun e => decide (e.1.epoch = (s.sceneOf j).epoch)) = false)
    (hw : (s.wfeed k).wait = []) (hl : (s.liveScenes k).length < 2) :
    s.placeScene r j = ((({ s with lnd := { s.lnd with serial := s.lnd.serial + 1 } } : State).takeJob r
      (some (s.sceneOf j).epoch)).setFeed k { s.wfeed k with pend := s.liveScenes k ++ [(s.sceneOf j, r)] }).sceneFlags k := by
  have none_ : (s.liveScenes k).find? (fun e => decide (e.1.epoch = (s.sceneOf j).epoch)) = none := by
    rw [List.find?_eq_none]
    intro e he h
    rw [List.any_eq_false] at hn
    exact hn e he h
  unfold placeScene
  simp only [← hk, ht, none_, hw, List.find?_nil, Bool.not_true, Bool.false_eq_true, if_false, if_neg (Nat.not_le.mpr hl)]

/-- The scenes that wait, and the job, which stays open for its epoch. -/
theorem placeScene_effect {s : State} {r : JobRef} {i j : Job} {k : Nat} (hk : k = bitsOf (j.dw 6) 0 3)
    (hi : s.findJob r = some i) (ho : i.out = none) (ht : s.leadOk (s.sceneOf j).epoch 1 = true)
    (hn : ((s.liveScenes k).any fun e => decide (e.1.epoch = (s.sceneOf j).epoch)) = false)
    (hw : (s.wfeed k).wait = []) (hl : (s.liveScenes k).length < 2) :
    ((s.placeScene r j).wfeed k).pend = s.liveScenes k ++ [(s.sceneOf j, r)]
      ∧ ((s.placeScene r j).findJob r).map (fun i => (i.out, i.taken, i.epoch))
        = some (none, true, some (s.sceneOf j).epoch) := by
  rw [placeScene_of_room hk ht hn hw hl]
  generalize hc : ({ s with lnd := { s.lnd with serial := s.lnd.serial + 1 } } : State) = c
  generalize hf : ({ s.wfeed k with pend := s.liveScenes k ++ [(s.sceneOf j, r)] } : Feed) = f
  have flags := feedsStay_sceneFlags ((c.takeJob r (some (s.sceneOf j).epoch)).setFeed k f) k
  have found : c.findJob r = some i := by
    rw [← hc]
    exact hi
  refine ⟨?_, ?_⟩
  · rw [flags.feeds, wfeed_setFeed_same, ← hf]
  · rw [flags.only.findJob, findJob_setFeed, findJob_takeJob, found]
    simp [ho]

/-- The scene a job names and the scenes that wait are a matter of host memory, of jobs and of the Landing. -/
theorem sceneOf_wakeLink (s : State) (j : Job) : s.wakeLink.sceneOf j = s.sceneOf j := rfl
theorem liveScenes_wakeLink (s : State) (k : Nat) : s.wakeLink.liveScenes k = s.liveScenes k := rfl
theorem wfeed_wakeLink (s : State) (k : Nat) : s.wakeLink.wfeed k = s.wfeed k := rfl

/-! ## SCENE_SUBMIT, case by case -/

section
variable (s : State) (r : JobRef) (j : Job)

theorem sceneSubmit_of_unread : s.sceneSubmit false r j = s.finish r { status := 12 } := rfl

theorem sceneSubmit_of_fault {reason lay : Nat}
    (h : (s.sceneOf j).readFault (bitsOf (j.dw 6) 0 3) j.length = some (reason, lay)) :
    s.sceneSubmit true r j = s.finish r { status := 9, detail := reason * 256 + lay } := by
  simp only [sceneSubmit, h, Bool.not_true, Bool.false_eq_true, if_false]
  rfl

theorem sceneSubmit_of_sound (h : (s.sceneOf j).readFault (bitsOf (j.dw 6) 0 3) j.length = none) :
    s.sceneSubmit true r j = s.placeScene r j := by
  simp only [sceneSubmit, h, Bool.not_true, Bool.false_eq_true, if_false]

theorem placeScene_of_late (h : s.leadOk (s.sceneOf j).epoch 1 = false) : s.placeScene r j = s.finish r { status := 3 } := by
  simp only [placeScene, h]
  rfl

end

end State

end Sys2Proof.Machine
end

section
/-! PROOFS. O35, tables: what TABLE_LOAD writes and what it keeps. -/
namespace Sys2Proof.Machine

/-- A word of four bytes is below 2³². -/
theorem leNat_lt (l : List Byte) : leNat l < 256 ^ l.length := by
  induction l with
  | nil => decide
  | cons b r ih =>
    have := b.isLt
    rw [leNat, List.length_cons, Nat.pow_succ]
    omega

theorem leWord_lt (l : List Byte) (off : Nat) : leWord l off < 2 ^ 32 :=
  lt_of_lt_of_le (leNat_lt _) (le_trans (Nat.pow_le_pow_right (by decide) (List.length_take_le 4 _)) (by decide))

namespace State

/-! ## Host memory and the jobs -/

/-- Host memory and the queues' own records, which the writing of tables leaves alone. -/
def hostJobs (s : State) : Store Byte × Store Sq := (s.host, s.sq)

section
variable (s : State)
theorem hostJobs_setTabAt (p t c i v : Nat) : (s.setTabAt p t c i v).hostJobs = s.hostJobs := rfl
theorem hostJobs_setLmp (l : Lmp) : hostJobs { s with lmp := l } = s.hostJobs := rfl
theorem hostJobs_setMem (m : Mem) : hostJobs { s with mem := m } = s.hostJobs := rfl
theorem hostJobs_setLnd (l : Lnd) : hostJobs { s with lnd := l } = s.hostJobs := rfl
theorem hostJobs_setHbm (a : Nat) (l : List Byte) : (s.setHbm a l).hostJobs = s.hostJobs := rfl
theorem hostJobs_wr (p off v : Nat) : (s.wr p off v).hostJobs = s.hostJobs := rfl
theorem hostJobs_setFld (p off lo n v : Nat) : (s.setFld p off lo n v).hostJobs = s.hostJobs := rfl
theorem hostJobs_modSkc (n : Nat) (f : SkCh → SkCh) : (s.modSkc n f).hostJobs = s.hostJobs := rfl
end

theorem hostJobs_writeLamp (s : State) (i v : Nat) : (s.writeLamp i v).hostJobs = s.hostJobs :=
  ite_keeps hostJobs ((hostJobs_setLmp ..).trans (hostJobs_setTabAt ..)) (hostJobs_setTabAt ..)

theorem hostJobs_hostLamp (s : State) (i v : Nat) : (s.hostLamp i v).hostJobs = s.hostJobs :=
  ite_keeps hostJobs ((hostJobs_setHbm ..).trans (hostJobs_writeLamp ..)) (hostJobs_writeLamp ..)

theorem hostJobs_putTable (s : State) (p t i v : Nat) : (s.putTable p t i v).hostJobs = s.hostJobs := by
  have word := hostJobs_setTabAt s p t (s.writeCopy p t) i v
  have put := fun m => (hostJobs_setMem (s.setTabAt p t (s.writeCopy p t) i v) m).trans word
  exact ite_keeps hostJobs (hostJobs_hostLamp ..) (ite_keeps hostJobs rfl (ite_keeps hostJobs (put _)
    (ite_keeps hostJobs (put _) (ite_keeps hostJobs (put _)
      (ite_keeps hostJobs ((hostJobs_setFld ..).trans (put _)) (put _))))))

theorem hostJobs_loadWrite (s : State) (j : Job) (a n : Nat) : (s.loadWrite j a n).hostJobs = s.hostJobs :=
  foldl_keeps hostJobs _ _ _ fun _ _ _ => hostJobs_putTable ..

theorem hostJobs_jobBytes (s : State) (r : JobRef) (k : Nat) : (s.jobBytes r k).hostJobs = s.hostJobs := by
  unfold jobBytes
  split
  · exact (hostJobs_wr ..).trans (hostJobs_wr ..)
  · rfl

theorem hostJobs_withChannel (s : State) (r : JobRef) : (s.withChannel r).hostJobs = s.hostJobs := by
  unfold withChannel takeChannel
  refine ite_keeps hostJobs rfl ?_
  split
  · exact (hostJobs_setFld ..).trans (hostJobs_modSkc ..)
  · rfl

theorem host_setJob (s : State) (r : JobRef) (f : Job → Job) : (s.setJob r f).host = s.host := ite_keeps State.host rfl rfl

theorem host_finish (s : State) (r : JobRef) (o : JobOut) : (s.finish r o).host = s.host := host_setJob ..

theorem host_loadPlain (s : State) (r : JobRef) (j : Job) (n : Nat) : (s.loadPlain r j n).host = s.host := by
  have moved : ∀ k f, (((s.wakeLink.loadWrite j j.moved k).jobBytes r (4 * k)).setJob r f).host = s.host := fun k f =>
    (host_setJob ..).trans (congrArg (·.1) ((hostJobs_jobBytes ..).trans (hostJobs_loadWrite ..)))
  exact ite_keeps State.host (host_finish ..) (ite_keeps State.host rfl
    (ite_keeps State.host ((host_finish ..).trans (moved ..)) (moved ..)))

theorem host_loadEpoch (s : State) (r : JobRef) (j : Job) (l : TabLoad) (n : Nat) : (s.loadEpoch r j l n).host = s.host := by
  have woken : (s.wakeLink.withChannel r).host = s.host := congrArg (·.1) (hostJobs_withChannel ..)
  have moved : ∀ k, (((s.wakeLink.withChannel r).loadWrite j l.written k).jobBytes r (4 * k)).host = s.host := fun k =>
    (congrArg (·.1) ((hostJobs_jobBytes ..).trans (hostJobs_loadWrite ..))).trans woken
  exact ite_keeps State.host rfl (ite_keeps State.host woken
    (ite_keeps State.host ((host_finish ..).trans (moved ..)) (moved ..)))

theorem host_tableLoad (s : State) (r : JobRef) (n : Nat) : (s.tableLoad r n).host = s.host := by
  unfold tableLoad
  split
  · rfl
  · refine ite_keeps State.host rfl (ite_keeps State.host (ite_keeps State.host (host_loadPlain ..) ?_) ?_)
    · split
      · exact host_loadEpoch ..
      · rfl
    · split
      · exact host_finish ..
      · exact ite_keeps State.host ((host_loadPlain ..).trans (host_setJob ..))
          ((host_loadEpoch ..).trans (host_setJob ..))

/-! ## The words of a load (R68) -/

/-- The tables, HBM and the copies in use, which a word of a plain table alone concerns. -/
def tabView (s : State) : Store W32 × Store Byte × Nat := (s.tables, s.hbm, s.lmpActive)

theorem tabAt_of_tabView {s t : State} (h : t.tabView = s.tabView) (p k c i : Nat) : t.tabAt p k c i = s.tabAt p k c i := by
  have e : t.tables = s.tables := congrArg (·.1) h
  rw [tabAt, tabAt, e]

theorem hbm_of_tabView {s t : State} (h : t.tabView = s.tabView) : t.hbm = s.hbm := congrArg (·.2.1) h

theorem writeCopy_of_tabView {s t : State} (h : t.tabView = s.tabView) (p k : Nat) : t.writeCopy p k = s.writeCopy p k := by
  have e : t.lmpActive = s.lmpActive := congrArg (·.2.2) h
  simp only [writeCopy, activeCopy, e]

section
variable (s : State)
theorem tabView_setMem (m : Mem) : tabView { s with mem := m } = s.tabView := rfl
theorem tabView_setFld (p off lo n v : Nat) : (s.setFld p off lo n v).tabView = s.tabView := rfl
theorem tabView_wr (p off v : Nat) : (s.wr p off v).tabView = s.tabView := rfl
theorem tabView_wakeLink : s.wakeLink.tabView = s.tabView := rfl

theorem tabView_setJob (r : JobRef) (f : Job → Job) : (s.setJob r f).tabView = s.tabView := ite_keeps tabView rfl rfl

theorem tabView_finish (r : JobRef) (o : JobOut) : (s.finish r o).tabView = s.tabView := tabView_setJob ..

theorem tabView_jobBytes (r : JobRef) (k : Nat) : (s.jobBytes r k).tabView = s.tabView := by
  unfold jobBytes
  split
  · exact (tabView_wr ..).trans (tabView_wr ..)
  · rfl
end

/-- A word of a table of neither the Lamp map nor the EIC stands in the copy that writes go to. -/
theorem tabView_putTable (s : State) {p t : Nat} (i v : Nat) (he : p ≠ pEic) (hl : ¬ (p = pLmp ∧ 0x20 ≤ t)) :
    (s.putTable p t i v).tabView = (s.setTabAt p t (s.writeCopy p t) i v).tabView := by
  have put := fun m => tabView_setMem (s.setTabAt p t (s.writeCopy p t) i v) m
  unfold putTable
  rw [if_neg hl, if_neg fun h => he h.1]
  exact ite_keeps tabView (put _) (ite_keeps tabView (put _) (ite_keeps tabView (put _)
    (ite_keeps tabView ((tabView_setFld ..).trans (put _)) (put _))))

/-- The words written stand in their places; HBM is as before. -/
theorem loadWrite_effect (s : State) (j : Job) (n : Nat) (he : loadPage j ≠ pEic)
    (hl : ¬ (loadPage j = pLmp ∧ 0x20 ≤ loadTab j)) :
    (s.loadWrite j 0 n).hbm = s.hbm
      ∧ (s.loadWrite j 0 n).writeCopy (loadPage j) (loadTab j) = s.writeCopy (loadPage j) (loadTab j)
      ∧ ∀ i, i < n → (s.loadWrite j 0 n).tabAt (loadPage j) (loadTab j) (s.writeCopy (loadPage j) (loadTab j)) (j.dw 7 + i)
          = leWord (s.jobData j) (4 * i) := by
  unfold loadWrite
  simp only [Nat.add_zero, Nat.zero_add]
  generalize s.jobData j = d
  induction n with
  | zero => exact ⟨rfl, rfl, fun i hi => absurd hi (Nat.not_lt_zero i)⟩
  | succ n ih =>
    obtain ⟨hbm, copy, words⟩ := ih
    rw [List.range_succ, List.foldl_append, List.foldl_cons, List.foldl_nil]
    generalize List.foldl _ s (List.range n) = w at hbm copy words
    have view := tabView_putTable w (j.dw 7 + n) (leWord d (4 * n)) he hl
    rw [copy] at view
    refine ⟨?_, ?_, fun i hi => ?_⟩
    · exact (hbm_of_tabView view).trans hbm
    · exact (writeCopy_of_tabView view _ _).trans copy
    rw [tabAt_of_tabView view, tabAt_setTabAt]
    by_cases e : i = n
    · rw [e, if_pos rfl]
      exact Nat.mod_eq_of_lt (leWord_lt _ _)
    · rw [if_neg (by simp only [tabKey]; omega)]
      exact words i (by omega)

/-! ## TABLE_LOAD, case by case -/

section
variable {s : State} {r : JobRef} {j : Job} (n : Nat) (h : s.jobReady r 0x40 j) (hs : s.skdMoves = true)
  (hr : sramTable (loadPage j) = true → s.sramReady = true)
include h hs hr

/-- A load that fails a check ends with the status of the check. -/
theorem tableLoad_of_fault {st : Nat} (hc : s.loadCheck j = some st) : s.tableLoad r n = s.finish r { status := st } := by
  obtain ⟨-, found, hop, hout, htaken⟩ := h
  unfold tableLoad
  simp only [found, hop, hout, hs, htaken, hc, Option.isSome_none, ne_eq, not_true, Bool.not_true, Bool.false_eq_true, false_or]
  rw [if_neg (by simpa using hr)]
  rfl

/-- A load without an epoch is taken, and its words are written. -/
theorem tableLoad_of_plain (hc : s.loadCheck j = none) (he : loadEpochEn j = false) :
    s.tableLoad r n = (s.takeJob r).loadPlain r j n := by
  obtain ⟨-, found, hop, hout, htaken⟩ := h
  unfold tableLoad
  simp only [found, hop, hout, hs, htaken, hc, he, Option.isSome_none, ne_eq, not_true, Bool.not_true, Bool.not_false,
    Bool.false_eq_true, false_or, if_false, if_true]
  exact if_neg (by simpa using hr)

end

/-- A table that only a stopped page may load belongs to a stopped page, where the checks are passed. -/
theorem stopped_of_loadCheck {s : State} {j : Job} (h : s.loadCheck j = none) :
    ¬ ((tabInfo (loadPage j) (loadTab j)).any (fun x => x.2 = .rl) ∧ !s.stopped (loadPage j)) := by
  rintro ⟨hrl, hst⟩
  unfold loadCheck at h
  simp only at h
  cases hi : tabInfo (loadPage j) (loadTab j) with
  | none => rw [hi] at hrl; cases hrl
  | some e =>
    obtain ⟨size, c⟩ := e
    rw [hi] at hrl h
    have hc : c = .rl := by simpa using hrl
    subst hc
    have hst : s.stopped (loadPage j) = false := by simpa using hst
    simp only [hst] at h
    rw [if_neg (by decide)] at h
    split at h
    · cases h
    · rw [if_pos (by simp)] at h
      cases h

/-- A job whose data have moved on. -/
def moveOn (k : Nat) (j : Job) : Job := { j with moved := j.moved + k }

/-- A load of all its words in one go. -/
theorem loadPlain_of_whole {s : State} {r : JobRef} {j : Job} {n : Nat}
    (hst : ¬ ((tabInfo (loadPage j) (loadTab j)).any (fun x => x.2 = .rl) ∧ !s.stopped (loadPage j)))
    (hr : s.hostReady = true) (hm : j.moved = 0) (hn : j.length / 4 ≤ n) :
    s.loadPlain r j n = (((s.wakeLink.loadWrite j 0 (j.length / 4)).jobBytes r (4 * (j.length / 4))).setJob r
      (moveOn (j.length / 4))).finish r { status := 0, result := j.length / 4 } := by
  unfold loadPlain
  simp only
  rw [if_neg hst, if_neg (by rw [hr]; simp), hm, Nat.sub_zero, Nat.min_eq_right hn, Nat.zero_add, if_pos rfl]
  rfl

/-- A change of a job that leaves its outcome open leaves it open. -/
theorem jobOpen_setJob (s : State) (r : JobRef) (f : Job → Job) (hf : ∀ j, isJob r (f j) = isJob r j)
    (ho : ∀ j, (f j).out = j.out) : (s.setJob r f).jobOpen r = s.jobOpen r := by
  rw [jobOpen, jobOpen, findJob_setJob s r f hf, Option.any_map]
  simp only [ho]

/-- A whole load's words stand in their places, HBM is as before, and its job has ended. -/
theorem loadPlain_effect {s : State} {r : JobRef} {j : Job} {n : Nat}
    (hst : ¬ ((tabInfo (loadPage j) (loadTab j)).any (fun x => x.2 = .rl) ∧ !s.stopped (loadPage j)))
    (hr : s.hostReady = true) (hm : j.moved = 0) (hn : j.length / 4 ≤ n) (ho : s.jobOpen r = true)
    (he : loadPage j ≠ pEic) (hl : ¬ (loadPage j = pLmp ∧ 0x20 ≤ loadTab j)) :
    (s.loadPlain r j n).hbm = s.hbm ∧ (s.loadPlain r j n).jobEnded r { status := 0, result := j.length / 4 }
      ∧ ∀ i, i < j.length / 4 → (s.loadPlain r j n).tabAt (loadPage j) (loadTab j) (s.writeCopy (loadPage j) (loadTab j))
          (j.dw 7 + i) = leWord (s.jobData j) (4 * i) := by
  rw [loadPlain_of_whole hst hr hm hn]
  have woken := tabView_wakeLink s
  have data : s.wakeLink.jobData j = s.jobData j := rfl
  obtain ⟨hbm, -, words⟩ := loadWrite_effect s.wakeLink j (j.length / 4) he hl
  have jobs := hostJobs_loadWrite s.wakeLink j 0 (j.length / 4)
  rw [writeCopy_of_tabView woken, data] at words
  generalize s.wakeLink.loadWrite j 0 (j.length / 4) = w at hbm words jobs
  have view := ((tabView_finish _ r { status := 0, result := j.length / 4 }).trans (tabView_setJob _ r (moveOn (j.length / 4)))).trans
    (tabView_jobBytes w r (4 * (j.length / 4)))
  have sq : (w.jobBytes r (4 * (j.length / 4))).sq = s.sq :=
    (congrArg (·.2) ((hostJobs_jobBytes w r _).trans jobs)).trans (sq_wakeLink s)
  refine ⟨(hbm_of_tabView view).trans (hbm.trans (hbm_of_tabView woken)), jobEnded_finish _ ?_, fun i hi => ?_⟩
  · exact (jobOpen_setJob _ r (moveOn (j.length / 4)) (fun _ => rfl) fun _ => rfl).trans ((jobOpen_of_sq sq r).trans ho)
  · exact (tabAt_of_tabView view ..).trans (words i hi)

end State
end Sys2Proof.Machine
end

section
/-! PROOFS. O35: dose records copied for a job, and the settling of it. -/
namespace Sys2Proof.Machine
namespace State

/-! ## TALLY_SNAPSHOT (R244) -/

/-- A snapshot out of bounds, or of another size than its data. -/
theorem tallySnapshot_of_fault {s : State} (r : JobRef) {j : Job} (k : Nat)
    (h : 67108864 < j.dw 6 + j.dw 7 ∨ j.length ≠ 16 * j.dw 7) : s.tallySnapshot r j k = s.finish r { status := 9 } :=
  if_pos h

/-- A snapshot in one go into one piece: the records stand in it, and the job has ended. -/
theorem tallySnapshot_of_whole {s : State} (r : JobRef) {j : Job} {k a : Nat} (hk : j.dw 7 ≤ k) (hm : j.moved = 0)
    (hb : j.dw 6 + j.dw 7 ≤ 67108864) (hl : j.length = 16 * j.dw 7) (hp : j.pieces = [(a, 16 * j.dw 7)]) :
    s.tallySnapshot r j k = (((s.putJobData (areasFrom 0 [(a, 16 * j.dw 7)])
      (s.hbmBytes (s.doseAddr (j.dw 6)) (16 * j.dw 7))).jobBytes r (16 * j.dw 7)).setJob r fun i =>
        { i with moved := i.moved + 16 * j.dw 7, taken := true }).finish r { status := 0, result := 16 * j.dw 7 } := by
  have bounds : ¬ (lampCount < j.dw 6 + j.dw 7 ∨ j.length ≠ 16 * j.dw 7) := by
    simp only [lampCount, hl]
    omega
  unfold tallySnapshot
  simp only
  rw [if_neg bounds, hm, hp, Nat.zero_div, Nat.sub_zero, Nat.min_eq_right hk, Nat.zero_add, Nat.add_zero, if_pos rfl]
  rfl

/-- The bytes of one piece, put where it stands. -/
theorem putJobData_single (s : State) (a : Nat) {l : List Byte} (h : l ≠ []) :
    s.putJobData (areasFrom 0 [(a, l.length)]) l = s.setHost a l := by
  have pos := List.length_pos_of_ne_nil h
  have areas : areasFrom 0 [(a, l.length)] = [(a, l.length)] := by
    rw [areasFrom, if_pos pos]
    rfl
  rw [areas, putJobData, if_neg (by simpa using h), List.take_length, List.drop_length, putJobData]

theorem putJobData_effect (s : State) (a : Nat) (l : List Byte) :
    (s.putJobData (areasFrom 0 [(a, l.length)]) l).host = ssetList (fun _ => 0) s.host a l
      ∧ (s.putJobData (areasFrom 0 [(a, l.length)]) l).hbm = s.hbm
      ∧ (s.putJobData (areasFrom 0 [(a, l.length)]) l).sq = s.sq := by
  by_cases h : l = []
  · subst h
    exact ⟨rfl, rfl, rfl⟩
  · rw [putJobData_single s a h]
    exact ⟨host_setHost .., setHost_hbm .., setHost_sq ..⟩

/-- The records of a dose table lie where its base register says. -/
theorem doseAddr_wakeLink (s : State) (i : Nat) : s.wakeLink.doseAddr i = s.doseAddr i := by
  have base : ∀ off, off < 0x10000 → s.wakeLink.rd pTly off = s.rd pTly off := fun off ho =>
    rd_wr_other s _ (regKey_ne_of_page ho (by decide) (by decide))
  rw [doseAddr, doseAddr, rd64, rd64, base _ (by decide), base _ (by decide)]

theorem length_hbmBytes (s : State) (a n : Nat) : (s.hbmBytes a n).length = n := by simp [hbmBytes, sgetList]

theorem hbm_jobBytes (s : State) (r : JobRef) (k : Nat) : (s.jobBytes r k).hbm = s.hbm := hbm_of_tabView (tabView_jobBytes ..)
theorem hbm_setJob (s : State) (r : JobRef) (f : Job → Job) : (s.setJob r f).hbm = s.hbm := hbm_of_tabView (tabView_setJob ..)
theorem hbm_finish (s : State) (r : JobRef) (o : JobOut) : (s.finish r o).hbm = s.hbm := hbm_setJob ..

theorem hbm_putJobData (areas : List (Nat × Nat)) (s : State) (l : List Byte) : (s.putJobData areas l).hbm = s.hbm := by
  induction areas generalizing s l with
  | nil => rfl
  | cons a r ih => exact ite_keeps State.hbm rfl ((ih ..).trans (setHost_hbm ..))

/-- A snapshot changes nothing of HBM. -/
theorem hbm_tallySnapshot (s : State) (r : JobRef) (j : Job) (k : Nat) : (s.tallySnapshot r j k).hbm = s.hbm := by
  have moved : ∀ areas l n f, (((s.putJobData areas l).jobBytes r n).setJob r f).hbm = s.hbm := fun areas l n f => by
    rw [hbm_setJob, hbm_jobBytes, hbm_putJobData]
  exact ite_keeps State.hbm (hbm_finish ..) (ite_keeps State.hbm ((hbm_finish ..).trans (moved ..)) (moved ..))

/-- A whole snapshot: the piece holds the records, every other byte is as before, and the job has ended. -/
theorem tallySnapshot_effect {s : State} {r : JobRef} {j : Job} {k a : Nat} (hk : j.dw 7 ≤ k) (hm : j.moved = 0)
    (hb : j.dw 6 + j.dw 7 ≤ 67108864) (hl : j.length = 16 * j.dw 7) (hp : j.pieces = [(a, 16 * j.dw 7)])
    (ho : s.jobOpen r = true) :
    (s.tallySnapshot r j k).jobEnded r { status := 0, result := 16 * j.dw 7 }
      ∧ (s.tallySnapshot r j k).host
        = ssetList (fun _ => 0) s.host a (s.hbmBytes (s.doseAddr (j.dw 6)) (16 * j.dw 7)) := by
  rw [tallySnapshot_of_whole r hk hm hb hl hp]
  have len := length_hbmBytes s (s.doseAddr (j.dw 6)) (16 * j.dw 7)
  generalize s.hbmBytes (s.doseAddr (j.dw 6)) (16 * j.dw 7) = l at len
  rw [← len]
  obtain ⟨host, -, sq⟩ := putJobData_effect s a l
  generalize s.putJobData (areasFrom 0 [(a, l.length)]) l = w at host sq
  have jobs := hostJobs_jobBytes w r l.length
  refine ⟨jobEnded_finish _ ?_, ?_⟩
  · refine (jobOpen_setJob _ r _ ?_ ?_).trans ((jobOpen_of_sq ((congrArg (·.2) jobs).trans sq) r).trans ho)
    · exact fun _ => rfl
    · exact fun _ => rfl
  · rw [host_finish, host_setJob]
    exact (congrArg (·.1) jobs).trans host

/-! ## A change of jobs alone -/

theorem setJob_rest (s : State) (r : JobRef) (f : Job → Job) : s.setJob r f = { s with sq := (s.setJob r f).sq } := by
  unfold setJob
  simp only
  split <;> rfl

theorem finish_rest (s : State) (r : JobRef) (o : JobOut) : s.finish r o = { s with sq := (s.finish r o).sq } := setJob_rest ..

theorem rd_setJob (s : State) (r : JobRef) (f : Job → Job) (p off : Nat) : (s.setJob r f).rd p off = s.rd p off :=
  ite_keeps (fun t : State => t.rd p off) rfl rfl

theorem flt_setJob (s : State) (r : JobRef) (f : Job → Job) : (s.setJob r f).flt = s.flt := ite_keeps State.flt rfl rfl

theorem stopped_takeJob (s : State) (r : JobRef) (e : Option Nat) (p : Nat) : (s.takeJob r e).stopped p = s.stopped p := by
  rw [stopped, stopped, takeJob, pstate_of_rd (rd_setJob ..)]

theorem hostReady_takeJob (s : State) (r : JobRef) (e : Option Nat) : (s.takeJob r e).hostReady = s.hostReady :=
  hostReady_congr (flt_setJob ..) (rd_setJob ..) (rd_setJob ..)

theorem jobOpen_takeJob (s : State) (r : JobRef) (e : Option Nat) : (s.takeJob r e).jobOpen r = s.jobOpen r := by
  refine jobOpen_setJob _ r _ ?_ ?_
  · exact fun _ => rfl
  · exact fun _ => rfl

theorem jobData_takeJob (s : State) (r : JobRef) (e : Option Nat) (j : Job) : (s.takeJob r e).jobData j = s.jobData j := by
  simp only [jobData, hostBytes, takeJob, host_setJob]

theorem hostBytes_of_host {s t : State} (h : t.host = s.host) (a n : Nat) : t.hostBytes a n = s.hostBytes a n := by
  rw [hostBytes, hostBytes, h]

end State

/-- Settles O35, clause by clause: SCENE_SUBMIT and TABLE_LOAD by the cases of their checks, TALLY_SNAPSHOT by the bytes of its
one piece. -/
theorem scenesTablesAndSnapshotsOfJobs : Obligations.ScenesTablesAndSnapshotsOfJobs := by
  unfold Obligations.ScenesTablesAndSnapshotsOfJobs
  refine ⟨?_, ?_, ?_⟩
  · intro r ok j s h hb hh
    simp only
    have run : exec (.sceneSubmit r ok) s = execSceneSubmit r ok s := rfl
    rw [run, execSceneSubmit]
    refine act_next h.1 fun u hu => ?_
    rw [State.withJob_of_ready _ h, State.withHbm_of_ready _ hb, State.withHost_of_ready _ hh] at hu
    have only := (State.ScenesOnly.wakeLink s).trans (State.scenesOnly_sceneSubmit s.wakeLink ok r j)
    rw [← hu] at only
    have isOpen : s.wakeLink.jobOpen r = true := (State.jobOpen_of_sq (State.sq_wakeLink s) r).trans (State.jobOpen_of_ready h)
    have ended : ∀ o, u = s.wakeLink.finish r o → u.jobEnded r o := fun o e => e ▸ State.jobEnded_finish o isOpen
    refine ⟨?_, State.memSame_of_mems only.mems, fun hok => ?_, fun reason lay hok hbad => ?_, fun hok hbad hlate => ?_,
      fun hok hbad htime hroom hwait hnew => ?_⟩
    · exact congrArg (fun u => { u with pending := s.pending }) only
    · rw [hok] at hu
      exact ended _ (hu.trans (State.sceneSubmit_of_unread ..))
    · rw [hok] at hu
      exact ended _ (hu.trans (State.sceneSubmit_of_fault _ r j ((State.sceneOf_wakeLink s j).symm ▸ hbad)))
    · rw [hok, State.sceneSubmit_of_sound _ r j ((State.sceneOf_wakeLink s j).symm ▸ hbad)] at hu
      refine ended _ (hu.trans (State.placeScene_of_late _ r j ?_))
      rw [State.sceneOf_wakeLink, State.leadOk_wakeLink, hlate]
    · rw [hok, State.sceneSubmit_of_sound _ r j ((State.sceneOf_wakeLink s j).symm ▸ hbad)] at hu
      have kept := State.placeScene_effect (s := s.wakeLink) (i := j) (r := r) (j := j) rfl
        ((State.findJob_of_sq (State.sq_wakeLink s) r).trans h.2.1) h.2.2.2.1
      rw [State.sceneOf_wakeLink, State.leadOk_wakeLink, State.liveScenes_wakeLink, State.wfeed_wakeLink, ← hu] at kept
      exact kept htime hnew hwait hroom
  · intro r n j s h hs
    simp only
    intro hr
    have run : exec (.tableLoad r n) s = execTableLoad r n s := rfl
    rw [run, execTableLoad]
    refine act_next h.1 fun u hu => ?_
    have host := State.host_tableLoad s r n
    rw [← hu] at host
    refine ⟨host, fun st hc => ?_, fun hc he hm hn hh hp hl => ?_⟩
    · rw [State.tableLoad_of_fault n h hs hr hc] at hu
      have rest := State.finish_rest s r { status := st }
      have ended := State.jobEnded_finish (s := s) (r := r) { status := st } (State.jobOpen_of_ready h)
      have hu : u = s.finish r { status := st } := hu
      rw [← hu] at rest ended
      exact ⟨ended, congrArg (fun u => { u with pending := s.pending }) rest⟩
    · rw [State.tableLoad_of_plain n h hs hr hc he] at hu
      have stopped := State.stopped_of_loadCheck hc
      rw [← State.stopped_takeJob s r none] at stopped
      obtain ⟨hbm, ended, words⟩ := State.loadPlain_effect stopped ((State.hostReady_takeJob ..).trans hh) hm hn
        ((State.jobOpen_takeJob ..).trans (State.jobOpen_of_ready h)) hp hl
      have view : (s.takeJob r).tabView = s.tabView := State.tabView_setJob ..
      rw [← hu, State.writeCopy_of_tabView view, State.jobData_takeJob] at words
      rw [← hu] at hbm ended
      exact ⟨hbm.trans (State.hbm_of_tabView view), ended, words⟩
  · intro r k j s ha h hs hb hh
    simp only
    have run : exec (.tallySnapshot ⟨r, k⟩) s = execTallySnapshot ⟨r, k⟩ s := rfl
    rw [run, execTallySnapshot]
    refine act_next ha fun u hu => ?_
    have go : (s.skdMoves && decide (j.op = 0x41) && j.out.isNone) = true := by
      rw [hs, h.2.2.1, h.2.2.2.1]
      rfl
    simp only [h.2.1] at hu
    have hu : u = s.wakeLink.tallySnapshot r j k := by
      rw [hu, when, if_pos go, State.withHbm_of_ready _ hb, State.withHost_of_ready _ hh]
    have isOpen : s.wakeLink.jobOpen r = true :=
      (State.jobOpen_of_sq (State.sq_wakeLink s) r).trans (State.jobOpen_of_ready h)
    have hbm := State.hbm_tallySnapshot s.wakeLink r j k
    rw [← hu] at hbm
    refine ⟨hbm, fun hbad => ?_, fun a hm hk hlast hl hp => ?_⟩
    · rw [State.tallySnapshot_of_fault r k hbad] at hu
      have rest := State.finish_rest s.wakeLink r { status := 9 }
      have ended := State.jobEnded_finish (s := s.wakeLink) (r := r) { status := 9 } isOpen
      rw [← hu] at rest ended
      exact ⟨ended, congrArg (fun u => { u with pending := s.pending }) rest⟩
    · obtain ⟨ended, host⟩ := State.tallySnapshot_effect hk hm hlast hl hp isOpen
      rw [← hu, State.doseAddr_wakeLink] at host
      rw [← hu] at ended
      have len := State.length_hbmBytes s.wakeLink (s.doseAddr (j.dw 6)) (16 * j.dw 7)
      refine ⟨ended, ?_, fun x hx => ?_⟩
      · change sgetList _ u.host a _ = _
        rw [host, sgetList_ssetList_of_length len]
        rfl
      · change sget _ u.host x = _
        rw [host, sget_ssetList, len, if_neg hx]
        rfl

end Sys2Proof.Machine
end

section
/-! PROOFS. What resets, power-on and a power failure leave alone, and the words of the boot loader: the lemmas for O22. -/
namespace Sys2Proof.Machine
namespace State

/-! ## What a reset clears (R437-R439) -/

/-- What a reset wipes: queues, contexts, Flumes, posted writes and scenes; with it the conditions of BLACK on every port and
the host interface. -/
def wiped (s : State) : (Store Sq × Store Cq × Store Ctx × Store Flume) × Store (Option Posted) × Store Feed × List Cond × Hif :=
  ((s.sq, s.cq, s.ctxs, s.flumes), s.posted, s.lnd.feeds, s.black.glob, s.hif)

theorem wiped_wr (s : State) (p off v : Nat) : (s.wr p off v).wiped = s.wiped := rfl
theorem wiped_setFld (s : State) (p off lo n v : Nat) : (s.setFld p off lo n v).wiped = s.wiped := rfl
theorem wiped_setBit (s : State) (p off b : Nat) (v : Bool) : (s.setBit p off b v).wiped = s.wiped := rfl

theorem wiped_resetParts (s : State) (flr fatal : Bool) : (s.resetParts flr fatal).wiped
    = (([], [], [], []), [], [], (s.resetBlack fatal).glob, if flr then {} else { s.hif with held := [] }) := rfl

/-- After the pages are reset, of what is wiped only the conditions of BLACK and the host interface are left. -/
theorem wiped_resetPages (s : State) (flr : Bool) : ∃ fatal, (s.resetPages flr).wiped
    = (([], [], [], []), [], [], (s.resetBlack fatal).glob, if flr then {} else { s.hif with held := [] }) := by
  refine ⟨decide (s.flt.life = .fatal) && decide (s.flt.fatalCode = 0x0100), ?_⟩
  rw [← wiped_resetParts]
  unfold resetPages
  simp only
  generalize (decide (s.flt.life = .fatal) && decide (s.flt.fatalCode = 0x0100)) = fatal
  generalize s.resetParts flr fatal = a
  have flags : (if fatal then a else a.setBit pDev O.DEV_FLAGS 0 false).wiped = a.wiped :=
    ite_keeps wiped rfl (wiped_setBit ..)
  generalize (if fatal then a else a.setBit pDev O.DEV_FLAGS 0 false) = b at flags
  generalize hc : corePages.foldl _ (b.wr pYcs O.YCS_CS_CTL (b.fld pYcs O.YCS_CS_CTL 0 1)) = c
  have cores : c.wiped = a.wiped := by
    rw [← hc, foldl_keeps wiped _ _ _ fun u t _ => ite_keeps wiped ((wiped_wr ..).trans (wiped_setFld ..)) (wiped_setFld ..),
      wiped_wr, flags]
  have held := (wiped_wr c pHif O.HIF_HELD_CQE 0).trans cores
  exact ite_keeps wiped ((wiped_setFld ..).trans held) held

/-- A condition on every port makes every port BLACK. -/
theorem allBlack_of_mem {s : State} {c : Cond} (h : c ∈ s.black.glob) : s.allBlack := fun p => by
  rw [portBlack, Bool.or_eq_true]
  refine .inl ?_
  rw [List.isEmpty_eq_false_iff.mpr (List.ne_nil_of_mem h)]
  rfl

/-- A warm reset or FLR. -/
theorem warm_effect (s : State) (flr : Bool) :
    ((s.warm flr).sq = [] ∧ (s.warm flr).cq = [] ∧ (s.warm flr).ctxs = [] ∧ (s.warm flr).flumes = []
        ∧ (s.warm flr).posted = [] ∧ (s.warm flr).lnd.feeds = [])
      ∧ Cond.reset ∈ (s.warm flr).black.glob ∧ (flr = true → (s.warm flr).hif = {})
      ∧ (s.warm flr).rd pClk O.CLK_RST_CAUSE = if flr then 8 else 4 := by
  have shape : ∃ w : State, s.warm flr = (w.resetPages flr).wr pClk O.CLK_RST_CAUSE (if flr then 8 else 4) := ⟨_, rfl⟩
  obtain ⟨w, hw⟩ := shape
  obtain ⟨fatal, view⟩ := wiped_resetPages w flr
  rw [← wiped_wr _ pClk O.CLK_RST_CAUSE (if flr then 8 else 4), ← hw] at view
  have cause : (s.warm flr).rd pClk O.CLK_RST_CAUSE = if flr then 8 else 4 := by
    rw [hw, rd_wr_same]
    cases flr <;> rfl
  simp only [wiped, Prod.mk.injEq] at view
  obtain ⟨⟨sq, cq, ctxs, flumes⟩, posted, feeds, glob, hif⟩ := view
  refine ⟨⟨sq, cq, ctxs, flumes, posted, feeds⟩, ?_, fun h => ?_, cause⟩
  · rw [glob]
    simp [resetBlack]
  · rw [hif, if_pos h]

/-! ## Power-on (R441, R466) -/

/-- What a power-on reset has settled once the registers of CLK are written: what it wipes, the life of the engine and the
boot mode, and those registers. -/
def poweredView (s : State) : (Store Sq × Store Cq × Store Ctx × Store Flume) × Store (Option Posted) × Store Feed × List Cond
    × Life × Nat × Nat × Nat × Nat :=
  ((s.sq, s.cq, s.ctxs, s.flumes), s.posted, s.lnd.feeds, s.black.glob, s.flt.life, s.flt.bootMode, s.rd pClk O.CLK_RST_CAUSE,
    s.rd pClk O.CLK_REFCLK_KHZ, s.rd pClk O.CLK_FLAGS)

/-- A register of another page than CLK. -/
theorem poweredView_wr (s : State) {p off : Nat} (v : Nat) (h : p ≠ pClk) (ho : off < 0x10000) :
    (s.wr p off v).poweredView = s.poweredView := by
  have clk : ∀ a, a < 0x10000 → (s.wr p off v).rd pClk a = s.rd pClk a := fun a ha =>
    rd_wr_other s v (regKey_ne_of_page ha ho h.symm)
  rw [poweredView, clk _ (by decide), clk _ (by decide), clk _ (by decide)]
  rfl

theorem poweredView_setCop (s : State) (c used lost : Nat) : (s.setCop c used lost).poweredView = s.poweredView := rfl

/-- A request of DEV. -/
theorem poweredView_setCause (s : State) (m : Nat) : (s.setCause pDev m).poweredView = s.poweredView := by
  have req := signals_setCause s pDev m
  have clk : ∀ a, a < 0x10000 → a ≠ O.INT_CAUSE → sigReg pDev pClk a = false →
      (s.setCause pDev m).rd pClk a = s.rd pClk a := fun a ha _ hs => req.reg _ _ ha hs
  rw [poweredView, clk _ (by decide) (by decide) (by decide), clk _ (by decide) (by decide) (by decide),
    clk _ (by decide) (by decide) (by decide)]
  have rest := req.rest
  generalize s.setCause pDev m = t at rest
  rw [rest]
  rfl

theorem poweredView_coppiceOut (s : State) : s.coppiceOut.poweredView = s.poweredView :=
  (poweredView_setCause ..).trans (poweredView_wr _ _ (by decide) (by decide))

theorem poweredView_copTake (s : State) (c : Nat) : (s.copTake c).poweredView = s.poweredView :=
  ite_keeps poweredView rfl (ite_keeps poweredView ((poweredView_coppiceOut ..).trans (poweredView_setCop ..))
    (poweredView_setCop ..))

theorem poweredView_copLose (s : State) (c : Nat) : (s.copLose c).poweredView = s.poweredView := poweredView_setCop ..

theorem corePage_ne_clk (typ k : Nat) : corePage typ k ≠ pClk := by
  simp only [corePage, pDec, pXsd, pEnc, pClk]
  split_ifs <;> omega

theorem poweredView_porCores (s : State) (bad : List Nat) (typ : Nat) : (s.porCores bad typ).poweredView = s.poweredView := by
  have core : ∀ (t : State) k {off} v, off < 0x10000 → (t.wr (corePage typ k) off v).poweredView = t.poweredView :=
    fun t k off v ho => poweredView_wr t v (corePage_ne_clk typ k) ho
  have failed : ∀ (t : State) k v w, ((t.wr (corePage typ k) O.DEC_CORE_STAT v).wr (corePage typ k) O.PAGE_STAT w).poweredView
      = t.poweredView := fun t k v w => (core _ k w (by decide)).trans (core t k v (by decide))
  refine foldl_keeps poweredView _ _ _ fun t k _ => ite_keeps poweredView ?_ (core t k _ (by decide))
  exact ite_keeps poweredView ((poweredView_copLose ..).trans (failed ..)) ((poweredView_copTake ..).trans (failed ..))

theorem poweredView_lnd (s : State) {off lo n v : Nat} (ho : off < 0x10000) :
    (s.setFld pLnd off lo n v).poweredView = s.poweredView := poweredView_wr s _ (by decide) ho

theorem poweredView_porLanes (s : State) (bad : List Nat) : (s.porLanes bad).poweredView = s.poweredView := by
  refine foldl_keeps poweredView _ _ _ fun t n hn => ?_
  have lane : n < 104 := List.mem_range.mp (List.mem_of_mem_filter hn)
  have retired : (t.setBit pLnd (O.LND_LANE_RETIRED + 4 * (n / 32)) (n % 32) true).poweredView = t.poweredView :=
    poweredView_lnd t (by simp only [O.LND_LANE_RETIRED]; omega)
  have lanes : ∀ u : State, ∀ lo k v, (u.setFld pLnd O.LND_LANES lo k v).poweredView = u.poweredView := fun u _ _ _ =>
    poweredView_lnd u (by decide)
  exact ite_keeps poweredView ((poweredView_copTake ..).trans ((lanes ..).trans ((lanes ..).trans retired)))
    ((poweredView_copLose ..).trans ((lanes ..).trans ((lanes ..).trans retired)))

/-- A power-on reset starts with nothing of what it wipes, alive, with BLACK on every port. -/
theorem porBase_effect (s : State) (supply : Bool) :
    (s.porBase supply).wiped = (([], [], [], []), [], [], [.lnd, .lmp], {}) ∧ (s.porBase supply).flt.life = .up :=
  ⟨ite_keeps wiped rfl ((wiped_setBit ..).trans rfl), ite_keeps (fun t : State => t.flt.life) rfl rfl⟩

/-- A condition that starts stands, and the conditions that stood before still do. -/
theorem mem_startGlob (s : State) (c d : Cond) (h : d = c ∨ d ∈ s.black.glob) : d ∈ (s.startGlob c).black.glob := by
  unfold startGlob
  split
  next hc => exact h.elim (fun e => e ▸ hc) id
  next => exact List.mem_cons.mpr h

/-- The state that a power-on reset starts from, with the boot mode taken. -/
def porStart (s : State) (x : PowerOn) : State :=
  { s.porBase x.supply with flt := { (s.porBase x.supply).flt with bootMode := x.bootMode } }

theorem porStart_effect (s : State) (x : PowerOn) : (s.porStart x).wiped = (([], [], [], []), [], [], [.lnd, .lmp], {})
    ∧ (s.porStart x).flt.life = .up ∧ (s.porStart x).flt.bootMode = x.bootMode.val := by
  obtain ⟨wiped, life⟩ := porBase_effect s x.supply
  unfold porStart
  generalize s.porBase x.supply = a at wiped life
  exact ⟨wiped, life, rfl⟩

theorem powerOn_of_held {s : State} {x : PowerOn} (h : x.refclk = false ∨ x.hot = true) :
    s.powerOn x = { s.porStart x with flt := { (s.porStart x).flt with life := .held } } :=
  if_pos (by rcases h with h | h <;> simp [h])

/-- Power-on takes the spares that the self-tests ask for. -/
def sparesTaken (s : State) (x : PowerOn) : State :=
  let s := [0, 1, 3].foldl (fun s typ => s.porCores (x.badCores.map (·.val)) typ) s
  let s := s.porLanes (x.badLanes.map (·.val))
  if (List.range 6).any fun i => s.copLeft (7 + i) = 0 then s.coppiceOut else s

theorem poweredView_sparesTaken (s : State) (x : PowerOn) : (s.sparesTaken x).poweredView = s.poweredView := by
  have cores := foldl_keeps poweredView (fun s typ => s.porCores (x.badCores.map (·.val)) typ) [0, 1, 3] s fun t typ _ =>
    poweredView_porCores t _ typ
  have lanes := (poweredView_porLanes _ (x.badLanes.map (·.val))).trans cores
  exact ite_keeps poweredView ((poweredView_coppiceOut ..).trans lanes) lanes

/-- The registers of CLK that power-on writes. -/
def clkWritten (s : State) (x : PowerOn) : State :=
  (((s.wr pClk O.CLK_RST_CAUSE (if x.supply then 1 else 2)).setBit pClk O.CLK_FLAGS 3 x.pwrFail).wr pClk
    O.CLK_REFCLK_KHZ x.khz).wr pClk O.CLK_BOOT_STAT (x.bootMode * 2 ^ 30 + (if x.bootMode.val = 3 then 6 else 0))

theorem powerOn_of_up {s : State} {x : PowerOn} (hr : x.refclk = true) (hh : x.hot = false) :
    s.powerOn x = if x.pwrFail then (((s.porStart x).clkWritten x).sparesTaken x).startGlob .pwrFail
      else ((s.porStart x).clkWritten x).sparesTaken x :=
  if_neg (by simp [hr, hh])

theorem clkWritten_effect (a : State) (x : PowerOn) :
    (a.clkWritten x).wiped = a.wiped ∧ (a.clkWritten x).flt = a.flt
      ∧ (a.clkWritten x).rd pClk O.CLK_RST_CAUSE = (if x.supply then 1 else 2)
      ∧ (a.clkWritten x).rd pClk O.CLK_REFCLK_KHZ = x.khz.val ∧ (a.clkWritten x).bit pClk O.CLK_FLAGS 3 = x.pwrFail := by
  have cause : (if x.supply then 1 else 2) < 2 ^ 32 := by split <;> decide
  have khz : x.khz.val < 2 ^ 32 := by omega
  unfold clkWritten
  generalize (if x.supply then 1 else 2) = k at cause
  generalize x.bootMode * 2 ^ 30 + (if x.bootMode.val = 3 then 6 else 0) = boot
  generalize hb : a.wr pClk O.CLK_RST_CAUSE k = b
  generalize hc : b.setBit pClk O.CLK_FLAGS 3 x.pwrFail = c
  refine ⟨?_, ?_, ?_, ?_, ?_⟩
  · rw [wiped_wr, wiped_wr, ← hc, wiped_setBit, ← hb, wiped_wr]
  · rw [wr_flt, wr_flt, ← hc, setBit_flt, ← hb, wr_flt]
  · rw [rd_wr_off _ _ (by decide), rd_wr_off _ _ (by decide), ← hc, rd_setBit_off _ _ _ (by decide), ← hb, rd_wr_same]
    exact Nat.mod_eq_of_lt cause
  · rw [rd_wr_off _ _ (by decide), rd_wr_same]
    exact Nat.mod_eq_of_lt khz
  · rw [bit_of_rd _ (rd_wr_off _ _ (by decide)), bit_of_rd _ (rd_wr_off _ _ (by decide)), ← hc,
      bit_setBit_same _ _ _ _ _ (by decide)]

/-- What holds after a power-on that comes up, with the conditions of BLACK that it starts with. -/
theorem spared_effect (s : State) (x : PowerOn) (e : State) (he : e = ((s.porStart x).clkWritten x).sparesTaken x) :
    (e.sq = [] ∧ e.cq = [] ∧ e.ctxs = [] ∧ e.flumes = [] ∧ e.posted = [] ∧ e.lnd.feeds = []) ∧ Cond.lnd ∈ e.black.glob
      ∧ e.flt.life = .up ∧ e.flt.bootMode = x.bootMode.val ∧ e.rd pClk O.CLK_RST_CAUSE = (if x.supply then 1 else 2)
      ∧ e.rd pClk O.CLK_REFCLK_KHZ = x.khz.val ∧ e.bit pClk O.CLK_FLAGS 3 = x.pwrFail := by
  obtain ⟨start, life, mode⟩ := porStart_effect s x
  obtain ⟨wiped, flt, cause, khz, fail⟩ := clkWritten_effect (s.porStart x) x
  have view := poweredView_sparesTaken ((s.porStart x).clkWritten x) x
  rw [← he] at view
  rw [start] at wiped
  rw [← flt] at life mode
  generalize (s.porStart x).clkWritten x = d at wiped life mode cause khz fail view
  simp only [State.wiped, Prod.mk.injEq] at wiped
  simp only [poweredView, Prod.mk.injEq] at view
  obtain ⟨⟨sq, cq, ctxs, flumes⟩, posted, feeds, glob, -⟩ := wiped
  obtain ⟨⟨sq', cq', ctxs', flumes'⟩, posted', feeds', glob', life', mode', cause', khz', flags'⟩ := view
  refine ⟨⟨sq'.trans sq, cq'.trans cq, ctxs'.trans ctxs, flumes'.trans flumes, posted'.trans posted, feeds'.trans feeds⟩,
    ?_, life'.trans life, mode'.trans mode, cause'.trans cause, khz'.trans khz, (bit_of_rd 3 flags').trans fail⟩
  rw [glob', glob]
  decide

end State
end Sys2Proof.Machine
end

section
/-! PROOFS. O22: power failure, the boot loader, and the settling of it. -/
namespace Sys2Proof.Machine
namespace State

/-! ## Power failure (R440) -/

/-- What a power failure has settled once it is recognised: the flags of CLK and TLY and the conditions of BLACK. -/
def failView (s : State) : Nat × Nat × List Cond := (s.rd pClk O.CLK_FLAGS, s.rd pTly O.TLY_FLAGS, s.black.glob)

/-- A register of neither page, or of other words of them. -/
theorem failView_wr (s : State) {p off : Nat} (v : Nat) (ho : off < 0x10000) (hc : p = pClk → off ≠ O.CLK_FLAGS)
    (ht : p = pTly → off ≠ O.TLY_FLAGS) : (s.wr p off v).failView = s.failView := by
  have other : ∀ q a, a < 0x10000 → (p = q → off ≠ a) → (s.wr p off v).rd q a = s.rd q a := fun q a ha h => by
    refine rd_wr_other s v ?_
    rw [Ne, regKey_eq_iff ha ho]
    exact fun e => h e.1.symm e.2.symm
  rw [failView, other _ _ (by decide) hc, other _ _ (by decide) ht]
  rfl

theorem failView_setCause (s : State) (p m : Nat) : (s.setCause p m).failView = s.failView := by
  have req := signals_setCause s p m
  have header : ∀ q a, a < 0x10000 → sigReg p q a = false → (s.setCause p m).rd q a = s.rd q a := req.reg
  have rest := req.rest
  rw [failView, header _ _ (by decide) ?_, header _ _ (by decide) ?_]
  · generalize s.setCause p m = t at rest
    rw [rest]
    rfl
  all_goals simp [sigReg, O.CLK_FLAGS, O.TLY_FLAGS, O.INT_CAUSE, pClk, pTly, pEic, pHif, pYsq]

section
variable (s : State)
theorem failView_setHbm (a : Nat) (l : List Byte) : (s.setHbm a l).failView = s.failView := rfl
theorem failView_setTly (l : Tly) : failView { s with tly := l } = s.failView := rfl
theorem failView_zeroStack (n : Nat) : (s.zeroStack n).failView = s.failView := rfl
end

theorem failView_foldOne (s : State) (x : Nat × Nat × Nat × Nat) : (s.foldOne x).failView = s.failView :=
  (failView_wr _ _ (by decide) (by decide) (by decide)).trans (failView_setHbm ..)

theorem failView_foldStaged (s : State) : s.foldStaged.failView = s.failView := by
  unfold foldStaged
  split
  · rfl
  next l _ =>
    have folded := foldl_keeps failView foldOne l s fun t x _ => failView_foldOne t x
    refine ite_keeps failView ((failView_setTly ..).trans ?_) ((failView_setTly ..).trans folded)
    exact (failView_wr _ _ (by decide) (by decide) (by decide)).trans folded

/-- The pages of the memories are none of CLK's and TLY's. -/
theorem failView_mem (s : State) {m off : Nat} (v : Nat) (hm : m = 1 ∨ m = 2) (ho : off < 0x10000) :
    (s.wr (memPage m) off v).failView = s.failView := by
  have page : memPage m = 0x14 ∨ memPage m = 0x15 := by
    rcases hm with rfl | rfl <;> decide
  refine failView_wr s v ho (fun e => ?_) fun e => ?_
  all_goals
    rw [e] at page
    exact absurd page (by decide)

theorem failView_bistDone (s : State) {m : Nat} (hm : m = 1 ∨ m = 2) : (s.bistDone m false []).failView = s.failView := by
  have stat : bistStat m < 0x10000 := by rcases hm with rfl | rfl <;> decide
  have pos : m ≠ 0 := by omega
  unfold bistDone
  simp only [if_neg pos, List.foldl_nil]
  refine ite_keeps failView rfl ?_
  rw [failView_setCause, failView_mem _ _ hm stat, setBit, setFld, failView_mem _ _ hm (by decide), setBit, setFld,
    failView_mem _ _ hm (by decide), failView_zeroStack]

theorem failView_memPwrFail (s : State) : s.memPwrFail.failView = s.failView :=
  foldl_keeps failView _ _ _ fun t m hm => by
    have hm : m = 1 ∨ m = 2 := by simpa using hm
    rw [setBit, setFld, failView_mem _ _ hm (by decide), failView_bistDone t hm]

theorem rd_startGlob (s : State) (c : Cond) (p off : Nat) : (s.startGlob c).rd p off = s.rd p off :=
  ite_keeps (fun t : State => t.rd p off) rfl rfl

theorem startGlob_rest (s : State) (c : Cond) : s.startGlob c = { s with black := (s.startGlob c).black } := by
  unfold startGlob
  split <;> rfl

theorem flt_startGlob (s : State) (c : Cond) : (s.startGlob c).flt = s.flt := ite_keeps State.flt rfl rfl

theorem alive_of_flt {s t : State} (h : t.flt = s.flt) (b : Blk) : t.alive b = s.alive b := by
  rw [alive, alive, h]

/-- The fold at a power failure sets FLAGS.FOLDED, and no flag of CLK nor condition of BLACK changes. -/
theorem foldPwrFail_effect (s : State) : s.foldPwrFail.rd pClk O.CLK_FLAGS = s.rd pClk O.CLK_FLAGS
    ∧ s.foldPwrFail.black.glob = s.black.glob ∧ s.foldPwrFail.bit pTly O.TLY_FLAGS 2 = true := by
  have folded := (failView_foldStaged { s with tly := { s.tly with rest := [], live := false } }).trans (failView_setTly ..)
  unfold foldPwrFail
  simp only
  generalize foldStaged { s with tly := { s.tly with rest := [], live := false } } = w at folded
  have flag := bit_setBit_same w pTly O.TLY_FLAGS 2 true (by decide)
  have clk : (w.setBit pTly O.TLY_FLAGS 2 true).rd pClk O.CLK_FLAGS = w.rd pClk O.CLK_FLAGS :=
    rd_wr_other w _ (regKey_ne_of_page (by decide) (by decide) (by decide))
  have glob : (w.setBit pTly O.TLY_FLAGS 2 true).black.glob = w.black.glob := by rw [setBit_black]
  have caused := failView_setCause (w.setBit pTly O.TLY_FLAGS 2 true) pTly 0x10
  generalize (w.setBit pTly O.TLY_FLAGS 2 true) = u at flag clk glob caused
  simp only [failView, Prod.mk.injEq] at folded caused
  obtain ⟨clk0, -, glob0⟩ := folded
  obtain ⟨clk1, tly1, glob1⟩ := caused
  exact ⟨clk1.trans (clk.trans clk0), glob1.trans (glob.trans glob0), (bit_of_rd 2 tly1).trans flag⟩

theorem pwrFail_effect (s : State) : s.pwrFail.bit pClk O.CLK_FLAGS 3 = true ∧ Cond.pwrFail ∈ s.pwrFail.black.glob
    ∧ (s.alive .tly = true → s.pwrFail.bit pTly O.TLY_FLAGS 2 = true) := by
  unfold pwrFail
  simp only
  have flag : ((s.setBit pClk O.CLK_FLAGS 3 true).incr pClk O.CLK_CNT_PWR_FAIL).bit pClk O.CLK_FLAGS 3 = true :=
    (bit_of_rd 3 (rd_wr_off _ _ (by decide))).trans (bit_setBit_same _ _ _ _ _ (by decide))
  have flt0 : ((s.setBit pClk O.CLK_FLAGS 3 true).incr pClk O.CLK_CNT_PWR_FAIL).flt = s.flt := by
    rw [incr, addReg, wr_flt, setBit_flt]
  generalize (s.setBit pClk O.CLK_FLAGS 3 true).incr pClk O.CLK_CNT_PWR_FAIL = a at flag flt0
  have view := failView_setCause a pClk 1
  have flt1 : (a.setCause pClk 1).flt = a.flt := (congrArg State.flt (signals_setCause a pClk 1).rest).trans rfl
  have start := mem_startGlob (a.setCause pClk 1) .pwrFail .pwrFail (.inl rfl)
  have clkB : ((a.setCause pClk 1).startGlob .pwrFail).rd pClk O.CLK_FLAGS = a.rd pClk O.CLK_FLAGS :=
    (rd_startGlob ..).trans (congrArg (·.1) view)
  have aliveB := alive_of_flt ((flt_startGlob (a.setCause pClk 1) .pwrFail).trans (flt1.trans flt0)) .tly
  generalize (a.setCause pClk 1).startGlob .pwrFail = b at start clkB aliveB
  obtain ⟨clkC, globC, foldedC⟩ := foldPwrFail_effect b
  have clk : (if b.alive .tly then b.foldPwrFail else b).rd pClk O.CLK_FLAGS = b.rd pClk O.CLK_FLAGS :=
    ite_keeps (fun t : State => t.rd pClk O.CLK_FLAGS) clkC rfl
  have glob : (if b.alive .tly then b.foldPwrFail else b).black.glob = b.black.glob :=
    ite_keeps (fun t : State => t.black.glob) globC rfl
  have folded : s.alive .tly = true → (if b.alive .tly then b.foldPwrFail else b).bit pTly O.TLY_FLAGS 2 = true := fun h => by
    rw [if_pos (aliveB.trans h)]
    exact foldedC
  generalize (if b.alive .tly then b.foldPwrFail else b) = c at clk glob folded
  have mem := failView_memPwrFail c
  simp only [failView, Prod.mk.injEq] at mem
  obtain ⟨clkD, tlyD, globD⟩ := mem
  refine ⟨(bit_of_rd 3 (clkD.trans (clk.trans clkB))).trans flag, ?_, fun h => (bit_of_rd 2 tlyD).trans (folded h)⟩
  rw [globD, glob]
  exact start

/-! ## The boot loader (R442-R444) -/

/-- The fields of BOOT_STAT after the loader. -/
theorem bootStat_effect (s : State) {st applied bad code : Nat} (hs : st < 4) (ha : applied < 16) (hb : bad < 256)
    (hc : code < 256) :
    (s.bootStat st applied bad code).fld pClk O.CLK_BOOT_STAT 28 2 = st
      ∧ (s.bootStat st applied bad code).fld pClk O.CLK_BOOT_STAT 24 4 = applied
      ∧ (s.bootStat st applied bad code).fld pClk O.CLK_BOOT_STAT 0 8 = code := by
  have mode : s.fld pClk O.CLK_BOOT_STAT 30 2 < 4 := bitsOf_lt _ _ _
  unfold bootStat
  generalize s.fld pClk O.CLK_BOOT_STAT 30 2 = m at mode
  simp only [fld, rd_wr_same, bitsOf, Nat.shiftRight_eq_div_pow]
  omega

theorem bootStat_rest (s : State) (st applied bad code : Nat) :
    s.bootStat st applied bad code = { s with regs := (s.bootStat st applied bad code).regs } := rfl

/-- The loader of an engine that boots from flash, and has not run. -/
theorem boot_of_ready {s : State} (hm : s.flt.bootMode = 1) (hs : s.fld pClk O.CLK_BOOT_STAT 28 2 = 0)
    (f : Option (List Byte)) : s.boot f = match f with
      | none => s.bootStat 3 0 0 1
      | some f => match bootHeader f with
        | none => s.bootStat 3 0 0 2
        | some n => bootRun f n n s :=
  if_neg (by simp [hm, hs])

/-- A flash without a good header records its failure. -/
theorem boot_of_bad {s : State} (hm : s.flt.bootMode = 1) (hs : s.fld pClk O.CLK_BOOT_STAT 28 2 = 0) {f : Option (List Byte)}
    (h : ∀ l, f = some l → bootHeader l = none) : s.boot f = s.bootStat 3 0 0 (if f = none then 1 else 2) := by
  rw [boot_of_ready hm hs]
  cases f with
  | none => rfl
  | some l =>
    simp only [h l rfl]
    rfl

theorem boot_of_other {s : State} (hm : s.flt.bootMode ≠ 1) (f : Option (List Byte)) : s.boot f = s := if_pos (.inl hm)

theorem causeBits_lt (b : Blk) : causeBits b < 2 ^ 32 := by cases b <;> decide

/-- A mask that the loader writes through BAR0. -/
theorem bar0_intMask {p : Nat} {b : Blk} (hb : blkOf p = some b) (s : State) {v : Nat} (hv : v < 2 ^ 32) :
    s.bar0 false true (p * 0x10000 + O.INT_MASK) 4 true v = { st := (s.wr p O.INT_MASK (v &&& causeBits b)).reRaise p } := by
  have page : (p * 0x10000 + O.INT_MASK) / 0x10000 = p := regKey_page (by decide)
  have word : (p * 0x10000 + O.INT_MASK) % 0x10000 = O.INT_MASK := regKey_word (by decide)
  have desc := (regDesc?_header hb (off := O.INT_MASK) (by decide)).trans (by rfl)
  have access : s.bar0 false true (p * 0x10000 + O.INT_MASK) 4 true v = s.pageWrite p O.INT_MASK false v := by
    simp [bar0, page, word, hb, show O.INT_MASK % 4 = 0 from rfl]
  have mask : s.writeMask p v = (s.wr p O.INT_MASK (v &&& causeBits b)).reRaise p := by simp only [writeMask, hb]
  have step : isStep p O.INT_MASK = false := by simp [isStep]
  rw [access, ← mask]
  unfold pageWrite
  simp only [hb, desc, step, Nat.mod_eq_of_lt hv]
  rfl

/-- An entry of one pair for a mask. -/
theorem bootEntry_of_mask {p : Nat} {b : Blk} (hb : blkOf p = some b) (s : State) {f : List Byte} {e : BootEnt} (ht : e.typ = 2)
    (hl : e.len = 8) (hf : e.off + 8 ≤ f.length) (hc : crcIeee ((f.drop e.off).take e.len) = e.crc)
    (hw : leWord ((f.drop e.off).take e.len) 0 = p * 0x10000 + O.INT_MASK) :
    s.bootEntry f e
      = ((s.wr p O.INT_MASK (leWord ((f.drop e.off).take e.len) 4 &&& causeBits b)).reRaise p, 0) := by
  have len : ((f.drop e.off).take e.len).length = 8 := by
    rw [List.length_take, List.length_drop, hl]
    omega
  unfold bootEntry
  simp only
  rw [if_neg (by omega), if_neg (not_not.mpr hc), ht]
  generalize (f.drop e.off).take e.len = d at len hw
  have regs : s.bootRegs d = ((s.wr p O.INT_MASK (leWord d 4 &&& causeBits b)).reRaise p, true) := by
    unfold bootRegs
    rw [len]
    change bootWrite (s, true) (leWord d 0) (leWord d 4) = _
    rw [bootWrite, hw, bar0_intMask hb s (leWord_lt d 4)]
    rfl
  simp only [regs]
  rfl

/-- The one entry is applied, and success recorded. -/
theorem boot_of_mask {p : Nat} {b : Blk} (hb : blkOf p = some b) {s : State} (hm : s.flt.bootMode = 1)
    (hs : s.fld pClk O.CLK_BOOT_STAT 28 2 = 0) {f : List Byte} (hh : bootHeader f = some 1) (ht : (bootEnt f 0).typ = 2)
    (hl : (bootEnt f 0).len = 8) (hf : (bootEnt f 0).off + 8 ≤ f.length)
    (hc : crcIeee ((f.drop (bootEnt f 0).off).take (bootEnt f 0).len) = (bootEnt f 0).crc)
    (hw : leWord ((f.drop (bootEnt f 0).off).take (bootEnt f 0).len) 0 = p * 0x10000 + O.INT_MASK) :
    s.boot (some f) = State.bootStat ((s.wr p O.INT_MASK
      (leWord ((f.drop (bootEnt f 0).off).take (bootEnt f 0).len) 4 &&& causeBits b)).reRaise p) 2 1 0 0 := by
  rw [boot_of_ready hm hs]
  simp only [hh]
  rw [bootRun, bootEntry_of_mask hb s ht hl hf hc hw]
  rfl

end State

/-- Settles O22: a reset keeps registers and little else; a failure and the loader are a few registers written. -/
theorem resetsAndPowerEvents : Obligations.ResetsAndPowerEvents := by
  unfold Obligations.ResetsAndPowerEvents
  simp only
  refine ⟨?_, ?_, ?_, ?_, ?_, ?_, ?_, ?_, ?_, ?_⟩
  · intro v s ha hkey hgo
    change ∃ t, access (·.rstCtl v.toNat) s = .next t ∧ _
    refine access_next ha fun u hu => ?_
    have hu : u = State.warm _ false := hu.trans (if_pos ⟨hkey, hgo⟩)
    obtain ⟨gone, reset, -, cause⟩ := State.warm_effect (if bitOf v.toNat 1 then s.castReset false else s) false
    rw [← hu] at gone reset cause
    exact ⟨gone, reset, State.allBlack_of_mem reset, cause⟩
  · intro v s h
    have still : s.rstCtl v.toNat = s := if_neg fun k => h.elim (fun e => e k.1) fun e => by
      have := k.2
      rw [e] at this
      cases this
    change access (·.rstCtl v.toNat) s = .next s
    rw [access, still, ite_self]
    rfl
  · intro s ha
    change ∃ t, act .hif (fun s => (s.castReset true).warm true) s = .next t ∧ _
    refine act_next ha fun u hu => ?_
    obtain ⟨gone, reset, hif, cause⟩ := State.warm_effect (s.castReset true) true
    have hu : u = (s.castReset true).warm true := hu
    rw [← hu] at gone reset hif cause
    exact ⟨gone, hif rfl, reset, State.allBlack_of_mem reset, cause⟩
  · intro x s hr hh
    refine ⟨{ s.powerOn x with pending := s.pending }, rfl, ?_⟩
    have spared := State.spared_effect s x _ rfl
    have shape := State.powerOn_of_up (s := s) hr hh
    generalize ((s.porStart x).clkWritten x).sparesTaken x = e at spared shape
    obtain ⟨⟨sq, cq, ctxs, flumes, posted, feeds⟩, black, life, mode, cause, khz, fail⟩ := spared
    have started : s.powerOn x = { e with black := (s.powerOn x).black } ∧ Cond.lnd ∈ (s.powerOn x).black.glob := by
      rw [shape]
      split
      · exact ⟨State.startGlob_rest .., State.mem_startGlob _ _ _ (.inr black)⟩
      · exact ⟨rfl, black⟩
    obtain ⟨rest, black⟩ := started
    generalize s.powerOn x = u at rest black
    have allBlack := State.allBlack_of_mem black
    rw [rest] at allBlack ⊢
    exact ⟨⟨sq, cq, ctxs, flumes, posted, feeds⟩, life, mode, cause, khz, fail, allBlack⟩
  · intro x s h
    refine ⟨{ s.powerOn x with pending := s.pending }, rfl, ?_⟩
    rw [State.powerOn_of_held h]
    have start := (State.porStart_effect s x).1
    generalize s.porStart x = a at start
    simp only [State.wiped, Prod.mk.injEq] at start
    obtain ⟨⟨sq, cq, ctxs, flumes⟩, posted, feeds, -⟩ := start
    exact ⟨⟨sq, cq, ctxs, flumes, posted, feeds⟩, rfl⟩
  · intro s ha
    change ∃ t, act .clk (·.pwrFail) s = .next t ∧ _
    refine act_next ha fun u hu => ?_
    obtain ⟨flag, black, folded⟩ := State.pwrFail_effect s
    rw [← hu] at flag black folded
    exact ⟨flag, State.allBlack_of_mem black, folded⟩
  · intro s ha
    change ∃ t, act .clk (·.pwrBack) s = .next t ∧ _
    refine act_next ha fun u hu => ?_
    have flag := State.bit_setBit_same s pClk O.CLK_FLAGS 3 false (by decide)
    have glob : (s.setBit pClk O.CLK_FLAGS 3 false).black.glob = s.black.glob := by rw [State.setBit_black]
    have mems := State.mems_setBit s pClk O.CLK_FLAGS 3 false
    have hu : u = (s.setBit pClk O.CLK_FLAGS 3 false).endGlob .pwrFail := hu
    generalize s.setBit pClk O.CLK_FLAGS 3 false = w at hu flag glob mems
    have black : u.black.glob = w.black.glob.filter (· ≠ .pwrFail) := by rw [hu]; rfl
    refine ⟨?_, ?_, fun c hc => ?_, State.memSame_of_mems ?_⟩
    · change u.bit pClk O.CLK_FLAGS 3 = false
      rw [hu]
      exact flag
    · change Cond.pwrFail ∉ u.black.glob
      simp [black]
    · change c ∈ u.black.glob ↔ _
      simp [black, glob, hc]
    · change u.mems = s.mems
      rw [hu]
      exact mems
  · intro f s ha hm hs hbad
    change ∃ t, act .clk (·.boot f) s = .next t ∧ _
    refine act_next ha fun u hu => ?_
    rw [State.boot_of_bad hm hs hbad] at hu
    have small : (if f = none then 1 else 2) < 256 := by split <;> decide
    obtain ⟨state, -, code⟩ := State.bootStat_effect s (st := 3) (applied := 0) (bad := 0) (by decide) (by decide) (by decide) small
    have rest := State.bootStat_rest s 3 0 0 (if f = none then 1 else 2)
    rw [← hu] at state code rest
    exact ⟨state, code, congrArg (fun u => { u with pending := s.pending }) rest⟩
  · intro f p b s ha hm hs hh ht hl hf hc hb hw
    change ∃ t, act .clk (·.boot (some f)) s = .next t ∧ _
    refine act_next ha fun u hu => ?_
    rw [State.boot_of_mask hb hm hs hh ht hl hf hc hw] at hu
    generalize leWord ((f.drop (bootEnt f 0).off).take (bootEnt f 0).len) 4 = v at hu
    have mask : ((s.wr p O.INT_MASK (v &&& causeBits b)).reRaise p).rd p O.INT_MASK = v &&& causeBits b := by
      rw [State.rd_header_reRaise _ _ (by decide) (by decide), State.rd_wr_same]
      exact Nat.mod_eq_of_lt (lt_of_le_of_lt Nat.and_le_right (State.causeBits_lt b))
    generalize (s.wr p O.INT_MASK (v &&& causeBits b)).reRaise p = w at hu mask
    obtain ⟨state, applied, -⟩ := State.bootStat_effect w (st := 2) (applied := 1) (bad := 0) (code := 0) (by decide) (by decide)
      (by decide) (by decide)
    have kept : (w.bootStat 2 1 0 0).rd p O.INT_MASK = w.rd p O.INT_MASK := State.rd_wr_other w _ fun e =>
      absurd ((regKey_eq_iff (by decide) (by decide)).mp e).2 (by decide)
    rw [← hu] at state applied kept
    exact ⟨kept.trans mask, state, applied⟩
  · intro f s hm
    change act .clk (·.boot f) s = .next s
    exact State.act_of_still (State.boot_of_other hm f)

end Sys2Proof.Machine
end

section
/-! PROOFS. O29, encoder jobs: KEY_REQUEST and ENC_RECONFIG of a context. -/
namespace Sys2Proof.Machine

theorem Ctx.isOpen_of_works {x : Ctx} (h : x.works = true) : x.isOpen = true := by
  simp only [Ctx.works, Bool.and_eq_true, decide_eq_true_eq] at h
  simp only [Ctx.isOpen, decide_eq_true_eq]
  omega

theorem Ctx.st_ne_of_works {x : Ctx} (h : x.works = true) : x.st ≠ 4 ∧ x.st ≠ 5 := by
  simp only [Ctx.works, Bool.and_eq_true, decide_eq_true_eq] at h
  omega

namespace State

/-! ## Contexts -/

theorem ctx_setCtx_same (s : State) (c : Nat) (x : Ctx) : (s.setCtx c x).ctx c = x := sget_sset_same ..

theorem ctx_setCtx_other (s : State) {c k : Nat} (x : Ctx) (h : k ≠ c) : (s.setCtx c x).ctx k = s.ctx k :=
  sget_sset_other _ _ _ h

theorem ctx_modCtx_same (s : State) (c : Nat) (f : Ctx → Ctx) : (s.modCtx c f).ctx c = f (s.ctx c) := ctx_setCtx_same ..

theorem ctx_of_ctxs {s t : State} (h : t.ctxs = s.ctxs) (c : Nat) : t.ctx c = s.ctx c := by
  rw [ctx, ctx, h]

theorem ctxs_setJob (s : State) (r : JobRef) (f : Job → Job) : (s.setJob r f).ctxs = s.ctxs := ite_keeps State.ctxs rfl rfl

theorem ctxs_finish (s : State) (r : JobRef) (o : JobOut) : (s.finish r o).ctxs = s.ctxs := ctxs_setJob ..

theorem setCtx_finish_rest (s : State) (c : Nat) (x : Ctx) (r : JobRef) (o : JobOut) :
    (s.setCtx c x).finish r o
      = { s with sq := ((s.setCtx c x).finish r o).sq, ctxs := ((s.setCtx c x).finish r o).ctxs } := by
  have ctxs := ctxs_finish (s.setCtx c x) r o
  have rest := finish_rest (s.setCtx c x) r o
  rw [ctxs]
  exact rest

theorem jobOpen_setCtx (s : State) (c : Nat) (x : Ctx) (r : JobRef) : (s.setCtx c x).jobOpen r = s.jobOpen r :=
  jobOpen_of_sq rfl r

/-! ## KEY_REQUEST (R174, R176) -/

/-- A request of no feedback is merged into the pending one. -/
theorem keyReq_encKey (s : State) (c : Nat) (idr : Bool) :
    ((s.encKey c idr false).ctx c).enc.keyReq = some (idr || (s.ctx c).enc.keyReq.getD false) := by
  rw [encKey, ctx_modCtx_same]
  rfl

theorem encKey_eq (s : State) (c : Nat) (idr feedback : Bool) : ∃ x, s.encKey c idr feedback = s.setCtx c x := ⟨_, rfl⟩

section
variable {s : State} {r : JobRef} {j : Job}

theorem status_of_jobEnded {o : JobOut} (h : s.jobEnded r o) :
    (s.findJob r).map (fun i => i.out.map (·.status)) = some (some o.status) := by
  obtain ⟨i, found, out⟩ := Option.map_eq_some_iff.mp h
  rw [found, Option.map_some, out, Option.map_some]

/-- A job that ends changes the queues' own records alone. -/
theorem finish_jobs (s : State) (r : JobRef) (o : JobOut) :
    s.finish r o = { s with sq := (s.finish r o).sq, ctxs := (s.finish r o).ctxs } := by
  have ctxs := ctxs_finish s r o
  have rest := finish_rest s r o
  rw [ctxs]
  exact rest

theorem keyRequest_of_other (h : ¬ ((s.ctx j.ctx).typ = 3 ∧ (s.ctx j.ctx).works = true)) :
    s.keyRequest r j = s.finish r { status := 8 } := by
  refine if_pos ?_
  by_cases typ : (s.ctx j.ctx).typ = 3
  · exact .inr (.inr (by simpa using fun w => h ⟨typ, w⟩))
  · exact .inr (.inl typ)

theorem keyRequest_of_encoder (ht : (s.ctx j.ctx).typ = 3) (hw : (s.ctx j.ctx).works = true) :
    ∃ n, s.keyRequest r j = (s.encKey j.ctx (bitOf (j.dw 6) 0) false).finish r { status := 0, result := n } :=
  ⟨_, if_neg (by simp [ht, hw, Ctx.isOpen_of_works hw])⟩

theorem keyRequest_effect (ht : (s.ctx j.ctx).typ = 3) (hw : (s.ctx j.ctx).works = true) (hj : s.jobOpen r = true) :
    ((s.keyRequest r j).findJob r).map (fun i => i.out.map (·.status)) = some (some 0)
      ∧ ((s.keyRequest r j).ctx j.ctx).enc.keyReq = some (bitOf (j.dw 6) 0 || (s.ctx j.ctx).enc.keyReq.getD false)
      ∧ s.keyRequest r j = { s with sq := (s.keyRequest r j).sq, ctxs := (s.keyRequest r j).ctxs } := by
  obtain ⟨n, e⟩ := keyRequest_of_encoder (r := r) ht hw
  have asked := keyReq_encKey s j.ctx (bitOf (j.dw 6) 0)
  obtain ⟨x, hx⟩ := encKey_eq s j.ctx (bitOf (j.dw 6) 0) false
  rw [hx] at e asked
  rw [e]
  exact ⟨status_of_jobEnded (jobEnded_finish _ ((jobOpen_setCtx ..).trans hj)),
    (congrArg (fun x : Ctx => x.enc.keyReq) (ctx_of_ctxs (ctxs_finish ..) j.ctx)).trans asked, setCtx_finish_rest ..⟩

/-! ## ENC_RECONFIG (R177) -/

/-- The encode parameters that a reconfiguration would give a context. -/
def reconfOf (x : Ctx) (j : Job) : EncCfg :=
  ⟨((x.desc.set 1 (BitVec.ofNat 32 (j.dw 6))).set 2 (BitVec.ofNat 32 (j.dw 7))).set 3
    (BitVec.ofNat 32 (putBits (x.w 3) 31 1 (bitsOf (j.dw 8) 0 1))), x.width, x.height, x.fnum, x.fden⟩

/-- The context with the parameters kept for its boundary. -/
def reconfKept (x : Ctx) (j : Job) : Ctx :=
  { x with enc := { x.enc with reconf := some (j.dw 6, j.dw 7, bitOf (j.dw 8) 0), keyAll := x.enc.keyAll + 1 } }

/-- What ENC_RECONFIG does once the context may be reconfigured: its two checks, and the parameters kept. -/
theorem encReconfig_of_encoder (ht : (s.ctx j.ctx).typ = 3) (hw : (s.ctx j.ctx).works = true) :
    s.encReconfig r j =
      if !(reconfOf (s.ctx j.ctx) j).bufferOk then s.finish r { status := 9 }
      else if (reconfOf (s.ctx j.ctx) j).level = none then s.finish r { status := 14 }
      else (s.setCtx j.ctx (reconfKept (s.ctx j.ctx) j)).finish r { status := 0 } := by
  unfold encReconfig
  simp only
  rw [if_neg (fun e => (Ctx.st_ne_of_works hw).1 e.2), if_neg (by simp [ht, hw, Ctx.isOpen_of_works hw])]
  rfl

theorem encReconfig_rest (ht : (s.ctx j.ctx).typ = 3) (hw : (s.ctx j.ctx).works = true) :
    s.encReconfig r j = { s with sq := (s.encReconfig r j).sq, ctxs := (s.encReconfig r j).ctxs } := by
  rw [encReconfig_of_encoder ht hw]
  split
  · exact finish_jobs ..
  · split
    · exact finish_jobs ..
    · exact setCtx_finish_rest ..

theorem encReconfig_of_badBuffer (ht : (s.ctx j.ctx).typ = 3) (hw : (s.ctx j.ctx).works = true)
    (hb : (reconfOf (s.ctx j.ctx) j).bufferOk = false) : s.encReconfig r j = s.finish r { status := 9 } := by
  rw [encReconfig_of_encoder ht hw, hb]
  rfl

theorem encReconfig_of_noLevel (ht : (s.ctx j.ctx).typ = 3) (hw : (s.ctx j.ctx).works = true)
    (hb : (reconfOf (s.ctx j.ctx) j).bufferOk = true) (hl : (reconfOf (s.ctx j.ctx) j).level = none) :
    s.encReconfig r j = s.finish r { status := 14 } := by
  rw [encReconfig_of_encoder ht hw, hb, if_neg (by decide), if_pos hl]

theorem encReconfig_of_sound (ht : (s.ctx j.ctx).typ = 3) (hw : (s.ctx j.ctx).works = true)
    (hb : (reconfOf (s.ctx j.ctx) j).bufferOk = true) (hl : (reconfOf (s.ctx j.ctx) j).level ≠ none) :
    s.encReconfig r j = (s.setCtx j.ctx (reconfKept (s.ctx j.ctx) j)).finish r { status := 0 } := by
  rw [encReconfig_of_encoder ht hw, hb, if_neg (by decide), if_neg hl]

end

end State

end Sys2Proof.Machine
end

section
/-! PROOFS. O29, FEED: the packet that a Flume holds, and what its commit leaves in the Flume's positions. -/
namespace Sys2Proof.Machine
namespace State

/-! ## What the tail buffer's moves keep -/

/-- What HBM's taking of staves leaves alone, of Flume `c`: registers, host memory, contexts, jobs and the open packet. -/
def feedView (c : Nat) (s : State) : Store W32 × Store Byte × Store Ctx × Store Sq × Option OpenPkt :=
  (s.regs, s.host, s.ctxs, s.sq, (s.flm c).pkt)

theorem flm_setFlm_same (s : State) (c : Nat) (f : Flume) : (s.setFlm c f).flm c = f := sget_sset_same ..

section
variable (s : State) (c : Nat)

theorem feedView_setHbm (a : Nat) (l : List Byte) : (s.setHbm a l).feedView c = s.feedView c := rfl

theorem feedView_setTabAt (p t k i v : Nat) : (s.setTabAt p t k i v).feedView c = s.feedView c := rfl

theorem feedView_setFlm (f : Flume) (h : f.pkt = (s.flm c).pkt) : (s.setFlm c f).feedView c = s.feedView c := by
  have e : ((s.setFlm c f).flm c).pkt = (s.flm c).pkt := (congrArg Flume.pkt (flm_setFlm_same s c f)).trans h
  rw [feedView, e]
  rfl

theorem feedView_setAcc (a : Nat) : (s.setFlm c { s.flm c with acc := a }).feedView c = s.feedView c :=
  feedView_setFlm s c _ rfl

theorem putStaves_eq (n pos : Nat) (l : List Byte) : ∃ m, s.putStaves c n pos l = { s with hbm := m } := by
  induction n generalizing s pos l with
  | zero => exact ⟨s.hbm, rfl⟩
  | succ n ih => exact ih _ _ _

theorem feedView_putStaves (n pos : Nat) (l : List Byte) : (s.putStaves c n pos l).feedView c = s.feedView c := by
  obtain ⟨m, e⟩ := s.putStaves_eq c n pos l
  rw [e]
  rfl

theorem flm_putStaves (n pos : Nat) (l : List Byte) : (s.putStaves c n pos l).flm c = s.flm c := by
  obtain ⟨m, e⟩ := s.putStaves_eq c n pos l
  rw [e]
  rfl

/-- Whole staves that HBM accepts leave the open packet and the positions alone. -/
theorem feedView_spill (n : Nat) : (s.spill c n).feedView c = s.feedView c := by
  unfold spill
  simp only
  have whole := s.feedView_putStaves c (min n ((s.flm c).tail.length / 32)) (s.flm c).acc (s.flm c).tail
  have flm := s.flm_putStaves c (min n ((s.flm c).tail.length / 32)) (s.flm c).acc (s.flm c).tail
  generalize s.putStaves c (min n ((s.flm c).tail.length / 32)) (s.flm c).acc (s.flm c).tail = u at whole flm ⊢
  generalize hf : ({ s.flm c with acc := _, tail := _ } : Flume) = f
  have taken := (u.feedView_setFlm c f (by rw [flm, ← hf])).trans whole
  generalize u.setFlm c f = v at taken ⊢
  split
  · exact taken
  · refine ite_keeps (feedView c) taken ((feedView_setAcc ..).trans ?_)
    exact ite_keeps (feedView c) (((feedView_putStaves ..).trans (feedView_setHbm ..)).trans taken)
      ((feedView_putStaves ..).trans taken)

theorem feedView_trimTail : (s.trimTail c).feedView c = s.feedView c := ite_keeps (feedView c) (feedView_spill ..) rfl

theorem feedView_addStaves (start : Nat) (l : List Byte) : (s.addStaves c start l).feedView c = s.feedView c := by
  unfold addStaves
  simp only
  refine ite_keeps (feedView c) (feedView_setFlm _ c _ rfl) ((feedView_setFlm _ c _ ?_).trans (feedView_setHbm ..))
  rfl

end

/-! ## Positions -/

/-- What an open packet's growth and commit keep of Flume `c` and of the engine: RD, host memory, contexts and jobs. -/
def consumerView (c : Nat) (s : State) : Nat × Store Byte × Store Ctx × Store Sq :=
  (s.fpos O.FLM_RD c, s.host, s.ctxs, s.sq)

theorem flr_ne {a b : Nat} (c : Nat) (h : a ≠ b) : flr a c ≠ flr b c := by
  simp only [flr]
  omega

section
variable {s t : State} {c : Nat}

theorem fpos_of_feedView (h : t.feedView c = s.feedView c) (a : Nat) : t.fpos a c = s.fpos a c := by
  have e : t.regs = s.regs := congrArg (·.1) h
  rw [fpos, fpos, rd, rd, e]

theorem pkt_of_feedView (h : t.feedView c = s.feedView c) : (t.flm c).pkt = (s.flm c).pkt := congrArg (·.2.2.2.2) h

theorem consumerView_of_feedView (h : t.feedView c = s.feedView c) : t.consumerView c = s.consumerView c := by
  have host : t.host = s.host := congrArg (·.2.1) h
  have ctxs : t.ctxs = s.ctxs := congrArg (·.2.2.1) h
  have sq : t.sq = s.sq := congrArg (·.2.2.2.1) h
  rw [consumerView, consumerView, fpos_of_feedView h, host, ctxs, sq]

end

section
variable (s : State) (c : Nat)

theorem fpos_setFpos_same (a v : Nat) : (s.setFpos a c v).fpos a c = v % 2 ^ 32 := rd_wr_same ..

theorem fpos_setFpos_other {a b : Nat} (v : Nat) (h : b ≠ a) : (s.setFpos a c v).fpos b c = s.fpos b c :=
  rd_wr_off s v (flr_ne c h)

theorem fpos_setFstat {a : Nat} (b : Nat) (v : Bool) (h : a ≠ O.FLM_FSTAT) : (s.setFstat c b v).fpos a c = s.fpos a c :=
  rd_setBit_off s b v (flr_ne c h)

theorem consumerView_setFpos {a : Nat} (v : Nat) (h : O.FLM_RD ≠ a) : (s.setFpos a c v).consumerView c = s.consumerView c := by
  rw [consumerView, fpos_setFpos_other s c v h]
  rfl

theorem consumerView_setFstat (b : Nat) (v : Bool) : (s.setFstat c b v).consumerView c = s.consumerView c := by
  rw [consumerView, fpos_setFstat s c b v (by decide)]
  rfl

theorem consumerView_setFlm (f : Flume) : (s.setFlm c f).consumerView c = s.consumerView c := rfl

theorem flm_setFpos (a v : Nat) : (s.setFpos a c v).flm c = s.flm c := rfl

theorem flm_setFstat (b : Nat) (v : Bool) : (s.setFstat c b v).flm c = s.flm c := rfl

theorem fpos_setFlm (f : Flume) (a : Nat) : (s.setFlm c f).fpos a c = s.fpos a c := rfl

theorem feedView_addTab (p t i n : Nat) : (s.addTab p t i n).feedView c = s.feedView c := feedView_setTabAt ..

/-- A packet held open: COMMIT stands where it stood. -/
theorem setPkt_effect (p : OpenPkt) : (s.setPkt c p).fpos O.FLM_COMMIT c = s.fpos O.FLM_COMMIT c
    ∧ ((s.setPkt c p).flm c).pkt = some p ∧ (s.setPkt c p).consumerView c = s.consumerView c := by
  unfold setPkt
  simp only
  generalize hf : ({ s.flm c with pkt := some p } : Flume) = f
  generalize hv : ((s.setFlm c f).fpos O.FLM_COMMIT c + pktStaves p.content.length) % 2 ^ 32 = v
  have trimmed := feedView_trimTail (((s.setFlm c f).setFpos O.FLM_WR c v).setFstat c 28 true) c
  refine ⟨?_, ?_, ?_⟩
  · rw [fpos_of_feedView trimmed, fpos_setFstat _ _ _ _ (by decide), fpos_setFpos_other _ _ _ (by decide), fpos_setFlm]
  · rw [pkt_of_feedView trimmed, flm_setFstat, flm_setFpos, flm_setFlm_same, ← hf]
  · rw [consumerView_of_feedView trimmed, consumerView_setFstat, consumerView_setFpos _ _ _ (by decide),
      consumerView_setFlm]

/-- The commit of the open packet moves COMMIT, and WR with it, by the packet's staves (R114). -/
theorem commitPkt_effect {p : OpenPkt} (cont noMark : Bool) (h : (s.flm c).pkt = some p) :
    (s.commitPkt c cont noMark).fpos O.FLM_COMMIT c = (s.fpos O.FLM_COMMIT c + pktStaves p.content.length) % 2 ^ 32
      ∧ (s.commitPkt c cont noMark).fpos O.FLM_WR c = (s.commitPkt c cont noMark).fpos O.FLM_COMMIT c
      ∧ (s.commitPkt c cont noMark).consumerView c = s.consumerView c := by
  unfold commitPkt
  simp only [h]
  generalize he : (s.fpos O.FLM_COMMIT c + pktStaves p.content.length) % 2 ^ 32 = e
  have lt : e < 2 ^ 32 := he ▸ Nat.mod_lt _ (by decide)
  have added := s.feedView_addStaves c (s.fpos O.FLM_COMMIT c) (padStave (pktHeader p cont noMark ++ p.content))
  generalize s.addStaves c (s.fpos O.FLM_COMMIT c) (padStave (pktHeader p cont noMark ++ p.content)) = u at added ⊢
  have kept := consumerView_of_feedView added
  clear added
  generalize hv : u.setFlm c _ = v
  have held : v.consumerView c = s.consumerView c := by
    rw [← hv, consumerView_setFlm, kept]
  generalize hw : ((v.setFpos O.FLM_WR c e).setFpos O.FLM_COMMIT c e).setFstat c 28 false = w
  have trimmed := (feedView_addTab (w.trimTail c) c pFlm 0 (8 * c + 4) 1).trans (feedView_trimTail w c)
  have commit : w.fpos O.FLM_COMMIT c = e := by
    rw [← hw, fpos_setFstat _ _ _ _ (by decide), fpos_setFpos_same, Nat.mod_eq_of_lt lt]
  have wr : w.fpos O.FLM_WR c = e := by
    rw [← hw, fpos_setFstat _ _ _ _ (by decide), fpos_setFpos_other _ _ _ (by decide), fpos_setFpos_same,
      Nat.mod_eq_of_lt lt]
  refine ⟨(fpos_of_feedView trimmed _).trans commit, ?_, (consumerView_of_feedView trimmed).trans ?_⟩
  · rw [fpos_of_feedView trimmed, fpos_of_feedView trimmed, wr, commit]
  · rw [← hw, consumerView_setFstat, consumerView_setFpos _ _ _ (by decide), consumerView_setFpos _ _ _ (by decide), held]

end

/-! ## The bytes of a FEED job (R117, R118) -/

/-- Bytes that fit one packet, where none is open, are put into a new one. -/
theorem feedBytes_of_fit {s : State} {c : Nat} (pts : Option Nat) (disc : Bool) (fuel : Nat) (l : List Byte)
    (hp : (s.flm c).pkt = none) (hmax : ((pts.map (leBytes 8)).getD []).length + l.length ≤ s.pktMax c)
    (hroom : ((pts.map (leBytes 8)).getD []).length + l.length + 1 ≤ s.roomBytes c) :
    ∃ p : OpenPkt, p.content.length = ((pts.map (leBytes 8)).getD []).length + l.length
      ∧ s.feedBytes c pts disc (fuel + 1) l 0 = (s.setPkt c p, l.length) := by
  have fits : ¬ s.roomBytes c < ((pts.map (leBytes 8)).getD []).length + (if l.isEmpty then 0 else 1) := by
    split <;> omega
  have cap : l.length ≤ min (s.roomBytes c) (s.pktMax c) - ((pts.map (leBytes 8)).getD []).length := by omega
  unfold feedBytes
  simp only [hp, Option.getD_none, List.take_of_length_le cap, List.drop_of_length_le cap, if_neg fits, List.isEmpty_nil,
    if_true, Nat.zero_add]
  exact ⟨_, List.length_append, rfl⟩

/-- Bytes of the presentation time that a FEED job's packet begins with. -/
theorem length_pts (b : Bool) (v : Nat) :
    (((if b = true ∧ True then some v else none).map (leBytes 8)).getD []).length = if b then 8 else 0 := by
  cases b
  · rfl
  · exact length_leBytes 8 v

section
variable {s : State} {c : Nat} {j : Job}

/-- A FEED job with END_AU that fits one packet: all its bytes are written, and the packet is committed. -/
theorem feedStep_effect (hm : j.moved = 0) (he : bitOf (j.dw 6) 0 = true) (hl : (s.jobData j).length = j.length)
    (hp : (s.flm c).pkt = none) (hmax : j.length + (if bitOf (j.dw 6) 2 then 8 else 0) ≤ s.pktMax c)
    (hroom : j.length + (if bitOf (j.dw 6) 2 then 8 else 0) + 1 ≤ s.roomBytes c) :
    ∃ u, s.feedStep c j = (u, j.length)
      ∧ u.fpos O.FLM_COMMIT c
        = (s.fpos O.FLM_COMMIT c + pktStaves (j.length + (if bitOf (j.dw 6) 2 then 8 else 0))) % 2 ^ 32
      ∧ u.fpos O.FLM_WR c = u.fpos O.FLM_COMMIT c ∧ u.consumerView c = s.consumerView c := by
  have pts := length_pts (bitOf (j.dw 6) 2) (j.dw 7 + j.dw 8 * 2 ^ 32)
  obtain ⟨p, content, fed⟩ := feedBytes_of_fit _ (bitOf (j.dw 6) 1) (s.jobData j).length (s.jobData j) hp
    (by rw [pts, hl, Nat.add_comm]; exact hmax) (by rw [pts, hl, Nat.add_comm (ite ..)]; exact hroom)
  rw [pts, hl, Nat.add_comm] at content
  obtain ⟨commit, held, kept⟩ := s.setPkt_effect c p
  obtain ⟨commit', wr, kept'⟩ := (s.setPkt c p).commitPkt_effect c false false held
  rw [commit, content] at commit'
  refine ⟨(s.setPkt c p).commitPkt c false false, ?_, commit', wr, kept'.trans kept⟩
  unfold feedStep
  simp only [hm, List.drop_zero]
  rw [fed]
  simp only [hl, he, Nat.zero_add, and_self, if_true]

end

end State

end Sys2Proof.Machine
end

section
/-! PROOFS. O29, FEED: a job whose data fits one packet. -/
namespace Sys2Proof.Machine
namespace State

/-! ## The link's waking and the count of a channel's bytes -/

theorem flr_lt {a c : Nat} (ha : a < 0x2020) (hc : c < 512) : flr a c < 0x10000 := by
  simp only [flr]
  omega

section
variable (s : State) {c : Nat}

theorem fpos_wakeLink {a : Nat} (ha : a < 0x2020) (hc : c < 512) : s.wakeLink.fpos a c = s.fpos a c :=
  rd_wr_other s _ (regKey_ne_of_page (flr_lt ha hc) (by decide) (by decide))

theorem consumerView_wakeLink (hc : c < 512) : s.wakeLink.consumerView c = s.consumerView c := by
  rw [consumerView, fpos_wakeLink s (by decide) hc]
  rfl

theorem owed_wakeLink (hc : c < 512) : s.wakeLink.owed c = s.owed c := by
  rw [owed, owed, fpos_wakeLink s (by decide) hc]
  rfl

theorem roomBytes_wakeLink (hc : c < 512) : s.wakeLink.roomBytes c = s.roomBytes c := by
  rw [roomBytes, roomBytes, fpos_wakeLink s (by decide) hc, fpos_wakeLink s (by decide) hc, owed_wakeLink s hc]
  rfl

theorem jobChannel_lt {r : JobRef} {n : Nat} (h : s.jobChannel r = some n) : n < 4 := by
  rw [jobChannel] at h
  exact List.mem_range.mp (List.mem_of_find?_eq_some h)

theorem chBytes_lt {n : Nat} (h : n < 4) : O.SKD_CH_BYTES_LO + 0x40 * n + 4 < 0x10000 := by
  simp only [O.SKD_CH_BYTES_LO]
  omega

theorem rd_addReg64_other {p a q off : Nat} (k : Nat) (hp : q ≠ p) (ho : off < 0x10000) (ha : a + 4 < 0x10000) :
    (s.addReg64 p a k).rd q off = s.rd q off := by
  have lo : a < 0x10000 := by omega
  rw [addReg64, wr64, rd_wr_other _ _ (regKey_ne_of_page ho ha hp), rd_wr_other _ _ (regKey_ne_of_page ho lo hp)]

/-- The bytes that a channel counts stand in the Skidder's page. -/
theorem rd_jobBytes (r : JobRef) (k : Nat) {p off : Nat} (hp : p ≠ pSkd) (ho : off < 0x10000) :
    (s.jobBytes r k).rd p off = s.rd p off := by
  unfold jobBytes
  split
  · next hn => exact rd_addReg64_other s k hp ho (chBytes_lt (s.jobChannel_lt hn))
  · rfl

theorem wr64_rest (p a v : Nat) : ∃ m, s.wr64 p a v = { s with regs := m } := ⟨_, rfl⟩

theorem jobBytes_rest (r : JobRef) (k : Nat) : ∃ m, s.jobBytes r k = { s with regs := m } := by
  unfold jobBytes
  split
  · exact wr64_rest ..
  · exact ⟨s.regs, rfl⟩

end

/-! ## FEED -/

/-- A FEED job with END_AU of data that fits one packet, of a context that works and may be fed. -/
structure FeedFits (s : State) (r : JobRef) (j : Job) : Prop where
  works : (s.ctx j.ctx).works = true
  decodes : (s.ctx j.ctx).typ ≠ 3
  fed : s.feedOk j.ctx = true
  flm : s.running pFlm = true
  turn : s.feedTurn r = true
  host : s.hostReady = true
  hbm : s.hbmReady = true
  sram : s.sramReady = true
  block : j.ctx < 512
  fresh : j.moved = 0
  endAu : bitOf (j.dw 6) 0 = true
  data : (s.jobData j).length = j.length
  closed : (s.flm j.ctx).pkt = none
  whole : j.length + (if bitOf (j.dw 6) 2 then 8 else 0) ≤ s.pktMax j.ctx
  room : j.length + (if bitOf (j.dw 6) 2 then 8 else 0) + 1 ≤ s.roomBytes j.ctx

section
variable {s : State} {r : JobRef} {j : Job} (h : s.FeedFits r j)
include h

/-- The job writes all its bytes at once, and ends. -/
theorem feed_of_fit {u : State} (hu : s.wakeLink.feedStep j.ctx j = (u, j.length)) :
    s.feed r j = ((u.jobBytes r j.length).setJob r fun i => { i with moved := j.length, taken := true }).finish r
      { status := 0, result := j.length } := by
  have lost : ¬ (j.moved = 0 ∧ (s.ctx j.ctx).st = 4 ∧ (!j.taken) = true) := fun e => (Ctx.st_ne_of_works h.works).1 e.2.1
  have isOpen := Ctx.isOpen_of_works h.works
  unfold feed
  simp only
  rw [if_neg lost, if_neg (by simp [isOpen, h.decodes, h.fed]),
    if_neg (by simp [h.flm, h.turn, h.host, h.hbm, h.sram]), hu]
  simp only [h.works, h.fresh, if_true, Nat.sub_zero]
  rfl

theorem feed_effect (hj : s.jobOpen r = true) : (s.feed r j).jobEnded r { status := 0, result := j.length }
    ∧ (s.feed r j).fpos O.FLM_COMMIT j.ctx = (s.fpos O.FLM_COMMIT j.ctx
        + pktStaves (j.length + (if bitOf (j.dw 6) 2 then 8 else 0))) % 2 ^ 32
    ∧ (s.feed r j).fpos O.FLM_WR j.ctx = (s.feed r j).fpos O.FLM_COMMIT j.ctx
    ∧ (s.feed r j).fpos O.FLM_RD j.ctx = s.fpos O.FLM_RD j.ctx
    ∧ (s.feed r j).host = s.host ∧ (s.feed r j).ctxs = s.ctxs := by
  obtain ⟨u, step, commit, wr, view⟩ := feedStep_effect (s := s.wakeLink) (c := j.ctx) (j := j) h.fresh h.endAu h.data
    h.closed h.whole ((roomBytes_wakeLink s h.block).symm ▸ h.room)
  rw [fpos_wakeLink s (by decide) h.block] at commit
  rw [consumerView_wakeLink s h.block] at view
  have rd : u.fpos O.FLM_RD j.ctx = s.fpos O.FLM_RD j.ctx := congrArg (·.1) view
  have host : u.host = s.host := congrArg (·.2.1) view
  have ctxs : u.ctxs = s.ctxs := congrArg (·.2.2.1) view
  have sq : u.sq = s.sq := congrArg (·.2.2.2) view
  rw [feed_of_fit h step]
  obtain ⟨m, counted⟩ := jobBytes_rest u r j.length
  have pos : ∀ a, a < 0x2020 → (u.jobBytes r j.length).fpos a j.ctx = u.fpos a j.ctx := fun a ha =>
    rd_jobBytes u r _ (by decide) (flr_lt ha h.block)
  have sq' : (u.jobBytes r j.length).sq = s.sq := (congrArg State.sq counted).trans sq
  have host' : (u.jobBytes r j.length).host = s.host := (congrArg State.host counted).trans host
  have ctxs' : (u.jobBytes r j.length).ctxs = s.ctxs := (congrArg State.ctxs counted).trans ctxs
  generalize u.jobBytes r j.length = v at pos sq' host' ctxs' ⊢
  clear counted
  have pos' : ∀ a, a < 0x2020 → ((v.setJob r fun i => { i with moved := j.length, taken := true }).finish r
      { status := 0, result := j.length }).fpos a j.ctx = u.fpos a j.ctx := fun a ha =>
    ((rd_setJob ..).trans (rd_setJob ..)).trans (pos a ha)
  refine ⟨jobEnded_finish _ ((jobOpen_setJob v r _ ?_ ?_).trans ((jobOpen_of_sq sq' r).trans hj)), ?_, ?_, ?_,
    (host_finish ..).trans ((host_setJob ..).trans host'), (ctxs_finish ..).trans ((ctxs_setJob ..).trans ctxs')⟩
  · exact fun _ => rfl
  · exact fun _ => rfl
  · rw [pos' _ (by decide), commit]
  · rw [pos' _ (by decide), pos' _ (by decide), wr]
  · rw [pos' _ (by decide), rd]

end

end State

end Sys2Proof.Machine
end

section
/-! PROOFS. O29, FRAME_PUT: what an image and its slot's entry change, and what the entry then reads. -/
namespace Sys2Proof.Machine

theorem leNat_leBytes (n v : Nat) : leNat (leBytes n v) = v % 256 ^ n := by
  induction n generalizing v with
  | zero => rw [Nat.pow_zero, Nat.mod_one]; rfl
  | succ n ih =>
    rw [leBytes, leNat, ih, BitVec.toNat_ofNat, Nat.pow_succ' (m := 256), Nat.mod_mul]

theorem b2n_le (b : Bool) : b2n b ≤ 1 := by cases b <;> decide

/-! ## A context's close, which its pictures leave alone -/

namespace Ctx

theorem closing_goto (x : Ctx) (st : Nat) : (x.goto st).closing = x.closing := ite_keeps Ctx.closing rfl rfl

end Ctx

namespace State

theorem closing_concealRun (x : Ctx) : (concealRun x).closing = x.closing :=
  ite_keeps Ctx.closing (ite_keeps Ctx.closing rfl rfl) rfl

theorem closing_partialStep (x : Ctx) : (partialStep x false).closing = x.closing := by
  unfold partialStep
  rw [if_neg (by decide : ¬ (false = true))]
  exact ite_keeps Ctx.closing rfl (ite_keeps Ctx.closing (Ctx.closing_goto ..) rfl)

theorem closing_countReady (x : Ctx) {f : Flight} (conc late : Bool) (hf : f.partialPic = false) :
    (countReady x f conc late).closing = x.closing := by
  unfold countReady
  simp only [hf]
  rw [closing_partialStep, closing_concealRun]
  exact ite_keeps Ctx.closing rfl rfl

theorem tryClose_of_open {s : State} {c : Nat} (h : (s.ctx c).closing = none) : s.tryClose c = s := by
  unfold tryClose
  simp only [h]

/-! ## A change of one context, its ring, jobs and registers -/

/-- `t` is `s` but for jobs, HBM, registers and context `c`. -/
structure RingKept (c : Nat) (s t : State) : Prop where
  rest : t = { s with sq := t.sq, ctxs := t.ctxs, hbm := t.hbm, regs := t.regs }
  others : ∀ k, k ≠ c → t.ctx k = s.ctx k

namespace RingKept

variable {c : Nat} {s t u : State}

theorem refl (s : State) : RingKept c s s := ⟨rfl, fun _ _ => rfl⟩

theorem trans (h : RingKept c s t) (k : RingKept c t u) : RingKept c s u := by
  refine ⟨?_, fun i hi => (k.others i hi).trans (h.others i hi)⟩
  have e := k.rest
  rw [h.rest] at e
  exact e

theorem setHbm (s : State) (a : Nat) (l : List Byte) : RingKept c s (s.setHbm a l) := ⟨rfl, fun _ _ => rfl⟩

theorem setCtx (s : State) (x : Ctx) : RingKept c s (s.setCtx c x) := ⟨rfl, fun _ h => ctx_setCtx_other s x h⟩

theorem modCtx (s : State) (f : Ctx → Ctx) : RingKept c s (s.modCtx c f) := setCtx ..

theorem setSq (s : State) (q : Nat) (v : Sq) : RingKept c s (s.setSq q v) := ⟨rfl, fun _ _ => rfl⟩

theorem setRegs (s : State) (m : Store W32) : RingKept c s { s with regs := m } := ⟨rfl, fun _ _ => rfl⟩

theorem ite {p : Prop} [Decidable p] (h : RingKept c s t) (k : RingKept c s u) : RingKept c s (if p then t else u) := by
  split
  · exact h
  · exact k

theorem setJob (s : State) (r : JobRef) (f : Job → Job) : RingKept c s (s.setJob r f) := ite (setSq ..) (setSq ..)

theorem wakeLink (s : State) : RingKept c s s.wakeLink := setRegs ..

theorem jobBytes (s : State) (r : JobRef) (k : Nat) : RingKept c s (s.jobBytes r k) := by
  obtain ⟨m, e⟩ := s.jobBytes_rest r k
  rw [e]
  exact setRegs ..

theorem foldl {β : Type} (g : State → β → State) (l : List β) (h : ∀ s b, RingKept c s (g s b)) (s : State) :
    RingKept c s (l.foldl g s) := by
  induction l generalizing s with
  | nil => exact refl s
  | cons b l ih => exact (h s b).trans (ih _)

theorem putLines (s : State) (x : Ctx) (slot : Nat) (ls : List (List Byte)) (top : Nat) :
    RingKept c s (s.putLines x slot ls top) := foldl _ _ (fun _ _ => setHbm ..) s

theorem makeReady (s : State) (f : Flight) (flags : Nat) : RingKept c s (s.makeReady c f flags) :=
  (((((((setHbm ..).trans (setHbm ..)).trans (setHbm ..)).trans (setHbm ..)).trans (setHbm ..)).trans (setHbm ..)).trans
    (setHbm ..)).trans (setCtx ..)

theorem applyNewCfg (s : State) : RingKept c s (s.applyNewCfg c) := by
  unfold State.applyNewCfg
  simp only
  split
  · exact refl s
  · exact ite (refl s) (setCtx ..)

end RingKept

theorem closing_applyNewCfg (s : State) (c : Nat) : ((s.applyNewCfg c).ctx c).closing = (s.ctx c).closing := by
  unfold applyNewCfg
  simp only
  split
  · rfl
  · refine ite_keeps (fun t : State => (t.ctx c).closing) rfl ?_
    rw [ctx_setCtx_same]

/-! ## Words of a slot's entry (Table 6.4) -/

section
variable (s : State) (x : Ctx) (slot i : Nat)

theorem entW_setEntW_same (v : Nat) : (s.setEntW x slot i v).entW x slot i = v % 2 ^ 32 := by
  rw [entW, hbmBytes, setEntW, setHbm, sgetList_ssetList_of_length (length_leBytes 4 v), leNat_leBytes]
  rfl

theorem entW_setHbm_other {a : Nat} {l : List Byte}
    (h : a + l.length ≤ entAddr x slot + 4 * i ∨ entAddr x slot + 4 * i + 4 ≤ a) :
    (s.setHbm a l).entW x slot i = s.entW x slot i := by
  rw [entW, entW, hbmBytes, hbmBytes, setHbm]
  congr 1
  refine List.map_congr_left fun k hk => ?_
  have := List.mem_range.mp hk
  rw [sget_ssetList, if_neg (by omega)]

theorem entW_setEntW_other {k : Nat} (v : Nat) (h : k ≠ i) : (s.setEntW x slot k v).entW x slot i = s.entW x slot i := by
  refine entW_setHbm_other s x slot i ?_
  rw [length_leBytes]
  omega

theorem entW_ringWord0 (y : Ctx) (a b : Bool) (h : ringBase y = ringBase x) :
    (s.ringWord0 y a b).entW x slot i = s.entW x slot i := by
  refine entW_setHbm_other s x slot i (.inl ?_)
  rw [length_leBytes, entAddr, h]
  omega

end

end State

end Sys2Proof.Machine
end

section
/-! PROOFS. O29, FRAME_PUT: the slot of an image becomes READY with the last line. -/
namespace Sys2Proof.Machine
namespace State

/-! ## A picture made READY (Table 6.4) -/

theorem entW_setCtx (s : State) (c : Nat) (y x : Ctx) (slot i : Nat) : (s.setCtx c y).entW x slot i = s.entW x slot i := rfl

/-- Word 0 of a slot's entry as its picture becomes READY: SSTATE, REF kept, flags, CEPOCH, and what the ring says. -/
def readyWord (s : State) (x : Ctx) (f : Flight) (flags : Nat) : Nat :=
  2 * 2 ^ 30 + b2n (bitOf (s.entW x f.slot 0) 29) * 2 ^ 29 + flags + f.cepoch * 2 ^ 20
    + b2n (bitOf (x.w 0) 10) * 2 ^ 14 + ringFormat x * 2 ^ 12

theorem entW_size_setTail (s : State) (x : Ctx) (slot : Nat) (l : List Byte) :
    (s.setHbm (entAddr x slot + 20) l).entW x slot 4 = s.entW x slot 4 :=
  entW_setHbm_other s x slot 4 (.inr (by omega))

section
variable (s : State) (c : Nat) (f : Flight) (flags : Nat)

theorem entW_zero_makeReady :
    (s.makeReady c f flags).entW (s.ctx c) f.slot 0 = s.readyWord (s.ctx c) f flags % 2 ^ 32 := by
  unfold makeReady
  simp only
  rw [entW_setCtx, entW_ringWord0 _ _ _ _ _ _ _ rfl, entW_setEntW_same]
  rfl

theorem entW_size_makeReady (hw : f.width * 65536 + f.height < 2 ^ 32) :
    (s.makeReady c f flags).entW (s.ctx c) f.slot 4 = f.width * 65536 + f.height := by
  unfold makeReady
  simp only
  rw [entW_setCtx, entW_ringWord0 _ _ _ _ _ _ _ rfl, entW_setEntW_other _ _ _ _ _ (by decide),
    entW_size_setTail, entW_setEntW_same, Nat.mod_eq_of_lt hw]

theorem readyFlags_le (x : Ctx) (late : Bool) (h : f.colour < 16) :
    readyFlags x f late ≤ 31 * 2 ^ 24 + 15 * 2 ^ 16 + 2 ^ 15 := by
  have conc := b2n_le (shownConcealed x f)
  have part := b2n_le f.partialPic
  have key := b2n_le (f.key || f.recovery || x.keyNext || x.typ ≠ 0)
  have lateBit := b2n_le late
  have disc := b2n_le f.disc
  have full := b2n_le f.full
  rw [readyFlags]
  omega

/-- The entry says READY, whatever its picture's flags. -/
theorem sstate_makeReady (late : Bool) (hc : f.cepoch < 16) (hcol : f.colour < 16) :
    (s.makeReady c f (readyFlags (s.ctx c) f late)).sstate (s.ctx c) f.slot = 2 := by
  rw [sstate, entW_zero_makeReady, bitsOf, Nat.shiftRight_eq_div_pow, readyWord]
  have flags := readyFlags_le f (s.ctx c) late hcol
  have ref := b2n_le (bitOf (s.entW (s.ctx c) f.slot 0) 29)
  have range := b2n_le (bitOf ((s.ctx c).w 0) 10)
  have fmt : ringFormat (s.ctx c) < 2 ^ 2 := bitsOf_lt ..
  omega

theorem makeReady_closing : ((s.makeReady c f flags).ctx c).closing = (s.ctx c).closing := by
  unfold makeReady
  simp only
  rw [ctx_setCtx_same]
  rfl

/-- Is a picture put out after its deadline? -/
def isLate : Bool := decide (s.deadline f.pts < s.tim.time)

/-- What context `c` counts as a picture of its is put out now. -/
def outputCounted (y : Ctx) : Ctx := countReady y f (shownConcealed (s.ctx c) f) (s.isLate f)

theorem closing_outputCounted (y : Ctx) (hf : f.partialPic = false) : (s.outputCounted c f y).closing = y.closing :=
  closing_countReady y _ _ hf

/-- A picture of no core becomes READY without a count of LATE pictures. -/
theorem outputPic_of_raw (h : (s.ctx c).typ = 2) :
    s.outputPic c f = (s.makeReady c f (readyFlags (s.ctx c) f (s.isLate f))).modCtx c
      (s.outputCounted c f) := by
  unfold outputPic outputCounted isLate
  simp only
  exact if_neg (by simp [h])

end

end State

end Sys2Proof.Machine
end

section
/-! PROOFS. O29, FRAME_PUT: an image moved in one go. -/
namespace Sys2Proof.Machine
namespace State

/-! ## The lines of an image -/

/-- The lines of an image's slot, the channel's count and the job, once all the lines have moved. -/
def linesPut (u : State) (r : JobRef) (j : Job) (f : Flight) : State :=
  ((u.wakeLink.putLines (u.ctx j.ctx) f.slot (imageLines ((u.jobData j).drop (j.dw 7 * j.moved)) (j.dw 7)
    (lineBytes (j.dw 8) f.width) f.height) j.moved).jobBytes r (lineBytes (j.dw 8) f.width * f.height)).setJob r fun i =>
      { i with moved := i.moved + f.height, taken := true }

/-- The job's and the context's part of a last line: the picture is put out, and the job ends. -/
def imageDone (u : State) (r : JobRef) (c : Nat) (f : Flight) : State :=
  ((u.modCtx c fun x => { x with flight := [] }).outputPic c f).finish r { status := stSuccess, result := f.slot }

section
variable (s : State) (r : JobRef) (j : Job) (f : Flight)

theorem ctxs_putLines (x : Ctx) (slot : Nat) (ls : List (List Byte)) (top : Nat) :
    (s.putLines x slot ls top).ctxs = s.ctxs := foldl_keeps State.ctxs _ _ _ fun _ _ _ => rfl

theorem sq_putLines (x : Ctx) (slot : Nat) (ls : List (List Byte)) (top : Nat) :
    (s.putLines x slot ls top).sq = s.sq := foldl_keeps State.sq _ _ _ fun _ _ _ => rfl

theorem ctxs_jobBytes (k : Nat) : (s.jobBytes r k).ctxs = s.ctxs := by
  obtain ⟨m, e⟩ := s.jobBytes_rest r k
  rw [e]

theorem sq_jobBytes (k : Nat) : (s.jobBytes r k).sq = s.sq := congrArg (·.2) (hostJobs_jobBytes s r k)

theorem ctxs_linesPut : (s.linesPut r j f).ctxs = s.ctxs := by
  rw [linesPut, ctxs_setJob, ctxs_jobBytes, ctxs_putLines, wakeLink, setBit_ctxs]

theorem jobOpen_linesPut : (s.linesPut r j f).jobOpen r = s.jobOpen r := by
  rw [linesPut, jobOpen_setJob]
  · exact jobOpen_of_sq (by rw [sq_jobBytes, sq_putLines, sq_wakeLink]) r
  · exact fun _ => rfl
  · exact fun _ => rfl

theorem ringKept_linesPut {c : Nat} : RingKept c s (s.linesPut r j f) :=
  (((RingKept.wakeLink s).trans (.putLines ..)).trans (.jobBytes ..)).trans (.setJob ..)

end

/-- With every line moved in one go, the picture is put out, and a new configuration and a close may follow. -/
theorem frameLines_of_whole {u : State} {r : JobRef} {j : Job} {f : Flight} {n : Nat} (hh : u.hostReady = true)
    (hb : u.hbmReady = true) (hm : j.moved = 0) (hn : f.height ≤ n) :
    ∃ v, u.frameLines r j f n = ((v.imageDone r j.ctx f).applyNewCfg j.ctx).tryClose j.ctx
      ∧ v.ctxs = u.ctxs ∧ v.jobOpen r = u.jobOpen r ∧ RingKept j.ctx u v := by
  refine ⟨u.linesPut r j f, ?_, ctxs_linesPut .., jobOpen_linesPut .., ringKept_linesPut ..⟩
  unfold frameLines
  simp only
  rw [if_neg (by simp [hh, hb]), hm, Nat.sub_zero, Nat.min_eq_right hn, Nat.zero_add, if_pos rfl, linesPut, hm, imageDone]

/-! ## The picture put out -/

theorem entW_of_hbm {s t : State} (h : t.hbm = s.hbm) (x : Ctx) (slot i : Nat) : t.entW x slot i = s.entW x slot i := by
  rw [entW, entW, hbmBytes, hbmBytes, h]

theorem ringBase_setFlight (x : Ctx) (l : List Flight) : ringBase { x with flight := l } = ringBase x := rfl

theorem entW_of_base (t : State) {x y : Ctx} (h : ringBase x = ringBase y) (slot i : Nat) :
    t.entW x slot i = t.entW y slot i := by
  rw [entW, entW, entAddr, entAddr, h]

theorem sq_setCtx (s : State) (c : Nat) (x : Ctx) : (s.setCtx c x).sq = s.sq := rfl
theorem hbm_setCtx (s : State) (c : Nat) (x : Ctx) : (s.setCtx c x).hbm = s.hbm := rfl
theorem sq_modCtx (s : State) (c : Nat) (g : Ctx → Ctx) : (s.modCtx c g).sq = s.sq := rfl
theorem hbm_modCtx (s : State) (c : Nat) (g : Ctx → Ctx) : (s.modCtx c g).hbm = s.hbm := rfl

theorem sq_setEntW (s : State) (x : Ctx) (slot i v : Nat) : (s.setEntW x slot i v).sq = s.sq := setHbm_sq ..
theorem sq_ringWord0 (s : State) (x : Ctx) (a b : Bool) : (s.ringWord0 x a b).sq = s.sq := setHbm_sq ..

theorem sq_makeReady (s : State) (c : Nat) (f : Flight) (flags : Nat) : (s.makeReady c f flags).sq = s.sq := by
  unfold makeReady
  simp only
  rw [sq_setCtx, sq_ringWord0, sq_setEntW, setHbm_sq, sq_setEntW, sq_setEntW, sq_setEntW, sq_setEntW]

theorem sq_applyNewCfg (s : State) (c : Nat) : (s.applyNewCfg c).sq = s.sq := by
  unfold applyNewCfg
  simp only
  split
  · rfl
  · exact ite_keeps State.sq rfl (sq_setCtx ..)

theorem hbm_applyNewCfg (s : State) (c : Nat) : (s.applyNewCfg c).hbm = s.hbm := by
  unfold applyNewCfg
  simp only
  split
  · rfl
  · exact ite_keeps State.hbm rfl (hbm_setCtx ..)

/-- A whole picture of a raw context that is put out: its job ends, its slot is READY, and the context's close stands. -/
theorem imageDone_effect {u : State} {r : JobRef} {c : Nat} {f : Flight} (ht : (u.ctx c).typ = 2)
    (hj : u.jobOpen r = true) (he : f.cepoch < 16) (hcol : f.colour < 16) (hp : f.partialPic = false)
    (hw : f.width * 65536 + f.height < 2 ^ 32) :
    (u.imageDone r c f).jobEnded r { status := 0, result := f.slot }
      ∧ (u.imageDone r c f).sstate (u.ctx c) f.slot = 2
      ∧ (u.imageDone r c f).entW (u.ctx c) f.slot 4 = f.width * 65536 + f.height
      ∧ ((u.imageDone r c f).ctx c).closing = (u.ctx c).closing ∧ RingKept c u (u.imageDone r c f) := by
  generalize hv : (u.modCtx c fun x => { x with flight := [] }) = v
  have cleared : v.ctx c = { u.ctx c with flight := [] } := hv ▸ ctx_modCtx_same ..
  have kept : RingKept c u v := hv ▸ .modCtx ..
  have isOpen : v.jobOpen r = true := (jobOpen_of_sq (by rw [← hv, sq_modCtx]) r).trans hj
  have raw : (v.ctx c).typ = 2 := by
    rw [cleared]
    exact ht
  have closing : (v.ctx c).closing = (u.ctx c).closing := by rw [cleared]
  rw [imageDone, hv, outputPic_of_raw v c f raw]
  have state := sstate_makeReady v c f (v.isLate f) he hcol
  have size := entW_size_makeReady v c f (readyFlags (v.ctx c) f (v.isLate f)) hw
  have closed := (makeReady_closing v c f (readyFlags (v.ctx c) f (v.isLate f))).trans closing
  have sq := sq_makeReady v c f (readyFlags (v.ctx c) f (v.isLate f))
  have ready := kept.trans (.makeReady v f (readyFlags (v.ctx c) f (v.isLate f)))
  have base : ringBase (v.ctx c) = ringBase (u.ctx c) := by rw [cleared, ringBase_setFlight]
  rw [sstate, entW_of_base _ base] at state
  rw [entW_of_base _ base] at size
  generalize v.makeReady c f (readyFlags (v.ctx c) f (v.isLate f)) = m at state size closed sq ready ⊢
  have counted := closing_outputCounted v c f (m.ctx c) hp
  generalize v.outputCounted c f = g at counted ⊢
  have hbm := (hbm_finish (m.modCtx c g) r { status := stSuccess, result := f.slot }).trans (hbm_modCtx m c g)
  refine ⟨jobEnded_finish _ ((jobOpen_of_sq ((sq_modCtx m c g).trans sq) r).trans isOpen), ?_, ?_, ?_,
    ((ready.trans (.modCtx m g)).trans (.setJob ..))⟩
  · rw [sstate, entW_of_hbm hbm]
    exact state
  · rw [entW_of_hbm hbm]
    exact size
  · rw [ctx_of_ctxs (ctxs_finish ..), ctx_modCtx_same, counted, closed]

/-! ## FRAME_PUT -/

/-- The picture that a FRAME_PUT job puts into a slot. -/
def imageOf (x : Ctx) (j : Job) (slot : Nat) : Flight :=
  { serial := x.serial, core := 0, slot := slot, start := 0, stop := 0
    pts := toBits 64 ((j.dw 9 + j.dw 10 * 2 ^ 32 : Nat) + signed 64 (pairAt x.desc 5)), width := bitsOf (j.dw 6) 16 16
    height := bitsOf (j.dw 6) 0 16, colour := bitsOf (x.w 0) 12 4, full := bitOf (x.w 0) 11, key := true, ref := false
    disc := false, cepoch := x.cepoch }

/-- The slot is BUSY with the picture, and the job stands at its first line. -/
def imageBegun (s : State) (r : JobRef) (c slot : Nat) (f : Flight) : State :=
  ((s.setSstate (s.ctx c) slot 1).modCtx c fun x => { x with flight := [f] }).setJob r fun j => { j with moved := 0 }

section
variable (s : State) (r : JobRef) (c slot : Nat) (f : Flight)

theorem ctx_setHbm (a : Nat) (l : List Byte) (k : Nat) : (s.setHbm a l).ctx k = s.ctx k := rfl

theorem ctx_setSstate (x : Ctx) (st k : Nat) : (s.setSstate x slot st).ctx k = s.ctx k := ctx_setHbm ..

theorem ctx_imageBegun : (s.imageBegun r c slot f).ctx c = { s.ctx c with flight := [f] } := by
  rw [imageBegun, ctx_of_ctxs (ctxs_setJob ..), ctx_modCtx_same, ctx_setSstate]

theorem regs_setJob (g : Job → Job) : (s.setJob r g).regs = s.regs := ite_keeps State.regs rfl rfl

theorem regs_modCtx (g : Ctx → Ctx) : (s.modCtx c g).regs = s.regs := rfl

theorem flt_modCtx (g : Ctx → Ctx) : (s.modCtx c g).flt = s.flt := rfl

theorem regs_setSstate (x : Ctx) (st : Nat) : (s.setSstate x slot st).regs = s.regs := setHbm_regs ..

theorem flt_setSstate (x : Ctx) (st : Nat) : (s.setSstate x slot st).flt = s.flt := setHbm_flt ..

theorem sq_setSstate (x : Ctx) (st : Nat) : (s.setSstate x slot st).sq = s.sq := setHbm_sq ..

theorem rd_of_regs {t : State} (h : t.regs = s.regs) (p off : Nat) : t.rd p off = s.rd p off := by
  rw [rd, rd, h]

theorem rd_imageBegun (p off : Nat) : (s.imageBegun r c slot f).rd p off = s.rd p off :=
  rd_of_regs s (by rw [imageBegun, regs_setJob, regs_modCtx, regs_setSstate]) p off

theorem hostReady_imageBegun : (s.imageBegun r c slot f).hostReady = s.hostReady :=
  hostReady_congr (by rw [imageBegun, flt_setJob, flt_modCtx, flt_setSstate]) (rd_imageBegun ..) (rd_imageBegun ..)

theorem hbmReady_imageBegun : (s.imageBegun r c slot f).hbmReady = s.hbmReady := by
  rw [hbmReady, hbmReady, running, running, running, running, pstate_of_rd (rd_imageBegun ..),
    pstate_of_rd (rd_imageBegun ..)]

theorem jobOpen_imageBegun : (s.imageBegun r c slot f).jobOpen r = s.jobOpen r := by
  rw [imageBegun, jobOpen_setJob]
  · exact jobOpen_of_sq (by rw [sq_modCtx, sq_setSstate]) r
  · exact fun _ => rfl
  · exact fun _ => rfl

theorem ringKept_imageBegun : RingKept c s (s.imageBegun r c slot f) :=
  ((RingKept.setHbm ..).trans (.modCtx ..)).trans (.setJob ..)

end

/-- A FRAME_PUT job of a sound image for a raw context that works, with a slot to be had and no image in progress. -/
structure PutFits (s : State) (j : Job) (slot : Nat) : Prop where
  works : (s.ctx j.ctx).works = true
  raw : (s.ctx j.ctx).typ = 2
  host : bitsOf ((s.ctx j.ctx).w 0) 28 4 = 5
  idle : (s.ctx j.ctx).flight = []
  size : bitsOf (j.dw 6) 16 16 ≠ 0 ∧ bitsOf (j.dw 6) 0 16 ≠ 0 ∧ bitsOf (j.dw 6) 16 16 ≤ (s.ctx j.ctx).width
    ∧ bitsOf (j.dw 6) 0 16 ≤ (s.ctx j.ctx).height
  fmt : j.dw 8 = ringFormat (s.ctx j.ctx)
  pitch : j.dw 7 % 16 = 0 ∧ lineBytes (j.dw 8) (bitsOf (j.dw 6) 16 16) ≤ j.dw 7
  data : j.dw 7 * (bitsOf (j.dw 6) 0 16 - 1) + lineBytes (j.dw 8) (bitsOf (j.dw 6) 16 16) ≤ j.length
  slot : s.findSlot j.ctx = some slot
  hostMem : s.hostReady = true
  hbm : s.hbmReady = true

/-- A picture of a size that a job gives fits its word of the entry. -/
theorem imageOf_size (x : Ctx) (j : Job) (slot : Nat) :
    (imageOf x j slot).width * 65536 + (imageOf x j slot).height < 2 ^ 32 := by
  have wide : (imageOf x j slot).width < 2 ^ 16 := bitsOf_lt ..
  have high : (imageOf x j slot).height < 2 ^ 16 := bitsOf_lt ..
  omega

section
variable {s : State} {r : JobRef} {j : Job} {slot n : Nat} (h : s.PutFits j slot)
include h

/-- The image goes into its slot, line after line. -/
theorem framePut_of_slot : s.framePut r j n = (s.imageBegun r j.ctx slot (imageOf (s.ctx j.ctx) j slot)).frameLines r
    { j with moved := 0 } (imageOf (s.ctx j.ctx) j slot) n := by
  obtain ⟨hw, hh, hx, hy⟩ := h.size
  obtain ⟨h16, hp⟩ := h.pitch
  have lost := Ctx.st_ne_of_works h.works
  have refused : ¬ ((!(s.ctx j.ctx).isOpen) = true ∨ (s.ctx j.ctx).typ ≠ 2 ∨ bitsOf ((s.ctx j.ctx).w 0) 28 4 ≠ 5
      ∨ (s.ctx j.ctx).st = 5) := by simp [Ctx.isOpen_of_works h.works, h.raw, h.host, lost.2]
  have bad : ¬ (bitsOf (j.dw 6) 16 16 = 0 ∨ bitsOf (j.dw 6) 0 16 = 0 ∨ (s.ctx j.ctx).width < bitsOf (j.dw 6) 16 16
      ∨ (s.ctx j.ctx).height < bitsOf (j.dw 6) 0 16 ∨ j.dw 8 ≠ ringFormat (s.ctx j.ctx) ∨ j.dw 7 % 16 ≠ 0
      ∨ j.dw 7 < lineBytes (j.dw 8) (bitsOf (j.dw 6) 16 16)
      ∨ j.length < j.dw 7 * (bitsOf (j.dw 6) 0 16 - 1) + lineBytes (j.dw 8) (bitsOf (j.dw 6) 16 16)) := by
    simp only [not_or, not_lt, not_not]
    exact ⟨hw, hh, hx, hy, h.fmt, h16, hp, h.data⟩
  unfold framePut
  simp only
  rw [if_neg lost.1, if_neg refused, h.idle]
  simp only
  rw [if_neg bad, h.slot]
  simp only
  rw [if_neg (by simp [h.hostMem, h.hbm])]
  rfl

theorem framePut_effect (hc : (s.ctx j.ctx).closing = none) (he : (s.ctx j.ctx).cepoch < 16)
    (hn : bitsOf (j.dw 6) 0 16 ≤ n) (hj : s.jobOpen r = true) :
    (s.framePut r j n).jobEnded r { status := 0, result := slot } ∧ (s.framePut r j n).sstate (s.ctx j.ctx) slot = 2
      ∧ (s.framePut r j n).entW (s.ctx j.ctx) slot 4 = bitsOf (j.dw 6) 16 16 * 65536 + bitsOf (j.dw 6) 0 16
      ∧ RingKept j.ctx s (s.framePut r j n) := by
  rw [framePut_of_slot h]
  have begun := ctx_imageBegun s r j.ctx slot (imageOf (s.ctx j.ctx) j slot)
  have host := (hostReady_imageBegun s r j.ctx slot (imageOf (s.ctx j.ctx) j slot)).trans h.hostMem
  have hbm := (hbmReady_imageBegun s r j.ctx slot (imageOf (s.ctx j.ctx) j slot)).trans h.hbm
  have isOpen := (jobOpen_imageBegun s r j.ctx slot (imageOf (s.ctx j.ctx) j slot)).trans hj
  have first := ringKept_imageBegun s r j.ctx slot (imageOf (s.ctx j.ctx) j slot)
  have wide := imageOf_size (s.ctx j.ctx) j slot
  have epoch : (imageOf (s.ctx j.ctx) j slot).cepoch < 16 := he
  have whole : (imageOf (s.ctx j.ctx) j slot).partialPic = false := rfl
  have high : (imageOf (s.ctx j.ctx) j slot).height ≤ n := hn
  have inSlot : (imageOf (s.ctx j.ctx) j slot).slot = slot := rfl
  have dims : (imageOf (s.ctx j.ctx) j slot).width * 65536 + (imageOf (s.ctx j.ctx) j slot).height
      = bitsOf (j.dw 6) 16 16 * 65536 + bitsOf (j.dw 6) 0 16 := rfl
  have colour : (imageOf (s.ctx j.ctx) j slot).colour < 2 ^ 4 := bitsOf_lt ..
  generalize s.imageBegun r j.ctx slot (imageOf (s.ctx j.ctx) j slot) = u at begun host hbm isOpen first ⊢
  generalize imageOf (s.ctx j.ctx) j slot = f at *
  obtain ⟨v, lines, ctxs, opened, kept⟩ := frameLines_of_whole (r := r) (j := { j with moved := 0 }) host hbm rfl high
  have ctx : v.ctx j.ctx = { s.ctx j.ctx with flight := [f] } := (ctx_of_ctxs ctxs _).trans begun
  have raw : (v.ctx j.ctx).typ = 2 := by
    rw [ctx]
    exact h.raw
  have base : ringBase (v.ctx j.ctx) = ringBase (s.ctx j.ctx) := by rw [ctx, ringBase_setFlight]
  have closing : (v.ctx j.ctx).closing = none := by
    rw [ctx]
    exact hc
  obtain ⟨ended, state, size, closed, done⟩ := imageDone_effect raw (opened.trans isOpen) epoch colour whole wide
  rw [inSlot] at ended
  rw [sstate, entW_of_base _ base, inSlot] at state
  rw [entW_of_base _ base, inSlot, dims] at size
  have all := (first.trans kept).trans done
  rw [lines]
  rw [closing] at closed
  generalize v.imageDone r j.ctx f = w at *
  rw [tryClose_of_open ((closing_applyNewCfg w j.ctx).trans closed)]
  refine ⟨?_, ?_, ?_, all.trans (.applyNewCfg w)⟩
  · rw [jobEnded, findJob_of_sq (sq_applyNewCfg ..)]
    exact ended
  · rw [sstate, entW_of_hbm (hbm_applyNewCfg ..)]
    exact state
  · rw [entW_of_hbm (hbm_applyNewCfg ..)]
    exact size

end

end State

end Sys2Proof.Machine
end

section
/-! PROOFS. The settling of O29. -/
namespace Sys2Proof.Machine

/-- Settles O29, job by job: FEED commits the packet that its bytes fill, FRAME_PUT makes its slot READY, and the encoder's
two jobs end with what their context's state and checks give. -/
theorem contextDataAndEncoderJobs : Obligations.ContextDataAndEncoderJobs := by
  unfold Obligations.ContextDataAndEncoderJobs
  refine ⟨?_, ?_, ?_, ?_⟩
  · intro r j s h hsram hs hflm hturn hworks htyp _ hfed hblock hm hend hlen hpkt hready
    simp only
    intro hmax hroom
    have run : exec (.feed r) s = execFeed r s := rfl
    rw [run, execFeed]
    refine act_next h.1 fun u hu => ?_
    obtain ⟨-, found, hop, hout, -⟩ := id h
    simp only [found] at hu
    rw [if_pos ⟨hop, hout, hs⟩] at hu
    have fits : s.FeedFits r j := ⟨hworks, htyp, hfed, hflm, hturn, hready.1, hready.2, hsram, hblock, hm, hend, hlen, hpkt,
      hmax, hroom⟩
    have effect := State.feed_effect fits (State.jobOpen_of_ready h)
    rw [← hu] at effect
    exact effect
  · intro r j slot lines s h hs hturn hready
    simp only
    intro hworks htyp hraw hc he hw hh hx hy hfmt h16 hp hdata hslot hidle hlines
    have run : exec (.framePut ⟨r, lines⟩) s = execFramePut ⟨r, lines⟩ s := rfl
    rw [run, execFramePut]
    refine act_next h.1 fun u hu => ?_
    obtain ⟨-, found, hop, hout, -⟩ := id h
    simp only [found] at hu
    rw [if_pos ⟨hop, hout, hs, hturn⟩] at hu
    have fits : s.PutFits j slot := ⟨hworks, htyp, hraw, hidle, ⟨hw, hh, hx, hy⟩, hfmt, ⟨h16, hp⟩, hdata, hslot, hready.1,
      hready.2⟩
    obtain ⟨ended, state, size, kept⟩ := State.framePut_effect fits hc he hlines (State.jobOpen_of_ready h)
    rw [← hu] at ended state size kept
    exact ⟨ended, state, size, kept.others, congrArg (fun u => { u with pending := s.pending }) kept.rest⟩
  · intro r j s h
    have run : exec (.keyRequest r) s = execKeyRequest r s := rfl
    rw [run, execKeyRequest]
    refine act_next h.1 fun u hu => ?_
    rw [State.withJob_of_ready _ h] at hu
    refine ⟨?_, fun ht hw => ?_, fun other => ?_⟩
    · by_cases enc : (s.ctx j.ctx).typ = 3 ∧ (s.ctx j.ctx).works = true
      · obtain ⟨-, -, rest⟩ := State.keyRequest_effect (s := s) (r := r) (j := j) enc.1 enc.2 (State.jobOpen_of_ready h)
        rw [← hu] at rest
        exact congrArg (fun u => { u with pending := s.pending }) rest
      · have rest := State.finish_jobs s r { status := 8 }
        rw [← State.keyRequest_of_other (r := r) enc, ← hu] at rest
        exact congrArg (fun u => { u with pending := s.pending }) rest
    · obtain ⟨status, asked, -⟩ := State.keyRequest_effect (s := s) (r := r) (j := j) ht hw (State.jobOpen_of_ready h)
      rw [← hu] at status asked
      exact ⟨status, asked⟩
    · have ended := State.jobEnded_finish { status := 8 } (State.jobOpen_of_ready h)
      have ctxs := State.ctxs_finish s r { status := 8 }
      rw [← State.keyRequest_of_other (r := r) other, ← hu] at ended ctxs
      exact ⟨ended, ctxs⟩
  · intro r j s h
    simp only
    intro htyp hworks
    have run : exec (.encReconfig r) s = execEncReconfig r s := rfl
    rw [run, execEncReconfig]
    refine act_next h.1 fun u hu => ?_
    rw [State.withJob_of_ready _ h] at hu
    have isOpen := State.jobOpen_of_ready h
    have rest := State.encReconfig_rest (r := r) htyp hworks
    rw [← hu] at rest
    refine ⟨congrArg (fun u => { u with pending := s.pending }) rest, fun hb => ?_, fun hb hl => ?_, fun hb hl => ?_⟩
    · rw [State.encReconfig_of_badBuffer htyp hworks hb] at hu
      exact hu ▸ ⟨State.jobEnded_finish _ isOpen, State.ctxs_finish ..⟩
    · rw [State.encReconfig_of_noLevel htyp hworks hb hl] at hu
      exact hu ▸ ⟨State.jobEnded_finish _ isOpen, State.ctxs_finish ..⟩
    · rw [State.encReconfig_of_sound htyp hworks hb hl] at hu
      have ended := State.jobEnded_finish { status := 0 }
        ((State.jobOpen_setCtx s j.ctx (State.reconfKept (s.ctx j.ctx) j) r).trans isOpen)
      have ctx : u.ctx j.ctx = State.reconfKept (s.ctx j.ctx) j := by
        rw [hu, State.ctx_of_ctxs (State.ctxs_finish ..), State.ctx_setCtx_same]
      rw [← hu] at ended
      exact ⟨ended, congrArg (fun x : Ctx => x.enc.reconf) ctx⟩

end Sys2Proof.Machine
end

section
/-! PROOFS. O25, the MAC: what counting a received frame changes, and what becomes of one that fails a check (R88, R89). -/
namespace Sys2Proof.Machine
namespace State

/-! ## Registers of a port -/

theorem netReg_inj {a b i : Nat} (h : netReg a i = netReg b i) : a = b := Nat.add_right_cancel h

theorem netReg_ne {a b : Nat} (i : Nat) (h : a ≠ b) : netReg a i ≠ netReg b i := fun e => h (netReg_inj e)

theorem netReg_lt {a : Nat} (i : Nat) (h : a < 0x1000) : netReg a i < 0x10000 := by
  simp only [netReg]
  omega

theorem netReg_add (a i k : Nat) : netReg a i + k = netReg (a + k) i := by
  simp only [netReg]
  omega

/-- The registers of a MAC's block lie behind those of the port. -/
theorem netReg_ne_of_lt {a b : Nat} (i : Nat) (h : b < a) : netReg a i ≠ b := by
  simp only [netReg]
  omega

theorem netPage_bounds (i : Fin 8) : pNet ≤ netPage i ∧ netPage i < pDbk := by
  simp only [netPage, pNet, pDbk]
  omega

theorem netPage_ne_dbk (i : Fin 8) : pDbk ≠ netPage i := (netPage_bounds i).2.ne'

theorem netPage_ne_eic (i : Fin 8) : netPage i ≠ pEic := by
  have : pEic < pNet := by decide
  exact (this.trans_le (netPage_bounds i).1).ne'

/-- Requests change no register of a page from the ports on but its causes. -/
theorem sigReg_of_ge {p q off : Nat} (hq : pNet ≤ q) (h : off ≠ O.INT_CAUSE) : sigReg p q off = false := by
  have eic : q ≠ pEic := by rintro rfl; exact absurd hq (by decide)
  have hif : q ≠ pHif := by rintro rfl; exact absurd hq (by decide)
  have ysq : ¬ q < pYsq + 8 := by simp only [pYsq, pNet] at hq ⊢; omega
  simp [sigReg, h, eic, hif, ysq]

theorem rd_incr_same (s : State) (p off : Nat) : (s.incr p off).rd p off = (s.rd p off + 1) % 2 ^ 32 := rd_wr_same ..

/-- A 64-bit counter holds the sum, modulo its width. -/
theorem rd64_addReg64_same (s : State) (p off n : Nat) : (s.addReg64 p off n).rd64 p off = (s.rd64 p off + n) % 2 ^ 64 := by
  unfold addReg64
  generalize s.rd64 p off + n = v
  rw [rd64, wr64, rd_wr_off _ _ (by omega), rd_wr_same, rd_wr_same]
  omega

/-- Registers of a MAC's block. -/
def netRegs (offs : List Nat) (i : Nat) : List Nat := offs.map (netReg · i)

theorem netReg_mem_netRegs {a i : Nat} {offs : List Nat} : netReg a i ∈ netRegs offs i ↔ a ∈ offs :=
  List.mem_map_of_injective fun _ _ => netReg_inj

theorem le_of_mem_netRegs {off b i : Nat} {offs : List Nat} (h : ∀ a ∈ offs, b ≤ a) (hm : off ∈ netRegs offs i) :
    b ≤ off := by
  obtain ⟨a, ha, rfl⟩ := List.mem_map.mp hm
  exact (h a ha).trans (Nat.le_add_right ..)

theorem PageRegs.hbm {p : Nat} {offs : List Nat} {s t : State} (h : PageRegs p offs s t) : t.hbm = s.hbm :=
  (congrArg State.hbm h.rest).trans rfl

section
variable {s t : State} {i a : Nat} {offs : List Nat}

theorem pageRegs_addCounter (s : State) (i n : Nat) (ha : a < 0x1000) (hm : a ∈ offs) :
    PageRegs (netPage i) (netRegs offs i) s (s.addReg (netPage i) (netReg a i) n) :=
  .wr s _ (netReg_mem_netRegs.mpr hm) (netReg_lt i ha)

theorem pageRegs_addCounter64 (s : State) (i n : Nat) (ha : a + 4 < 0x1000) (hm : a ∈ offs) (hm' : a + 4 ∈ offs) :
    PageRegs (netPage i) (netRegs offs i) s (s.addReg64 (netPage i) (netReg a i) n) :=
  .wr64 s _ (netReg_mem_netRegs.mpr hm) (netReg_add a i 4 ▸ netReg_mem_netRegs.mpr hm') (netReg_add a i 4 ▸ netReg_lt i ha)

variable (h : PageRegs (netPage i) (netRegs offs i) s t)
include h

/-- Every other register of the MAC reads as before. -/
theorem PageRegs.rd_net (ha : a < 0x1000) (hc : a ∉ offs) : t.rd (netPage i) (netReg a i) = s.rd (netPage i) (netReg a i) :=
  h.regs _ _ (netReg_lt i ha) fun _ hm => hc (netReg_mem_netRegs.mp hm)

theorem PageRegs.rd64_net (ha : a + 4 < 0x1000) (hc : a ∉ offs) (hc' : a + 4 ∉ offs) :
    t.rd64 (netPage i) (netReg a i) = s.rd64 (netPage i) (netReg a i) := by
  rw [rd64, rd64, netReg_add, h.rd_net (by omega) hc, h.rd_net ha hc']

/-- The registers before the MACs' blocks read as before, on every page. -/
theorem PageRegs.rd_low {p off : Nat} (ho : off < 0x900) (hc : ∀ a ∈ offs, 0x900 ≤ a) : t.rd p off = s.rd p off :=
  h.regs _ _ (by omega) fun _ hm => absurd (le_of_mem_netRegs hc hm) (by omega)

end

/-! ## The counters of a received frame -/

/-- The counters of a MAC that move before a frame is judged, or with every frame of good FCS and length. -/
def rxCounters : List Nat := [O.NET_FEC_CORR, O.NET_FEC_UNCORR, O.NET_RX_FRAMES_LO, O.NET_RX_FRAMES_HI, O.NET_RX_BYTES_LO,
  O.NET_RX_BYTES_HI]

/-- The state with the codewords of a frame counted. -/
def fecCounted (s : State) (i : Nat) (x : RxFrame) : State :=
  (s.addReg (netPage i) (netReg O.NET_FEC_CORR i) x.fecCorr).addReg (netPage i) (netReg O.NET_FEC_UNCORR i) x.fecUncorr

/-- The state with a frame of good FCS and length counted. -/
def frameCounted (s : State) (i : Nat) (x : RxFrame) : State :=
  ((s.fecCounted i x).addReg64 (netPage i) (netReg O.NET_RX_FRAMES_LO i) 1).addReg64 (netPage i) (netReg O.NET_RX_BYTES_LO i)
    (x.bytes.length + 4)

section
variable (s : State) (i : Nat) (x : RxFrame)

theorem pageRegs_fecCounted {offs : List Nat} (h : O.NET_FEC_CORR ∈ offs) (h' : O.NET_FEC_UNCORR ∈ offs) :
    PageRegs (netPage i) (netRegs offs i) s (s.fecCounted i x) :=
  (pageRegs_addCounter s i _ (by decide) h).trans (pageRegs_addCounter _ i _ (by decide) h')

theorem pageRegs_frameCounted : PageRegs (netPage i) (netRegs rxCounters i) s (s.frameCounted i x) :=
  (pageRegs_fecCounted s i x (by decide) (by decide)).trans
    ((pageRegs_addCounter64 _ i _ (by decide) (by decide) (by decide)).trans
      (pageRegs_addCounter64 _ i _ (by decide) (by decide) (by decide)))

/-- RX_FRAMES holds one frame more: none of the other counters is a half of it. -/
theorem rd64_frames_frameCounted : (s.frameCounted i x).rd64 (netPage i) (netReg O.NET_RX_FRAMES_LO i)
    = (s.rd64 (netPage i) (netReg O.NET_RX_FRAMES_LO i) + 1) % 2 ^ 64 := by
  have fec := pageRegs_fecCounted s i x (offs := [O.NET_FEC_CORR, O.NET_FEC_UNCORR]) (by decide) (by decide)
  have bytes := pageRegs_addCounter64 (a := O.NET_RX_BYTES_LO) (offs := [O.NET_RX_BYTES_LO, O.NET_RX_BYTES_HI])
    ((s.fecCounted i x).addReg64 (netPage i) (netReg O.NET_RX_FRAMES_LO i) 1) i (x.bytes.length + 4) (by decide) (by decide)
    (by decide)
  rw [frameCounted, bytes.rd64_net (by decide) (by decide) (by decide), rd64_addReg64_same,
    fec.rd64_net (by decide) (by decide) (by decide)]

/-- Counting a frame leaves the MAC's address. -/
theorem rd64_addr_frameCounted : (s.frameCounted i x).rd64 (netPage i) (netReg O.NET_MAC_ADDR_LO i)
    = (s.fecCounted i x).rd64 (netPage i) (netReg O.NET_MAC_ADDR_LO i) :=
  ((pageRegs_addCounter64 (offs := rxCounters) _ i _ (by decide) (by decide) (by decide)).trans
    (pageRegs_addCounter64 _ i _ (by decide) (by decide) (by decide))).rd64_net (by decide) (by decide) (by decide)

theorem maxFrame_fecCounted : (s.fecCounted i x).maxFrame i = s.maxFrame i :=
  fld_of_rd _ _ ((pageRegs_fecCounted s i x (offs := rxCounters) (by decide) (by decide)).rd_net (by decide) (by decide))

end

end State
end Sys2Proof.Machine
end

section
/-! PROOFS. O25, the MAC: what becomes of a received frame, check by check (R88, R89). -/
namespace Sys2Proof.Machine
namespace State

/-! ## The checks of a frame -/

/-- The frame's FCS is good and its length, FCS included, within bounds. -/
def SoundFrame (s : State) (i : Nat) (x : RxFrame) : Prop :=
  x.fcsOk = true ∧ 64 ≤ x.bytes.length + 4 ∧ x.bytes.length + 4 ≤ s.maxFrame i

/-- The frame is addressed to the MAC: it takes every frame, or the address is a group's or its own. -/
def Addressed (s : State) (i : Nat) (x : RxFrame) : Prop :=
  s.bit (netPage i) (netReg O.NET_MAC_CFG i) 30 = true ∨ bitOf (x.bytes.headD 0).toNat 0 = true
    ∨ beNat (x.bytes.take 6) = s.rd64 (netPage i) (netReg O.NET_MAC_ADDR_LO i) % 2 ^ 48

/-- The state after a sound frame that is counted: dropped by type, address, a stopped Debarker or a full buffer, or taken
on. -/
def filterFrame (s : State) (i : Nat) (x : RxFrame) : State :=
  let p := netPage i
  if be16 x.bytes 12 = 0x8808 then s.incr p (netReg O.NET_RX_MAC_CTL i)
  else if !s.bit p (netReg O.NET_MAC_CFG i) 30 ∧ !bitOf (x.bytes.headD 0).toNat 0
      ∧ !decide (beNat (x.bytes.take 6) = s.rd64 p (netReg O.NET_MAC_ADDR_LO i) % 2 ^ 48) then
    s.incr p (netReg O.NET_RX_DA_DROP i)
  else if !s.running pDbk then s.incr p O.NET_RX_DBK_DROP
  else if !ingressFits x (s.frameClass i x.bytes) x.bytes.length then
    (s.incr p (netReg O.NET_RX_OVF i)).setCause p 0x10
  else
    let v : Int := x.stamp.toNat * 65536 + x.frac.toNat + signed 32 (s.rd p (netReg O.NET_TS_ADJ_RX i)) * 256
    s.debark i { inst := i, stamp := toBits 64 (v / 65536), frac := (v % 65536).toNat } x.bytes

section
variable {s : State} {i : Nat} {x : RxFrame}

theorem rxFrame_of_badFcs (h : x.fcsOk = false) :
    s.rxFrame i x = (s.fecCounted i x).incr (netPage i) (netReg O.NET_RX_FCS_ERR i) :=
  if_pos (by simp [h])

theorem rxFrame_of_badLength (h : x.fcsOk = true) (hs : ¬ s.SoundFrame i x) :
    s.rxFrame i x = (s.fecCounted i x).incr (netPage i) (netReg O.NET_RX_SIZE_ERR i) := by
  refine (if_neg (by simp [h])).trans (if_pos ?_)
  change _ ∨ (s.fecCounted i x).maxFrame i < _
  rw [maxFrame_fecCounted]
  simp only [SoundFrame, h, true_and] at hs
  omega

theorem rxFrame_of_sound (h : s.SoundFrame i x) : s.rxFrame i x = (s.frameCounted i x).filterFrame i x := by
  obtain ⟨hf, hmin, hmax⟩ := h
  have hlen : ¬ (x.bytes.length + 4 < 64 ∨ (s.fecCounted i x).maxFrame i < x.bytes.length + 4) := by
    rw [maxFrame_fecCounted]
    omega
  refine (if_neg (by simp [hf])).trans ((if_neg hlen).trans ?_)
  rw [filterFrame, rd64_addr_frameCounted]
  rfl

theorem addressed_iff : s.Addressed i x ↔ ¬ ((!s.bit (netPage i) (netReg O.NET_MAC_CFG i) 30) = true
    ∧ (!bitOf (x.bytes.headD 0).toNat 0) = true
    ∧ (!decide (beNat (x.bytes.take 6) = s.rd64 (netPage i) (netReg O.NET_MAC_ADDR_LO i) % 2 ^ 48)) = true) := by
  simp [Addressed, or_iff_not_imp_left]

theorem filterFrame_of_control (h : be16 x.bytes 12 = 0x8808) :
    s.filterFrame i x = s.incr (netPage i) (netReg O.NET_RX_MAC_CTL i) := if_pos h

theorem filterFrame_of_other (h : be16 x.bytes 12 ≠ 0x8808) (hf : ¬ s.Addressed i x) :
    s.filterFrame i x = s.incr (netPage i) (netReg O.NET_RX_DA_DROP i) :=
  (if_neg h).trans (if_pos (not_not.mp (mt addressed_iff.mpr hf)))

theorem filterFrame_of_stopped (h : be16 x.bytes 12 ≠ 0x8808) (hf : s.Addressed i x) (hr : s.running pDbk = false) :
    s.filterFrame i x = s.incr (netPage i) O.NET_RX_DBK_DROP :=
  (if_neg h).trans ((if_neg (addressed_iff.mp hf)).trans (if_pos (by simp [hr])))

theorem filterFrame_of_full (h : be16 x.bytes 12 ≠ 0x8808) (hf : s.Addressed i x) (hr : s.running pDbk = true)
    (hfit : ingressFits x (s.frameClass i x.bytes) x.bytes.length = false) :
    s.filterFrame i x = (s.incr (netPage i) (netReg O.NET_RX_OVF i)).setCause (netPage i) 0x10 :=
  (if_neg h).trans ((if_neg (addressed_iff.mp hf)).trans ((if_neg (by simp [hr])).trans (if_pos (by simp [hfit]))))

/-- A frame that passes every check goes to the Debarker with its MAC and its stamp. -/
theorem filterFrame_of_taken (h : be16 x.bytes 12 ≠ 0x8808) (hf : s.Addressed i x) (hr : s.running pDbk = true)
    (hfit : ingressFits x (s.frameClass i x.bytes) x.bytes.length = true) :
    ∃ m : Meta, m.inst = i ∧ s.filterFrame i x = s.debark i m x.bytes :=
  ⟨_, rfl, (if_neg h).trans ((if_neg (addressed_iff.mp hf)).trans
    ((if_neg (by simp [hr])).trans (if_neg (by simp [hfit]))))⟩

end

/-! ## Lookups after a frame is counted (R95-R98) -/

section
variable {s t : State}

theorem keyVid_of_ksel (hk : t.rd pDbk O.DBK_KSEL = s.rd pDbk O.DBK_KSEL) (vid : Nat) : t.keyVid vid = s.keyVid vid := by
  rw [keyVid, keyVid, bit_of_rd 20 hk]

/-- A lookup reads the tables and the selection of keys, none of which counting changes. -/
theorem lookupUdp_of_regs (hr : t = { s with regs := t.regs }) (hk : t.rd pDbk O.DBK_KSEL = s.rd pDbk O.DBK_KSEL) (i vid : Nat)
    (u : Udp) : t.lookupUdp i vid u = s.lookupUdp i vid u := by
  have table : ∀ kt key, t.lookup i kt key = s.lookup i kt key := fun kt key => by rw [hr]; rfl
  have keys : ∀ lo, t.fld pDbk O.DBK_KSEL lo 4 = s.fld pDbk O.DBK_KSEL lo 4 := fun lo => fld_of_rd lo 4 hk
  simp only [lookupUdp, keyVid_of_ksel hk, keys, table]

theorem lookupCtl_of_regs (hr : t = { s with regs := t.regs }) (hk : t.rd pDbk O.DBK_KSEL = s.rd pDbk O.DBK_KSEL)
    (i vid et : Nat) (f : List Byte) : t.lookupCtl i vid et f = s.lookupCtl i vid et f := by
  have table : ∀ kt key, t.lookup i kt key = s.lookup i kt key := fun kt key => by rw [hr]; rfl
  rw [lookupCtl, lookupCtl, keyVid_of_ksel hk, fld_of_rd 16 4 hk, table]

end

section
variable (s : State) (i : Nat) (x : RxFrame)

theorem rd_cfg_frameCounted : (s.frameCounted i x).rd (netPage i) (netReg O.NET_MAC_CFG i)
    = s.rd (netPage i) (netReg O.NET_MAC_CFG i) := (pageRegs_frameCounted s i x).rd_net (by decide) (by decide)

theorem lookupUdp_frameCounted (vid : Nat) (u : Udp) : (s.frameCounted i x).lookupUdp i vid u = s.lookupUdp i vid u :=
  lookupUdp_of_regs (pageRegs_frameCounted s i x).rest ((pageRegs_frameCounted s i x).rd_low (by decide) (by decide)) ..

theorem frameClass_frameCounted (f : List Byte) : (s.frameCounted i x).frameClass i f = s.frameClass i f := by
  have regs := pageRegs_frameCounted s i x
  have ctl := lookupCtl_of_regs regs.rest (regs.rd_low (by decide) (by decide)) i
  simp only [frameClass, bit, rd_cfg_frameCounted, lookupUdp_frameCounted, ctl]

theorem fits_frameCounted : ingressFits x ((s.frameCounted i x).frameClass i x.bytes) x.bytes.length
    = ingressFits x (s.frameClass i x.bytes) x.bytes.length := by rw [frameClass_frameCounted]

theorem running_frameCounted : (s.frameCounted i x).running pDbk = s.running pDbk := by
  rw [running, running, pstate_of_rd ((pageRegs_frameCounted s i x).rd_low (by decide) (by decide))]

theorem addressed_frameCounted : (s.frameCounted i x).Addressed i x ↔ s.Addressed i x := by
  have addr := (pageRegs_fecCounted s i x (offs := rxCounters) (by decide) (by decide)).rd64_net (a := O.NET_MAC_ADDR_LO)
    (by decide) (by decide) (by decide)
  rw [Addressed, Addressed, bit, rd_cfg_frameCounted, rd64_addr_frameCounted, addr, bit]

end

/-! ## A frame counted by its check -/

/-- What a dropped frame leaves: one more in the counter at `off`, and nothing but the port's registers changed. -/
def Dropped (s t : State) (i off : Nat) : Prop :=
  t.rd (netPage i) off = (s.rd (netPage i) off + 1) % 2 ^ 32 ∧ t = { s with regs := t.regs } ∧ memSame s t
    ∧ regsSame (fun p _ => decide (p = netPage i)) s t

theorem Dropped.pending {s t : State} {i off : Nat} (h : Dropped s t i off) :
    Dropped s { t with pending := s.pending } i off := by
  obtain ⟨count, rest, mems, regs⟩ := h
  exact ⟨count, congrArg (fun u : State => { u with pending := s.pending }) rest, mems, regs⟩

/-- A drop is counted in a register that the counts before it leave alone. -/
theorem dropped_incr {s w : State} {i off : Nat} (h : PageRegs (netPage i) (netRegs rxCounters i) s w) (ho : off < 0x10000)
    (hc : off ∉ netRegs rxCounters i) : Dropped s (w.incr (netPage i) off) i off := by
  have regs := (h.mono (offs' := off :: netRegs rxCounters i) fun _ hm => List.mem_cons_of_mem _ hm).trans
    (.wr w (w.rd (netPage i) off + 1) List.mem_cons_self ho)
  refine ⟨?_, regs.rest, memSame_of_mems regs.mems, fun p o ho' hp => regs.regs p o ho' fun e => absurd hp (by simp [e])⟩
  rw [rd_incr_same, h.regs _ _ ho fun _ => hc]

/-- The same, for a counter of the MAC's own block. -/
theorem dropped_incr_net {s w : State} {i a : Nat} (h : PageRegs (netPage i) (netRegs rxCounters i) s w) (ha : a < 0x1000)
    (hc : a ∉ rxCounters) : Dropped s (w.incr (netPage i) (netReg a i)) i (netReg a i) :=
  dropped_incr h (netReg_lt i ha) fun hm => hc (netReg_mem_netRegs.mp hm)

/-- A frame stays counted in RX_FRAMES by whatever leaves the two halves of the counter alone. -/
theorem frames_of_rd {s t : State} {i : Nat} (x : RxFrame)
    (hlo : t.rd (netPage i) (netReg O.NET_RX_FRAMES_LO i) = (s.frameCounted i x).rd (netPage i) (netReg O.NET_RX_FRAMES_LO i))
    (hhi : t.rd (netPage i) (netReg O.NET_RX_FRAMES_HI i) = (s.frameCounted i x).rd (netPage i) (netReg O.NET_RX_FRAMES_HI i)) :
    t.rd64 (netPage i) (netReg O.NET_RX_FRAMES_LO i) = (s.rd64 (netPage i) (netReg O.NET_RX_FRAMES_LO i) + 1) % 2 ^ 64 := by
  rw [← rd64_frames_frameCounted s i x, rd64, rd64, netReg_add, hlo, hhi]

theorem frames_incr {s : State} {i off : Nat} (x : RxFrame) (hlo : netReg O.NET_RX_FRAMES_LO i ≠ off)
    (hhi : netReg O.NET_RX_FRAMES_HI i ≠ off) :
    ((s.frameCounted i x).incr (netPage i) off).rd64 (netPage i) (netReg O.NET_RX_FRAMES_LO i)
      = (s.rd64 (netPage i) (netReg O.NET_RX_FRAMES_LO i) + 1) % 2 ^ 64 :=
  frames_of_rd x (rd_wr_off _ _ hlo) (rd_wr_off _ _ hhi)

end State
end Sys2Proof.Machine
end

section
/-! PROOFS. O25, the Debarker: a frame for the slow path, and one that a rule drops (R101, R106, R107). -/
namespace Sys2Proof.Machine

/-- A run of bytes read clear of where another was written. -/
theorem sgetList_ssetList_other {α : Type} [DecidableEq α] (d : Nat → α) (m : Store α) {k k' n : Nat} {l : List α}
    (h : k' + n ≤ k ∨ k + l.length ≤ k') : sgetList d (ssetList d m k l) k' n = sgetList d m k' n := by
  refine List.map_congr_left fun i hi => ?_
  have := List.mem_range.mp hi
  rw [sget_ssetList, if_neg (by omega)]

namespace State

/-! ## Registers of a slow-path queue -/

theorem spr_ne {a b : Nat} (q : Nat) (h : a ≠ b) : spr a q ≠ spr b q := fun e => h (Nat.add_right_cancel e)

theorem spr_lt {a q : Nat} (ha : a < 0x4000) (hq : q < 16) : spr a q < 0x10000 := by
  simp only [spr]
  omega

theorem le_spr {a : Nat} (q : Nat) (ha : 0x1000 ≤ a) : 0x1000 ≤ spr a q := ha.trans (Nat.le_add_right ..)

/-- Requests made only on a condition. -/
theorem Signals.ite {p : Nat} {s t u : State} {c : Prop} [Decidable c] (ht : Signals p s t) (hu : Signals p s u) :
    Signals p s (if c then t else u) := by
  split
  · exact ht
  · exact hu

/-- The message of a queue, or none. -/
theorem signals_spSignal (s : State) (q : Nat) : Signals pDbk s (s.spSignal q) := by
  unfold spSignal
  exact .ite (signals_sendVector _ _ _ (bitsOf_lt _ _ _)) (.refl ..)

theorem length_metaBytes (m : Meta) (phase trunc : Bool) (reason sub len : Nat) :
    (metaBytes m phase trunc reason sub len).length = 32 := by
  simp only [metaBytes, List.length_append, length_leBytes]

/-- Bytes of a slot of the queue. -/
def spSlot (s : State) (q : Nat) : Nat := 2048 * 2 ^ s.fld pDbk (spr O.DBK_SPQ_CFG q) 4 2

/-- Slot that the next frame of the queue takes. -/
def spTail (s : State) (q : Nat) : Nat := s.fld pDbk (spr O.DBK_SPQ_STAT q) 0 16

/-- Host address of that slot. -/
def spAddr (s : State) (q : Nat) : Nat :=
  s.rd64 pDbk (spr O.DBK_SPQ_BASE_LO q) / 4096 * 4096 + s.spTail q * s.spSlot q

theorem le_spSlot (s : State) (q : Nat) : 2048 ≤ s.spSlot q := Nat.le_mul_of_pos_right _ (by positivity)

/-- The ring has at most 2¹⁵ slots. -/
theorem mod_spSize_lt (s : State) (q n : Nat) : n % s.spSize q < 2 ^ 16 := by
  have size : s.spSize q ≤ 2 ^ 15 := Nat.pow_le_pow_right (by decide) (Nat.le_of_lt_succ (bitsOf_lt _ 0 4))
  have pos : 0 < s.spSize q := Nat.pow_pos (by decide)
  exact (Nat.mod_lt n pos).trans (by omega)

/-- What decides where a frame of a slow-path queue goes: the queue is enabled and has room, and host memory can be reached. -/
structure SlotFree (s : State) (q : Nat) : Prop where
  en : s.bit pDbk (spr O.DBK_SPQ_CFG q) 31 = true
  room : (s.spTail q + 1) % s.spSize q ≠ s.fld pDbk (spr O.DBK_SPQ_HEAD q) 0 16
  host : s.hostReady = true

/-- `t` sees the queue as `s` does, and host memory with it. -/
structure SameQueue (q : Nat) (s t : State) : Prop where
  reg : ∀ a, 0x1000 ≤ a → a < 0x4000 → t.rd pDbk (spr a q) = s.rd pDbk (spr a q)
  host : t.host = s.host
  ready : t.hostReady = s.hostReady

namespace SameQueue

variable {q : Nat} {s t : State}

/-- Registers of the ports, and of the Debarker before its queues' own, leave the queue alone. -/
theorem ofRegs {p : Nat} {offs : List Nat} (hq : q < 16) (h : PageRegs p offs s t) (hp : pNet ≤ p)
    (hstd : p ≠ pStd) (hd : p = pDbk → ∀ off ∈ offs, off < 0x1000) : SameQueue q s t := by
  have hif : pHif ≠ p := by rintro rfl; exact absurd hp (by decide)
  refine ⟨fun a ha ha' => h.regs _ _ (spr_lt ha' hq) fun e hm => ?_, (congrArg State.host h.rest).trans rfl, ?_⟩
  · have := hd e.symm _ hm
    have := le_spr q ha
    omega
  · exact hostReady_congr ((congrArg State.flt h.rest).trans rfl) (h.regs _ _ (by decide) fun e => absurd e.symm hstd)
      (h.regs _ _ (by decide) fun e => absurd e hif)

variable (h : SameQueue q s t)
include h

theorem slot : t.spSlot q = s.spSlot q := congrArg (2048 * 2 ^ ·) (fld_of_rd _ _ (h.reg _ (by decide) (by decide)))
theorem tail : t.spTail q = s.spTail q := fld_of_rd _ _ (h.reg _ (by decide) (by decide))
theorem size : t.spSize q = s.spSize q := congrArg (2 ^ ·) (fld_of_rd _ _ (h.reg _ (by decide) (by decide)))

theorem addr : t.spAddr q = s.spAddr q := by
  have hi : spr O.DBK_SPQ_BASE_LO q + 4 = spr O.DBK_SPQ_BASE_HI q := Nat.add_right_comm ..
  have base : t.rd64 pDbk (spr O.DBK_SPQ_BASE_LO q) = s.rd64 pDbk (spr O.DBK_SPQ_BASE_LO q) := by
    rw [rd64, rd64, hi, h.reg _ (by decide) (by decide), h.reg _ (by decide) (by decide)]
  rw [spAddr, spAddr, base, h.tail, h.slot]

theorem slotFree (hs : s.SlotFree q) : t.SlotFree q := by
  refine ⟨?_, ?_, h.ready.trans hs.host⟩
  · rw [bit_of_rd 31 (h.reg _ (by decide) (by decide)), hs.en]
  · rw [h.tail, h.size, fld_of_rd 0 16 (h.reg _ (by decide) (by decide))]
    exact hs.room

end SameQueue

theorem hostByte_of_host {s t : State} (h : t.host = s.host) (x : Nat) : t.hostByte x = s.hostByte x := by
  rw [hostByte, hostByte, h]

/-- What a frame filed in a slot leaves: the frame behind its metadata, nothing else of memory touched, the tail moved and the
frame counted. -/
structure Filed (s t : State) (q : Nat) (f : List Byte) : Prop where
  frame : t.hostBytes (s.spAddr q + 32) (min (s.spSlot q - 32) f.length) = f.take (s.spSlot q - 32)
  tail : t.spTail q = (s.spTail q + 1) % s.spSize q
  count : t.rd pDbk (spr O.DBK_SPQ_FRAMES q) = (s.rd pDbk (spr O.DBK_SPQ_FRAMES q) + 1) % 2 ^ 32
  host : ∀ x, x < s.spAddr q ∨ s.spAddr q + s.spSlot q ≤ x → t.hostByte x = s.hostByte x
  hbm : t.hbm = s.hbm

/-- The same, seen from a state that holds the same queue. -/
theorem Filed.of_same {s w t : State} {q : Nat} {f : List Byte} (h : Filed w t q f) (same : SameQueue q s w)
    (hbm : w.hbm = s.hbm) : Filed s t q f where
  frame := same.addr ▸ same.slot ▸ h.frame
  tail := by rw [h.tail, same.tail, same.size]
  count := by rw [h.count, same.reg _ (by decide) (by decide)]
  host x hx := (h.host x (by rw [same.addr, same.slot]; exact hx)).trans (hostByte_of_host same.host x)
  hbm := h.hbm.trans hbm

/-- The slot written: the frame, cut to the slot, then its metadata. -/
def slotWritten (s : State) (q : Nat) (md f : List Byte) : State :=
  (s.setHost (s.spAddr q + 32) (f.take (s.spSlot q - 32))).setHost (s.spAddr q) md

/-- The slot given to the host: STAT with the new tail, and the frame counted. -/
def slotPassed (w : State) (q : Nat) (phase : Bool) (nx : Nat) : State :=
  (w.wr pDbk (spr O.DBK_SPQ_STAT q) (b2n phase * 2 ^ 31 + nx)).incr pDbk (spr O.DBK_SPQ_FRAMES q)

theorem mems_slotPassed (w : State) (q : Nat) (phase : Bool) (nx : Nat) : (w.slotPassed q phase nx).mems = w.mems :=
  (mems_wr ..).trans (mems_wr ..)

theorem spDeliver_of_free {s w : State} {q reason sub : Nat} {m : Meta} {f : List Byte}
    (hw : w = s.incr pDbk (O.DBK_SLOW_CNT + (m.inst * 16 + reason) * 4)) (hf : w.SlotFree q) :
    ∃ md phase, md.length = 32 ∧ Signals pDbk ((w.slotWritten q md f).slotPassed q phase ((w.spTail q + 1) % w.spSize q))
      (s.spDeliver q m reason sub f) := by
  obtain ⟨en, room, host⟩ := hf
  refine ⟨metaBytes m (w.bit pDbk (spr O.DBK_SPQ_STAT q) 31) (decide (w.spSlot q - 32 < f.length)) reason sub f.length,
    if (w.spTail q + 1) % w.spSize q = 0 then !w.bit pDbk (spr O.DBK_SPQ_STAT q) 31 else w.bit pDbk (spr O.DBK_SPQ_STAT q) 31,
    length_metaBytes .., ?_⟩
  have kept : ¬ ((!w.bit pDbk (spr O.DBK_SPQ_CFG q) 31) = true
      ∨ (w.fld pDbk (spr O.DBK_SPQ_STAT q) 0 16 + 1) % w.spSize q = w.fld pDbk (spr O.DBK_SPQ_HEAD q) 0 16
      ∨ (!w.hostReady) = true) := by
    simp only [en, host, Bool.not_true, Bool.false_eq_true, false_or, or_false]
    exact room
  unfold spDeliver
  simp only [← hw]
  rw [if_neg kept]
  exact .ite (signals_spSignal ..) (.refl ..)

theorem rd_slotWritten {w : State} {q p off : Nat} {md f : List Byte} (hp : p ≠ pHif) (ho : off < 0x10000) :
    (w.slotWritten q md f).rd p off = w.rd p off :=
  (rd_wr_other _ _ (regKey_ne_of_page ho (by decide) hp)).trans (rd_wr_other _ _ (regKey_ne_of_page ho (by decide) hp))

theorem hbm_slotWritten (w : State) (q : Nat) (md f : List Byte) : (w.slotWritten q md f).hbm = w.hbm := by
  rw [slotWritten, setHost_hbm, setHost_hbm]

theorem hostByte_slotWritten {w : State} {q x : Nat} {md f : List Byte} (hm : md.length = 32)
    (hx : x < w.spAddr q ∨ w.spAddr q + w.spSlot q ≤ x) : (w.slotWritten q md f).hostByte x = w.hostByte x := by
  have := w.le_spSlot q
  change sget _ (ssetList _ (ssetList _ w.host _ _) _ md) x = _
  rw [sget_ssetList, if_neg (by omega), sget_ssetList, if_neg (by rw [List.length_take]; omega)]
  rfl

theorem hostBytes_slotWritten {w : State} {q : Nat} {md f : List Byte} (hm : md.length = 32) :
    (w.slotWritten q md f).hostBytes (w.spAddr q + 32) (min (w.spSlot q - 32) f.length) = f.take (w.spSlot q - 32) := by
  change sgetList _ (ssetList _ (ssetList _ w.host _ _) _ md) _ _ = _
  rw [sgetList_ssetList_other _ _ (.inr (by omega))]
  exact sgetList_ssetList_of_length List.length_take

/-- A frame for a queue with a free slot is filed in it, and the registers of the other pages from the ports on stay. -/
theorem filed_spDeliver {s : State} {q reason : Nat} {m : Meta} (sub : Nat) (f : List Byte) (hq : q < 16) (hi : m.inst < 8)
    (hr : reason < 16) (hf : s.SlotFree q) :
    Filed s (s.spDeliver q m reason sub f) q f
      ∧ ∀ p off, pNet ≤ p → p ≠ pDbk → off < 0x10000 → off ≠ O.INT_CAUSE →
        (s.spDeliver q m reason sub f).rd p off = s.rd p off := by
  have cnt : O.DBK_SLOW_CNT + (m.inst * 16 + reason) * 4 < 0x1000 := by
    simp only [O.DBK_SLOW_CNT]
    omega
  have regs : PageRegs pDbk [O.DBK_SLOW_CNT + (m.inst * 16 + reason) * 4] s
      (s.incr pDbk (O.DBK_SLOW_CNT + (m.inst * 16 + reason) * 4)) := .wr s _ (List.mem_singleton_self _) (by omega)
  generalize hw : s.incr pDbk (O.DBK_SLOW_CNT + (m.inst * 16 + reason) * 4) = w at regs
  have same : SameQueue q s w := .ofRegs hq regs (by decide) (by decide) fun _ off hm => by
    rw [List.mem_singleton.mp hm]
    exact cnt
  obtain ⟨md, phase, hmd, sig⟩ := spDeliver_of_free (sub := sub) (f := f) hw.symm (same.slotFree hf)
  generalize s.spDeliver q m reason sub f = t at sig
  have kept : ∀ a, 0x1000 ≤ a → a < 0x4000 → t.rd pDbk (spr a q)
      = ((w.slotWritten q md f).slotPassed q phase ((w.spTail q + 1) % w.spSize q)).rd pDbk (spr a q) := fun a ha ha' =>
    sig.reg _ _ (spr_lt ha' hq) (sigReg_of_ge (by decide) fun e => absurd (le_spr q ha) (by rw [e]; decide))
  have mems : t.mems = (w.slotWritten q md f).mems := (mems_of_signals sig).trans (mems_slotPassed ..)
  have host : t.host = (w.slotWritten q md f).host := congrArg (·.1) mems
  have hbm : t.hbm = w.hbm := (congrArg (·.2.1) mems).trans (hbm_slotWritten w q md f)
  refine ⟨⟨?_, ?_, ?_, fun x hx => ?_, ?_⟩, fun p off hp hd ho hc => ?_⟩
  · rw [hostBytes_of_host host, ← same.addr, ← same.slot, hostBytes_slotWritten hmd]
  · rw [spTail, fld_of_rd _ _ (kept _ (by decide) (by decide)), fld, slotPassed,
      incr, addReg, rd_wr_off _ _ (spr_ne q (by decide)), rd_wr_same, bitsOf_mod _ _ _ (by decide), same.tail, same.size]
    have := s.mod_spSize_lt q (s.spTail q + 1)
    simp only [bitsOf, Nat.shiftRight_zero]
    omega
  · rw [kept _ (by decide) (by decide), slotPassed, rd_incr_same, rd_wr_off _ _ (spr_ne q (by decide)),
      rd_slotWritten (by decide) (spr_lt (by decide) hq), same.reg _ (by decide) (by decide)]
  · rw [← same.addr, ← same.slot] at hx
    rw [hostByte_of_host host, hostByte_slotWritten hmd hx, hostByte_of_host same.host]
  · exact hbm.trans regs.hbm
  · have hif : p ≠ pHif := by rintro rfl; exact absurd hp (by decide)
    rw [sig.reg _ _ ho (sigReg_of_ge hp hc), slotPassed, incr, addReg,
      rd_wr_other _ _ (regKey_ne_of_page ho (spr_lt (by decide) hq) hd),
      rd_wr_other _ _ (regKey_ne_of_page ho (spr_lt (by decide) hq) hd), rd_slotWritten hif ho,
      regs.regs _ _ ho fun e => absurd e hd]

/-! ## What the Debarker makes of a frame (R92, R101) -/

theorem debark_of_slow {s : State} {i r : Nat} (m : Meta) {f : List Byte}
    (h : parseFrame (s.bit (netPage i) (netReg O.NET_MAC_CFG i) 29) f = .slow r) :
    s.debark i m f = s.spDeliver (s.instCfg i 16 4) m r 0 f := by
  unfold debark
  simp only [h]

theorem debark_of_rule {s : State} {i : Nat} (m : Meta) {f : List Byte} {u : Udp} {h : Hit}
    (hp : parseFrame (s.bit (netPage i) (netReg O.NET_MAC_CFG i) 29) f = .udp u)
    (hl : (s.lookupUdp i (((l2Parse f).map (·.2.2)).getD 0) u).1 = some h) :
    ∃ m', s.debark i m f = s.matched h m' f (some u.payload) := by
  unfold debark
  simp only [hp, hl]
  exact ⟨_, rfl⟩

/-- A DROP rule without a payload format, meter, copy or RED counts the frame, and that is all. -/
theorem matched_of_drop (s : State) {h : Hit} (m : Meta) (f p : List Byte) (hk : h.kind = 0) (hf : h.pfmt = 0)
    (hm : bitOf h.w12 18 = false) (hc : bitOf h.w12 19 = false) (hr : h.colour < 2) :
    s.matched h m f (some p) = s.addTab64 pDbk h.table (16 * h.entry + 14) 1 := by
  have sound : (payloadParse 0 p).1 = 0 := rfl
  have colour : ∀ u : State, u.colourOf h (f.length + 4) = (h.colour, u) := fun u => by
    rw [colourOf, if_neg (by simp [hm]), Nat.min_eq_right hr.le]
  have kept : ∀ (u : State) (m : Meta) r l n, m.colour = h.colour → u.actOn h m f r l n = u := fun u m r l n e => by
    simp [actOn, e, hr.ne, hk]
  unfold matched
  simp [hk, hf, sound, colour, hc, kept]

/-- What a counter of a rule leaves alone: registers, memory, Flumes and what leaves the engine. -/
def besideTables (s : State) : Store W32 × (Store Byte × Store Byte × Store Byte) × Store Flume × List Output :=
  (s.regs, s.mems, s.flumes, s.out)

theorem besideTables_setTab (s : State) (p k i v : Nat) : (s.setTab p k i v).besideTables = s.besideTables := rfl

theorem besideTables_addTab64 (s : State) (p k i n : Nat) : (s.addTab64 p k i n).besideTables = s.besideTables :=
  (besideTables_setTab ..).trans (besideTables_setTab ..)

theorem tab_of_one_copy (s : State) {p : Nat} (k i : Nat) (hp : p ≠ pLmp) : s.tab p k i = s.tabAt p k 0 i := by
  simp [tab, activeCopy, isStandby, hp]

theorem tab_of_tables {s t : State} (h : t.tables = s.tables) {p : Nat} (k i : Nat) (hp : p ≠ pLmp) :
    t.tab p k i = s.tab p k i := by
  rw [tab_of_one_copy t k i hp, tab_of_one_copy s k i hp, tabAt, tabAt, h]

/-- A counter in two words of a table of one copy: its low word holds the sum, modulo its width. -/
theorem tab_addTab64_same (s : State) {p : Nat} (k i n : Nat) (hp : p ≠ pLmp) :
    (s.addTab64 p k i n).tab p k i = (s.tab p k i + n) % 2 ^ 32 := by
  have apart : ¬ tabKey p k 0 i = tabKey p k 0 (i + 1) := by
    simp only [tabKey]
    omega
  rw [tab_of_one_copy _ _ _ hp]
  unfold addTab64
  generalize hv : s.tab p k i + s.tab p k (i + 1) * 2 ^ 32 + n = v
  simp only [setTab]
  rw [tabAt_setTabAt, if_neg apart, tabAt_setTabAt, if_pos rfl]
  omega

/-- A rule's counter moves in a state that differs in registers alone. -/
theorem ruleCounted_effect {s w t : State} {k j : Nat} (rest : w = { s with regs := w.regs })
    (ht : t = w.addTab64 pDbk k j 1) :
    (∀ p off, t.rd64 p off = w.rd64 p off) ∧ t.tab pDbk k j = (s.tab pDbk k j + 1) % 2 ^ 32 ∧ t.out = s.out
      ∧ t.flumes = s.flumes ∧ memSame s t := by
  have tab := tab_addTab64_same w (p := pDbk) k j 1 (by decide)
  have beside := besideTables_addTab64 w pDbk k j 1
  rw [← ht] at tab beside
  have same : w.tables = s.tables := (congrArg State.tables rest).trans rfl
  simp only [besideTables, Prod.mk.injEq] at beside
  obtain ⟨regs, mems, flumes, out⟩ := beside
  refine ⟨fun p off => ?_, ?_, out.trans ((congrArg State.out rest).trans rfl),
    flumes.trans ((congrArg State.flumes rest).trans rfl),
    memSame_of_mems (mems.trans ((congrArg State.mems rest).trans rfl))⟩
  · rw [rd64, rd64, rd_of_regs _ regs, rd_of_regs _ regs]
  · rw [tab, tab_of_tables same _ _ (by decide)]

end State
end Sys2Proof.Machine
end

section
/-! PROOFS. O25, FRAME_RECEIVED: what the frames that fail a check leave, and those that go on. -/
namespace Sys2Proof.Machine
namespace State

/-- The MAC receives: its port runs, and it exists and is enabled. -/
def InUse (s : State) (i : Fin 8) : Prop :=
  s.alive .net = true ∧ s.running (netPage i) = true ∧ s.instExists i = true
    ∧ s.bit (netPage i) (netReg O.NET_MAC_CFG i) 31 = true

theorem frameReceived_next {s : State} {i : Fin 8} {x : RxFrame} {P : State → Prop} (h : s.InUse i)
    (hP : ∀ u, u = s.rxFrame i x → P { u with pending := s.pending }) :
    ∃ t, exec (.frameReceived i x) s = .next t ∧ P t := by
  obtain ⟨alive, run, inst, en⟩ := h
  exact act_next alive fun u hu => hP u (hu.trans (if_pos (by rw [run, inst, en]; rfl)))

section
variable {s : State} {i : Fin 8} {x : RxFrame}

theorem dropped_of_badFcs (i : Fin 8) (h : x.fcsOk = false) : Dropped s (s.rxFrame i x) i (netReg O.NET_RX_FCS_ERR i) := by
  rw [rxFrame_of_badFcs h]
  exact dropped_incr_net (pageRegs_fecCounted s i x (by decide) (by decide)) (by decide) (by decide)

theorem dropped_of_badLength (h : x.fcsOk = true) (hs : ¬ s.SoundFrame i x) :
    Dropped s (s.rxFrame i x) i (netReg O.NET_RX_SIZE_ERR i) := by
  rw [rxFrame_of_badLength h hs]
  exact dropped_incr_net (pageRegs_fecCounted s i x (by decide) (by decide)) (by decide) (by decide)

theorem dropped_of_stopped (hs : s.SoundFrame i x) (hc : be16 x.bytes 12 ≠ 0x8808) (hf : s.Addressed i x)
    (hr : s.running pDbk = false) :
    (s.rxFrame i x).rd64 (netPage i) (netReg O.NET_RX_FRAMES_LO i)
        = (s.rd64 (netPage i) (netReg O.NET_RX_FRAMES_LO i) + 1) % 2 ^ 64
      ∧ Dropped s (s.rxFrame i x) i O.NET_RX_DBK_DROP := by
  rw [rxFrame_of_sound hs, filterFrame_of_stopped hc ((addressed_frameCounted s i x).mpr hf)
    ((running_frameCounted s i x).trans hr)]
  exact ⟨frames_incr x (netReg_ne_of_lt i (by decide)) (netReg_ne_of_lt i (by decide)),
    dropped_incr (pageRegs_frameCounted s i x) (by decide) fun hm =>
      absurd (le_of_mem_netRegs (by decide : ∀ a ∈ rxCounters, 0x900 ≤ a) hm) (by decide)⟩

/-- A frame that the ingress buffer has no room for is counted and sets the cause, and memory stays. -/
theorem rxFrame_effect_of_full (hs : s.SoundFrame i x) (hc : be16 x.bytes 12 ≠ 0x8808) (hf : s.Addressed i x)
    (hr : s.running pDbk = true) (hfit : ingressFits x (s.frameClass i x.bytes) x.bytes.length = false) :
    let t := s.rxFrame i x
    t.rd64 (netPage i) (netReg O.NET_RX_FRAMES_LO i) = (s.rd64 (netPage i) (netReg O.NET_RX_FRAMES_LO i) + 1) % 2 ^ 64
      ∧ t.rd (netPage i) (netReg O.NET_RX_OVF i) = (s.rd (netPage i) (netReg O.NET_RX_OVF i) + 1) % 2 ^ 32
      ∧ t.bit (netPage i) O.INT_CAUSE 4 = true ∧ memSame s t := by
  rw [rxFrame_of_sound hs, filterFrame_of_full hc ((addressed_frameCounted s i x).mpr hf)
    ((running_frameCounted s i x).trans hr) ((fits_frameCounted s i x).trans hfit)]
  have frames := frames_incr (s := s) (i := i) x (off := netReg O.NET_RX_OVF i) (netReg_ne i (by decide))
    (netReg_ne i (by decide))
  obtain ⟨count, rest, _⟩ := dropped_incr_net (pageRegs_frameCounted s i x) (a := O.NET_RX_OVF) (by decide) (by decide)
  generalize (s.frameCounted i x).incr (netPage i) (netReg O.NET_RX_OVF i) = w at frames count rest
  have net : ∀ a, 0x900 ≤ a → a < 0x1000 → (w.setCause (netPage i) 0x10).rd (netPage i) (netReg a i)
      = w.rd (netPage i) (netReg a i) := fun a ha ha' =>
    rd_setCause_other (netReg_lt i ha') (sigReg_of_ge (netPage_bounds i).1
      (netReg_ne_of_lt i (Nat.lt_of_lt_of_le (by decide) ha)))
  refine ⟨?_, (net _ (by decide) (by decide)).trans count, ?_, memSame_of_mems ((setCause_mems ..).trans ?_)⟩
  · rw [rd64, netReg_add, net _ (by decide) (by decide), net _ (by decide) (by decide), ← netReg_add]
    exact frames
  · rw [bit_setCause _ _ (netPage_ne_eic i) (by decide)]
    exact Bool.or_true _
  · rw [rest, mems_setRegs]

variable (hs : s.SoundFrame i x) (hc : be16 x.bytes 12 ≠ 0x8808) (hf : s.Addressed i x) (hr : s.running pDbk = true)
  (hfit : ingressFits x (s.frameClass i x.bytes) x.bytes.length = true)
include hs hc hf hr hfit

/-- A frame that goes on reaches the Debarker when it has been counted. -/
theorem rxFrame_of_taken : ∃ m : Meta, m.inst = i ∧ s.rxFrame i x = (s.frameCounted i x).debark i m x.bytes := by
  rw [rxFrame_of_sound hs]
  exact filterFrame_of_taken hc ((addressed_frameCounted s i x).mpr hf) ((running_frameCounted s i x).trans hr)
    ((fits_frameCounted s i x).trans hfit)

/-- A frame for the slow path is filed in its queue's next slot. -/
theorem rxFrame_effect_of_slow {r : Nat}
    (hp : parseFrame (s.bit (netPage i) (netReg O.NET_MAC_CFG i) 29) x.bytes = .slow r) (hr16 : r < 16)
    (hfree : s.SlotFree (s.instCfg i 16 4)) :
    (s.rxFrame i x).rd64 (netPage i) (netReg O.NET_RX_FRAMES_LO i)
        = (s.rd64 (netPage i) (netReg O.NET_RX_FRAMES_LO i) + 1) % 2 ^ 64
      ∧ Filed s (s.rxFrame i x) (s.instCfg i 16 4) x.bytes := by
  obtain ⟨m, hm, taken⟩ := rxFrame_of_taken hs hc hf hr hfit
  have regs := pageRegs_frameCounted s i x
  have hq : s.instCfg i 16 4 < 16 := bitsOf_lt _ _ _
  have cfg : (s.frameCounted i x).instCfg i 16 4 = s.instCfg i 16 4 :=
    fld_of_rd _ _ (regs.rd_low (by simp only [O.DBK_INST_CFG]; omega) (by decide))
  have same : SameQueue (s.instCfg i 16 4) s (s.frameCounted i x) := .ofRegs hq regs (netPage_bounds i).1
    (fun e => absurd (netPage_bounds i).2 (by rw [e]; decide)) fun e => absurd e.symm (netPage_ne_dbk i)
  rw [taken, debark_of_slow m (by rw [bit_of_rd _ (rd_cfg_frameCounted s i x)]; exact hp), cfg]
  obtain ⟨filed, net⟩ := filed_spDeliver (m := m) 0 x.bytes hq (hm ▸ i.isLt) hr16 (same.slotFree hfree)
  have kept := fun a (ha : 0x900 ≤ a) (ha' : a < 0x1000) => net _ _ (netPage_bounds i).1 (netPage_ne_dbk i).symm
    (netReg_lt i ha') (netReg_ne_of_lt i (Nat.lt_of_lt_of_le (by decide) ha))
  exact ⟨frames_of_rd x (kept _ (by decide) (by decide)) (kept _ (by decide) (by decide)), filed.of_same same regs.hbm⟩

/-- A frame that an unmetered DROP rule matches is counted by the rule and goes nowhere. -/
theorem rxFrame_of_drop {u : Udp} {h : Hit}
    (hp : parseFrame (s.bit (netPage i) (netReg O.NET_MAC_CFG i) 29) x.bytes = .udp u)
    (hl : (s.lookupUdp i (((l2Parse x.bytes).map (·.2.2)).getD 0) u).1 = some h) (hk : h.kind = 0) (hpf : h.pfmt = 0)
    (hme : bitOf h.w12 18 = false) (hco : bitOf h.w12 19 = false) (hre : h.colour < 2) :
    s.rxFrame i x = (s.frameCounted i x).addTab64 pDbk h.table (16 * h.entry + 14) 1 := by
  obtain ⟨m, -, taken⟩ := rxFrame_of_taken hs hc hf hr hfit
  obtain ⟨m', rule⟩ := debark_of_rule (s := s.frameCounted i x) m
    (by rw [bit_of_rd _ (rd_cfg_frameCounted s i x)]; exact hp) (by rw [lookupUdp_frameCounted]; exact hl)
  rw [taken, rule, matched_of_drop _ m' _ _ hk hpf hme hco hre]

end

end State
end Sys2Proof.Machine
end

section
/-! PROOFS. O25: links, the heads of the receive rings, and the settling of it. -/
namespace Sys2Proof.Machine
namespace State

/-! ## Links of a MAC (R86, R87) -/

/-- The MAC's three flags, before its cause. -/
def linkFlags (s : State) (i : Nat) (up lock ber : Bool) : State :=
  ((s.setBit (netPage i) O.NET_LINK_FLAGS (i % 4) up).setBit (netPage i) O.NET_LINK_FLAGS (4 + i % 4) lock).setBit (netPage i)
    O.NET_LINK_FLAGS (8 + i % 4) ber

section
variable (s : State) (i : Nat) (up lock ber : Bool)

theorem pageRegs_linkFlags : PageRegs (netPage i) [O.NET_LINK_FLAGS] s (s.linkFlags i up lock ber) := by
  have one : ∀ (t : State) b v, PageRegs (netPage i) [O.NET_LINK_FLAGS] t (t.setBit (netPage i) O.NET_LINK_FLAGS b v) :=
    fun t _ _ => .wr t _ (List.mem_singleton_self _) (by decide)
  exact (one ..).trans ((one ..).trans (one ..))

theorem bit_linkFlags : (s.linkFlags i up lock ber).bit (netPage i) O.NET_LINK_FLAGS (i % 4) = up
    ∧ (s.linkFlags i up lock ber).bit (netPage i) O.NET_LINK_FLAGS (4 + i % 4) = lock
    ∧ (s.linkFlags i up lock ber).bit (netPage i) O.NET_LINK_FLAGS (8 + i % 4) = ber := by
  have other : ∀ (t : State) (a b : Nat) v, a < 32 → a ≠ b →
      (t.setBit (netPage i) O.NET_LINK_FLAGS b v).bit (netPage i) O.NET_LINK_FLAGS a = t.bit (netPage i) O.NET_LINK_FLAGS a :=
    fun t a b v ha hab => bit_setFld_other t _ ha (by omega)
  refine ⟨?_, ?_, bit_setBit_same _ _ _ _ _ (by omega)⟩
  · rw [linkFlags, other _ _ _ _ (by omega) (by omega), other _ _ _ _ (by omega) (by omega),
      bit_setBit_same _ _ _ _ _ (by omega)]
  · rw [linkFlags, other _ _ _ _ (by omega) (by omega), bit_setBit_same _ _ _ _ _ (by omega)]

/-- A change of the link's own flag sets the MAC's cause. -/
theorem linkChange_eq : s.linkChange i up lock ber
    = if s.bit (netPage i) O.NET_LINK_FLAGS (i % 4) ≠ up then
        (s.linkFlags i up lock ber).setCause (netPage i) (2 ^ (8 + i % 4))
      else s.linkFlags i up lock ber := rfl

end

/-- Registers of a page changed, then requests of it: what the statements say of both together. -/
theorem regs_then_signals {p : Nat} {offs : List Nat} {s w t : State} (h : PageRegs p offs s w) (k : Signals p w t)
    {may : Nat → Nat → Bool} (hm : ∀ off ∈ offs, may p off = true) :
    t = sigRest s t ∧ t.mems = s.mems ∧ regsSame (fun q off => sigReg p q off || may q off) s t := by
  refine ⟨?_, (mems_of_signals k).trans h.mems, fun q off ho hn => ?_⟩
  · have e := k.rest
    rw [h.rest] at e
    exact e
  · obtain ⟨hs, hn⟩ := Bool.or_eq_false_iff.mp hn
    exact (k.reg q off ho hs).trans (h.regsSame hm q off ho hn)

theorem linkChange_effect (s : State) (i : Fin 8) (up lock ber : Bool) :
    let t := s.linkChange i up lock ber
    let flag := fun b => t.bit (netPage i) O.NET_LINK_FLAGS b
    (flag (i % 4) = up ∧ flag (4 + i % 4) = lock ∧ flag (8 + i % 4) = ber)
      ∧ t.bit (netPage i) O.INT_CAUSE (8 + i % 4)
        = (s.bit (netPage i) O.INT_CAUSE (8 + i % 4) || (s.bit (netPage i) O.NET_LINK_FLAGS (i % 4) != up))
      ∧ Signals (netPage i) (s.linkFlags i up lock ber) t := by
  have flags := bit_linkFlags s i up lock ber
  have regs := pageRegs_linkFlags s i up lock ber
  have cause : (s.linkFlags i up lock ber).rd (netPage i) O.INT_CAUSE = s.rd (netPage i) O.INT_CAUSE :=
    regs.regs _ _ (by decide) (by simp)
  rw [linkChange_eq]
  by_cases h : s.bit (netPage i) O.NET_LINK_FLAGS (i % 4) = up
  · rw [if_neg (not_not.mpr h)]
    exact ⟨flags, by simp [bit_of_rd _ cause, h], .refl ..⟩
  · rw [if_pos h]
    have same : ∀ b, ((s.linkFlags i up lock ber).setCause (netPage i) (2 ^ (8 + i.val % 4))).bit (netPage i)
        O.NET_LINK_FLAGS b = (s.linkFlags i up lock ber).bit (netPage i) O.NET_LINK_FLAGS b := fun b =>
      bit_of_rd b (rd_setCause_other (by decide) (sigReg_of_ge (netPage_bounds i).1 (by decide)))
    refine ⟨by simpa only [same] using flags, ?_, signals_setCause ..⟩
    rw [bit_setCause _ _ (netPage_ne_eic i) (by omega), bit_of_rd _ cause, bitOf, Nat.testBit_two_pow_self]
    simp [h]

/-! ## Heads of the receive rings (R107, R108) -/

theorem spHead_signals (s : State) (q v : Nat) :
    Signals pDbk (s.wr pDbk (spr O.DBK_SPQ_HEAD q) (v % 65536)) (s.spHead q v) := .ite (signals_spSignal ..) (.refl ..)

theorem mem_used_yrxFree (s : State) (b x : Nat) : x ∈ (s.yrxFree b).yrx.used ↔ x ∈ s.yrx.used ∧ x ≠ b := by
  simp [yrxFree]

end State

/-- Settles O25: a frame is counted by the first check it fails, and what goes on is filed in a slot or counted by its rule. -/
theorem networkPortsCountFramesAndLinks : Obligations.NetworkPortsCountFramesAndLinks := by
  unfold Obligations.NetworkPortsCountFramesAndLinks
  refine ⟨?_, ?_, ?_, ?_, ?_, ?_, ?_⟩
  · intro i x s huse
    refine State.frameReceived_next huse fun u hu => ?_
    have regs := State.pageRegs_frameCounted s i x
    have addressed := State.addressed_frameCounted s i x
    refine ⟨fun h => ?_, fun h hs => ?_, fun hs hc => ?_, fun hs hc hf => ?_,
      fun hs hc hf hr => ?_, fun hs hc hf hr hfit => ?_⟩
    · have drop := State.dropped_of_badFcs (s := s) i h
      rw [← hu] at drop
      exact drop.pending
    · have drop := State.dropped_of_badLength h hs
      rw [← hu] at drop
      exact drop.pending
    · have frames := State.frames_incr (s := s) (i := i) x (off := State.netReg O.NET_RX_MAC_CTL i)
        (State.netReg_ne i (by decide)) (State.netReg_ne i (by decide))
      have drop := State.dropped_incr_net regs (a := O.NET_RX_MAC_CTL) (by decide) (by decide)
      rw [← State.filterFrame_of_control hc, ← State.rxFrame_of_sound hs, ← hu] at frames drop
      exact ⟨frames, drop.pending⟩
    · have frames := State.frames_incr (s := s) (i := i) x (off := State.netReg O.NET_RX_DA_DROP i)
        (State.netReg_ne i (by decide)) (State.netReg_ne i (by decide))
      have drop := State.dropped_incr_net regs (a := O.NET_RX_DA_DROP) (by decide) (by decide)
      rw [← State.filterFrame_of_other hc (mt addressed.mp hf), ← State.rxFrame_of_sound hs, ← hu] at frames drop
      exact ⟨frames, drop.pending⟩
    · have effect := State.dropped_of_stopped hs hc hf hr
      rw [← hu] at effect
      exact ⟨effect.1, effect.2.pending⟩
    · have effect := State.rxFrame_effect_of_full hs hc hf hr hfit
      rw [← hu] at effect
      exact effect
  · intro i x r s huse hs hc hf hr hfit hp
    simp only
    intro hen hhost hr16 hroom
    refine State.frameReceived_next huse fun u hu => ?_
    have effect := State.rxFrame_effect_of_slow hs hc hf hr hfit hp hr16 ⟨hen, hroom, hhost⟩
    rw [← hu] at effect
    obtain ⟨frames, filed⟩ := effect
    exact ⟨frames, filed.frame, filed.tail, filed.count, filed.host, fun a => congrArg (sget (fun _ => 0) · a) filed.hbm⟩
  · intro i x v h s huse hs hc hf hr hfit hp hl hk hpf hme hco hre
    refine State.frameReceived_next huse fun u hu => ?_
    obtain ⟨rd64, effect⟩ := State.ruleCounted_effect (State.pageRegs_frameCounted s i x).rest
      (hu.trans (State.rxFrame_of_drop hs hc hf hr hfit hp hl hk hpf hme hco hre))
    exact ⟨(rd64 ..).trans (State.rd64_frames_frameCounted s i x), effect⟩
  · intro i up lock ber s ha hr he
    change ∃ t, act .net (fun s => when (s.running (State.netPage i) && s.instExists i) (·.linkChange i up lock ber) s) s
      = .next t ∧ _
    refine act_next ha fun u hu => ?_
    rw [hr, he] at hu
    obtain ⟨⟨hup, hlock, hber⟩, cause, sig⟩ := State.linkChange_effect s i up lock ber
    rw [← show u = s.linkChange i up lock ber from hu] at hup hlock hber cause sig
    obtain ⟨rest, mems, regs⟩ := State.regs_then_signals (State.pageRegs_linkFlags s i up lock ber) sig
      (may := fun p off => decide (p = State.netPage i) && decide (off = O.NET_LINK_FLAGS)) (by simp)
    exact ⟨hup, hlock, hber, cause, congrArg (fun u => { u with pending := s.pending }) rest,
      State.memSame_of_mems mems, regs⟩
  · intro q v s ha
    change ∃ t, access (·.spHead q v.toNat) s = .next t ∧ _
    refine access_next ha fun u hu => ?_
    have head := State.spHead_signals s q v.toNat
    rw [← hu] at head
    have lt : State.spr O.DBK_SPQ_HEAD q < 0x10000 := State.spr_lt (by decide) q.isLt
    have own := head.reg pDbk _ lt (State.sigReg_of_ge (by decide) fun e =>
      absurd (State.le_spr (a := O.DBK_SPQ_HEAD) q (by decide)) (by rw [e]; decide))
    obtain ⟨rest, mems, regs⟩ := State.regs_then_signals (.wr s _ (List.mem_singleton_self _) lt) head
      (may := fun p off => decide (p = pDbk) && decide (off = State.spr O.DBK_SPQ_HEAD q)) (by simp)
    refine ⟨?_, congrArg (fun u => { u with pending := s.pending }) rest, State.memSame_of_mems mems, regs⟩
    exact own.trans ((State.rd_wr_same ..).trans (Nat.mod_eq_of_lt ((Nat.mod_lt _ (by decide)).trans (by decide))))
  · intro s ha
    change ∃ t, access (fun s => (s.emit (.readData (BitVec.ofNat 64 s.yrxHead))).yrxPop) s = .next t ∧ _
    refine access_next ha fun u hu => ?_
    subst hu
    exact ⟨rfl, rfl, rfl, State.memSame_of_mems rfl⟩
  · intro v s ha
    change ∃ t, access (·.yrxFree (bitsOf v.toNat 0 6)) s = .next t ∧ _
    refine access_next ha fun u hu => ?_
    have used := State.mem_used_yrxFree s (bitsOf v.toNat 0 6)
    rw [← hu] at used
    refine ⟨fun h => ((used _).mp h).2 rfl, fun b hb => (used b).trans (and_iff_left hb), ?_, ?_, ?_⟩
    · rw [hu]; rfl
    · rw [hu]; rfl
    · rw [hu]; exact State.memSame_of_mems rfl

end Sys2Proof.Machine
end

section
/-! PROOFS. O23: what each consumer operation of Table 5.8 does to a Flume's positions, and what it leaves of everything
else. -/
namespace Sys2Proof.Machine
namespace State

/-! ## Changes of one Flume and of registers of its block -/

/-- `t` is `s` but for the registers `offs` of the block of Flume `c`, and for Flumes; none takes in a packet, and `c`
holds the Kerf that it held. -/
structure FlumeKept (c : Nat) (offs : List Nat) (s t : State) : Prop where
  rest : t = { s with regs := t.regs, flumes := t.flumes }
  regs : ∀ q off, off < 0x10000 → (q = pFlm → off ∉ offs.map (flr · c)) → t.rd q off = s.rd q off
  held : (t.flm c).held = (s.flm c).held
  pks : ∀ k, ∀ m ∈ (t.flm k).pks, m ∈ (s.flm k).pks

theorem flm_setFlm_other (s : State) {c k : Nat} (f : Flume) (h : k ≠ c) : (s.setFlm c f).flm k = s.flm k :=
  sget_sset_other _ _ _ h

theorem flr_inj {a b c : Nat} (h : flr a c = flr b c) : a = b := Nat.add_right_cancel h

theorem fstat_setFlm (s : State) (c : Nat) (f : Flume) (b : Nat) : (s.setFlm c f).fstat c b = s.fstat c b := rfl

/-- The positions and the status of a Flume. -/
def flumeRegs : List Nat := [O.FLM_WR, O.FLM_COMMIT, O.FLM_RD, O.FLM_BLAZE, O.FLM_REL, O.FLM_HWM, O.FLM_FSTAT]

theorem flr_lt_of_mem {a c : Nat} (hc : c < 512) (ha : a ∈ flumeRegs) : flr a c < 0x10000 :=
  flr_lt ((by decide : ∀ a ∈ flumeRegs, a < 0x2020) a ha) hc

namespace FlumeKept

variable {c : Nat} {offs : List Nat} {s t u : State}

theorem refl (c : Nat) (offs : List Nat) (s : State) : FlumeKept c offs s s := ⟨rfl, fun _ _ _ _ => rfl, rfl, fun _ _ => id⟩

theorem trans (h : FlumeKept c offs s t) (k : FlumeKept c offs t u) : FlumeKept c offs s u := by
  refine ⟨?_, fun q off ho hq => (k.regs q off ho hq).trans (h.regs q off ho hq), k.held.trans h.held,
    fun i m hm => h.pks i m (k.pks i m hm)⟩
  have e := k.rest
  rw [h.rest] at e
  exact e

theorem ite {p : Prop} [Decidable p] (h : FlumeKept c offs s t) (k : FlumeKept c offs s u) :
    FlumeKept c offs s (if p then t else u) := by
  split
  · exact h
  · exact k

theorem wr (s : State) {a : Nat} (v : Nat) (hm : a ∈ offs) (ho : flr a c < 0x10000) :
    FlumeKept c offs s (s.wr pFlm (flr a c) v) :=
  ⟨rfl, (PageRegs.wr (p := pFlm) (offs := offs.map (flr · c)) s v (List.mem_map_of_mem hm) ho).regs, rfl, fun _ _ => id⟩

theorem setFlm (s : State) (f : Flume) (hh : f.held = (s.flm c).held) (hp : ∀ m ∈ f.pks, m ∈ (s.flm c).pks) :
    FlumeKept c offs s (s.setFlm c f) := by
  refine ⟨rfl, fun _ _ _ _ => rfl, by rw [flm_setFlm_same, hh], fun k m hm => ?_⟩
  by_cases e : k = c
  · subst e
    rw [flm_setFlm_same] at hm
    exact hp m hm
  · rwa [flm_setFlm_other s f e] at hm

variable (h : FlumeKept c offs s t)
include h

theorem mems : t.mems = s.mems := (congrArg State.mems h.rest).trans rfl
theorem ctxs : t.ctxs = s.ctxs := (congrArg State.ctxs h.rest).trans rfl
theorem hbm : t.hbm = s.hbm := (congrArg State.hbm h.rest).trans rfl

/-- A register of the block that is none of those named. -/
theorem block {a : Nat} (hc : c < 512) (ha : a ∈ flumeRegs) (hn : a ∉ offs) :
    t.rd pFlm (flr a c) = s.rd pFlm (flr a c) := by
  refine h.regs _ _ (flr_lt_of_mem hc ha) fun _ hm => ?_
  obtain ⟨b, hb, e⟩ := List.mem_map.mp hm
  exact hn (flr_inj e ▸ hb)

theorem fpos {a : Nat} (hc : c < 512) (ha : a ∈ flumeRegs) (hn : a ∉ offs) : t.fpos a c = s.fpos a c := h.block hc ha hn

theorem fstat (b : Nat) (hc : c < 512) (hn : O.FLM_FSTAT ∉ offs) : t.fstat c b = s.fstat c b :=
  bit_of_rd b (h.block hc (by decide) hn)

end FlumeKept

/-! ## The operations of Table 5.8 -/

/-- RD has moved since the last check for STALE. -/
def markMoved (s : State) (c : Nat) : State := s.setFlm c { s.flm c with moved := true }

/-- RD takes a value, and HWM follows it. -/
def rdSet (s : State) (c rd : Nat) : State :=
  if dist rd ((s.setFpos O.FLM_RD c rd).fpos O.FLM_HWM c) < 2 ^ 31 then
    (s.setFpos O.FLM_RD c rd).setFpos O.FLM_HWM c rd
  else s.setFpos O.FLM_RD c rd

/-- The packets that a Flume still holds once REL stands at `p`. -/
def freed (s : State) (c p rel : Nat) : State :=
  s.setFlm c { s.flm c with pks := (s.flm c).pks.filter fun m => decide (dist p rel < dist (m.start + m.staves) rel) }

section
variable (s : State) (c : Nat)

theorem moveRd_eq (rd : Nat) :
    s.moveRd c rd = if rd = s.fpos O.FLM_RD c then s.rdSet c rd else (s.rdSet c rd).markMoved c := rfl

theorem fpos_markMoved (a : Nat) : (s.markMoved c).fpos a c = s.fpos a c := fpos_setFlm ..

theorem fpos_ite_markMoved (p : Prop) [Decidable p] (a : Nat) :
    (if p then s else s.markMoved c).fpos a c = s.fpos a c :=
  ite_keeps (fun t : State => t.fpos a c) rfl (fpos_markMoved ..)

theorem flumeKept_markMoved {offs : List Nat} : FlumeKept c offs s (s.markMoved c) := .setFlm s _ rfl fun _ => id

theorem flumeKept_freed {offs : List Nat} (p rel : Nat) : FlumeKept c offs s (s.freed c p rel) :=
  .setFlm s _ rfl fun _ => List.mem_of_mem_filter

/-- REWIND moves RD to the Blaze, and counts as a move even where RD stands there. -/
theorem flumeRewind_eq (h : s.fstat c 30 = true) :
    s.flumeRewind c = some ((s.moveRd c (s.fpos O.FLM_BLAZE c)).markMoved c) := if_pos h

/-- RELEASE of staves that have been read, with no Kerf held. -/
theorem flumeRelease_eq {p : Nat} (hh : (s.flm c).held = none)
    (hr : dist p (s.fpos O.FLM_REL c) ≤ dist (s.fpos O.FLM_RD c) (s.fpos O.FLM_REL c)) :
    s.flumeRelease c p = some (((if dist (s.fpos O.FLM_BLAZE c) (s.fpos O.FLM_REL c) < dist p (s.fpos O.FLM_REL c) then
      s.setFstat c 30 false else s).setFpos O.FLM_REL c p).freed c p (s.fpos O.FLM_REL c)) := by
  have flm : (if dist (s.fpos O.FLM_BLAZE c) (s.fpos O.FLM_REL c) < dist p (s.fpos O.FLM_REL c) then
      s.setFstat c 30 false else s).flm c = s.flm c := ite_keeps (fun t : State => t.flm c) (flm_setFstat ..) rfl
  unfold flumeRelease freed
  simp only
  rw [if_neg (not_lt.mpr hr), flm_setFpos, flm]
  simp only [hh]

end

section
variable (s : State) {c : Nat} (hc : c < 512)
include hc

theorem flumeKept_setFpos {offs : List Nat} {a : Nat} (v : Nat) (hm : a ∈ offs) (ha : a ∈ flumeRegs) :
    FlumeKept c offs s (s.setFpos a c v) := .wr s v hm (flr_lt_of_mem hc ha)

theorem flumeKept_setFstat {offs : List Nat} (b : Nat) (v : Bool) (hm : O.FLM_FSTAT ∈ offs) :
    FlumeKept c offs s (s.setFstat c b v) := .wr s _ hm (flr_lt_of_mem hc (by decide))

/-- RD and HWM, which follows it, take their values. -/
theorem rdSet_effect {rd : Nat} (hrd : rd < 2 ^ 32) : (s.rdSet c rd).fpos O.FLM_RD c = rd
    ∧ (dist rd (s.fpos O.FLM_HWM c) < 2 ^ 31 → (s.rdSet c rd).fpos O.FLM_HWM c = rd)
    ∧ FlumeKept c [O.FLM_RD, O.FLM_HWM] s (s.rdSet c rd) := by
  have first := s.fpos_setFpos_same c O.FLM_RD rd
  have hwm := s.fpos_setFpos_other (a := O.FLM_RD) (b := O.FLM_HWM) c rd (by decide)
  have kept := flumeKept_setFpos s hc (offs := [O.FLM_RD, O.FLM_HWM]) (a := O.FLM_RD) rd (by decide) (by decide)
  unfold rdSet
  rw [Nat.mod_eq_of_lt hrd] at first
  generalize s.setFpos O.FLM_RD c rd = u at first hwm kept ⊢
  have followed := flumeKept_setFpos u hc (offs := [O.FLM_RD, O.FLM_HWM]) (a := O.FLM_HWM) rd (by decide) (by decide)
  rw [hwm]
  refine ⟨ite_keeps (fun t : State => t.fpos O.FLM_RD c) ((fpos_setFpos_other _ _ _ (by decide)).trans first) first,
    fun h => ?_, .ite (kept.trans followed) kept⟩
  rw [if_pos h, fpos_setFpos_same, Nat.mod_eq_of_lt hrd]

/-- RD moves, HWM follows it, and nothing else of the block changes. -/
theorem moveRd_effect {rd : Nat} (hrd : rd < 2 ^ 32) : (s.moveRd c rd).fpos O.FLM_RD c = rd
    ∧ (dist rd (s.fpos O.FLM_HWM c) < 2 ^ 31 → (s.moveRd c rd).fpos O.FLM_HWM c = rd)
    ∧ FlumeKept c [O.FLM_RD, O.FLM_HWM] s (s.moveRd c rd) := by
  obtain ⟨pos, hwm, kept⟩ := rdSet_effect s hc hrd
  rw [moveRd_eq]
  exact ⟨(fpos_ite_markMoved ..).trans pos, fun h => (fpos_ite_markMoved ..).trans (hwm h),
    .ite kept (kept.trans (flumeKept_markMoved ..))⟩

/-- READ returns the staves from RD on, and RD stands after them. -/
theorem flumeRead_effect {k : Nat} (hk : k ≤ dist (s.fpos O.FLM_COMMIT c) (s.fpos O.FLM_RD c)) :
    ∃ t, s.flumeRead c k = some t ∧ t.fpos O.FLM_RD c = (s.fpos O.FLM_RD c + k) % 2 ^ 32
      ∧ t.out = .staves c (s.fpos O.FLM_RD c)
          ((List.range k).map fun i => s.getStave c ((s.fpos O.FLM_RD c + i) % 2 ^ 32)).flatten :: s.out
      ∧ (dist ((s.fpos O.FLM_RD c + k) % 2 ^ 32) (s.fpos O.FLM_HWM c) < 2 ^ 31 →
          t.fpos O.FLM_HWM c = (s.fpos O.FLM_RD c + k) % 2 ^ 32)
      ∧ FlumeKept c [O.FLM_RD, O.FLM_HWM] s { t with out := s.out } := by
  obtain ⟨rd, hwm, kept⟩ := s.moveRd_effect hc (rd := (s.fpos O.FLM_RD c + k) % 2 ^ 32) (Nat.mod_lt _ (by decide))
  refine ⟨_, if_neg (by omega), rd, ?_, hwm, ?_⟩
  · have out : (s.moveRd c ((s.fpos O.FLM_RD c + k) % 2 ^ 32)).out = s.out := (congrArg State.out kept.rest).trans rfl
    rw [emit, out]
  · refine ⟨?_, kept.regs, kept.held, kept.pks⟩
    exact congrArg (fun u => { u with out := s.out }) kept.rest

/-- MARK sets the Blaze to RD. -/
theorem flumeMark_effect : (s.flumeMark c).fpos O.FLM_BLAZE c = s.fpos O.FLM_RD c ∧ (s.flumeMark c).fstat c 30 = true
    ∧ FlumeKept c [O.FLM_BLAZE, O.FLM_FSTAT] s (s.flumeMark c) := by
  refine ⟨?_, bit_setBit_same _ _ _ _ _ (by decide), ?_⟩
  · rw [flumeMark, fpos_setFstat _ _ _ _ (by decide), fpos_setFpos_same]
    exact Nat.mod_eq_of_lt (rd_lt ..)
  · exact (flumeKept_setFpos s hc _ (by decide) (by decide)).trans (flumeKept_setFstat _ hc _ _ (by decide))

/-- REWIND takes RD to the Blaze. -/
theorem flumeRewind_effect (hb : s.fstat c 30 = true) : ∃ t, s.flumeRewind c = some t
    ∧ t.fpos O.FLM_RD c = s.fpos O.FLM_BLAZE c ∧ FlumeKept c [O.FLM_RD, O.FLM_HWM] s t := by
  obtain ⟨rd, -, kept⟩ := s.moveRd_effect hc (rd := s.fpos O.FLM_BLAZE c) (rd_lt ..)
  exact ⟨_, flumeRewind_eq s c hb, (fpos_markMoved ..).trans rd, kept.trans (flumeKept_markMoved ..)⟩

/-- RELEASE with no Kerf held: REL moves, and a Blaze that it passes is no longer valid. -/
theorem flumeRelease_effect {p : Nat} (hh : (s.flm c).held = none)
    (hr : dist p (s.fpos O.FLM_REL c) ≤ dist (s.fpos O.FLM_RD c) (s.fpos O.FLM_REL c)) :
    ∃ t, s.flumeRelease c p = some t ∧ t.fpos O.FLM_REL c = p % 2 ^ 32
      ∧ t.fstat c 30 = (s.fstat c 30
          && decide (dist p (s.fpos O.FLM_REL c) ≤ dist (s.fpos O.FLM_BLAZE c) (s.fpos O.FLM_REL c)))
      ∧ FlumeKept c [O.FLM_REL, O.FLM_FSTAT] s t := by
  have release := flumeRelease_eq s c hh hr
  have blaze : (if dist (s.fpos O.FLM_BLAZE c) (s.fpos O.FLM_REL c) < dist p (s.fpos O.FLM_REL c) then
      s.setFstat c 30 false else s).fstat c 30 = (s.fstat c 30
        && decide (dist p (s.fpos O.FLM_REL c) ≤ dist (s.fpos O.FLM_BLAZE c) (s.fpos O.FLM_REL c))) := by
    split
    · next past =>
      rw [decide_eq_false (not_le.mpr past), Bool.and_false]
      exact bit_setBit_same _ _ _ _ _ (by decide)
    · next within => rw [decide_eq_true (not_lt.mp within), Bool.and_true]
  have kept : FlumeKept c [O.FLM_REL, O.FLM_FSTAT] s (if dist (s.fpos O.FLM_BLAZE c) (s.fpos O.FLM_REL c)
      < dist p (s.fpos O.FLM_REL c) then s.setFstat c 30 false else s) :=
    .ite (flumeKept_setFstat s hc _ _ (by decide)) (.refl ..)
  generalize (if dist (s.fpos O.FLM_BLAZE c) (s.fpos O.FLM_REL c) < dist p (s.fpos O.FLM_REL c) then
    s.setFstat c 30 false else s) = u at release blaze kept
  have moved := flumeKept_setFpos u hc (offs := [O.FLM_REL, O.FLM_FSTAT]) (a := O.FLM_REL) p (by decide) (by decide)
  have freed := flumeKept_freed (u.setFpos O.FLM_REL c p) c (offs := [O.FLM_REL, O.FLM_FSTAT]) p (s.fpos O.FLM_REL c)
  refine ⟨_, release, ?_, ?_, (kept.trans moved).trans freed⟩
  · rw [State.freed, fpos_setFlm, fpos_setFpos_same]
  · rw [State.freed, fstat_setFlm]
    exact (bit_of_rd 30 (rd_wr_off u _ (flr_ne c (by decide)))).trans blaze

/-- DROP_REM takes RD to the end of the packet that holds the stave before it; without one RD stays. -/
theorem flumeDropRem_effect : (s.flumeDropRem c).fpos O.FLM_RD c
      = (match (s.flm c).pks.find? fun m => decide (dist (dist (s.fpos O.FLM_RD c) 1) m.start < m.staves) with
        | some m => (m.start + m.staves) % 2 ^ 32
        | none => s.fpos O.FLM_RD c)
    ∧ FlumeKept c [O.FLM_RD, O.FLM_HWM] s (s.flumeDropRem c) := by
  unfold flumeDropRem
  simp only
  cases (s.flm c).pks.find? fun m => decide (dist (dist (s.fpos O.FLM_RD c) 1) m.start < m.staves) with
  | none => exact ⟨rfl, .refl ..⟩
  | some m =>
    obtain ⟨rd, -, kept⟩ := s.moveRd_effect hc (rd := (m.start + m.staves) % 2 ^ 32) (Nat.mod_lt _ (by decide))
    refine ⟨?_, .ite (.refl ..) kept⟩
    simp only
    split
    · next e => exact e.symm
    · exact rd

end

/-! ## A consumer operation that is not refused -/

/-- Of a Flume in use of a running FLM, with no close under way, the operation's own effect is all. -/
theorem consumerOp_of_some {s t : State} {c : Nat} {o : FlumeOp} (hf : s.running pFlm = true)
    (hu : (s.flm c).used = true) (hc : (s.ctx c).closing = none) (ho : s.flumeOp c o = some t) (ht : t.ctxs = s.ctxs) :
    s.consumerOp c o = t := by
  unfold consumerOp
  rw [if_neg (by simp [hu]), if_neg (by simp [hf]), ho]
  exact tryClose_of_open (by rw [ctx_of_ctxs ht, hc])

/-- The command of a consumer operation that is not refused leads to the operation's own effect. -/
theorem consumer_next {s t : State} {c : Nat} {o : FlumeOp} {i : Instr} {P : State → Prop} (hi : exec i s
    = act .flm (fun s => s.consumerOp c o) s) (hr : s.alive .flm = true ∧ s.running pFlm = true ∧ (s.flm c).used = true
      ∧ (s.ctx c).closing = none) (ho : s.flumeOp c o = some t) (ht : t.ctxs = s.ctxs)
    (hP : P { t with pending := s.pending }) : ∃ t, exec i s = .next t ∧ P t := by
  obtain ⟨halive, hrun, hused, hopen⟩ := hr
  rw [hi]
  exact act_next halive fun u hu => by rwa [hu, consumerOp_of_some hrun hused hopen ho ht]

end State

/-- Settles O23, operation by operation: each changes what its lemma names of the Flume's block. -/
theorem flumeConsumerOperations : Obligations.FlumeConsumerOperations := by
  unfold Obligations.FlumeConsumerOperations
  refine ⟨?_, ?_, ?_, ?_, ?_⟩
  · intro c k s ready hk
    obtain ⟨t, ht, rd, out, hwm, kept⟩ := s.flumeRead_effect c.isLt hk
    have pos : ∀ a ∈ State.flumeRegs, a ∉ [O.FLM_RD, O.FLM_HWM] → t.fpos a c = s.fpos a c := fun a => kept.fpos c.isLt
    exact State.consumer_next (o := .read k.toNat) rfl ready ht kept.ctxs ⟨rd, out, hwm, pos _ (by decide) (by decide),
      pos _ (by decide) (by decide), pos _ (by decide) (by decide), State.memSame_of_mems kept.mems⟩
  · intro c s ready
    obtain ⟨blaze, valid, kept⟩ := s.flumeMark_effect c.isLt
    have ht : s.flumeOp c .mark = some (s.flumeMark c) := rfl
    generalize s.flumeMark c = t at ht blaze valid kept
    have pos : ∀ a ∈ State.flumeRegs, a ∉ [O.FLM_BLAZE, O.FLM_FSTAT] → t.fpos a c = s.fpos a c := fun a => kept.fpos c.isLt
    exact State.consumer_next (o := .mark) rfl ready ht kept.ctxs ⟨blaze, valid, pos _ (by decide) (by decide),
      pos _ (by decide) (by decide), pos _ (by decide) (by decide), pos _ (by decide) (by decide),
      State.memSame_of_mems kept.mems⟩
  · intro c s ready hb
    obtain ⟨t, ht, rd, kept⟩ := s.flumeRewind_effect c.isLt hb
    have pos : ∀ a ∈ State.flumeRegs, a ∉ [O.FLM_RD, O.FLM_HWM] → t.fpos a c = s.fpos a c := fun a => kept.fpos c.isLt
    exact State.consumer_next (o := .rewind) rfl ready ht kept.ctxs ⟨rd, pos _ (by decide) (by decide), pos _ (by decide) (by decide),
      pos _ (by decide) (by decide), State.memSame_of_mems kept.mems⟩
  · intro c p s ready hh hp
    obtain ⟨t, ht, rel, valid, kept⟩ := s.flumeRelease_effect c.isLt hh hp
    have pos : ∀ a ∈ State.flumeRegs, a ∉ [O.FLM_REL, O.FLM_FSTAT] → t.fpos a c = s.fpos a c := fun a => kept.fpos c.isLt
    exact State.consumer_next (o := .release p.toNat) rfl ready ht kept.ctxs ⟨rel.trans (Nat.mod_eq_of_lt p.isLt), valid, pos _ (by decide) (by decide),
      pos _ (by decide) (by decide), pos _ (by decide) (by decide), State.memSame_of_mems kept.mems⟩
  · intro c s ready
    obtain ⟨rd, kept⟩ := s.flumeDropRem_effect c.isLt
    have ht : s.flumeOp c .dropRem = some (s.flumeDropRem c) := rfl
    generalize s.flumeDropRem c = t at ht rd kept
    have pos : ∀ a ∈ State.flumeRegs, a ∉ [O.FLM_RD, O.FLM_HWM] → t.fpos a c = s.fpos a c := fun a => kept.fpos c.isLt
    exact State.consumer_next (o := .dropRem) rfl ready ht kept.ctxs ⟨pos _ (by decide) (by decide), ⟨pos _ (by decide) (by decide),
      pos _ (by decide) (by decide), State.memSame_of_mems kept.mems⟩, rd⟩

end Sys2Proof.Machine
end

section
/-! PROOFS. O24: what HBM's taking of a tail buffer changes, and a Flume whose RD stands still. -/
namespace Sys2Proof.Machine
namespace State

/-! ## HBM takes staves of the tail buffer (R111, R112) -/

/-- `t` is `s` but for Flume `c`, which keeps its segments, and for HBM within them. -/
structure SpillKept (c : Nat) (s t : State) : Prop where
  rest : t = { s with flumes := t.flumes, hbm := t.hbm }
  others : ∀ k, k ≠ c → t.flm k = s.flm k
  segs : (t.flm c).segs = (s.flm c).segs
  base : (t.flm c).base = (s.flm c).base
  outside : 0 < (s.flm c).segs → ∀ a, a < (s.flm c).base ∨ (s.flm c).base + (s.flm c).segs * 65536 ≤ a →
    t.hbmByte a = s.hbmByte a

namespace SpillKept

variable {c : Nat} {s t u : State}

theorem refl (c : Nat) (s : State) : SpillKept c s s := ⟨rfl, fun _ _ => rfl, rfl, rfl, fun _ _ _ => rfl⟩

theorem trans (h : SpillKept c s t) (k : SpillKept c t u) : SpillKept c s u := by
  refine ⟨?_, fun i hi => (k.others i hi).trans (h.others i hi), k.segs.trans h.segs, k.base.trans h.base,
    fun hs a ha => ?_⟩
  · have e := k.rest
    rw [h.rest] at e
    exact e
  · have outside := k.outside
    rw [h.segs, h.base] at outside
    exact (outside hs a ha).trans (h.outside hs a ha)

theorem ite {p : Prop} [Decidable p] (h : SpillKept c s t) (k : SpillKept c s u) : SpillKept c s (if p then t else u) := by
  split
  · exact h
  · exact k

theorem setFlm (s : State) {f : Flume} (hs : f.segs = (s.flm c).segs) (hb : f.base = (s.flm c).base) :
    SpillKept c s (s.setFlm c f) :=
  ⟨rfl, fun _ h => flm_setFlm_other s f h, by rw [flm_setFlm_same, hs], by rw [flm_setFlm_same, hb], fun _ _ _ => rfl⟩

/-- Bytes within the stave at a position lie in the segments. -/
theorem setHbm (s : State) (pos off : Nat) {l : List Byte} (hl : off + l.length ≤ 32) :
    SpillKept c s (s.setHbm ((s.flm c).base + pos % ((s.flm c).segs * 2048) * 32 + off) l) := by
  refine ⟨rfl, fun _ _ => rfl, rfl, rfl, fun hs a ha => ?_⟩
  have place : pos % ((s.flm c).segs * 2048) < (s.flm c).segs * 2048 := Nat.mod_lt _ (by omega)
  generalize pos % ((s.flm c).segs * 2048) = n at place ⊢
  exact (sget_ssetList ..).trans (if_neg (by omega))

theorem setHbmAfter (h : SpillKept c s t) (pos off : Nat) {l : List Byte} (hl : off + l.length ≤ 32) :
    SpillKept c s (t.setHbm ((s.flm c).base + pos % ((s.flm c).segs * 2048) * 32 + off) l) := by
  rw [← h.base, ← h.segs]
  exact h.trans (setHbm t pos off hl)

theorem putStaves (s : State) (n pos : Nat) (l : List Byte) : SpillKept c s (s.putStaves c n pos l) := by
  induction n generalizing s pos l with
  | zero => exact refl c s
  | succ n ih => exact (setHbm s pos 0 (l := l.take 32) (by simp)).trans (ih _ _ _)

end SpillKept

/-- A Flume whose `k` oldest staves of the tail buffer HBM has accepted. -/
def tailTaken (f : Flume) (k : Nat) : Flume := { f with acc := (f.acc + k) % 2 ^ 32, tail := f.tail.drop (32 * k) }

/-- HBM accepts whole staves of the tail buffer. -/
def spillWhole (s : State) (c k : Nat) : State :=
  (s.putStaves c k (s.flm c).acc (s.flm c).tail).setFlm c (tailTaken (s.flm c) k)

section
variable (s : State) (c : Nat)

theorem spillKept_spillWhole (k : Nat) : SpillKept c s (s.spillWhole c k) :=
  (SpillKept.putStaves s k _ _).trans
    (.setFlm _ (congrArg Flume.segs (flm_putStaves ..)).symm (congrArg Flume.base (flm_putStaves ..)).symm)

theorem flm_spillWhole (k : Nat) : (s.spillWhole c k).flm c = tailTaken (s.flm c) k := flm_setFlm_same ..

/-- With no packet open, whole staves of the tail buffer are all that HBM takes. -/
theorem spill_of_closed (n : Nat) (h : (s.flm c).pkt = none) :
    s.spill c n = s.spillWhole c (min n ((s.flm c).tail.length / 32)) := by
  unfold spill
  simp only
  split
  · rfl
  · next p hp => exact absurd (h.symm.trans hp) (by simp)

/-- The position up to which HBM has accepted the open packet's staves. -/
theorem spillKept_setAcc (a : Nat) : SpillKept c s (s.setFlm c { s.flm c with acc := a }) := .setFlm s rfl rfl

/-- The staves of an open packet follow those of the tail buffer, but for its header slot. -/
theorem spillKept_spill (n : Nat) : SpillKept c s (s.spill c n) := by
  unfold spill
  simp only
  have whole := spillKept_spillWhole s c (min n ((s.flm c).tail.length / 32))
  unfold spillWhole tailTaken at whole
  split
  · exact whole
  · next p _ =>
    refine .ite whole (.trans (.ite ?_ (whole.trans (.putStaves ..))) (spillKept_setAcc ..))
    exact (whole.setHbmAfter _ 8 (by simp only [List.length_drop, List.length_take]; omega)).trans (.putStaves ..)

/-- One whole stave stands at its place in the segments. -/
theorem hbmBytes_spillWhole_one (h : 32 ≤ (s.flm c).tail.length) :
    (s.spillWhole c 1).hbmBytes ((s.flm c).base + (s.flm c).acc % ((s.flm c).segs * 2048) * 32) 32
      = (s.flm c).tail.take 32 :=
  sgetList_ssetList_of_length (List.length_take_of_le h) ..

end

/-! ## A Flume whose RD stands still (R127) -/

/-- `t` is `s` but for Flumes and what an interrupt request of FLM can change; of FLM's registers those from STALE_T on
stay, and of the ones before it no bit falls. -/
structure StaleKept (s t : State) : Prop where
  mems : t.mems = s.mems
  regs : ∀ off, O.FLM_STALE_T ≤ off → off < 0x10000 → t.rd pFlm off = s.rd pFlm off
  rises : ∀ off b, off < O.FLM_STALE_T → b < 32 → s.bit pFlm off b = true → t.bit pFlm off b = true

namespace StaleKept

variable {s t u : State}

theorem refl (s : State) : StaleKept s s := ⟨rfl, fun _ _ _ => rfl, fun _ _ _ _ => id⟩

theorem trans (h : StaleKept s t) (k : StaleKept t u) : StaleKept s u :=
  ⟨k.mems.trans h.mems, fun off h1 h2 => (k.regs off h1 h2).trans (h.regs off h1 h2),
    fun off b h1 h2 hb => k.rises off b h1 h2 (h.rises off b h1 h2 hb)⟩

theorem setFlm (s : State) (c : Nat) (f : Flume) : StaleKept s (s.setFlm c f) :=
  ⟨rfl, fun _ _ _ => rfl, fun _ _ _ _ => id⟩

theorem setBit (s : State) {off b : Nat} (ho : off < O.FLM_STALE_T) (hb : b < 32) :
    StaleKept s (s.setBit pFlm off b true) := by
  refine ⟨mems_setBit .., fun a h _ => rd_setBit_off s _ _ (by omega), fun a i _ hi hs => ?_⟩
  by_cases e : a = off
  · subst e
    by_cases ei : i = b
    · subst ei
      exact bit_setBit_same _ _ _ _ _ hb
    · exact (bit_setFld_other s _ hi (by omega)).trans hs
  · exact (bit_of_rd i (rd_setBit_off s _ _ e)).trans hs

theorem setCause (s : State) (m : Nat) : StaleKept s (s.setCause pFlm m) := by
  have other : ∀ off, off < 0x10000 → off ≠ O.INT_CAUSE → (s.setCause pFlm m).rd pFlm off = s.rd pFlm off :=
    fun off ho h => rd_setCause_other ho (sigReg_of_ge (by decide) h)
  refine ⟨setCause_mems .., fun off h ho => other off ho ?_, fun off b h hb hs => ?_⟩
  · have : O.INT_CAUSE < O.FLM_STALE_T := by decide
    omega
  · by_cases e : off = O.INT_CAUSE
    · rw [e] at hs ⊢
      rw [bit_setCause s m (by decide) hb, hs, Bool.true_or]
    · exact (bit_of_rd b (other off (h.trans (by decide)) e)).trans hs

variable (h : StaleKept s t)
include h

theorem fpos {a c : Nat} (ha : a ∈ flumeRegs) (hc : c < 512) : t.fpos a c = s.fpos a c :=
  h.regs _ (((by decide : ∀ a ∈ flumeRegs, O.FLM_STALE_T ≤ a) a ha).trans (Nat.le_add_right ..)) (flr_lt_of_mem hc ha)

theorem staleT : t.fld pFlm O.FLM_STALE_T 0 8 = s.fld pFlm O.FLM_STALE_T 0 8 :=
  fld_of_rd _ _ (h.regs _ le_rfl (by decide))

end StaleKept

/-- A Flume as the check of a wall frame counts it. -/
def staleNext (f : Flume) : Flume :=
  if f.moved then { f with moved := false, still := 0, raised := false } else { f with still := f.still + 1 }

/-- Is a Flume in use to be flagged now? -/
abbrev staleDue (s : State) (c : Nat) : Prop :=
  s.fld pFlm O.FLM_STALE_T 0 8 ≠ 0 ∧ s.fld pFlm O.FLM_STALE_T 0 8 ≤ (staleNext (s.flm c)).still
    ∧ !(staleNext (s.flm c)).raised ∧ s.fpos O.FLM_COMMIT c ≠ s.fpos O.FLM_RD c


/-- The bit of STALE_MAP and the cause are set. -/
def flagStale (s : State) (c : Nat) : State :=
  (s.setBit pFlm (O.FLM_STALE_MAP + 4 * (c / 32)) (c % 32) true).setCause pFlm 1

/-- A Flume that is flagged, in the episode that the check has counted. -/
def staleRaised (f : Flume) : Flume := { staleNext f with raised := true }

section
variable (s : State) {c : Nat}

theorem staleFlume_of_unused (h : (s.flm c).used = false) : s.staleFlume c = s := if_pos (by simp [h])

theorem staleFlume_of_used (h : (s.flm c).used = true) : s.staleFlume c
    = if s.staleDue c then (s.setFlm c (staleRaised (s.flm c))).flagStale c else s.setFlm c (staleNext (s.flm c)) :=
  if_neg (by simp [h])

theorem flumes_setCause (p m : Nat) : (s.setCause p m).flumes = s.flumes :=
  (congrArg State.flumes (setCause_rest s p m)).trans rfl

theorem flm_of_flumes {s t : State} (h : t.flumes = s.flumes) (k : Nat) : t.flm k = s.flm k := by
  rw [flm, flm, h]

theorem flm_flagStale (k : Nat) : (s.flagStale c).flm k = s.flm k :=
  flm_of_flumes ((flumes_setCause ..).trans (setBit_flumes ..)) k

theorem staleMap_lt (hc : c < 512) : O.FLM_STALE_MAP + 4 * (c / 32) < O.FLM_STALE_T := by
  simp only [O.FLM_STALE_MAP, O.FLM_STALE_T]
  omega

theorem staleKept_flagStale (hc : c < 512) : StaleKept s (s.flagStale c) :=
  (StaleKept.setBit s (staleMap_lt hc) (Nat.mod_lt _ (by decide))).trans (.setCause _ 1)

theorem flagStale_flags (hc : c < 512) : (s.flagStale c).bit pFlm (O.FLM_STALE_MAP + 4 * (c / 32)) (c % 32) = true
    ∧ (s.flagStale c).bit pFlm O.INT_CAUSE 0 = true := by
  have b : c % 32 < 32 := Nat.mod_lt _ (by decide)
  refine ⟨(StaleKept.setCause _ 1).rises _ _ (staleMap_lt hc) b (bit_setBit_same _ _ _ _ _ b), ?_⟩
  rw [flagStale, bit_setCause _ _ (by decide) (by decide)]
  exact Bool.or_true _

theorem staleKept_staleFlume (hc : c < 512) : StaleKept s (s.staleFlume c) := by
  cases hu : (s.flm c).used with
  | false => rw [staleFlume_of_unused s hu]; exact .refl s
  | true =>
    rw [staleFlume_of_used s hu]
    split
    · exact (StaleKept.setFlm ..).trans (staleKept_flagStale _ hc)
    · exact .setFlm ..

theorem flm_staleFlume_other {k : Nat} (h : k ≠ c) : (s.staleFlume c).flm k = s.flm k := by
  cases hu : (s.flm c).used with
  | false => rw [staleFlume_of_unused s hu]
  | true =>
    rw [staleFlume_of_used s hu]
    refine ite_keeps (fun t : State => t.flm k) ?_ (flm_setFlm_other s _ h)
    rw [flm_flagStale, flm_setFlm_other s _ h]

/-- Flume `c` is flagged, and its episode marked. -/
def StaleFlagged (s : State) (c : Nat) : Prop :=
  s.bit pFlm (O.FLM_STALE_MAP + 4 * (c / 32)) (c % 32) = true ∧ s.bit pFlm O.INT_CAUSE 0 = true ∧ (s.flm c).raised = true

/-- The check flags a Flume that is due. -/
theorem staleFlagged_staleFlume (hc : c < 512) (hu : (s.flm c).used = true) (hd : s.staleDue c) :
    (s.staleFlume c).StaleFlagged c := by
  rw [staleFlume_of_used s hu, if_pos hd]
  obtain ⟨map, cause⟩ := (s.setFlm c (staleRaised (s.flm c))).flagStale_flags hc
  refine ⟨map, cause, ?_⟩
  rw [flm_flagStale, flm_setFlm_same]
  rfl

/-- The check of another Flume leaves a flagged one flagged. -/
theorem StaleFlagged.staleFlume_other {s : State} {d : Nat} (h : s.StaleFlagged c) (hc : c < 512) (hd : d < 512)
    (hn : c ≠ d) : (s.staleFlume d).StaleFlagged c := by
  obtain ⟨map, cause, raised⟩ := h
  have kept := s.staleKept_staleFlume hd
  refine ⟨kept.rises _ _ (staleMap_lt hc) (Nat.mod_lt _ (by decide)) map, kept.rises _ _ (by decide) (by decide) cause, ?_⟩
  rw [flm_staleFlume_other s hn, raised]

/-- The check of every Flume flags one that is due: those before it leave it as it was, those after it leave the flag. -/
theorem stale_check (hc : c < 512) (hu : (s.flm c).used = true) (hd : s.staleDue c) :
    ((List.range 512).foldl staleFlume s).StaleFlagged c ∧ StaleKept s ((List.range 512).foldl staleFlume s) := by
  have all : ∀ d ∈ List.range 512, d < 512 := fun d => List.mem_range.mp
  refine ⟨?_, List.foldlRecOn (motive := StaleKept s) _ _ (.refl s) fun t h d hd' =>
    h.trans (t.staleKept_staleFlume (all d hd'))⟩
  obtain ⟨before, after, split⟩ := List.append_of_mem (List.mem_range.mpr hc)
  have apart : c ∉ before ∧ c ∉ after := by
    have nodup := (List.nodup_range : (List.range 512).Nodup)
    rw [split, List.nodup_middle, List.nodup_cons, List.mem_append, not_or] at nodup
    exact nodup.1
  rw [split] at all ⊢
  have reached : StaleKept s (before.foldl staleFlume s) ∧ (before.foldl staleFlume s).flm c = s.flm c := by
    refine List.foldlRecOn (motive := fun t => StaleKept s t ∧ t.flm c = s.flm c) _ _ ⟨.refl s, rfl⟩ fun t h d hd' => ?_
    refine ⟨h.1.trans (t.staleKept_staleFlume (all d (List.mem_append_left _ hd'))), ?_⟩
    rw [flm_staleFlume_other t (ne_of_mem_of_not_mem hd' apart.1).symm, h.2]
  rw [List.foldl_append, List.foldl_cons]
  generalize before.foldl staleFlume s = t at reached ⊢
  obtain ⟨kept, flm⟩ := reached
  have due : t.staleDue c := by
    rw [staleDue, kept.staleT, flm, kept.fpos (by decide) hc, kept.fpos (by decide) hc]
    exact hd
  refine List.foldlRecOn (motive := fun u : State => u.StaleFlagged c) _ _ (t.staleFlagged_staleFlume hc (by rw [flm, hu]) due)
    fun u h d hd' => ?_
  exact h.staleFlume_other hc (all d (List.mem_append_right _ (List.mem_cons_of_mem _ hd')))
    (ne_of_mem_of_not_mem hd' apart.2).symm

end

end State

/-- Settles O24: HBM takes the oldest staves of the tail buffer, and the check of every Flume flags the one that is due. -/
theorem flumeSpillAndStale : Obligations.FlumeSpillAndStale := by
  unfold Obligations.FlumeSpillAndStale
  refine ⟨?_, ?_⟩
  · intro c n s halive
    simp only
    have run : exec (.spillWriteDone c n) s = act .flm (fun s => s.spill c n) s := rfl
    rw [run]
    refine act_next halive fun u hu => ?_
    have kept := s.spillKept_spill c n
    have closed := s.spill_of_closed c n
    rw [← hu] at kept closed
    refine ⟨congrArg (fun u => { u with pending := s.pending }) kept.rest, kept.others, fun hp => ?_, fun hp hk => ?_,
      fun hp hk => ?_, kept.outside⟩
    · refine Eq.trans ?_ (s.flm_spillWhole c _)
      rw [← closed hp]
      rfl
    · have hbm : u.hbm = s.hbm := by
        rw [closed hp, hk]
        rfl
      exact hbm
    · have taken := s.hbmBytes_spillWhole_one c (by omega)
      rw [← hk, ← closed hp] at taken
      exact taken
  · intro c s halive hrun hused hmoved hraised ht hstill hpos
    have run : exec .staleCheck s
        = act .flm (fun s => when (s.running pFlm) ((List.range 512).foldl State.staleFlume) s) s := rfl
    rw [run]
    refine act_next halive fun u hu => ?_
    rw [when, if_pos hrun] at hu
    have next : State.staleNext (s.flm c) = { s.flm c with still := (s.flm c).still + 1 } := if_neg (by simp [hmoved])
    have due : s.staleDue c := ⟨ht, by rw [next]; exact hstill, by rw [next]; simp [hraised], hpos⟩
    obtain ⟨flagged, kept⟩ := s.stale_check c.isLt hused due
    rw [← hu] at flagged kept
    obtain ⟨map, cause, raised⟩ := flagged
    exact ⟨map, cause, raised, kept.fpos (by decide) c.isLt, kept.fpos (by decide) c.isLt,
      State.memSame_of_mems kept.mems⟩

end Sys2Proof.Machine
end

section
/-! PROOFS. O30: what the pictures of a context change, and what stays when a core takes one or finishes one. -/
namespace Sys2Proof.Machine

/-- A write lists no key but its own and those listed before. -/
theorem mem_sset {α : Type} [DecidableEq α] {d : Nat → α} {m : Store α} {k : Nat} {v : α} {e : Nat × α}
    (h : e ∈ sset d m k v) : e.1 = k ∨ e ∈ m := by
  unfold sset at h
  split at h
  · exact .inr (List.mem_of_mem_filter h)
  · induction m with
    | nil => exact .inl (List.mem_singleton.mp h ▸ rfl)
    | cons a r ih =>
      obtain ⟨i, w⟩ := a
      simp only [sins] at h
      split at h
      · exact (List.mem_cons.mp h).imp (congrArg Prod.fst) id
      · split at h
        · exact (List.mem_cons.mp h).imp (congrArg Prod.fst) (List.mem_cons_of_mem _)
        · exact (List.mem_cons.mp h).elim (fun e : _ = _ => .inr (e ▸ List.mem_cons_self))
            fun h => (ih h).imp id (List.mem_cons_of_mem _)

/-- A key that does not read as its default is listed. -/
theorem mem_of_sget_ne {α : Type} {d : Nat → α} {m : Store α} {k : Nat} (h : sget d m k ≠ d k) : ∃ v, (k, v) ∈ m := by
  induction m with
  | nil => exact absurd rfl h
  | cons a r ih =>
    obtain ⟨i, w⟩ := a
    by_cases e : k = i
    · exact ⟨w, e ▸ List.mem_cons_self⟩
    · obtain ⟨v, hv⟩ := ih (by rwa [sget, if_neg e] at h)
      exact ⟨v, List.mem_cons_of_mem _ hv⟩

namespace State

/-- `t` is `s` but for context `c`, registers, HBM, packets released, and what interrupt requests, counts and free values
change. -/
structure PicKept (c : Nat) (s t : State) : Prop where
  rest : t = { s with
    regs := t.regs, tables := t.tables, hbm := t.hbm, hif := t.hif, flumes := t.flumes, ctxs := t.ctxs
    lateRecent := t.lateRecent, eicSat := t.eicSat, freeCtr := t.freeCtr, out := t.out }
  others : ∀ k, k ≠ c → t.ctx k = s.ctx k
  listed : ∀ e ∈ t.ctxs, e.1 = c ∨ e ∈ s.ctxs
  pks : ∀ k, ∀ m ∈ (t.flm k).pks, m ∈ (s.flm k).pks

namespace PicKept

variable {c : Nat} {s t u : State}

theorem refl (c : Nat) (s : State) : PicKept c s s := ⟨rfl, fun _ _ => rfl, fun _ => .inr, fun _ _ => id⟩

theorem trans (h : PicKept c s t) (k : PicKept c t u) : PicKept c s u := by
  refine ⟨?_, fun i hi => (k.others i hi).trans (h.others i hi), fun e he => ?_, fun i m hm => h.pks i m (k.pks i m hm)⟩
  · have e := k.rest
    rw [h.rest] at e
    exact e
  · exact (k.listed e he).elim .inl (h.listed e)

theorem ite {p : Prop} [Decidable p] (h : PicKept c s t) (k : PicKept c s u) : PicKept c s (if p then t else u) := by
  split
  · exact h
  · exact k

theorem setCtx (s : State) (x : Ctx) : PicKept c s (s.setCtx c x) :=
  ⟨rfl, fun _ h => ctx_setCtx_other s x h, fun e h => mem_sset (show e ∈ sset (fun _ => {}) s.ctxs c x from h), fun _ _ => id⟩

theorem setHbm (s : State) (a : Nat) (l : List Byte) : PicKept c s (s.setHbm a l) :=
  ⟨rfl, fun _ _ => rfl, fun _ => .inr, fun _ _ => id⟩

theorem setRegs (s : State) (m : Store W32) : PicKept c s { s with regs := m } :=
  ⟨rfl, fun _ _ => rfl, fun _ => .inr, fun _ _ => id⟩

theorem freeTaken (s : State) : PicKept c s s.freeTaken := ⟨rfl, fun _ _ => rfl, fun _ => .inr, fun _ _ => id⟩

theorem countLate (s : State) (p : Nat) : PicKept c s (s.countLate p) := ⟨rfl, fun _ _ => rfl, fun _ => .inr, fun _ _ => id⟩

theorem setCause (s : State) (p m : Nat) : PicKept c s (s.setCause p m) := by
  generalize ht : s.setCause p m = t
  have e := setCause_rest s p m
  rw [ht] at e
  obtain ⟨regs, tables, hif, sat, out, rfl⟩ : ∃ regs tables hif sat out, t = { s with
    regs := regs, tables := tables, hif := hif, eicSat := sat, out := out } := ⟨_, _, _, _, _, e⟩
  exact ⟨rfl, fun _ _ => rfl, fun _ => .inr, fun _ _ => id⟩

theorem of_flume {offs : List Nat} (h : FlumeKept c offs s t) : PicKept c s t := by
  have pks := h.pks
  obtain ⟨regs, flumes, rfl⟩ : ∃ regs flumes, t = { s with regs := regs, flumes := flumes } := ⟨_, _, h.rest⟩
  exact ⟨rfl, fun _ _ => rfl, fun _ => .inr, pks⟩

variable (h : PicKept c s t)
include h

theorem host : t.host = s.host := (congrArg State.host h.rest).trans rfl

end PicKept

/-! ## Kerfs next in the Flumes of a core's contexts -/

/-- No context that is listed has a Kerf in its Flume. -/
def NoKerf (s : State) : Prop := ∀ e ∈ s.ctxs, ∀ m ∈ (s.flm e.1).pks, m.kerf = false

/-- Contexts whose Flumes a core reads. -/
def readers (s : State) (typ k : Nat) : List Nat :=
  if typ = 2 then (s.ctxs.filter fun e => e.2.typ = 2 ∧ e.2.isOpen).map (·.1) else s.onCore typ k

theorem listed_of_mem_readers {s : State} {typ k c : Nat} (h : c ∈ s.readers typ k) : ∃ e ∈ s.ctxs, e.1 = c := by
  have filtered : ∀ p : Nat × Ctx → Bool, c ∈ (s.ctxs.filter p).map (·.1) → ∃ e ∈ s.ctxs, e.1 = c := by
    intro p h
    obtain ⟨e, he, rfl⟩ := List.mem_map.mp h
    exact ⟨e, List.mem_of_mem_filter he, rfl⟩
  unfold readers at h
  split at h
  · exact filtered _ h
  · exact filtered _ h

/-- An idle consumer with no Kerf in its Flume reads none. -/
theorem readKerfs_of_none {s : State} {c : Nat} (h : ∀ m ∈ (s.flm c).pks, m.kerf = false) : s.readKerfs c = s := by
  have still : (s.flm c).pks.foldl (fun p m => if m.kerf = true ∧ m.start = p then (p + 1) % 2 ^ 32 else p)
      (s.fpos O.FLM_RD c) = s.fpos O.FLM_RD c :=
    foldl_keeps id _ _ _ fun p m hm => if_neg (by simp [h m hm])
  unfold readKerfs
  simp only [still]
  exact if_neg fun e => lt_irrefl _ e.2.2

theorem readers_read_none {s : State} (h : s.NoKerf) (typ k : Nat) :
    (s.readers typ k).foldl (fun s c => s.readKerfs c) s = s := by
  refine List.foldlRecOn (motive := (· = s)) _ _ rfl fun t ht c hc => ?_
  obtain ⟨e, he, rfl⟩ := listed_of_mem_readers hc
  rw [ht, readKerfs_of_none (h e he)]

section
variable {s t : State} {c typ k : Nat}

/-- Pictures bring in no Kerf. -/
theorem PicKept.noKerf (h : PicKept c s t) (hs : s.NoKerf) (hc : ∃ x, (c, x) ∈ s.ctxs) : t.NoKerf := by
  intro e he m hm
  rcases h.listed e he with rfl | listed
  · obtain ⟨x, hx⟩ := hc
    exact hs _ hx m (h.pks _ m hm)
  · exact hs e listed m (h.pks _ m hm)

/-- A core with nothing in its queue takes nothing. -/
theorem takeNext_nil (h : s.NoKerf) : s.takeNext typ k [] = s := readers_read_none h typ k

/-- A free core takes the only picture of its queue. -/
theorem takeNext_one {p : PicTake} (h : s.NoKerf) (hst : (s.ctx p.ctx).st ≠ 1) (hm : s.mayTake typ k p = true)
    (hf : s.coreFree typ k = true) (hflm : s.running pFlm = true) (hhbm : s.hbmReady = true) (hsram : s.sramReady = true) :
    s.takeNext typ k [p] = s.takePic typ k p := by
  have read := readers_read_none h typ k
  have stays : s.skipToKey p.ctx = s := if_neg fun e => hst e.2.1
  unfold readers at read
  unfold takeNext
  simp only [read, List.foldl_cons, List.foldl_nil, stays, List.filter_cons, hm, if_true, List.filter_nil, hf, hflm, hhbm,
    hsram, Bool.and_self]

end

end State
end Sys2Proof.Machine
end

section
/-! PROOFS. O30, taking: RD passes a picture's packets, and the picture goes in flight with a slot of its own. -/
namespace Sys2Proof.Machine

/-! ## What a context's state and events leave of it -/

/-- A context without its state and events, what it counts of pictures put out, its references and what it saves. -/
def Ctx.work (x : Ctx) : Ctx := { x with
  st := 0, events := 0, evNew := 0, csbDue := false, csbDirty := false, concPics := 0, partPics := 0, late := 0, concRun := 0
  concLong := false, keyNext := false, refs := [], lastSlot := none, gone := [], savedPts := none, savedAnchor := none }

namespace Ctx

theorem work_counted (x : Ctx) : x.counted.work = x.work := rfl

theorem work_goto (x : Ctx) (st : Nat) : (x.goto st).work = x.work := ite_keeps work rfl rfl

variable {x y : Ctx} (h : x.work = y.work)
include h

theorem flight_of_work : x.flight = y.flight := (congrArg flight h : _)
theorem closing_of_work : x.closing = y.closing := (congrArg closing h : _)

end Ctx

namespace State

/-! ## The first packet that is not finished (R124) -/

/-- A context as the state saved at position `p` leaves it. -/
def savedAt (x : Ctx) (rel p : Nat) : Ctx :=
  let past := x.gone.filter fun g => dist g.stop rel ≤ dist p rel
  let last := past.foldl (fun (b : Option Gone) g => match b with
    | some h => if dist h.stop rel ≤ dist g.stop rel then some g else b
    | none => some g) none
  let x := { x with gone := x.gone.filter fun g => dist p rel < dist g.stop rel }
  match last with
  | some g => { x with savedPts := g.prevPts, savedAnchor := g.anchor }
  | none => x

theorem work_savedAt (x : Ctx) (rel p : Nat) : (savedAt x rel p).work = x.work := by
  unfold savedAt
  simp only
  split
  · rfl
  · rfl

/-- The Blaze stands at `p`. -/
def blazeAt (s : State) (c p : Nat) : State := (s.setFpos O.FLM_BLAZE c p).setFstat c 30 true

theorem settle_eq (s : State) (c : Nat) (p : Nat) (hp : s.unfinished c [] = p) : s.settle c =
    if !s.running pFlm then s
    else if dist p (s.fpos O.FLM_REL c) ≤ dist (s.fpos O.FLM_RD c) (s.fpos O.FLM_REL c) then
      (((s.modCtx c (savedAt · (s.fpos O.FLM_REL c) p)).flumeRelease c p).getD
        (s.modCtx c (savedAt · (s.fpos O.FLM_REL c) p))).blazeAt c p
    else s := by
  subst hp
  rfl

section
variable (s : State) {c : Nat}

theorem fpos_modCtx (f : Ctx → Ctx) (a k : Nat) : (s.modCtx c f).fpos a k = s.fpos a k := rfl
theorem flm_modCtx (f : Ctx → Ctx) (k : Nat) : (s.modCtx c f).flm k = s.flm k := rfl
theorem rd_modCtx (f : Ctx → Ctx) (p off : Nat) : (s.modCtx c f).rd p off = s.rd p off := rfl

/-- What the Blaze's move to the first packet not finished leaves, with no Kerf held. -/
structure Settled (c : Nat) (s t : State) : Prop where
  kept : PicKept c s t
  work : (t.ctx c).work = (s.ctx c).work
  hbm : t.hbm = s.hbm
  rd : t.fpos O.FLM_RD c = s.fpos O.FLM_RD c
  regs : ∀ q off, off < 0x10000 → q ≠ pFlm → t.rd q off = s.rd q off

theorem Settled.refl : Settled c s s := ⟨.refl c s, rfl, rfl, rfl, fun _ _ _ _ => rfl⟩

theorem flumeKept_blazeAt (hc : c < 512) (p : Nat) :
    FlumeKept c [O.FLM_REL, O.FLM_BLAZE, O.FLM_FSTAT] s (s.blazeAt c p) :=
  (flumeKept_setFpos s hc p (by decide) (by decide)).trans (flumeKept_setFstat _ hc 30 true (by decide))

theorem FlumeKept.mono {offs offs' : List Nat} {s t : State} (h : FlumeKept c offs s t) (hm : ∀ a ∈ offs, a ∈ offs') :
    FlumeKept c offs' s t :=
  ⟨h.rest, fun q off ho hq => h.regs q off ho fun e hx => hq e (List.map_subset _ hm hx), h.held, h.pks⟩

theorem settled_settle (hc : c < 512) (hh : (s.flm c).held = none) : Settled c s (s.settle c) := by
  rw [settle_eq s c _ rfl]
  generalize s.unfinished c [] = p
  split
  · exact .refl s
  · split
    · next hp =>
      have saved : ((s.modCtx c (savedAt · (s.fpos O.FLM_REL c) p)).ctx c).work = (s.ctx c).work := by
        rw [ctx_modCtx_same, work_savedAt]
      have changed : PicKept c s (s.modCtx c (savedAt · (s.fpos O.FLM_REL c) p)) := .setCtx ..
      have hbm := hbm_modCtx s c (savedAt · (s.fpos O.FLM_REL c) p)
      have pos := s.fpos_modCtx (c := c) (savedAt · (s.fpos O.FLM_REL c) p)
      have regs := s.rd_modCtx (c := c) (savedAt · (s.fpos O.FLM_REL c) p)
      have held := (congrArg Flume.held (s.flm_modCtx (c := c) (savedAt · (s.fpos O.FLM_REL c) p) c)).trans hh
      generalize s.modCtx c (savedAt · (s.fpos O.FLM_REL c) p) = u at *
      obtain ⟨t, released, -, -, freed⟩ := u.flumeRelease_effect hc (p := p) held (by rw [pos, pos]; exact hp)
      rw [released, Option.getD_some]
      have flume := (freed.mono (offs' := [O.FLM_REL, O.FLM_BLAZE, O.FLM_FSTAT]) (by decide)).trans
        (flumeKept_blazeAt t hc p)
      refine ⟨changed.trans (.of_flume flume), ?_, flume.hbm.trans hbm, (flume.fpos hc (by decide) (by decide)).trans (pos _ _),
        fun q off ho hq => (flume.regs q off ho fun e => absurd e hq).trans (regs q off)⟩
      rw [ctx_of_ctxs flume.ctxs, saved]
    · exact .refl s

end

/-! ## RD passes a picture's packets -/

/-- No packet of the Flume is a Kerf, nor one after a gap or a discontinuity. -/
def quietFlume (s : State) (c : Nat) : Prop :=
  ∀ m ∈ (s.flm c).pks, m.kerf = false ∧ bitOf (s.pktHead c m) 24 = false ∧ bitOf (s.pktHead c m) 26 = false

section
variable {s : State} {c : Nat}

theorem readMark_of_quiet {m : PktMark} (h : m.kerf = false ∧ bitOf (s.pktHead c m) 24 = false
    ∧ bitOf (s.pktHead c m) 26 = false) (x : Ctx) : s.readMark c m x = x := by
  obtain ⟨kerf, gap, disc⟩ := h
  have restart : (if bitOf (s.pktHead c m) 26 then ctxRestart x else x) = x := if_neg (by rw [disc]; decide)
  have loss : ¬ (bitOf (s.pktHead c m) 24 = true ∧ (if bitOf (s.pktHead c m) 26 then ctxRestart x else x).typ = 0) :=
    fun e => absurd (gap.symm.trans e.1) (by decide)
  exact (if_neg (by rw [kerf]; decide)).trans ((if_neg loss).trans restart)

theorem readTo_of_quiet {pos : Nat} (h : s.quietFlume c) (hf : s.running pFlm = true)
    (hn : dist (s.fpos O.FLM_RD c) (s.fpos O.FLM_REL c) < dist pos (s.fpos O.FLM_REL c))
    (hp : dist pos (s.fpos O.FLM_REL c) ≤ dist (s.fpos O.FLM_COMMIT c) (s.fpos O.FLM_REL c)) :
    s.readTo c pos = (s.setCtx c (s.ctx c)).moveRd c pos := by
  unfold readTo
  simp only
  rw [if_pos ⟨hf, hn, hp⟩]
  congr 2
  exact foldl_keeps id _ _ _ fun x m hm => readMark_of_quiet (h m (List.mem_of_mem_filter hm)) x

end

/-- The context between access units, where a picture starts one. -/
def unitBegun (s : State) (c : Nat) (new : Bool) : State :=
  if new then (s.modCtx c fun x => { x with midUnit := false }).applyNewCfg c else s

/-- Contexts change, and of context `c` at most whether an access unit of it goes on. -/
structure UnitKept (c : Nat) (s t : State) : Prop where
  rest : ∃ l, t = { s with ctxs := l }
  kept : PicKept c s t
  ctx : ∃ m, t.ctx c = { s.ctx c with midUnit := m }

theorem unitKept_unitBegun {s : State} {c : Nat} (h : (s.ctx c).newCfg = none) (new : Bool) :
    UnitKept c s (s.unitBegun c new) := by
  unfold unitBegun
  split
  · generalize ht : (s.modCtx c fun x => { x with midUnit := false }) = t
    have ctx : t.ctx c = { s.ctx c with midUnit := false } := ht ▸ ctx_modCtx_same ..
    have same : t.applyNewCfg c = t := by
      unfold applyNewCfg
      have none : (t.ctx c).newCfg = none := by
        rw [ctx]
        exact h
      simp only [none]
    rw [same]
    exact ⟨⟨_, ht.symm⟩, ht ▸ .setCtx .., _, ctx⟩
  · exact ⟨⟨s.ctxs, rfl⟩, .refl c s, _, rfl⟩

/-- `u` is `s` with RD of context `c` at `stop`. -/
structure ReadUpTo (c stop : Nat) (s u : State) : Prop where
  rest : u = { s with regs := u.regs, flumes := u.flumes, ctxs := u.ctxs }
  kept : PicKept c s u
  ctx : ∃ m, u.ctx c = { s.ctx c with midUnit := m }
  rd : u.fpos O.FLM_RD c = stop
  held : (u.flm c).held = (s.flm c).held
  regs : ∀ q off, off < 0x10000 → q ≠ pFlm → u.rd q off = s.rd q off

theorem readUpTo {s : State} {c stop : Nat} (hc : c < 512) (hs : stop < 2 ^ 32) (h : s.quietFlume c)
    (hf : s.running pFlm = true) (hn : (s.ctx c).newCfg = none)
    (hr : dist (s.fpos O.FLM_RD c) (s.fpos O.FLM_REL c) < dist stop (s.fpos O.FLM_REL c))
    (hp : dist stop (s.fpos O.FLM_REL c) ≤ dist (s.fpos O.FLM_COMMIT c) (s.fpos O.FLM_REL c)) (new : Bool) :
    ReadUpTo c stop s ((s.unitBegun c new).readTo c stop) := by
  obtain ⟨⟨l, eq⟩, kept, m, ctx⟩ := unitKept_unitBegun hn new
  rw [readTo_of_quiet (by rw [eq]; exact h) (by rw [eq]; exact hf) (by rw [eq]; exact hr) (by rw [eq]; exact hp)]
  have again : UnitKept c s ((s.unitBegun c new).setCtx c ((s.unitBegun c new).ctx c)) :=
    ⟨⟨_, by rw [eq]; rfl⟩, kept.trans (.setCtx ..), m, (ctx_setCtx_same ..).trans ctx⟩
  generalize (s.unitBegun c new).setCtx c ((s.unitBegun c new).ctx c) = v at again
  obtain ⟨⟨l, rfl⟩, kept, m, ctx⟩ := again
  obtain ⟨rd, -, flume⟩ := State.moveRd_effect { s with ctxs := l } hc hs
  refine ⟨?_, kept.trans (.of_flume flume), ⟨m, (ctx_of_ctxs flume.ctxs c).trans ctx⟩, rd, flume.held,
    fun q off ho hq => flume.regs q off ho fun e => absurd e hq⟩
  rw [flume.ctxs]
  exact flume.rest

end State
end Sys2Proof.Machine
end

section
/-! PROOFS. O30, taking: the slot that a picture is given, and the picture in flight. -/
namespace Sys2Proof.Machine
namespace State

/-! ## The slot is the one that was to be had -/

section
variable {s u : State} {c stop : Nat}

theorem sstate_of_hbm (h : u.hbm = s.hbm) (x : Ctx) (k : Nat) : u.sstate x k = s.sstate x k :=
  congrArg (bitsOf · 30 2) (entW_of_hbm h x k 0)

theorem sstate_of_base (t : State) {x y : Ctx} (h : ringBase x = ringBase y) (k : Nat) : t.sstate x k = t.sstate y k :=
  congrArg (bitsOf · 30 2) (entW_of_base t h k 0)

theorem slotPts_of_hbm (h : u.hbm = s.hbm) (x : Ctx) (k : Nat) : u.slotPts x k = s.slotPts x k := by
  rw [slotPts, slotPts, entW_of_hbm h, entW_of_hbm h]

theorem ringWritten_of_hbm (h : u.hbm = s.hbm) (x : Ctx) : u.ringWritten x = s.ringWritten x := by
  rw [ringWritten, ringWritten, hbmBytes, hbmBytes, h]

/-- The time of the next slot stands in the Landing's mode and in the wall frame. -/
theorem nextDisplay_of_mode (ht : u.tim = s.tim) (hi : u.slotIdx = s.slotIdx)
    (hm : u.rd pLnd O.LND_MODE_CUR = s.rd pLnd O.LND_MODE_CUR) : u.nextDisplay = s.nextDisplay := by
  have slots : u.slotsPerFrame = s.slotsPerFrame := by
    rw [slotsPerFrame, slotsPerFrame, feeds, feeds, maintEn, maintEn, fld_of_rd _ _ hm, bit_of_rd _ hm]
  have disp : u.lDisp = s.lDisp := fld_of_rd _ _ hm
  simp only [nextDisplay, displayDelay, syncTime, slotTime, frateNum, frateDen, slots, disp, ht, hi]

variable (h : ReadUpTo c stop s u)
include h

theorem ReadUpTo.hbm : u.hbm = s.hbm := (congrArg State.hbm h.rest).trans rfl

theorem ReadUpTo.holds : u.holds = s.holds := (congrArg State.holds h.rest).trans rfl

theorem ReadUpTo.nextDisplay : u.nextDisplay = s.nextDisplay :=
  nextDisplay_of_mode ((congrArg State.tim h.rest).trans rfl) ((congrArg State.slotIdx h.rest).trans rfl)
    (h.regs _ _ (by decide) (by decide))

/-- Reading packets leaves the choice of a slot. -/
theorem ReadUpTo.findSlot : u.findSlot c = s.findSlot c := by
  obtain ⟨m, ctx⟩ := h.ctx
  have slots : ringSlots { s.ctx c with midUnit := m } = ringSlots (s.ctx c) := rfl
  have base : ringBase { s.ctx c with midUnit := m } = ringBase (s.ctx c) := rfl
  have state : ∀ k, u.sstate { s.ctx c with midUnit := m } k = s.sstate (s.ctx c) k := fun k =>
    (sstate_of_base u base k).trans (sstate_of_hbm h.hbm _ k)
  have pts : ∀ k, u.slotPts { s.ctx c with midUnit := m } k = s.slotPts (s.ctx c) k := fun k => by
    rw [slotPts, entW_of_base u base, entW_of_base u base]
    exact slotPts_of_hbm h.hbm _ k
  have word : ∀ k, u.entW { s.ctx c with midUnit := m } k 0 = s.entW (s.ctx c) k 0 := fun k =>
    (entW_of_base u base k 0).trans (entW_of_hbm h.hbm ..)
  have newest : ∀ t, u.newestReady { s.ctx c with midUnit := m } t = s.newestReady (s.ctx c) t := fun t => by
    have written : u.ringWritten { s.ctx c with midUnit := m } = u.ringWritten (s.ctx c) := by
      rw [ringWritten, ringWritten, base]
    simp only [newestReady, written, ringWritten_of_hbm h.hbm, state, pts, slots]
  have free : ∀ k, u.reusable c k = s.reusable c k := fun k => by
    simp only [reusable, ctx, state, word, newest, h.holds, h.nextDisplay]
  simp only [State.findSlot, ctx, slots, free, state, pts]

end

/-! ## The picture goes in flight -/

/-- A picture joins those in flight, one more. -/
theorem length_addFlight (rel : Nat) (f : Flight) (l : List Flight) : (addFlight rel f l).length = l.length + 1 := by
  have parts := List.length_eq_length_filter_add (l := l) fun g => decide (dist g.start rel ≤ dist f.start rel)
  have late : (l.filter fun g => !decide (dist g.start rel ≤ dist f.start rel))
      = l.filter fun g => decide (dist f.start rel < dist g.start rel) :=
    List.filter_congr fun g _ => by rw [← decide_not, decide_eq_decide, not_le]
  rw [late] at parts
  simp only [addFlight, List.length_append, List.length_cons]
  omega

theorem mem_addFlight (rel : Nat) (f : Flight) (l : List Flight) : f ∈ addFlight rel f l :=
  List.mem_append_right _ List.mem_cons_self

/-- The pictures in flight of a context and its close. -/
def takenView (x : Ctx) : List Flight × Option Closing := (x.flight, x.closing)

theorem of_takenView {x : Ctx} {l : List Flight} {q : Option Closing} (h : takenView x = (l, q)) :
    x.flight = l ∧ x.closing = q := ⟨congrArg Prod.fst h, congrArg Prod.snd h⟩

/-- A picture's time leaves them. -/
theorem takenView_ptsOf (s : State) (x : Ctx) (t : PicTake) : takenView (s.ptsOf x t).2 = takenView x := by
  unfold ptsOf
  simp only
  split
  · rfl
  · exact ite_keeps (fun r : Int × Ctx => takenView r.2) rfl
      (ite_keeps (fun r : Int × Ctx => takenView r.2) (ite_keeps (fun r : Int × Ctx => takenView r.2) rfl rfl) rfl)

/-- A picture that a context may decode now: of a stream that it admits, of a size it declared, and for a ring with room. -/
structure Decodable (x : Ctx) (t : PicTake) : Prop where
  decoding : x.st = 2
  matched : t.mismatch = false
  stream : streamOk x t = true
  size : t.width ≤ x.width ∧ t.height ≤ x.height
  ring : ringNeed x t ≤ ringSlots x
  ref : t.ref = true

theorem Decodable.setUnit {x : Ctx} {t : PicTake} (h : Decodable x t) (m : Bool) : Decodable { x with midUnit := m } t :=
  ⟨h.decoding, h.matched, h.stream, h.size, h.ring, h.ref⟩

theorem Decodable.wide {x : Ctx} {t : PicTake} (h : Decodable x t) : t.width ≠ 0 := by
  have stream := h.stream
  simp only [streamOk, Bool.and_eq_true, decide_eq_true_eq] at stream
  omega

/-- The context as a picture is taken. -/
def turnTaken (x : Ctx) (t : PicTake) : Ctx :=
  { x with midUnit := !t.endUnit, mismatch := 0, turn := x.turn + 1, waiting := none }

/-- The picture in flight on core `k` in its slot. -/
def flightOf (s : State) (typ k slot : Nat) (t : PicTake) : Flight :=
  let x := s.ctx t.ctx
  let r := s.ptsOf (turnTaken x t) t
  let colour := bitsOf (x.w 0) 12 4
  let refs := s.refsOf x t
  { serial := x.serial, core := k, slot := slot, start := t.start.toNat, stop := t.stop.toNat, pts := toBits 64 r.1
    width := t.width, height := t.height, colour := if colour = 0 then t.colour else colour
    full := if colour = 0 then t.full else bitOf (x.w 0) 11, key := t.key || typ ≠ 0, ref := t.ref
    disc := x.discNext, refs := refs.1, standin := refs.2, prevPts := r.2.prevPts, anchor := r.2.anchor }

/-- The context with the picture in flight. -/
def flyingCtx (s : State) (typ k slot : Nat) (t : PicTake) : Ctx :=
  let x := s.ctx t.ctx
  let y := (s.ptsOf (turnTaken x t) t).2
  let isOver := s.overRate x t
  let y := { y with
    serial := y.serial + 1, flight := addFlight (s.fpos O.FLM_REL t.ctx) (s.flightOf typ k slot t) y.flight
    discNext := false, tokTime := s.tim.time, overRate := y.overRate + b2n isOver
    tokens := if isOver then s.allowance x else s.allowance x - t.width * t.height * x.fden * 1000000000 }
  if isOver then y.counted else y

theorem takenView_flyingCtx (s : State) (typ k slot : Nat) (t : PicTake) : takenView (s.flyingCtx typ k slot t)
    = (addFlight (s.fpos O.FLM_REL t.ctx) (s.flightOf typ k slot t) (s.ctx t.ctx).flight, (s.ctx t.ctx).closing) := by
  have kept := takenView_ptsOf s (turnTaken (s.ctx t.ctx) t) t
  obtain ⟨flight, closing⟩ : (s.ptsOf (turnTaken (s.ctx t.ctx) t) t).2.flight = (s.ctx t.ctx).flight
    ∧ (s.ptsOf (turnTaken (s.ctx t.ctx) t) t).2.closing = (s.ctx t.ctx).closing := of_takenView kept
  unfold flyingCtx
  simp only
  generalize (s.ptsOf (turnTaken (s.ctx t.ctx) t) t).2 = y at flight closing
  rw [← flight, ← closing]
  exact ite_keeps takenView rfl rfl

/-- A picture that may be decoded, with a slot to be had, goes in flight on its core; the slot is BUSY. -/
theorem takePic_of_slot {s u : State} {typ k slot : Nat} {t : PicTake}
    (hu : (s.unitBegun t.ctx t.newUnit).readTo t.ctx t.stop.toNat = u) (hd : Decodable (u.ctx t.ctx) t)
    (hs : u.findSlot t.ctx = some slot) : s.takePic typ k t
      = ((u.setCtx t.ctx (u.flyingCtx typ k slot t)).setSstate (u.ctx t.ctx) slot 1).settle t.ctx := by
  obtain ⟨wide, high⟩ := hd.size
  unfold unitBegun at hu
  unfold takePic
  simp only
  rw [hu, if_neg hd.wide, hd.matched, if_neg (by decide), hd.stream, if_neg (by decide),
    if_neg (not_or.mpr ⟨not_lt.mpr wide, not_lt.mpr high⟩), if_neg (not_lt.mpr hd.ring),
    if_neg fun e => absurd (hd.decoding.symm.trans e.2.1) (by decide), hd.ref, if_neg fun e => absurd e.1 (by decide), hs,
    flyingCtx, flightOf, hd.ref]
  rfl

/-! ## A picture taken -/

theorem sstate_setSstate (s : State) (x : Ctx) (slot : Nat) : (s.setSstate x slot 1).sstate x slot = 1 := by
  rw [sstate, setSstate, entW_setEntW_same]
  exact (bitsOf_mod _ _ _ (by decide)).trans (bitsOf_putBits_same ..)

theorem fpos_setHbm (s : State) (a : Nat) (l : List Byte) (off c : Nat) : (s.setHbm a l).fpos off c = s.fpos off c := rfl

theorem flm_setHbm (s : State) (a : Nat) (l : List Byte) (c : Nat) : (s.setHbm a l).flm c = s.flm c := rfl

theorem fpos_setSstate (s : State) (x : Ctx) (slot st off c : Nat) : (s.setSstate x slot st).fpos off c = s.fpos off c :=
  fpos_setHbm ..

theorem flm_setSstate (s : State) (x : Ctx) (slot st c : Nat) : (s.setSstate x slot st).flm c = s.flm c := flm_setHbm ..

theorem fpos_setCtx (s : State) (c : Nat) (x : Ctx) (off k : Nat) : (s.setCtx c x).fpos off k = s.fpos off k := rfl

theorem flm_setCtx (s : State) (c : Nat) (x : Ctx) (k : Nat) : (s.setCtx c x).flm k = s.flm k := rfl

/-- A packet's picture that a core may take ends no later than COMMIT. -/
theorem stop_le_of_mayTake {s : State} {typ k : Nat} {t : PicTake} (h : s.mayTake typ k t = true) :
    dist t.stop.toNat (s.fpos O.FLM_REL t.ctx) ≤ dist (s.fpos O.FLM_COMMIT t.ctx) (s.fpos O.FLM_REL t.ctx) := by
  simp only [mayTake, inOrder, Bool.and_eq_true, decide_eq_true_eq] at h
  obtain ⟨⟨⟨-, ⟨-, inside⟩, -⟩, -⟩, -⟩ := h
  exact inside

/-- What a picture taken leaves in its context, its Flume and its slot. -/
structure Taken (k slot : Nat) (t : PicTake) (s v : State) : Prop where
  kept : PicKept t.ctx s v
  flying : ∃ f ∈ (v.ctx t.ctx).flight, f.core = k ∧ f.slot = slot ∧ f.start = t.start.toNat ∧ f.stop = t.stop.toNat
    ∧ f.done = false
  length : (v.ctx t.ctx).flight.length = (s.ctx t.ctx).flight.length + 1
  busy : v.sstate (s.ctx t.ctx) slot = 1
  rd : v.fpos O.FLM_RD t.ctx = t.stop.toNat
  closing : (v.ctx t.ctx).closing = (s.ctx t.ctx).closing

theorem taken_of_readUpTo {s u : State} {typ k slot : Nat} {t : PicTake} (h : ReadUpTo t.ctx t.stop.toNat s u)
    (hh : (s.flm t.ctx).held = none) :
    Taken k slot t s (((u.setCtx t.ctx (u.flyingCtx typ k slot t)).setSstate (u.ctx t.ctx) slot 1).settle t.ctx) := by
  obtain ⟨m, ctx⟩ := h.ctx
  obtain ⟨flight, closing⟩ := of_takenView (takenView_flyingCtx u typ k slot t)
  have f : (u.flightOf typ k slot t).core = k ∧ (u.flightOf typ k slot t).slot = slot
    ∧ (u.flightOf typ k slot t).start = t.start.toNat ∧ (u.flightOf typ k slot t).stop = t.stop.toNat
    ∧ (u.flightOf typ k slot t).done = false := ⟨rfl, rfl, rfl, rfl, rfl⟩
  have before : (u.ctx t.ctx).flight = (s.ctx t.ctx).flight ∧ (u.ctx t.ctx).closing = (s.ctx t.ctx).closing := by
    rw [ctx]
    exact ⟨rfl, rfl⟩
  rw [before.1] at flight
  rw [before.2] at closing
  generalize u.flightOf typ k slot t = g at f flight
  generalize u.flyingCtx typ k slot t = y at flight closing ⊢
  generalize hw : (u.setCtx t.ctx y).setSstate (u.ctx t.ctx) slot 1 = w
  have ctxW : w.ctx t.ctx = y := by rw [← hw, ctx_setSstate, ctx_setCtx_same]
  have busy : w.sstate (s.ctx t.ctx) slot = 1 := by
    have base : ringBase (u.ctx t.ctx) = ringBase (s.ctx t.ctx) := by rw [ctx]; rfl
    have set := sstate_setSstate (u.setCtx t.ctx y) (u.ctx t.ctx) slot
    rw [hw] at set
    exact (sstate_of_base w base slot).symm.trans set
  have kept : PicKept t.ctx s w := hw ▸ (h.kept.trans (.setCtx ..)).trans (.setHbm ..)
  have rd : w.fpos O.FLM_RD t.ctx = t.stop.toNat := by rw [← hw, fpos_setSstate, fpos_setCtx, h.rd]
  have held : (w.flm t.ctx).held = none := by rw [← hw, flm_setSstate, flm_setCtx, h.held, hh]
  have settled := settled_settle w t.ctx.isLt held
  have flightV : ((w.settle t.ctx).ctx t.ctx).flight = y.flight := by rw [Ctx.flight_of_work settled.work, ctxW]
  refine ⟨kept.trans settled.kept, ⟨g, ?_, f⟩, ?_, ?_, settled.rd.trans rd, ?_⟩
  · rw [flightV, flight]
    exact mem_addFlight ..
  · rw [flightV, flight, length_addFlight]
  · rw [sstate_of_hbm settled.hbm, busy]
  · rw [Ctx.closing_of_work settled.work, ctxW, closing]

end State
end Sys2Proof.Machine
end

section
/-! PROOFS. O30, finishing: a picture that is done commits, and a committed one is put out. -/
namespace Sys2Proof.Machine

namespace State

theorem work_ctxLoss (x : Ctx) : (ctxLoss x).work = x.work :=
  ite_keeps Ctx.work
    (ite_keeps Ctx.work rfl (ite_keeps Ctx.work (ite_keeps Ctx.work (Ctx.work_goto ..) (Ctx.work_goto ..))
      (ite_keeps Ctx.work (Ctx.work_goto ..) rfl)))
    (ite_keeps Ctx.work (Ctx.work_goto ..) rfl)

theorem work_ctxRecover (x : Ctx) (key : Bool) : (ctxRecover x key).work = x.work :=
  ite_keeps Ctx.work (Ctx.work_goto ..) (ite_keeps Ctx.work (Ctx.work_goto ..) rfl)

theorem work_concealRun (x : Ctx) : (concealRun x).work = x.work :=
  ite_keeps Ctx.work (ite_keeps Ctx.work rfl rfl) rfl

theorem work_partialStep (x : Ctx) (isPartial : Bool) : (partialStep x isPartial).work = x.work :=
  ite_keeps Ctx.work rfl (ite_keeps Ctx.work (work_ctxLoss x) (ite_keeps Ctx.work (Ctx.work_goto ..) rfl))

theorem work_countReady (x : Ctx) (f : Flight) (conc late : Bool) :
    (countReady x f conc late).work = { x with outq := x.outq.filter fun g => g.serial ≠ f.serial }.work := by
  unfold countReady
  simp only
  rw [work_partialStep, work_concealRun]
  exact ite_keeps Ctx.work rfl rfl

theorem gone_goto (x : Ctx) (st : Nat) : (x.goto st).gone = x.gone := ite_keeps Ctx.gone rfl rfl

theorem gone_ctxLoss (x : Ctx) : (ctxLoss x).gone = x.gone :=
  ite_keeps Ctx.gone
    (ite_keeps Ctx.gone rfl (ite_keeps Ctx.gone (ite_keeps Ctx.gone (gone_goto ..) (gone_goto ..))
      (ite_keeps Ctx.gone (gone_goto ..) rfl)))
    (ite_keeps Ctx.gone (gone_goto ..) rfl)

/-! ## What a core's work changes -/

/-- The counters of a core that move with a picture, but for the count of pictures itself. -/
def coreCounters : List Nat := [O.DEC_BUSY_LO, O.DEC_BUSY_HI, O.DEC_BITERR, O.DEC_LATE]

/-- `t` is `s` but for context `c`, HBM, the counters `offs` of core page `p`, and what its requests change. -/
structure CoreKept (c p : Nat) (offs : List Nat) (s t : State) : Prop where
  kept : PicKept c s t
  flumes : t.flumes = s.flumes
  regs : ∀ q off, off < 0x10000 → sigReg p q off = false → (q = p → off ∉ offs) → t.rd q off = s.rd q off

namespace CoreKept

variable {c p : Nat} {offs : List Nat} {s t u : State}

theorem refl (s : State) : CoreKept c p offs s s := ⟨.refl c s, rfl, fun _ _ _ _ _ => rfl⟩

theorem trans (h : CoreKept c p offs s t) (k : CoreKept c p offs t u) : CoreKept c p offs s u :=
  ⟨h.kept.trans k.kept, k.flumes.trans h.flumes, fun q off ho hs hq => (k.regs q off ho hs hq).trans (h.regs q off ho hs hq)⟩

theorem ite {a : Prop} [Decidable a] (h : CoreKept c p offs s t) (k : CoreKept c p offs s u) :
    CoreKept c p offs s (if a then t else u) := by
  split
  · exact h
  · exact k

theorem mono {offs' : List Nat} (h : CoreKept c p offs s t) (hm : ∀ a ∈ offs, a ∈ offs') : CoreKept c p offs' s t :=
  ⟨h.kept, h.flumes, fun q off ho hs hq => h.regs q off ho hs fun e hx => hq e (hm off hx)⟩

theorem setCtx (s : State) (x : Ctx) : CoreKept c p offs s (s.setCtx c x) := ⟨.setCtx s x, rfl, fun _ _ _ _ _ => rfl⟩

theorem setHbm (s : State) (a : Nat) (l : List Byte) : CoreKept c p offs s (s.setHbm a l) :=
  ⟨.setHbm s a l, rfl, fun _ _ _ _ _ => rfl⟩

theorem freeTaken (s : State) : CoreKept c p offs s s.freeTaken := ⟨.freeTaken s, rfl, fun _ _ _ _ _ => rfl⟩

theorem countLate (s : State) : CoreKept c p offs s (s.countLate p) := ⟨.countLate s p, rfl, fun _ _ _ _ _ => rfl⟩

theorem wr (s : State) {off : Nat} (v : Nat) (hm : off ∈ offs) (ho : off < 0x10000) : CoreKept c p offs s (s.wr p off v) :=
  ⟨.setRegs .., rfl, fun q o ho' _ hq => (PageRegs.wr (p := p) (offs := offs) s v hm ho).regs q o ho' hq⟩

theorem setCause (s : State) (m : Nat) : CoreKept c p offs s (s.setCause p m) :=
  ⟨.setCause s p m, flumes_setCause .., fun _ _ ho hs _ => rd_setCause_other ho hs⟩

theorem foldl {β : Type} (g : State → β → State) (l : List β) (h : ∀ s b, CoreKept c p offs s (g s b)) (s : State) :
    CoreKept c p offs s (l.foldl g s) :=
  List.foldlRecOn (motive := CoreKept c p offs s) _ _ (.refl s) fun t ht b _ => ht.trans (h t b)

theorem makeReady (s : State) (f : Flight) (flags : Nat) : CoreKept c p offs s (s.makeReady c f flags) :=
  (((((((setHbm ..).trans (setHbm ..)).trans (setHbm ..)).trans (setHbm ..)).trans (setHbm ..)).trans (setHbm ..)).trans
    (setHbm ..)).trans (setCtx ..)

theorem putLines (s : State) (x : Ctx) (slot : Nat) (ls : List (List Byte)) (top : Nat) :
    CoreKept c p offs s (s.putLines x slot ls top) := foldl _ _ (fun _ _ => setHbm ..) s

theorem writePic (s : State) (f : Flight) (r : PicResult) : CoreKept c p offs s (s.writePic c f r) :=
  (putLines ..).trans (freeTaken _)

variable (h : CoreKept c p offs s t)
include h

theorem flm (k : Nat) : t.flm k = s.flm k := flm_of_flumes h.flumes k

/-- The Flumes' registers are no core's. -/
theorem fpos {a k : Nat} (hp : pFlm < p) (ha : a ∈ flumeRegs) (hk : k < 512) : t.fpos a k = s.fpos a k := by
  have cause : flr a k ≠ O.INT_CAUSE := by
    have low : O.FLM_WR ≤ a := (by decide : ∀ a ∈ flumeRegs, O.FLM_WR ≤ a) a ha
    simp only [flr, O.FLM_WR, O.INT_CAUSE] at low ⊢
    omega
  exact h.regs _ _ (flr_lt_of_mem hk ha) (sigReg_of_ge (by decide) cause) fun e => absurd e hp.ne

/-- The core's count of pictures is none of the counters. -/
theorem pics (hp : pFlm < p) (hn : O.DEC_PICS ∉ offs) : t.rd p O.DEC_PICS = s.rd p O.DEC_PICS :=
  h.regs _ _ (by decide) (sigReg_of_ge ((by decide : pNet ≤ pFlm).trans hp.le) (by decide)) fun _ => hn

end CoreKept

theorem flm_lt_corePage (typ k : Nat) : pFlm < corePage typ k := by
  unfold corePage
  split
  · simp only [pFlm, pDec]; omega
  · split
    · simp only [pFlm, pXsd]; omega
    · simp only [pFlm, pEnc]; omega

/-! ## The first packet that is not finished, as the core leaves it -/

theorem follow_congr {s t : State} {c : Nat} (hf : t.flm c = s.flm c) (hr : t.fpos O.FLM_REL c = s.fpos O.FLM_REL c)
    (hd : t.fpos O.FLM_RD c = s.fpos O.FLM_RD c) (done : List (Nat × Nat)) (n p : Nat) :
    t.follow c done n p = s.follow c done n p := by
  induction n generalizing p with
  | zero => rfl
  | succ n ih => simp only [follow, hf, hr, hd, ih]

theorem unfinished_congr {s t : State} {c : Nat} (hf : t.flm c = s.flm c)
    (hr : t.fpos O.FLM_REL c = s.fpos O.FLM_REL c) (hd : t.fpos O.FLM_RD c = s.fpos O.FLM_RD c)
    (hg : (t.ctx c).gone = (s.ctx c).gone) : t.unfinished c [] = s.unfinished c [] := by
  simp only [unfinished, goneOf, hg, hf, hr, follow_congr hf hr hd]

end State
end Sys2Proof.Machine
end

section
/-! PROOFS. O30, finishing: what a finished picture's commit and output leave. -/
namespace Sys2Proof.Machine
namespace State

/-! ## Putting a picture out -/

section
variable (s : State) (c p m : Nat) (f : Flight)

theorem ctxs_setCause : (s.setCause p m).ctxs = s.ctxs := (congrArg State.ctxs (s.setCause_rest p m)).trans rfl

theorem hbm_setCause : (s.setCause p m).hbm = s.hbm := (congrArg State.hbm (s.setCause_rest p m)).trans rfl

/-- A core of page `p` puts out a picture past its deadline. -/
def lateShown : State := ((s.incr p O.DEC_LATE).countLate p).setCause p 1

theorem ctxs_lateShown : (s.lateShown p).ctxs = s.ctxs := ctxs_setCause ..

theorem hbm_lateShown : (s.lateShown p).hbm = s.hbm := hbm_setCause ..

theorem coreKept_lateShown : CoreKept c p coreCounters s (s.lateShown p) :=
  ((CoreKept.wr s _ (by decide) (by decide)).trans (.countLate _)).trans (.setCause ..)

/-- What a picture put out leaves in its context and its ring. -/
def entryFilled : State := s.makeReady c f (readyFlags (s.ctx c) f (s.isLate f))

theorem outputPic_eq : s.outputPic c f =
    if s.isLate f && (s.ctx c).typ < 2 then
      ((s.entryFilled c f).modCtx c (s.outputCounted c f)).lateShown (corePage (s.ctx c).typ f.core)
    else (s.entryFilled c f).modCtx c (s.outputCounted c f) := rfl

theorem work_entryFilled : ((s.entryFilled c f).ctx c).work
    = { s.ctx c with pics := ((s.ctx c).pics + 1) % 2 ^ 32, lastPts := f.pts }.work := by
  unfold entryFilled makeReady
  simp only
  rw [ctx_setCtx_same, Ctx.work_counted]

/-- A context as its picture `f` is put out. -/
def shownCtx (x : Ctx) (f : Flight) : Ctx :=
  { x with pics := (x.pics + 1) % 2 ^ 32, lastPts := f.pts, outq := x.outq.filter fun g => g.serial ≠ f.serial }

theorem work_outputPic : ((s.outputPic c f).ctx c).work = (shownCtx (s.ctx c) f).work := by
  have ctx : (s.outputPic c f).ctx c = s.outputCounted c f ((s.entryFilled c f).ctx c) := by
    rw [outputPic_eq]
    exact ite_keeps (fun t : State => t.ctx c) ((ctx_of_ctxs (ctxs_lateShown ..) c).trans (ctx_modCtx_same ..))
      (ctx_modCtx_same ..)
  have filled := work_entryFilled s c f
  rw [ctx, outputCounted, work_countReady]
  generalize (s.entryFilled c f).ctx c = y at filled
  exact congrArg (fun x : Ctx => { x with outq := x.outq.filter fun g => g.serial ≠ f.serial }) filled

theorem sstate_outputPic (hc : f.cepoch < 16) (hcol : f.colour < 16) : (s.outputPic c f).sstate (s.ctx c) f.slot = 2 := by
  have hbm : (s.outputPic c f).hbm = (s.entryFilled c f).hbm := by
    rw [outputPic_eq]
    exact ite_keeps State.hbm ((hbm_lateShown ..).trans (hbm_modCtx ..)) (hbm_modCtx ..)
  rw [sstate_of_hbm hbm]
  exact sstate_makeReady s c f (s.isLate f) hc hcol

theorem coreKept_outputPic {typ k : Nat} (ht : (s.ctx c).typ = typ) (hk : f.core = k) :
    CoreKept c (corePage typ k) coreCounters s (s.outputPic c f) := by
  rw [outputPic_eq, ht, hk]
  have counted : CoreKept c (corePage typ k) coreCounters s ((s.entryFilled c f).modCtx c (s.outputCounted c f)) :=
    (CoreKept.makeReady s f _).trans (.setCtx ..)
  exact .ite (counted.trans (coreKept_lateShown ..)) counted

end

/-- What a context keeps as its pictures are put out. -/
def inWork (x : Ctx) : Nat × List Flight × Nat × Option Mig × Option Closing := (x.typ, x.flight, x.biterr, x.mig, x.closing)

theorem of_inWork {x : Ctx} {typ errors : Nat} {l : List Flight} {m : Option Mig} {q : Option Closing}
    (h : inWork x = (typ, l, errors, m, q)) :
    x.typ = typ ∧ x.flight = l ∧ x.biterr = errors ∧ x.mig = m ∧ x.closing = q := by
  simpa only [inWork, Prod.mk.injEq] using h

theorem inWork_of_work {x y : Ctx} (h : x.work = y.work) : inWork x = inWork y := (congrArg inWork h : _)

theorem outq_of_work {x y : Ctx} (h : x.work = y.work) : x.outq = y.outq := (congrArg Ctx.outq h : _)

/-- The picture of serial `n`, if it waits, is put out. -/
def putOutSerial (c : Nat) (s : State) (n : Nat) : State :=
  match (s.ctx c).outq.find? fun g => g.serial = n with
  | some g => s.outputPic c g
  | none => s

/-- `t` is `s` after pictures of context `c`, in work on core `k`, were put out. -/
structure PutOut (c typ k : Nat) (s t : State) : Prop where
  kept : CoreKept c (corePage typ k) coreCounters s t
  inWork : inWork (t.ctx c) = inWork (s.ctx c)
  outq : ∀ g ∈ (t.ctx c).outq, g ∈ (s.ctx c).outq

theorem putOut_putOutSerial {c typ k : Nat} {s t : State} (h : PutOut c typ k s t) (ht : (s.ctx c).typ = typ)
    (hq : ∀ g ∈ (s.ctx c).outq, g.core = k) (n : Nat) : PutOut c typ k s (putOutSerial c t n) := by
  unfold putOutSerial
  split
  · next g found =>
    have typT : (t.ctx c).typ = typ := (congrArg Prod.fst h.inWork).trans ht
    have work := work_outputPic t c g
    refine ⟨h.kept.trans (coreKept_outputPic t c g typT (hq g (h.outq g (List.mem_of_find?_eq_some found)))),
      ?_, fun e he => h.outq e ?_⟩
    · rw [inWork_of_work work, ← h.inWork]
      rfl
    · rw [outq_of_work work] at he
      exact List.mem_of_mem_filter he
  · exact h

/-- Pictures that wait are put out in the order given. -/
def putOut (s : State) (c : Nat) (l : List Nat) : State := l.foldl (putOutSerial c) s

theorem putOut_effect {c typ k : Nat} {s : State} (ht : (s.ctx c).typ = typ) (hq : ∀ g ∈ (s.ctx c).outq, g.core = k)
    (l : List Nat) : PutOut c typ k s (s.putOut c l) :=
  List.foldlRecOn (motive := PutOut c typ k s) _ _ ⟨.refl s, rfl, fun _ => id⟩ fun _ h n _ => putOut_putOutSerial h ht hq n

/-- The one picture that waits is put out. -/
theorem putOut_one {c : Nat} {s : State} {g : Flight} (h : (s.ctx c).outq = [g]) :
    s.putOut c [g.serial] = s.outputPic c g := by
  have found : (s.ctx c).outq.find? (fun e => decide (e.serial = g.serial)) = some g := by
    rw [h]
    exact List.find?_cons_of_pos (by simp)
  show putOutSerial c s g.serial = _
  simp only [putOutSerial, found]

/-! ## The commit -/

/-- The context as its next picture `f` commits. -/
def committedCtx (x : Ctx) (f : Flight) (l : List Flight) : Ctx :=
  let x := { x with flight := l, outq := x.outq ++ [{ f with cepoch := x.cepoch }], lastSlot := some f.slot
                    refs := if f.ref then x.refs ++ [(f.serial, f.slot, f.pts)] else x.refs }
  let x := finished x f.start f.stop f.prevPts f.anchor
  if x.typ = 0 ∧ (f.key ∨ f.recovery) then ctxRecover x f.key else x

theorem work_committedCtx (x : Ctx) (f : Flight) (l : List Flight) : (committedCtx x f l).work
    = { x with flight := l, outq := x.outq ++ [{ f with cepoch := x.cepoch }] }.work :=
  ite_keeps Ctx.work (work_ctxRecover ..) rfl

/-- The picture of slot entry `slot` may serve as a reference. -/
def refMarked (s : State) (x : Ctx) (slot : Nat) : State := s.setEntW x slot 0 (s.entW x slot 0 ||| 2 ^ 29)

/-- The next picture in flight commits. -/
def committed (s : State) (c : Nat) (f : Flight) (l : List Flight) : State :=
  let s := s.modCtx c (committedCtx · f l)
  if f.ref then s.refMarked (s.ctx c) f.slot else s

theorem commitDone_nil {s : State} {c : Nat} (h : (s.ctx c).flight = []) (n : Nat) : s.commitDone c n = s := by
  cases n with
  | zero => rfl
  | succ n => simp only [commitDone, h]

theorem commitDone_cons {s : State} {c : Nat} {f : Flight} {l : List Flight} (h : (s.ctx c).flight = f :: l)
    (hd : f.done = true) (hp : dist f.start (s.fpos O.FLM_REL c) ≤ dist (s.unfinished c []) (s.fpos O.FLM_REL c)) (n : Nat) :
    s.commitDone c (n + 1) = (s.committed c f l).commitDone c n := by
  have goes : ¬ ((!f.done) = true ∨ dist (s.unfinished c []) (s.fpos O.FLM_REL c) < dist f.start (s.fpos O.FLM_REL c)) := by
    rw [hd]
    exact not_or.mpr ⟨by decide, not_lt.mpr hp⟩
  rw [commitDone]
  simp only [h]
  rw [if_neg goes]
  rfl

section
variable (s : State) (c : Nat) (f : Flight) (l : List Flight)

theorem coreKept_committed {p : Nat} {offs : List Nat} : CoreKept c p offs s (s.committed c f l) :=
  .ite ((CoreKept.setCtx ..).trans (.setHbm ..)) (.setCtx ..)

theorem ctx_refMarked (x : Ctx) (slot k : Nat) : (s.refMarked x slot).ctx k = s.ctx k := ctx_setHbm ..

theorem ctx_committed : (s.committed c f l).ctx c = committedCtx (s.ctx c) f l :=
  ite_keeps (fun t : State => t.ctx c) ((ctx_refMarked ..).trans (ctx_modCtx_same ..)) (ctx_modCtx_same ..)

end

/-- The only picture in flight, done, with every packet before its own finished, commits and waits for output. -/
theorem commitDone_only {s : State} {c : Nat} {f : Flight} (h : (s.ctx c).flight = [f]) (hd : f.done = true)
    (hp : dist f.start (s.fpos O.FLM_REL c) ≤ dist (s.unfinished c []) (s.fpos O.FLM_REL c)) (n : Nat) :
    s.commitDone c (n + 1) = s.committed c f [] := by
  have work := (congrArg Ctx.work (s.ctx_committed c f [])).trans (work_committedCtx ..)
  rw [commitDone_cons h hd hp, commitDone_nil (Ctx.flight_of_work work)]

end State
end Sys2Proof.Machine
end

section
/-! PROOFS. O30, finishing: a core's result, from its samples to the Blaze. -/
namespace Sys2Proof.Machine
namespace State

/-! ## The steps of a finished picture -/

/-- The cycles of core `k` with a result. -/
def resultTimed (s : State) (typ k : Nat) (r : PicResult) : State :=
  if typ < 2 then s.addBusy (corePage typ k) r.busy else s

/-- A picture as its core leaves it. -/
def doneAs (typ : Nat) (r : PicResult) (f : Flight) : Flight :=
  let isPartial := if typ = 0 then r.blocks ≠ [] else r.lines ≠ []
  { f with done := true, partialPic := isPartial, recovery := r.recovery }

/-- A context with the picture `f` in flight done as `g`. -/
def doneCtx (x : Ctx) (r : PicResult) (f g : Flight) : Ctx :=
  { x with flight := x.flight.map fun (h : Flight) => if h.serial = f.serial then g else h
           biterr := x.biterr + r.biterr }.counted

/-- The picture's samples are in its slot, and it is done. -/
def resultStored (s : State) (typ : Nat) (r : PicResult) (f : Flight) : State :=
  (s.writePic r.ctx f r).setCtx r.ctx (doneCtx (s.ctx r.ctx) r f (doneAs typ r f))

/-- A core counts a picture that it finished. -/
def picCounted (s : State) (typ k : Nat) : State := if typ < 2 then s.incr (corePage typ k) O.DEC_PICS else s

/-- A core counts the bit errors of a result, and its context meets them as a loss. -/
def bitErrors (s : State) (typ k : Nat) (r : PicResult) : State :=
  if r.biterr ≠ 0 then
    let s := if typ < 2 then (s.addReg (corePage typ k) O.DEC_BITERR r.biterr).setCause (corePage typ k) 2 else s
    if typ = 0 then s.modCtx r.ctx ctxLoss else s
  else s

/-- Slots that a result says no later picture names serve no more as references. -/
def dereferenced (s : State) (c : Nat) (l : List Nat) : State :=
  let y := s.ctx c
  (l.foldl (fun s k => s.setEntW y k 0 (clrMask (s.entW y k 0) (2 ^ 29))) s).modCtx c fun x =>
    { x with refs := x.refs.filter fun e => e.2.1 ∉ l }

/-- The rest of a picture once it is done: commit, references, output and the Blaze. -/
def resultShown (s : State) (c : Nat) (r : PicResult) : State :=
  (((s.commitDone c 64).dereferenced c r.unref).putOut c r.out).settle c

/-- A result is taken, its cycles counted. -/
def resultTaken (s : State) (typ k : Nat) (r : PicResult) : State :=
  match (s.ctx r.ctx).flight.find? fun f => f.core = k ∧ !f.done with
  | none => s
  | some f =>
    if (s.ctx r.ctx).typ ≠ typ ∨ (s.ctx r.ctx).cepoch ≠ r.cepoch ∨ (typ = 2 ∧ bitsOf ((s.ctx r.ctx).w 0) 28 4 = 5) then s
    else (((s.resultStored typ r f).picCounted typ k).bitErrors typ k r).resultShown r.ctx r

theorem finishPic_eq (s : State) (typ k : Nat) (r : PicResult) :
    s.finishPic typ k r = (s.resultTimed typ k r).resultTaken typ k r := rfl

/-- The result for the only picture in flight of a context, under its CEPOCH, is taken. -/
theorem resultTaken_of_flight {s : State} {typ k : Nat} {r : PicResult} {f : Flight} (hf : (s.ctx r.ctx).flight = [f])
    (hk : f.core = k) (hd : f.done = false) (ht : (s.ctx r.ctx).typ = typ) (he : r.cepoch.val = (s.ctx r.ctx).cepoch)
    (hb : typ = 2 → bitsOf ((s.ctx r.ctx).w 0) 28 4 ≠ 5) : s.resultTaken typ k r
      = (((s.resultStored typ r f).picCounted typ k).bitErrors typ k r).resultShown r.ctx r := by
  have found : (s.ctx r.ctx).flight.find? (fun g => g.core = k ∧ !g.done) = some f := by
    rw [hf]
    exact List.find?_cons_of_pos (by simp [hk, hd])
  have taken := not_or.mpr ⟨not_not.mpr ht, not_or.mpr ⟨not_not.mpr he.symm, not_and.mpr hb⟩⟩
  unfold resultTaken
  rw [found]
  exact if_neg taken

/-! ## What each step leaves -/

section
variable (s : State) (typ k : Nat) (r : PicResult)

theorem ctxs_wr (p off v : Nat) : (s.wr p off v).ctxs = s.ctxs := rfl

theorem ctxs_resultTimed : (s.resultTimed typ k r).ctxs = s.ctxs :=
  ite_keeps State.ctxs ((ctxs_wr ..).trans (ctxs_wr ..)) rfl

theorem coreKept_resultTimed (c : Nat) : CoreKept c (corePage typ k) coreCounters s (s.resultTimed typ k r) :=
  .ite ((CoreKept.wr s _ (by decide) (by decide)).trans (.wr _ _ (by decide) (by decide))) (.refl s)

theorem ctxs_picCounted : (s.picCounted typ k).ctxs = s.ctxs := ite_keeps State.ctxs (ctxs_wr ..) rfl

theorem coreKept_picCounted (c : Nat) : CoreKept c (corePage typ k) [O.DEC_PICS] s (s.picCounted typ k) :=
  .ite (.wr s _ (by decide) (by decide)) (.refl s)

theorem pics_picCounted (h : typ < 2) :
    (s.picCounted typ k).rd (corePage typ k) O.DEC_PICS = (s.rd (corePage typ k) O.DEC_PICS + 1) % 2 ^ 32 := by
  rw [picCounted, if_pos h, rd_incr_same]

/-- The bit errors counted by the core itself. -/
theorem coreKept_errorsCounted (c : Nat) : CoreKept c (corePage typ k) coreCounters s
    (if typ < 2 then (s.addReg (corePage typ k) O.DEC_BITERR r.biterr).setCause (corePage typ k) 2 else s) :=
  .ite ((CoreKept.wr s _ (by decide) (by decide)).trans (.setCause ..)) (.refl s)

theorem coreKept_bitErrors : CoreKept r.ctx (corePage typ k) coreCounters s (s.bitErrors typ k r) :=
  .ite ((coreKept_errorsCounted ..).trans (.ite (.setCtx ..) (.refl _))) (.refl s)

/-- A loss leaves of a context what a function of it does not see. -/
theorem ctx_bitErrors {α : Type} (v : Ctx → α) (h : ∀ x, v (ctxLoss x) = v x) :
    v ((s.bitErrors typ k r).ctx r.ctx) = v (s.ctx r.ctx) := by
  have counted : (if typ < 2 then (s.addReg (corePage typ k) O.DEC_BITERR r.biterr).setCause (corePage typ k) 2
      else s).ctxs = s.ctxs := ite_keeps State.ctxs ((ctxs_setCause ..).trans (ctxs_wr ..)) rfl
  have same := ctx_of_ctxs counted r.ctx
  unfold bitErrors
  simp only
  generalize (if typ < 2 then (s.addReg (corePage typ k) O.DEC_BITERR r.biterr).setCause (corePage typ k) 2 else s) = t
    at same ⊢
  refine ite_keeps (fun t : State => v (t.ctx r.ctx)) (ite_keeps (fun t : State => v (t.ctx r.ctx)) ?_ ?_) rfl
  · rw [ctx_modCtx_same, h, same]
  · exact congrArg v same

theorem coreKept_resultStored {p : Nat} {offs : List Nat} (f : Flight) :
    CoreKept r.ctx p offs s (s.resultStored typ r f) := (CoreKept.writePic ..).trans (.setCtx ..)

theorem ctx_resultStored {f : Flight} (h : (s.ctx r.ctx).flight = [f]) : (s.resultStored typ r f).ctx r.ctx
    = { s.ctx r.ctx with flight := [doneAs typ r f], biterr := (s.ctx r.ctx).biterr + r.biterr }.counted := by
  rw [resultStored, ctx_setCtx_same, doneCtx, h, List.map_cons, if_pos rfl, List.map_nil]

theorem coreKept_dereferenced {p : Nat} {offs : List Nat} (c : Nat) : CoreKept c p offs s (s.dereferenced c []) := .setCtx ..

theorem work_dereferenced (c : Nat) : ((s.dereferenced c []).ctx c).work = (s.ctx c).work :=
  (congrArg Ctx.work (ctx_modCtx_same ..)).trans rfl

end

end State
end Sys2Proof.Machine
end

section
/-! PROOFS. O30: a core's last picture of a context, and the events of a core. -/
namespace Sys2Proof.Machine
namespace State

/-! ## A result up to its commit -/

/-- The pictures of a context whose only picture in flight, now `g`, has committed. -/
def waitingCtx (x : Ctx) (r : PicResult) (g : Flight) : Ctx :=
  { x with flight := [], biterr := x.biterr + r.biterr, outq := [{ g with cepoch := x.cepoch }] }

/-- `t` is `s` with the result of core `k` for its picture `f`, the only one of its context in flight, not yet committed. -/
structure ResultIn (typ k : Nat) (r : PicResult) (f : Flight) (s t : State) : Prop where
  kept : CoreKept r.ctx (corePage typ k) (O.DEC_PICS :: coreCounters) s t
  pics : typ < 2 → t.rd (corePage typ k) O.DEC_PICS = (s.rd (corePage typ k) O.DEC_PICS + 1) % 2 ^ 32
  work : (t.ctx r.ctx).work
    = { s.ctx r.ctx with flight := [doneAs typ r f], biterr := (s.ctx r.ctx).biterr + r.biterr }.work
  gone : (t.ctx r.ctx).gone = (s.ctx r.ctx).gone

section
variable {s : State} {typ k : Nat} {r : PicResult} {f : Flight}

theorem resultIn_bitErrors (h : (s.ctx r.ctx).flight = [f]) :
    ResultIn typ k r f s ((((s.resultTimed typ k r).resultStored typ r f).picCounted typ k).bitErrors typ k r) := by
  have p := flm_lt_corePage typ k
  have timed := coreKept_resultTimed s typ k r r.ctx
  have ctx := ctx_of_ctxs (ctxs_resultTimed s typ k r) r.ctx
  generalize s.resultTimed typ k r = a at *
  have stored : CoreKept r.ctx (corePage typ k) coreCounters a (a.resultStored typ r f) := coreKept_resultStored ..
  have done := ctx_resultStored a typ r (ctx ▸ h)
  rw [ctx] at done
  generalize a.resultStored typ r f = b at *
  have counted := coreKept_picCounted b typ k r.ctx
  have pics := pics_picCounted b typ k
  have same := ctx_of_ctxs (ctxs_picCounted b typ k) r.ctx
  generalize b.picCounted typ k = d at *
  have errors := coreKept_bitErrors d typ k r
  have work := ctx_bitErrors d typ k r Ctx.work work_ctxLoss
  have gone := ctx_bitErrors d typ k r Ctx.gone gone_ctxLoss
  rw [same, done] at work gone
  have before := timed.trans stored
  refine ⟨((before.mono ?_).trans (counted.mono ?_)).trans (errors.mono ?_), fun h => ?_, work, gone⟩
  · exact fun _ => List.mem_cons_of_mem _
  · exact fun _ m => List.mem_singleton.mp m ▸ List.mem_cons_self
  · exact fun _ => List.mem_cons_of_mem _
  · rw [errors.pics p (by decide), pics h, before.pics p (by decide)]

end

/-- `t` is `s` with the picture of a result committed and waiting for output. -/
structure Waits (typ k : Nat) (r : PicResult) (f : Flight) (s t : State) : Prop where
  kept : CoreKept r.ctx (corePage typ k) (O.DEC_PICS :: coreCounters) s t
  pics : typ < 2 → t.rd (corePage typ k) O.DEC_PICS = (s.rd (corePage typ k) O.DEC_PICS + 1) % 2 ^ 32
  work : (t.ctx r.ctx).work = (waitingCtx (s.ctx r.ctx) r (doneAs typ r f)).work

theorem work_committedCtx_of_work {x y : Ctx} {f : Flight} {r : PicResult} (hq : y.outq = [])
    (h : x.work = { y with flight := [f], biterr := y.biterr + r.biterr }.work) :
    (committedCtx x f []).work = (waitingCtx y r f).work := by
  have same := congrArg (fun x : Ctx => { x with flight := [], outq := x.outq ++ [{ f with cepoch := x.cepoch }] }) h
  have only : { y with flight := [], biterr := y.biterr + r.biterr, outq := y.outq ++ [{ f with cepoch := y.cepoch }] }
      = waitingCtx y r f := by rw [hq, List.nil_append, waitingCtx]
  exact (work_committedCtx x f []).trans (same.trans (congrArg Ctx.work only))

/-- A picture's packets stand first among those not finished: it commits once it is done. -/
theorem waits_of_resultIn {s t : State} {typ k : Nat} {r : PicResult} {f : Flight} (h : ResultIn typ k r f s t)
    (hq : (s.ctx r.ctx).outq = []) (hp : dist f.start (s.fpos O.FLM_REL r.ctx)
      ≤ dist (s.unfinished r.ctx []) (s.fpos O.FLM_REL r.ctx)) :
    Waits typ k r f s ((t.commitDone r.ctx 64).dereferenced r.ctx []) := by
  have p := flm_lt_corePage typ k
  have rel := h.kept.fpos p (a := O.FLM_REL) (by decide) r.ctx.isLt
  have first := unfinished_congr (h.kept.flm r.ctx) rel (h.kept.fpos p (by decide) r.ctx.isLt) h.gone
  rw [commitDone_only (f := doneAs typ r f) (Ctx.flight_of_work h.work) rfl (by rw [first, rel]; exact hp)]
  have committed : CoreKept r.ctx (corePage typ k) [] t (t.committed r.ctx (doneAs typ r f) []) := coreKept_committed ..
  have ctx := t.ctx_committed r.ctx (doneAs typ r f) []
  have work := work_committedCtx_of_work hq h.work
  rw [← ctx] at work
  generalize t.committed r.ctx (doneAs typ r f) [] = u at *
  have kept : CoreKept r.ctx (corePage typ k) [] t (u.dereferenced r.ctx []) := committed.trans (coreKept_dereferenced ..)
  exact ⟨h.kept.trans (kept.mono (by simp)), fun ht => (kept.pics p (by simp)).trans (h.pics ht),
    (work_dereferenced ..).trans work⟩

/-! ## A finished picture -/

/-- What a finished picture, the only one of its context, leaves. -/
structure Finished (typ k : Nat) (r : PicResult) (f : Flight) (s t : State) : Prop where
  kept : PicKept r.ctx s t
  inWork : inWork (t.ctx r.ctx)
    = ((s.ctx r.ctx).typ, [], (s.ctx r.ctx).biterr + r.biterr, (s.ctx r.ctx).mig, (s.ctx r.ctx).closing)
  pics : typ < 2 → t.rd (corePage typ k) O.DEC_PICS = (s.rd (corePage typ k) O.DEC_PICS + 1) % 2 ^ 32
  held : r.out = [] → (t.ctx r.ctx).work = (waitingCtx (s.ctx r.ctx) r (doneAs typ r f)).work
  shown : r.out = [f.serial] → (t.ctx r.ctx).work
      = (shownCtx (waitingCtx (s.ctx r.ctx) r (doneAs typ r f)) { doneAs typ r f with cepoch := (s.ctx r.ctx).cepoch }).work
    ∧ t.sstate (s.ctx r.ctx) f.slot = 2

theorem inWork_waitingCtx (x : Ctx) (r : PicResult) (g : Flight) :
    inWork (waitingCtx x r g) = (x.typ, [], x.biterr + r.biterr, x.mig, x.closing) := rfl

theorem ringBase_of_work {x y : Ctx} (h : x.work = y.work) : ringBase x = ringBase y := (congrArg ringBase h : _)

theorem ringBase_waitingCtx (x : Ctx) (r : PicResult) (g : Flight) : ringBase (waitingCtx x r g) = ringBase x := rfl

theorem work_shownCtx {x y : Ctx} (h : x.work = y.work) (g : Flight) : (shownCtx x g).work = (shownCtx y g).work :=
  (congrArg (shownCtx · g) h : _)

theorem finished_of_waits {s t : State} {typ k : Nat} {r : PicResult} {f : Flight} (h : Waits typ k r f s t)
    (ht : (s.ctx r.ctx).typ = typ) (hk : f.core = k) (hh : (s.flm r.ctx).held = none)
    (hc : (s.ctx r.ctx).cepoch < 16) (hcol : f.colour < 16) :
    Finished typ k r f s ((t.putOut r.ctx r.out).settle r.ctx) := by
  have p := flm_lt_corePage typ k
  have view := (inWork_of_work h.work).trans (inWork_waitingCtx ..)
  have waiting := outq_of_work h.work
  have core : ({ doneAs typ r f with cepoch := (s.ctx r.ctx).cepoch } : Flight).core = k := hk
  have colour : ({ doneAs typ r f with cepoch := (s.ctx r.ctx).cepoch } : Flight).colour < 16 := hcol
  have out := putOut_effect (typ := typ) (k := k) ((congrArg Prod.fst view).trans ht) (fun g hg => by
    rw [waiting] at hg
    rw [List.mem_singleton.mp hg, core]) r.out
  have one : r.out = [f.serial] → ((t.putOut r.ctx r.out).ctx r.ctx).work = (shownCtx (t.ctx r.ctx)
      { doneAs typ r f with cepoch := (s.ctx r.ctx).cepoch }).work
        ∧ (t.putOut r.ctx r.out).sstate (t.ctx r.ctx) f.slot = 2 := fun e => by
    have eq := putOut_one waiting
    rw [e]
    exact ⟨(congrArg (fun v : State => (v.ctx r.ctx).work) eq).trans (work_outputPic ..),
      (congrArg (fun v : State => v.sstate (t.ctx r.ctx) f.slot) eq).trans (sstate_outputPic t r.ctx _ hc colour)⟩
  have none : r.out = [] → t.putOut r.ctx r.out = t := fun e => by rw [e]; rfl
  generalize t.putOut r.ctx r.out = u at *
  have settled := settled_settle u r.ctx.isLt (by rw [out.kept.flm, h.kept.flm, hh])
  refine ⟨(h.kept.kept.trans out.kept.kept).trans settled.kept, ?_, fun typ2 => ?_, fun e => ?_, fun e => ⟨?_, ?_⟩⟩
  · exact (inWork_of_work settled.work).trans (out.inWork.trans view)
  · rw [settled.regs _ _ (by decide) p.ne', out.kept.pics p (by decide), h.pics typ2]
  · rw [settled.work, none e, h.work]
  · rw [settled.work, (one e).1, work_shownCtx h.work]
  · rw [sstate_of_hbm settled.hbm, ← (one e).2]
    exact sstate_of_base u ((ringBase_of_work h.work).trans (ringBase_waitingCtx ..)).symm _

end State
end Sys2Proof.Machine
end

section
/-! PROOFS. O30. -/
namespace Sys2Proof.Machine
namespace State

theorem pics_of_work {x y : Ctx} (h : x.work = y.work) : x.pics = y.pics := (congrArg Ctx.pics h : _)

theorem lastPts_of_work {x y : Ctx} (h : x.work = y.work) : x.lastPts = y.lastPts := (congrArg Ctx.lastPts h : _)

/-- No Kerf stands in any Flume of a context that is listed, nor a packet after a gap or a discontinuity. -/
def quiet (s : State) : Prop := ∀ e ∈ s.ctxs, s.quietFlume e.1

theorem quiet.noKerf {s : State} (h : s.quiet) : s.NoKerf := fun e he m hm => (h e he m hm).1

theorem endMig_of_idle {s : State} {c : Nat} (h : (s.ctx c).mig = none) : s.endMig c = s := by
  unfold endMig
  simp only [h]

/-- A context that is in some state or has a picture in flight is listed. -/
theorem listed_of_ctx_ne {s : State} {c : Nat} (h : s.ctx c ≠ {}) : ∃ x, (c, x) ∈ s.ctxs := mem_of_sget_ne h

/-- A picture in a quiet Flume that a free core may take is taken. -/
theorem takeNext_taken {s : State} {typ k slot : Nat} {p : PicTake} (hq : s.quiet) (hflm : s.running pFlm = true)
    (hhbm : s.hbmReady = true) (hsram : s.sramReady = true) (hm : s.mayTake typ k p = true)
    (hf : s.coreFree typ k = true) (hd : Decodable (s.ctx p.ctx) p) (hn : (s.ctx p.ctx).newCfg = none)
    (hs : s.findSlot p.ctx = some slot) (hh : (s.flm p.ctx).held = none)
    (hr : dist (s.fpos O.FLM_RD p.ctx) (s.fpos O.FLM_REL p.ctx) < dist p.stop.toNat (s.fpos O.FLM_REL p.ctx)) :
    Taken k slot p s (s.takeNext typ k [p]) := by
  have st := hd.decoding
  obtain ⟨x, listed⟩ := listed_of_ctx_ne fun e : s.ctx p.ctx = {} => by
    rw [e] at st
    exact absurd st (by decide)
  have read := readUpTo p.ctx.isLt p.stop.isLt (hq _ listed) hflm hn hr (stop_le_of_mayTake hm) p.newUnit
  obtain ⟨m, ctx⟩ := read.ctx
  rw [takeNext_one hq.noKerf (by rw [st]; decide) hm hf hflm hhbm hsram,
    takePic_of_slot rfl (by rw [ctx]; exact hd.setUnit m) (read.findSlot.trans hs)]
  exact taken_of_readUpTo read hh

/-- A result for the only picture in flight of a context is finished, with its packets first among those unfinished. -/
theorem finishPic_finished {s : State} {typ k : Nat} {r : PicResult} {f : Flight} (ht : (s.ctx r.ctx).typ = typ)
    (hf : (s.ctx r.ctx).flight = [f]) (hk : f.core = k) (hd : f.done = false) (he : r.cepoch.val = (s.ctx r.ctx).cepoch)
    (hb : typ = 2 → bitsOf ((s.ctx r.ctx).w 0) 28 4 ≠ 5) (hq : (s.ctx r.ctx).outq = [])
    (hp : dist f.start (s.fpos O.FLM_REL r.ctx) ≤ dist (s.unfinished r.ctx []) (s.fpos O.FLM_REL r.ctx))
    (hh : (s.flm r.ctx).held = none) (hc : (s.ctx r.ctx).cepoch < 16) (hcol : f.colour < 16) (hu : r.unref = []) :
    Finished typ k r f s (s.finishPic typ k r) := by
  have ctx := ctx_of_ctxs (ctxs_resultTimed s typ k r) r.ctx
  rw [finishPic_eq, resultTaken_of_flight (by rw [ctx]; exact hf) hk hd (by rw [ctx]; exact ht) (by rw [ctx]; exact he)
    (by rw [ctx]; exact hb), resultShown, hu]
  exact finished_of_waits (waits_of_resultIn (resultIn_bitErrors hf) hq hp) ht hk hh hc hcol

/-- After a finished picture nothing is left to do: its context neither moves nor closes, and no core takes another. -/
theorem Finished.rest {typ k : Nat} {r : PicResult} {f : Flight} {s t : State} (h : Finished typ k r f s t) (hs : s.quiet)
    (hf : (s.ctx r.ctx).flight = [f]) (hm : (s.ctx r.ctx).mig = none) (hc : (s.ctx r.ctx).closing = none) :
    ((t.endMig r.ctx).tryClose r.ctx).takeNext typ k [] = t := by
  obtain ⟨-, -, -, mig, closing⟩ := of_inWork h.inWork
  have listed := listed_of_ctx_ne fun e : s.ctx r.ctx = {} => by
    rw [e] at hf
    exact absurd hf (List.cons_ne_nil _ _).symm
  rw [endMig_of_idle (mig.trans hm), tryClose_of_open (closing.trans hc), takeNext_nil (h.kept.noKerf hs.noKerf listed)]

end State

/-- Settles O30: RD passes a picture's packets as it goes in flight in the slot that was to be had; a finished picture, the
only one in flight with its packets first among those unfinished, commits, and leaves the output queue READY. -/
theorem decodersTakeCommitAndOutputPictures : Obligations.DecodersTakeCommitAndOutputPictures := by
  unfold Obligations.DecodersTakeCommitAndOutputPictures
  refine ⟨fun k u p slot s ha hq hflm hhbm hsram hm hf hst hn hc hmis hstr hw hh hring href hs hheld hr => ?_,
    fun k u r f s ha hq ht hf hk hd hc hmig he hb _ hp hout hheld hce hcol hun => ?_⟩
  · have run : exec (.pictureDecoded k u none [p]) s
        = act (if k.val = 1 then .xsd else .dec) (fun s => (s.takeNext k u [p]).tryClose p.ctx) s := rfl
    have taken := State.takeNext_taken hq hflm hhbm hsram hm hf ⟨hst, hmis, hstr, ⟨hw, hh⟩, hring, href⟩ hn hs hheld hr
    rw [run]
    refine act_next ha fun t eq => ?_
    rw [State.tryClose_of_open (taken.closing.trans hc)] at eq
    rw [← eq] at taken
    exact ⟨taken.flying, taken.length, taken.busy, taken.rd, taken.kept.host, taken.kept.others⟩
  · have run : exec (.pictureDecoded k u (some r) []) s = act (if k.val = 1 then .xsd else .dec)
        (fun s => (((s.finishPic k u r).endMig r.ctx).tryClose r.ctx).takeNext k u []) s := rfl
    have done := State.finishPic_finished ht hf hk hd he hb hout hp hheld hce hcol hun
    rw [run]
    refine act_next ha fun t eq => ?_
    rw [done.rest hq hf hmig hc] at eq
    rw [← eq] at done
    obtain ⟨-, flight, errors, -, -⟩ := State.of_inWork done.inWork
    refine ⟨flight, errors, done.kept.host, done.kept.others, done.pics, fun e => ?_, fun e => ?_⟩
    · have held := done.held e
      exact ⟨(State.pics_of_work held).trans rfl, congrArg (List.map fun g => (g.serial, g.slot, g.done)) (State.outq_of_work held)⟩
    · obtain ⟨shown, ready⟩ := done.shown e
      refine ⟨(State.pics_of_work shown).trans rfl, (State.lastPts_of_work shown).trans rfl, (State.outq_of_work shown).trans ?_, ready⟩
      exact List.filter_eq_nil_iff.mpr fun g hg => by
        rw [List.mem_singleton.mp hg]
        exact fun e => absurd rfl (of_decide_eq_true e)

end Sys2Proof.Machine
end

section
/-! PROOFS. O31 fails, as O28 does, at a store of contexts that lists a context twice: the end of a context's migration has
every free encode core start its next picture, and the cores find their contexts by the entries of the store, where a
context is read by its first entry. On a store in canonical form that service starts nothing (`encServeAll_of_canonical`),
so the counterexample is again a matter of the statement's range of states. -/
namespace Sys2Proof.Machine
open State

/-- The decode context 7 of `doubledCtx` migrates to decode core 0, which is in service. -/
def migratingCtx : State :=
  (doubledCtx.wr pDec O.PAGE_STAT 2).modCtx 7 fun x => { x with mig := some ⟨[0], none⟩ }

theorem migratingCtx_typ (k : Nat) : (migratingCtx.ctx k).typ ≠ 3 := by
  by_cases h : k = 7
  · subst h
    rw [migratingCtx, ctx_modCtx_same]
    exact doubledCtx_typ 7
  · rw [migratingCtx, modCtx, ctx_setCtx_other _ _ h]
    exact doubledCtx_typ k

/-- The picture of context 5 is started by the end of context 7's migration. -/
theorem migrationEnd_starts_migratingCtx :
    ((after (.normalMigration 7) migratingCtx).ctx 5).enc.pic.map (·.started)
      ≠ (migratingCtx.ctx 5).enc.pic.map (·.started) := by
  decide

/-- Refutes O31: the NORMAL_MIGRATION of context 7 starts the picture of context 5, which the store of contexts lists
twice. -/
theorem not_codecContextsReportMigrateAndFail : ¬ Obligations.CodecContextsReportMigrateAndFail := by
  unfold Obligations.CodecContextsReportMigrateAndFail
  rintro ⟨-, -, migration, -⟩
  obtain ⟨t, ht, -, -, -, others, -⟩ := migration 7 ⟨[0], none⟩ migratingCtx (by decide) (by decide) (by decide) (by decide)
    (fun k h => absurd h (migratingCtx_typ k)) (by decide) (by decide)
  have unchanged : t.ctx 5 = migratingCtx.ctx 5 := others 5 (by decide)
  have reached : after (.normalMigration 7) migratingCtx = t := by rw [after, ht]
  exact migrationEnd_starts_migratingCtx (by rw [reached, unchanged])

end Sys2Proof.Machine
end

section
/-! PROOFS. O56, shared pictures: what the source of a share sends, and what a sink makes of a picture or a CLOSE (R428,
R429). -/
namespace Sys2Proof.Machine
namespace State

/-! ## The source -/

/-- The picture in slot `k` of a share's source context, as it is sent. -/
def sharedPicture (s : State) (n k : Nat) : Output :=
  let x := s.ctx (bitsOf (s.shCfg n) 0 9)
  .share n (s.rd64 pStd (shr O.STD_SH_DEST_LO n))
    ((List.range 8).map (fun i => s.entW x k i) ++ [x.width, x.height, ringFormat x])
    ((List.range x.height).map fun i => s.hbmBytes (picAddr x k + i * x.pitch) (lineBytes (ringFormat x) x.width))

section
variable {s : State} {n : Nat}

theorem shareOut_of_no_source (slot : Option Nat)
    (h : bitOf (s.shCfg n) 31 = false ∨ bitOf (s.shCfg n) 30 = true ∨ s.running pStd = false) : s.shareOut n slot = s := by
  unfold shareOut
  exact if_pos (by simpa using h)

variable (he : bitOf (s.shCfg n) 31 = true) (hs : bitOf (s.shCfg n) 30 = false) (hr : s.running pStd = true)
include he hs hr

theorem shareOut_of_closed (hc : (s.ctx (bitsOf (s.shCfg n) 0 9)).isOpen = false) :
    s.shareOut n none = s.emit (.shareClose n) := by
  unfold shareOut
  simp only
  rw [if_neg (by simp [he, hs, hr]), if_neg (by simp [hc])]

theorem shareOut_of_ready {k : Nat} (ho : (s.ctx (bitsOf (s.shCfg n) 0 9)).isOpen = true)
    (ht : (s.ctx (bitsOf (s.shCfg n) 0 9)).typ ≠ 3) (hk : k < ringSlots (s.ctx (bitsOf (s.shCfg n) 0 9)))
    (hready : s.sstate (s.ctx (bitsOf (s.shCfg n) 0 9)) k = 2) :
    s.shareOut n (some k) = (s.incr pStd (shr O.STD_SH_PICS n)).emit (s.sharedPicture n k) := by
  unfold shareOut
  simp only
  rw [if_neg (by simp [he, hs, hr]), if_neg (by simp [ho, ht, hk, hready])]
  rfl

end

theorem mems_shareOut (s : State) (n : Nat) (slot : Option Nat) : (s.shareOut n slot).mems = s.mems := by
  unfold shareOut
  refine ite_keeps mems rfl ?_
  cases slot with
  | none => exact ite_keeps mems rfl rfl
  | some k => exact ite_keeps mems rfl rfl

/-! ## The sink -/

/-- `t` is `s` but for the bytes of HBM. -/
def HbmOnly (s t : State) : Prop := t = { s with hbm := t.hbm }

namespace HbmOnly

variable {s t u : State}

theorem refl (s : State) : HbmOnly s s := rfl

theorem trans (h : HbmOnly s t) (k : HbmOnly t u) : HbmOnly s u := by
  have e : u = { t with hbm := u.hbm } := k
  rw [h] at e
  exact e

theorem setHbm (s : State) (a : Nat) (l : List Byte) : HbmOnly s (s.setHbm a l) := rfl

theorem eq (h : HbmOnly s t) : t = { s with hbm := t.hbm } := h

theorem host (h : HbmOnly s t) : t.host = s.host := (congrArg State.host h.eq).trans rfl
theorem shares (h : HbmOnly s t) : t.shares = s.shares := (congrArg State.shares h.eq).trans rfl

theorem rd (h : HbmOnly s t) (p off : Nat) : t.rd p off = s.rd p off :=
  (congrArg (fun w : State => w.rd p off) h.eq).trans rfl

end HbmOnly

theorem host_setShareRing (s : State) (n : Nat) (x : Ctx) : (s.setShareRing n x).host = s.host := rfl
theorem rd_setShareRing (s : State) (n : Nat) (x : Ctx) (p off : Nat) : (s.setShareRing n x).rd p off = s.rd p off := rfl

/-- Lines, entry and ring header of a shared picture, written. -/
def sharePainted (s : State) (slot : Nat) (x : Ctx) (p : SharePic) : State :=
  let w (i : Nat) : Nat := (p.entry.getD i 0).toNat
  (((s.putLines x slot p.lines).setHbm (entAddr x slot) ((List.range 8).map fun i => leBytes 4 (w i)).flatten).setEntW x slot 0
    (putBits (putBits (w 0) 30 2 2) 29 1 0)).ringWord0 x true true

/-- A shared picture counted READY in the sink's ring. -/
def shareCounted (s : State) (n slot : Nat) (x : Ctx) (p : SharePic) : State :=
  ((s.sharePainted slot x p).setShareRing n x).incr pStd (shr O.STD_SH_PICS n)

/-- A part of the state that LATE's counters are not of is that of the picture counted. -/
theorem sharePut_keeps {γ : Type} (v : State → γ) (s : State) (n slot : Nat) (x : Ctx) (p : SharePic)
    (h : ∀ t : State, v ((t.incr pStd (shr O.STD_SH_LATE n)).incr pStd O.STD_CNT_SH_LATE) = v t) :
    v (s.sharePut n slot x p) = v (s.shareCounted n slot x p) := ite_keeps v (h _) rfl

section
variable (s : State) (n slot : Nat) (x : Ctx) (p : SharePic)

theorem hbmOnly_putLines (ls : List (List Byte)) : HbmOnly s (s.putLines x slot ls) := by
  unfold putLines
  generalize ls.zipIdx = l
  induction l generalizing s with
  | nil => exact .refl s
  | cons e l ih => exact (HbmOnly.setHbm s ..).trans (ih _)

theorem hbmOnly_sharePainted : HbmOnly s (s.sharePainted slot x p) :=
  (((hbmOnly_putLines s slot x p.lines).trans (.setHbm ..)).trans (.setHbm ..)).trans (.setHbm ..)

theorem sstate_sharePainted : (s.sharePainted slot x p).sstate x slot = 2 := by
  unfold sharePainted
  simp only
  rw [sstate, entW_ringWord0 _ _ _ _ _ _ _ rfl, entW_setEntW_same]
  refine (bitsOf_mod _ _ _ (by decide)).trans ?_
  exact (bitsOf_putBits_other _ _ _ _ _ _ (by decide)).trans (bitsOf_putBits_same ..)

theorem host_shareCounted : (s.shareCounted n slot x p).host = s.host :=
  ((incr_host ..).trans (host_setShareRing ..)).trans (hbmOnly_sharePainted s slot x p).host

theorem host_sharePut : (s.sharePut n slot x p).host = s.host :=
  (sharePut_keeps State.host s n slot x p fun _ => (incr_host ..).trans (incr_host ..)).trans (host_shareCounted ..)

theorem shareRing_of_shares {t u : State} (h : u.shares = t.shares) (n : Nat) : u.shareRing n = t.shareRing n := by
  rw [shareRing, shareRing, h]

theorem shareRing_setShareRing (t : State) : (t.setShareRing n x).shareRing n = x := sget_sset_same ..

theorem shareRing_sharePut : (s.sharePut n slot x p).shareRing n = x := by
  have put : (s.sharePut n slot x p).shares = (s.shareCounted n slot x p).shares :=
    sharePut_keeps State.shares s n slot x p fun _ => (incr_shares ..).trans (incr_shares ..)
  exact (shareRing_of_shares (put.trans (incr_shares ..)) n).trans (shareRing_setShareRing ..)

theorem sstate_sharePut : (s.sharePut n slot x p).sstate x slot = 2 := by
  have counted : (s.shareCounted n slot x p).hbm = (s.sharePainted slot x p).hbm := incr_hbm ..
  have put : (s.sharePut n slot x p).hbm = (s.shareCounted n slot x p).hbm :=
    sharePut_keeps State.hbm s n slot x p fun _ => (incr_hbm ..).trans (incr_hbm ..)
  exact (sstate_of_hbm (put.trans counted) x slot).trans (sstate_sharePainted s slot x p)

theorem pics_sharePut : (s.sharePut n slot x p).rd pStd (shr O.STD_SH_PICS n)
    = (s.rd pStd (shr O.STD_SH_PICS n) + 1) % 2 ^ 32 := by
  have late : ∀ t : State, ((t.incr pStd (shr O.STD_SH_LATE n)).incr pStd O.STD_CNT_SH_LATE).rd pStd (shr O.STD_SH_PICS n)
      = t.rd pStd (shr O.STD_SH_PICS n) := fun t => by
    rw [incr, addReg, rd_wr_off _ _ (by simp only [shr, O.STD_SH_PICS, O.STD_CNT_SH_LATE]; omega), incr, addReg,
      rd_wr_off _ _ (by simp only [shr, O.STD_SH_PICS, O.STD_SH_LATE]; omega)]
  rw [sharePut_keeps (fun t => t.rd pStd (shr O.STD_SH_PICS n)) s n slot x p late, shareCounted, rd_incr_same,
    rd_setShareRing, (hbmOnly_sharePainted s slot x p).rd]

theorem drops_shareDrop : (s.shareDrop n).rd pStd (shr O.STD_SH_DROP n) = (s.rd pStd (shr O.STD_SH_DROP n) + 1) % 2 ^ 32
    ∧ (s.shareDrop n).rd pStd O.STD_CNT_SH_DROP = (s.rd pStd O.STD_CNT_SH_DROP + 1) % 2 ^ 32 := by
  have apart : shr O.STD_SH_DROP n ≠ O.STD_CNT_SH_DROP := by simp only [shr, O.STD_SH_DROP, O.STD_CNT_SH_DROP]; omega
  unfold shareDrop
  refine ⟨?_, ?_⟩
  · rw [incr, addReg, rd_wr_off _ _ apart, rd_incr_same]
  · rw [rd_incr_same, incr, addReg, rd_wr_off _ _ apart.symm]

theorem host_shareDrop : (s.shareDrop n).host = s.host := (incr_host ..).trans (incr_host ..)

theorem shares_shareDrop : (s.shareDrop n).shares = s.shares := (incr_shares ..).trans (incr_shares ..)

theorem host_emptyShare : (s.emptyShare n).host = s.host :=
  ite_keeps (fun t : State => (t.setShareRing n {}).host) rfl rfl

theorem shareRing_emptyShare : (s.emptyShare n).shareRing n = {} := shareRing_setShareRing ..

/-- A sink's ring that is EMPTY opens before a picture is put into it. -/
def sinkOpened : State := if (s.shareRing n).isOpen = true then s else s.ringWord0 x false true

theorem hbmOnly_sinkOpened : HbmOnly s (s.sinkOpened n x) := by
  unfold sinkOpened
  split
  · exact .refl s
  · exact .setHbm ..

end

theorem shareIn_of_no_sink {s : State} {n src : Nat} (pic : Option SharePic)
    (h : bitOf (s.shCfg n) 31 = false ∨ bitOf (s.shCfg n) 30 = false ∨ bitsOf (s.shCfg n) 16 6 ≠ src ∨ s.running pStd = false) :
    s.shareIn n src pic = s := by
  unfold shareIn
  exact if_pos (by simpa using h)

section
variable {s : State} {n src : Nat} (he : bitOf (s.shCfg n) 31 = true) (hs : bitOf (s.shCfg n) 30 = true)
  (hsrc : bitsOf (s.shCfg n) 16 6 = src) (hr : s.running pStd = true)
include he hs hsrc hr

theorem shareIn_close : s.shareIn n src none = s.emptyShare n := by
  unfold shareIn
  exact if_neg (by simp [he, hs, hsrc, hr])

theorem shareIn_picture (p : SharePic) : s.shareIn n src (some p)
    = match (s.sinkOpened n (s.sinkRing n p)).sinkSlot n (s.sinkRing n p) with
      | none => (s.sinkOpened n (s.sinkRing n p)).shareDrop n
      | some slot =>
        if p.complete then (s.sinkOpened n (s.sinkRing n p)).sharePut n slot (s.sinkRing n p) p
        else (s.sinkOpened n (s.sinkRing n p)).shareDrop n := by
  unfold shareIn
  exact if_neg (by simp [he, hs, hsrc, hr])

theorem shareIn_put {p : SharePic} {k : Nat} (hk : (s.sinkOpened n (s.sinkRing n p)).sinkSlot n (s.sinkRing n p) = some k)
    (hp : p.complete = true) :
    s.shareIn n src (some p) = (s.sinkOpened n (s.sinkRing n p)).sharePut n k (s.sinkRing n p) p := by
  rw [shareIn_picture he hs hsrc hr, hk]
  exact if_pos hp

theorem shareIn_drop {p : SharePic}
    (h : (s.sinkOpened n (s.sinkRing n p)).sinkSlot n (s.sinkRing n p) = none ∨ p.complete = false) :
    s.shareIn n src (some p) = (s.sinkOpened n (s.sinkRing n p)).shareDrop n := by
  rw [shareIn_picture he hs hsrc hr]
  split
  · rfl
  next hk => exact if_neg (by simpa [hk] using h)

end

theorem host_shareIn (s : State) (n src : Nat) (pic : Option SharePic) : (s.shareIn n src pic).host = s.host := by
  by_cases h : bitOf (s.shCfg n) 31 = false ∨ bitOf (s.shCfg n) 30 = false ∨ bitsOf (s.shCfg n) 16 6 ≠ src
      ∨ s.running pStd = false
  · rw [shareIn_of_no_sink pic h]
  · simp only [not_or, Bool.not_eq_false, not_not] at h
    obtain ⟨he, hs, hsrc, hr⟩ := h
    cases pic with
    | none => rw [shareIn_close he hs hsrc hr, host_emptyShare]
    | some p =>
      rw [shareIn_picture he hs hsrc hr]
      have opened := (hbmOnly_sinkOpened s n (s.sinkRing n p)).host
      have dropped := (host_shareDrop (s.sinkOpened n (s.sinkRing n p)) n).trans opened
      split
      · exact dropped
      · exact ite_keeps State.host ((host_sharePut ..).trans opened) dropped

end State
end Sys2Proof.Machine
end

section
/-! PROOFS. O56, the registers of the stand: what a missed operation, isolation, a new parent and a lost link change (R425,
R426). -/
namespace Sys2Proof.Machine
namespace State

/-! ## Changes of one page -/

/-- `t` has the memories, the fault state and, from the ports' pages on, the registers of `s`, but those of page `p` at
`offs`. -/
structure StandKept (p : Nat) (offs : List Nat) (s t : State) : Prop where
  mems : t.mems = s.mems
  flt : t.flt = s.flt
  regs : ∀ q off, pNet ≤ q → off < 0x10000 → (q = p → off ∉ offs) → t.rd q off = s.rd q off

namespace StandKept

variable {p : Nat} {offs : List Nat} {s t u : State}

theorem refl (p : Nat) (offs : List Nat) (s : State) : StandKept p offs s s := ⟨rfl, rfl, fun _ _ _ _ _ => rfl⟩

theorem trans (h : StandKept p offs s t) (k : StandKept p offs t u) : StandKept p offs s u :=
  ⟨k.mems.trans h.mems, k.flt.trans h.flt, fun q off hq ho hp => (k.regs q off hq ho hp).trans (h.regs q off hq ho hp)⟩

theorem wr (s : State) {off : Nat} (v : Nat) (hm : off ∈ offs) (ho : off < 0x10000) : StandKept p offs s (s.wr p off v) :=
  ⟨mems_wr .., wr_flt .., fun q o _ => (PageRegs.wr s v hm ho).regs q o⟩

theorem setCause (s : State) (m : Nat) (hm : O.INT_CAUSE ∈ offs) : StandKept p offs s (s.setCause p m) := by
  refine ⟨setCause_mems .., setCause_flt .., fun q off hq ho hp => rd_setCause_other ho ?_⟩
  by_cases hc : off = O.INT_CAUSE
  · have other : q ≠ p := fun e => hp e (hc ▸ hm)
    subst hc
    have eic : q ≠ pEic := by rintro rfl; exact absurd hq (by decide)
    simp [sigReg, other, eic, O.INT_CAUSE, O.HIF_PBA]
  · exact sigReg_of_ge hq hc

theorem setStand (p : Nat) (offs : List Nat) (s : State) (x : Stand) : StandKept p offs s { s with stand := x } :=
  ⟨rfl, rfl, fun _ _ _ _ _ => rfl⟩

theorem startGlob (p : Nat) (offs : List Nat) (s : State) (c : Cond) : StandKept p offs s (s.startGlob c) :=
  ⟨ite_keeps State.mems rfl rfl, flt_startGlob .., fun _ _ _ _ _ => rd_startGlob ..⟩

theorem emit (p : Nat) (offs : List Nat) (s : State) (o : Output) : StandKept p offs s (s.emit o) :=
  ⟨rfl, rfl, fun _ _ _ _ _ => rfl⟩

theorem ite {c : Prop} [Decidable c] (h : StandKept p offs s t) (k : StandKept p offs s u) :
    StandKept p offs s (if c then t else u) := by
  split
  · exact h
  · exact k

/-- A register of another page. -/
theorem rd_other (h : StandKept p offs s t) {q off : Nat} (hq : pNet ≤ q) (hp : q ≠ p) (ho : off < 0x10000) :
    t.rd q off = s.rd q off := h.regs q off hq ho fun e => absurd e hp

/-- A register of the stand's page that is not named. -/
theorem rd_std (h : StandKept p offs s t) {off : Nat} (hp : p = pStd → off ∉ offs) (ho : off < 0x10000) :
    t.rd pStd off = s.rd pStd off := h.regs _ _ (by decide) ho fun e => hp e.symm

variable (h : StandKept p offs s t) (hp : p = pStd → O.STD_STAT ∉ offs)
include h hp

theorem isMember : t.isMember = s.isMember := isMember_congr h.flt (h.rd_std hp (by decide))
theorem stdState : t.stdState = s.stdState := fld_of_rd _ _ (h.rd_std hp (by decide))
theorem ownEngine : t.ownEngine = s.ownEngine := fld_of_rd _ _ (h.rd_std hp (by decide))

end StandKept

theorem black_setCause (s : State) (p m : Nat) : (s.setCause p m).black = s.black :=
  (congrArg State.black (setCause_rest s p m)).trans rfl

theorem stand_setCause (s : State) (p m : Nat) : (s.setCause p m).stand = s.stand :=
  (congrArg State.stand (setCause_rest s p m)).trans rfl

theorem stand_startGlob (s : State) (c : Cond) : (s.startGlob c).stand = s.stand := ite_keeps State.stand rfl rfl

theorem rd_setStand (s : State) (x : Stand) (p off : Nat) : State.rd { s with stand := x } p off = s.rd p off := rfl
theorem rd_setCrn (s : State) (k : Nat) (c : CrnSt) (p off : Nat) : (s.setCrn k c).rd p off = s.rd p off := rfl
theorem crn_setCrn_same (s : State) (k : Nat) (c : CrnSt) : (s.setCrn k c).crn k = c := sget_sset_same ..

/-- Another bit of the same register. -/
theorem bit_setBit_other (s : State) (p off : Nat) {b i : Nat} (v : Bool) (hi : i < 32) (h : i ≠ b) :
    (s.setBit p off b v).bit p off i = s.bit p off i := bit_setFld_other s _ hi (by omega)

/-- A register of the stand's page that is no cause, after causes are set on any page. -/
theorem rd_std_setCause (s : State) (p m : Nat) {off : Nat} (ho : off < 0x10000) (h : off ≠ O.INT_CAUSE) :
    (s.setCause p m).rd pStd off = s.rd pStd off := rd_setCause_other ho (sigReg_of_ge (by decide) h)

/-! ## A missed operation (R425) -/

/-- The registers and conditions of an engine that has missed the stand's state. -/
def missedMarked (s : State) : State :=
  ((s.setBit pStd O.STD_FLAGS 3 true).incr pStd O.STD_CNT_MISSED).startGlob .missed

theorem missedOp_of_missed {s : State} (h : s.bit pStd O.STD_FLAGS 3 = true) : s.missedOp = s := if_pos h

theorem missedOp_of_not_missed {s : State} (h : s.bit pStd O.STD_FLAGS 3 = false) :
    s.missedOp = (s.missedMarked.setCause pStd 8).emit (.missedReport (s.missedMarked.setCause pStd 8).ownEngine) := by
  unfold missedOp
  rw [h]
  rfl

/-- The registers of the stand's page that a missed operation changes. -/
def missedRegs : List Nat := [O.STD_FLAGS, O.STD_CNT_MISSED, O.INT_CAUSE]

theorem standKept_missedMarked (s : State) : StandKept pStd missedRegs s s.missedMarked :=
  ((StandKept.wr s _ (by decide) (by decide)).trans (.wr _ _ (by decide) (by decide))).trans (.startGlob ..)

theorem standKept_missedOp (s : State) : StandKept pStd missedRegs s s.missedOp := by
  cases h : s.bit pStd O.STD_FLAGS 3
  · rw [missedOp_of_not_missed h]
    exact ((standKept_missedMarked s).trans (.setCause _ _ (by decide))).trans (.emit ..)
  · rw [missedOp_of_missed h]
    exact .refl ..

theorem black_missedOp {s : State} (h : s.bit pStd O.STD_FLAGS 3 = false) : s.missedOp.black = s.missedMarked.black := by
  rw [missedOp_of_not_missed h]
  exact (emit_black ..).trans (black_setCause ..)

theorem stand_missedMarked (s : State) : s.missedMarked.stand = s.stand :=
  (stand_startGlob ..).trans ((incr_stand ..).trans (setBit_stand ..))

theorem stand_missedOp (s : State) : s.missedOp.stand = s.stand := by
  cases h : s.bit pStd O.STD_FLAGS 3
  · rw [missedOp_of_not_missed h, emit_stand, stand_setCause, stand_missedMarked]
  · rw [missedOp_of_missed h]

theorem mem_missedMarked {s : State} {c : Cond} (h : c = .missed ∨ c ∈ s.black.glob) : c ∈ s.missedMarked.black.glob :=
  mem_startGlob _ _ _ (h.imp_right fun hc => by rwa [incr_black, setBit_black])

/-- A condition of BLACK that stands still does. -/
theorem mem_missedOp {s : State} {c : Cond} (hc : c ∈ s.black.glob) : c ∈ s.missedOp.black.glob := by
  cases h : s.bit pStd O.STD_FLAGS 3
  · rw [black_missedOp h]
    exact mem_missedMarked (.inr hc)
  · rwa [missedOp_of_missed h]

theorem rd_flags_missedMarked (s : State) : s.missedMarked.rd pStd O.STD_FLAGS
    = (s.setBit pStd O.STD_FLAGS 3 true).rd pStd O.STD_FLAGS := by
  rw [missedMarked, rd_startGlob, incr, addReg, rd_wr_off _ _ (by decide)]

theorem rd_flags_missedOp {s : State} (h : s.bit pStd O.STD_FLAGS 3 = false) : s.missedOp.rd pStd O.STD_FLAGS
    = (s.setBit pStd O.STD_FLAGS 3 true).rd pStd O.STD_FLAGS := by
  rw [missedOp_of_not_missed h]
  exact (rd_std_setCause _ _ _ (by decide) (by decide)).trans (rd_flags_missedMarked s)

theorem missed_missedOp (s : State) : s.missedOp.bit pStd O.STD_FLAGS 3 = true := by
  cases h : s.bit pStd O.STD_FLAGS 3
  · rw [bit_of_rd _ (rd_flags_missedOp h), bit_setBit_same _ _ _ _ _ (by decide)]
  · rwa [missedOp_of_missed h]

theorem flag_missedOp_other (s : State) {b : Nat} (hb : b < 32) (h3 : b ≠ 3) :
    s.missedOp.bit pStd O.STD_FLAGS b = s.bit pStd O.STD_FLAGS b := by
  cases h : s.bit pStd O.STD_FLAGS 3
  · rw [bit_of_rd _ (rd_flags_missedOp h), bit_setBit_other _ _ _ _ hb h3]
  · rw [missedOp_of_missed h]

theorem rd_cause_missedMarked (s : State) : s.missedMarked.rd pStd O.INT_CAUSE = s.rd pStd O.INT_CAUSE := by
  rw [missedMarked, rd_startGlob, incr, addReg, rd_wr_off _ _ (by decide), rd_setBit_off _ _ _ (by decide)]

/-- The causes are those that stood, with MISSED where the operation is missed now. -/
theorem cause_missedOp {s : State} (h : s.bit pStd O.STD_FLAGS 3 = false) {b : Nat} (hb : b < 32) :
    s.missedOp.bit pStd O.INT_CAUSE b = (s.bit pStd O.INT_CAUSE b || bitOf 8 b) := by
  rw [missedOp_of_not_missed h]
  refine Eq.trans (bit_setCause _ _ (by decide) hb) ?_
  rw [bit_of_rd _ (rd_cause_missedMarked s)]

/-- A cause that stands still does. -/
theorem cause_missedOp_of_set {s : State} {b : Nat} (hb : b < 32) (hc : s.bit pStd O.INT_CAUSE b = true) :
    s.missedOp.bit pStd O.INT_CAUSE b = true := by
  cases h : s.bit pStd O.STD_FLAGS 3
  · rw [cause_missedOp h hb, hc, Bool.true_or]
  · rwa [missedOp_of_missed h]

/-- An operation missed for the first time is counted and reported. -/
theorem missedOp_effect {s : State} (h : s.bit pStd O.STD_FLAGS 3 = false) :
    s.missedOp.rd pStd O.STD_CNT_MISSED = (s.rd pStd O.STD_CNT_MISSED + 1) % 2 ^ 32
    ∧ Cond.missed ∈ s.missedOp.black.glob ∧ s.missedOp.bit pStd O.INT_CAUSE 3 = true
    ∧ .missedReport s.ownEngine ∈ s.missedOp.out := by
  refine ⟨?_, ?_, ?_, ?_⟩
  · rw [missedOp_of_not_missed h]
    refine Eq.trans (rd_std_setCause _ _ _ (by decide) (by decide)) ?_
    rw [missedMarked, rd_startGlob, rd_incr_same, rd_setBit_off _ _ _ (by decide)]
  · rw [black_missedOp h]
    exact mem_missedMarked (.inl rfl)
  · rw [cause_missedOp h (by decide)]
    exact Bool.or_true _
  · have own : (s.missedMarked.setCause pStd 8).ownEngine = s.ownEngine :=
      ((standKept_missedMarked s).trans (.setCause _ _ (by decide))).ownEngine fun _ => by decide
    rw [missedOp_of_not_missed h, own]
    exact List.mem_cons_self

/-! ## Isolation (R426) -/

/-- The registers of an engine that finds no path to the lead. -/
def isolateMarked (s : State) : State :=
  ((((({ s with stand := { s.stand with lostParent := none } } : State).setStdState 3).setBit pStd O.STD_FLAGS 4 true).setBit
    pStd O.STD_FLAGS 2 true).incr pStd O.STD_CNT_ISOLATED)

/-- The registers of the stand's page that isolation changes. -/
def isolateRegs : List Nat := [O.STD_STAT, O.STD_FLAGS, O.STD_CNT_ISOLATED, O.INT_CAUSE]

/-- From `s` to `t` a member is isolated: ISOLATED, with time held, counted and its cause raised. -/
def Isolates (s t : State) : Prop :=
  t.stdState = 3 ∧ t.bit pStd O.STD_FLAGS 4 = true ∧ t.bit pStd O.STD_FLAGS 2 = true
    ∧ t.rd pStd O.STD_CNT_ISOLATED = (s.rd pStd O.STD_CNT_ISOLATED + 1) % 2 ^ 32 ∧ t.bit pStd O.INT_CAUSE 4 = true

theorem Isolates.of_count {s u t : State} (h : Isolates u t)
    (hc : u.rd pStd O.STD_CNT_ISOLATED = s.rd pStd O.STD_CNT_ISOLATED) : Isolates s t := by
  obtain ⟨state, flag, held, count, cause⟩ := h
  exact ⟨state, flag, held, hc ▸ count, cause⟩

theorem standKept_isolateMarked (s : State) : StandKept pStd isolateRegs s s.isolateMarked :=
  ((((StandKept.setStand _ _ s _).trans (.wr _ _ (by decide) (by decide))).trans (.wr _ _ (by decide) (by decide))).trans
    (.wr _ _ (by decide) (by decide))).trans (.wr _ _ (by decide) (by decide))

theorem standKept_isolate (s : State) : StandKept pStd isolateRegs s s.isolate :=
  .ite (.refl ..) ((standKept_isolateMarked s).trans (.setCause _ _ (by decide)))

theorem isolate_of_formed {s : State} (hm : s.isMember = true) (hs : s.stdState = 2) :
    s.isolate = s.isolateMarked.setCause pStd 0x10 := if_neg (by simp [hm, hs])

theorem isolate_of_not_formed {s : State} (h : ¬ (s.isMember = true ∧ s.stdState = 2)) : s.isolate = s :=
  if_pos (by simpa [Classical.or_iff_not_imp_left] using h)

section
variable (s : State)

theorem rd_flags_isolateMarked : s.isolateMarked.rd pStd O.STD_FLAGS
    = (((({ s with stand := { s.stand with lostParent := none } } : State).setStdState 3).setBit pStd O.STD_FLAGS 4
      true).setBit pStd O.STD_FLAGS 2 true).rd pStd O.STD_FLAGS := by
  rw [isolateMarked, incr, addReg, rd_wr_off _ _ (by decide)]

theorem stdState_setStdState {v : Nat} (h : v < 4) : (s.setStdState v).stdState = v :=
  (fld_setFld_same _ _ _ _ _ _ (by decide)).trans (Nat.mod_eq_of_lt h)

theorem stdState_isolateMarked : s.isolateMarked.stdState = 3 := by
  refine (fld_of_rd _ _ ?_).trans (stdState_setStdState { s with stand := { s.stand with lostParent := none } } (by decide))
  rw [isolateMarked, incr, addReg, rd_wr_off _ _ (by decide), rd_setBit_off _ _ _ (by decide),
    rd_setBit_off _ _ _ (by decide)]

theorem isolated_isolateMarked : s.isolateMarked.bit pStd O.STD_FLAGS 4 = true := by
  rw [bit_of_rd _ (rd_flags_isolateMarked s), bit_setBit_other _ _ _ _ (by decide) (by decide),
    bit_setBit_same _ _ _ _ _ (by decide)]

theorem held_isolateMarked : s.isolateMarked.bit pStd O.STD_FLAGS 2 = true := by
  rw [bit_of_rd _ (rd_flags_isolateMarked s), bit_setBit_same _ _ _ _ _ (by decide)]

theorem count_isolateMarked : s.isolateMarked.rd pStd O.STD_CNT_ISOLATED = (s.rd pStd O.STD_CNT_ISOLATED + 1) % 2 ^ 32 := by
  rw [isolateMarked, rd_incr_same, rd_setBit_off _ _ _ (by decide), rd_setBit_off _ _ _ (by decide), setStdState,
    rd_setFld_off _ _ _ _ (by decide), rd_setStand]

theorem isolates_isolate (hm : s.isMember = true) (hs : s.stdState = 2) : Isolates s s.isolate := by
  have kept : ∀ off, off < 0x10000 → off ≠ O.INT_CAUSE → s.isolate.rd pStd off = s.isolateMarked.rd pStd off :=
    fun off ho h => by rw [isolate_of_formed hm hs, rd_std_setCause _ _ _ ho h]
  have flags := kept O.STD_FLAGS (by decide) (by decide)
  refine ⟨(fld_of_rd _ _ (kept _ (by decide) (by decide))).trans (stdState_isolateMarked s),
    (bit_of_rd _ flags).trans (isolated_isolateMarked s), (bit_of_rd _ flags).trans (held_isolateMarked s),
    (kept _ (by decide) (by decide)).trans (count_isolateMarked s), ?_⟩
  rw [isolate_of_formed hm hs, bit_setCause _ _ (by decide) (by decide)]
  exact Bool.or_true _

end

theorem stand_isolateMarked (s : State) : s.isolateMarked.stand = { s.stand with lostParent := none } := by
  rw [isolateMarked, incr_stand, setBit_stand, setBit_stand, setStdState, setFld_stand]

theorem stand_isolate (s : State) : s.isolate.stand = s.stand ∨ s.isolate.stand = { s.stand with lostParent := none } := by
  by_cases h : s.isMember = true ∧ s.stdState = 2
  · rw [isolate_of_formed h.1 h.2, stand_setCause, stand_isolateMarked]
    exact .inr rfl
  · rw [isolate_of_not_formed h]
    exact .inl rfl

theorem noBeacon_isolate (s : State) : s.isolate.stand.noBeacon = s.stand.noBeacon := by
  obtain h | h := stand_isolate s <;> rw [h]

/-! ## Links: a new parent, and one taken down (R409, R426) -/

theorem cp_ge (k : Nat) : pNet ≤ cp k := by
  simp only [cp, pNet, pCrn]
  omega

theorem cp_ne_std (k : Nat) : cp k ≠ pStd := by
  simp only [cp, pStd, pCrn]
  omega

theorem cp_ne {i k : Nat} (h : i ≠ k) : cp i ≠ cp k := fun e => h (Nat.add_left_cancel e)

/-- Link k is made the parent link and one of the tree. -/
def linkedUp (s : State) (k : Nat) : State :=
  (s.setBit (cp k) O.CRN_LINK_STAT 0 true).setFld (cp k) O.CRN_LINK_FLAGS 3 2 1

theorem standKept_linkedUp (s : State) (k : Nat) : StandKept (cp k) [O.CRN_LINK_STAT, O.CRN_LINK_FLAGS] s (s.linkedUp k) :=
  (StandKept.wr s _ (by decide) (by decide)).trans (.wr _ _ (by decide) (by decide))

theorem standKept_newParent (s : State) (k : Nat) : StandKept pStd [O.STD_FLAGS] (s.linkedUp k) (s.newParent k) :=
  (StandKept.wr _ _ (by decide) (by decide)).trans (.setStand ..)

section
variable (s : State) (k : Nat)

theorem mems_newParent : (s.newParent k).mems = s.mems := (standKept_newParent s k).mems.trans (standKept_linkedUp s k).mems

/-- A register of the stand's page but the flags. -/
theorem rd_std_newParent {off : Nat} (ho : off < 0x10000) (h : off ≠ O.STD_FLAGS) :
    (s.newParent k).rd pStd off = s.rd pStd off :=
  ((standKept_newParent s k).rd_std (by simpa using h) ho).trans
    ((standKept_linkedUp s k).rd_other (by decide) (cp_ne_std k).symm ho)

/-- A register of another link. -/
theorem rd_link_newParent {i off : Nat} (hi : i ≠ k) (ho : off < 0x10000) :
    (s.newParent k).rd (cp i) off = s.rd (cp i) off :=
  ((standKept_newParent s k).rd_other (cp_ge i) (cp_ne_std i) ho).trans
    ((standKept_linkedUp s k).rd_other (cp_ge i) (cp_ne hi) ho)

theorem rd_stat_newParent : (s.newParent k).rd (cp k) O.CRN_LINK_STAT
    = (s.setBit (cp k) O.CRN_LINK_STAT 0 true).rd (cp k) O.CRN_LINK_STAT := by
  rw [(standKept_newParent s k).rd_other (cp_ge k) (cp_ne_std k) (by decide), linkedUp, rd_setFld_off _ _ _ _ (by decide)]

theorem crnParent_newParent : (s.newParent k).crnParent k = true :=
  (bit_of_rd _ (rd_stat_newParent s k)).trans (bit_setBit_same _ _ _ _ _ (by decide))

theorem crnTree_newParent (h : s.crnState k = 2) : (s.newParent k).crnTree k = true := by
  have up : (s.newParent k).crnState k = 2 := ((fld_of_rd _ _ (rd_stat_newParent s k)).trans
    (fld_setFld_other _ _ _ _ _ _ _ _ (by decide) (by decide))).trans h
  have tree : (s.newParent k).bit (cp k) O.CRN_LINK_FLAGS 3 = true := by
    rw [bit_of_rd _ ((standKept_newParent s k).rd_other (cp_ge k) (cp_ne_std k) (by decide)), linkedUp,
      bit_setFld _ _ _ _ _ _ _ (by decide)]
    rfl
  simp [crnTree, up, tree]

theorem flags_newParent : (s.newParent k).rd pStd O.STD_FLAGS
    = ((s.linkedUp k).setBit pStd O.STD_FLAGS 2 true).rd pStd O.STD_FLAGS :=
  rd_setStand ..

theorem held_newParent : (s.newParent k).bit pStd O.STD_FLAGS 2 = true :=
  (bit_of_rd _ (flags_newParent s k)).trans (bit_setBit_same _ _ _ _ _ (by decide))

theorem flag_newParent_other {b : Nat} (hb : b < 32) (h2 : b ≠ 2) :
    (s.newParent k).bit pStd O.STD_FLAGS b = s.bit pStd O.STD_FLAGS b := by
  rw [bit_of_rd _ (flags_newParent s k), bit_setBit_other _ _ _ _ hb h2,
    bit_of_rd _ ((standKept_linkedUp s k).rd_other (by decide) (cp_ne_std k).symm (by decide))]

theorem stand_newParent : (s.newParent k).stand = { s.stand with measures := 16, lostParent := none } := by
  unfold newParent
  simp only
  rw [setFld_stand, setBit_stand]

/-- A link that is down, with its parent role remembered. -/
def linkCleared : State :=
  let s := if s.crnParent k then { s with stand := { s.stand with lostParent := some k } } else s
  ((s.wr (cp k) O.CRN_LINK_STAT 0).wr (cp k) O.CRN_LINK_FLAGS 0).setCrn k {}

theorem crnDown_eq : s.crnDown k = if s.crnState k = 2 then (s.linkCleared k).setCause (cp k) 2 else s.linkCleared k := rfl

/-- The registers of a link that taking it down changes. -/
def downRegs : List Nat := [O.CRN_LINK_STAT, O.CRN_LINK_FLAGS, O.INT_CAUSE, O.CRN_CNT_LOCK_LOSS]

theorem standKept_crnDown : StandKept (cp k) downRegs s (s.crnDown k) := by
  have cleared : StandKept (cp k) downRegs s (s.linkCleared k) :=
    (((StandKept.ite (.setStand ..) (.refl ..)).trans (.wr _ _ (by decide) (by decide))).trans
      (.wr _ _ (by decide) (by decide))).trans (.setStand ..)
  rw [crnDown_eq]
  exact .ite (cleared.trans (.setCause _ _ (by decide))) cleared

theorem crn_crnDown : (s.crnDown k).crn k = {} := by
  have cleared : (s.linkCleared k).crn k = {} := crn_setCrn_same ..
  rw [crnDown_eq]
  refine ite_keeps (fun t : State => t.crn k) ?_ cleared
  rw [crn, stand_setCause]
  exact cleared

theorem rd_stat_crnDown : (s.crnDown k).rd (cp k) O.CRN_LINK_STAT = 0 := by
  have cleared : (s.linkCleared k).rd (cp k) O.CRN_LINK_STAT = 0 := by
    rw [linkCleared, rd_setCrn, rd_wr_off _ _ (by decide), rd_wr_same]
  rw [crnDown_eq]
  exact ite_keeps (fun t : State => t.rd (cp k) O.CRN_LINK_STAT)
    ((rd_setCause_other (by decide) (sigReg_of_ge (cp_ge k) (by decide))).trans cleared) cleared

/-! ## Engines that the lead loses or finds (R426) -/

theorem rd64_lt (p off : Nat) : s.rd64 p off < 2 ^ 64 := by
  have lo := s.rd_lt p off
  have hi := s.rd_lt p (off + 4)
  rw [rd64]
  omega

theorem rd64_wr64_same (p off v : Nat) (h : v < 2 ^ 64) : (s.wr64 p off v).rd64 p off = v := by
  rw [rd64, wr64, rd_wr_off _ _ (by omega), rd_wr_same, rd_wr_same]
  omega

/-- PRESENT as the lead sets it, with the cause raised. -/
theorem present_set (v m : Nat) (h : v < 2 ^ 64) : ((s.wr64 pStd O.STD_PRESENT_LO v).setCause pStd m).present = v := by
  rw [present, rd64, rd_std_setCause _ _ _ (by decide) (by decide), rd_std_setCause _ _ _ (by decide) (by decide), ← rd64,
    rd64_wr64_same _ _ _ _ h]

/-- The registers of the stand's page that show the engines present. -/
def presentRegs : List Nat := [O.STD_PRESENT_LO, O.STD_PRESENT_HI, O.INT_CAUSE]

theorem standKept_presentSet (v m : Nat) : StandKept pStd presentRegs s ((s.wr64 pStd O.STD_PRESENT_LO v).setCause pStd m) :=
  ((StandKept.wr s _ (by decide) (by decide)).trans (.wr _ _ (by decide) (by decide))).trans (.setCause _ _ (by decide))

theorem loseEngines_of_lost {lost : Nat} (hl : s.isLead = true) (h : s.present &&& lost ≠ 0) :
    s.loseEngines lost = (s.wr64 pStd O.STD_PRESENT_LO (s.present - (s.present &&& lost))).setCause pStd 4 :=
  if_neg (by simp [hl, h])

theorem loseEngines_of_none {lost : Nat} (h : s.isLead = false ∨ s.present &&& lost = 0) : s.loseEngines lost = s :=
  if_pos (by simpa using h)

theorem standKept_loseEngines (lost : Nat) : StandKept pStd presentRegs s (s.loseEngines lost) :=
  .ite (.refl ..) (standKept_presentSet ..)

theorem stand_loseEngines (lost : Nat) : (s.loseEngines lost).stand = s.stand :=
  ite_keeps State.stand rfl ((stand_setCause ..).trans ((wr_stand ..).trans (wr_stand ..)))

theorem present_loseEngines (lost : Nat) (hl : s.isLead = true) :
    (s.loseEngines lost).present = s.present - (s.present &&& lost) := by
  by_cases h : s.present &&& lost = 0
  · rw [loseEngines_of_none s (.inr h), h, Nat.sub_zero]
  · rw [loseEngines_of_lost s hl h]
    exact present_set _ _ _ ((Nat.sub_le ..).trans_lt (rd64_lt ..))

/-- Causes set after a change of registers change what an interrupt request can. -/
theorem setCause_setRegs_rest (r : Store W32) (p m : Nat) :
    ({ s with regs := r } : State).setCause p m = sigRest s (({ s with regs := r } : State).setCause p m) :=
  (setCause_rest ..).trans rfl

theorem loseEngines_rest (lost : Nat) : s.loseEngines lost = sigRest s (s.loseEngines lost) := by
  by_cases h : s.isLead = false ∨ s.present &&& lost = 0
  · rw [loseEngines_of_none s h]
    rfl
  · simp only [not_or, Bool.not_eq_false] at h
    obtain ⟨hl, hg⟩ := h
    rw [loseEngines_of_lost s hl hg]
    obtain ⟨r, e⟩ := wr64_rest s pStd O.STD_PRESENT_LO (s.present - (s.present &&& lost))
    rw [e]
    exact setCause_setRegs_rest ..

end

end State
end Sys2Proof.Machine
end

section
/-! PROOFS. O56, the events of a stand: BEACONs that arrive or do not, and the path to the lead lost and found (R425, R426). -/
namespace Sys2Proof.Machine
namespace State

/-! ## BEACON (R425, R450) -/

theorem beacon_of_lead {s : State} (hl : s.isLead = true) (hs : s.stdState = 2) :
    s.beacon = s.emit (.beacon s.tim.wframe s.stand.committed s.stand.lastEpoch (s.bit pTim O.TIM_FLAGS 3)) :=
  if_pos ⟨hl, hs⟩

theorem beacon_of_other {s : State} (h : s.isLead = false ∨ s.stdState ≠ 2) : s.beacon = s :=
  if_neg fun ⟨hl, hs⟩ => h.elim (fun e => absurd (hl.symm.trans e) (by decide)) fun e => e hs

/-- No miss is counted any more. -/
def beaconSeen (s : State) : State := { s with stand := { s.stand with noBeacon := 0 } }

/-- A member that hears a BEACON: no miss is counted, and the lead's exceeded holdover is its own. -/
def beaconHeard (s : State) (x : Bool) : State :=
  if !x then s.beaconSeen.endExceeded
  else if s.beaconSeen.bit pTim O.TIM_FLAGS 3 then s.beaconSeen else s.beaconSeen.holdExceeded

/-- How far ahead of this engine's count of operations a BEACON's is. -/
def opsAhead (s : State) (q : Nat) : Nat := (q + 2 ^ 32 - s.rd pStd O.STD_OP_SEQ) % 2 ^ 32

/-- Is the epoch of a BEACON reached at its wall frame? -/
abbrev epochReached (frame epoch : Nat) : Prop := signed 32 (epoch + 2 ^ 32 - frame % 2 ^ 32) ≤ 0

section
variable (s : State) (x : Bool)

theorem rd_beaconSeen (p off : Nat) : s.beaconSeen.rd p off = s.rd p off := rd_setStand ..

theorem stand_beaconSeen : s.beaconSeen.stand = { s.stand with noBeacon := 0 } := rfl

theorem beaconHeard_kept : s.beaconHeard false = s.beaconSeen.setBit pTim O.TIM_FLAGS 3 false := rfl

theorem beaconHeard_exceeded : s.beaconHeard true
    = if s.bit pTim O.TIM_FLAGS 3 = true then s.beaconSeen else s.beaconSeen.holdExceeded := rfl

variable {s} in
theorem beaconHeard_standing (h : s.bit pTim O.TIM_FLAGS 3 = true) : s.beaconHeard true = s.beaconSeen := by
  rw [beaconHeard_exceeded, if_pos h]

variable {s} in
theorem beaconHeard_new (h : s.bit pTim O.TIM_FLAGS 3 = false) : s.beaconHeard true = s.beaconSeen.holdExceeded := by
  rw [beaconHeard_exceeded, h]
  rfl

theorem standKept_beaconHeard : StandKept pTim [O.TIM_FLAGS, O.INT_CAUSE] s (s.beaconHeard x) :=
  (StandKept.setStand _ _ s _).trans (.ite (.wr _ _ (by decide) (by decide)) (.ite (.refl ..)
    (((StandKept.wr _ _ (by decide) (by decide)).trans (.setCause _ _ (by decide))).trans (.startGlob ..))))

theorem rd_std_beaconHeard {off : Nat} (ho : off < 0x10000) : (s.beaconHeard x).rd pStd off = s.rd pStd off :=
  (standKept_beaconHeard s x).rd_other (by decide) (by decide) ho

theorem stand_holdExceeded : s.holdExceeded.stand = s.stand :=
  (stand_startGlob ..).trans ((stand_setCause ..).trans (setBit_stand ..))

theorem stand_beaconHeard : (s.beaconHeard x).stand = { s.stand with noBeacon := 0 } :=
  ite_keeps State.stand (setBit_stand ..) (ite_keeps State.stand rfl (stand_holdExceeded _))

theorem exceeded_holdExceeded : s.holdExceeded.bit pTim O.TIM_FLAGS 3 = true := by
  have kept : s.holdExceeded.rd pTim O.TIM_FLAGS = (s.setBit pTim O.TIM_FLAGS 3 true).rd pTim O.TIM_FLAGS :=
    (rd_startGlob ..).trans (rd_setCause_other (by decide) (by decide))
  exact (bit_of_rd _ kept).trans (bit_setBit_same _ _ _ _ _ (by decide))

theorem exceeded_beaconHeard : (s.beaconHeard x).bit pTim O.TIM_FLAGS 3 = x := by
  cases x
  · rw [beaconHeard_kept, bit_setBit_same _ _ _ _ _ (by decide)]
  · cases h : s.bit pTim O.TIM_FLAGS 3
    · rw [beaconHeard_new h, exceeded_holdExceeded]
    · rw [beaconHeard_standing h, bit_of_rd _ (rd_beaconSeen ..), h]

variable {s x}

theorem holdover_beaconHeard (h : s.bit pTim O.TIM_FLAGS 3 = false) : Cond.holdover ∈ (s.beaconHeard true).black.glob := by
  rw [beaconHeard_new h]
  exact mem_startGlob _ _ _ (.inl rfl)

/-- Where the lead's holdover is as this engine has it, nothing goes dark and nothing is sent. -/
theorem beaconHeard_of_same (h : x = s.bit pTim O.TIM_FLAGS 3) :
    (s.beaconHeard x).black = s.black ∧ (s.beaconHeard x).out = s.out := by
  cases x
  · rw [beaconHeard_kept]
    exact ⟨setBit_black .., setBit_out ..⟩
  · rw [beaconHeard_standing h.symm]
    exact ⟨rfl, rfl⟩

end

section
variable {s : State} {frame q epoch : Nat} {x : Bool}

theorem beaconIn_of_other (h : s.isMember = false ∨ s.stdState ≠ 2) : s.beaconIn frame q epoch x = s :=
  if_pos (by simpa using h)

variable (hm : s.isMember = true) (hs : s.stdState = 2)
include hm hs

/-- A BEACON heard by a member of a formed stand may show an operation that the member has missed. -/
theorem beaconIn_of_formed (hq : q < 2 ^ 32) : s.beaconIn frame q epoch x
    = if s.opsAhead q ≠ 0 ∧ (epochReached frame epoch ∨ 1 < s.opsAhead q) then (s.beaconHeard x).missedOp
      else s.beaconHeard x := by
  have ops : (s.beaconHeard x).rd pStd O.STD_OP_SEQ = s.rd pStd O.STD_OP_SEQ := rd_std_beaconHeard _ _ (by decide)
  have behind : ((s.beaconHeard x).rd pStd O.STD_OP_SEQ + 2 ^ 32 - q) % 2 ^ 32 ≠ 0 ↔ s.opsAhead q ≠ 0 := by
    have := s.rd_lt pStd O.STD_OP_SEQ
    rw [ops, opsAhead]
    omega
  have ahead : (q + 2 ^ 32 - (s.beaconHeard x).rd pStd O.STD_OP_SEQ) % 2 ^ 32 = s.opsAhead q := by rw [ops, opsAhead]
  have run : s.beaconIn frame q epoch x
      = if ((s.beaconHeard x).rd pStd O.STD_OP_SEQ + 2 ^ 32 - q) % 2 ^ 32 ≠ 0 ∧ (epochReached frame epoch
          ∨ 1 < (q + 2 ^ 32 - (s.beaconHeard x).rd pStd O.STD_OP_SEQ) % 2 ^ 32) then (s.beaconHeard x).missedOp
        else s.beaconHeard x := if_neg (by simp [hm, hs])
  rw [run, ahead]
  exact if_congr (and_congr_left' behind) rfl rfl

theorem beaconIn_in_step (hq : q < 2 ^ 32) (h : s.opsAhead q = 0 ∨ s.opsAhead q = 1 ∧ ¬ epochReached frame epoch) :
    s.beaconIn frame q epoch x = s.beaconHeard x := by
  rw [beaconIn_of_formed hm hs hq]
  refine if_neg fun ⟨h0, h1⟩ => ?_
  obtain e | ⟨e, hr⟩ := h
  · exact h0 e
  · exact h1.elim hr fun lt => absurd (e ▸ lt) (by decide)

theorem beaconIn_missed (hq : q < 2 ^ 32) (h0 : s.opsAhead q ≠ 0) (h : epochReached frame epoch ∨ 1 < s.opsAhead q) :
    s.beaconIn frame q epoch x = (s.beaconHeard x).missedOp := by
  rw [beaconIn_of_formed hm hs hq, if_pos ⟨h0, h⟩]

/-- What a missed operation does not touch is as the BEACON leaves it. -/
theorem beaconIn_keeps {γ : Type} (v : State → γ) (hq : q < 2 ^ 32)
    (h : v (s.beaconHeard x).missedOp = v (s.beaconHeard x)) : v (s.beaconIn frame q epoch x) = v (s.beaconHeard x) := by
  rw [beaconIn_of_formed hm hs hq]
  exact ite_keeps v h rfl

theorem stand_beaconIn (hq : q < 2 ^ 32) : (s.beaconIn frame q epoch x).stand = { s.stand with noBeacon := 0 } :=
  (beaconIn_keeps hm hs State.stand hq (stand_missedOp _)).trans (stand_beaconHeard s x)

theorem exceeded_beaconIn (hq : q < 2 ^ 32) : (s.beaconIn frame q epoch x).bit pTim O.TIM_FLAGS 3 = x :=
  (beaconIn_keeps hm hs (fun t => t.bit pTim O.TIM_FLAGS 3) hq
    (bit_of_rd _ ((standKept_missedOp _).rd_other (by decide) (by decide) (by decide)))).trans (exceeded_beaconHeard s x)

theorem holdover_beaconIn (hq : q < 2 ^ 32) (h : s.bit pTim O.TIM_FLAGS 3 = false) :
    Cond.holdover ∈ (s.beaconIn frame q epoch true).black.glob := by
  rw [beaconIn_of_formed hm hs hq]
  have heard := holdover_beaconHeard h
  split
  · exact mem_missedOp heard
  · exact heard

end

theorem mems_beaconIn (s : State) (frame q epoch : Nat) (x : Bool) (hq : q < 2 ^ 32) :
    (s.beaconIn frame q epoch x).mems = s.mems := by
  by_cases h : s.isMember = false ∨ s.stdState ≠ 2
  · rw [beaconIn_of_other h]
  · simp only [not_or, Bool.not_eq_false, not_not] at h
    obtain ⟨hm, hs⟩ := h
    exact (beaconIn_keeps hm hs mems hq (standKept_missedOp _).mems).trans (standKept_beaconHeard s x).mems

/-! ## A BEACON missed (R426) -/

/-- One more wall frame without a BEACON. -/
def beaconLate (s : State) : State :=
  ({ s with stand := { s.stand with noBeacon := s.stand.noBeacon + 1 } } : State).incr pStd O.STD_CNT_BEACON_MISS

section
variable (s : State)

theorem standKept_beaconLate : StandKept pStd [O.STD_CNT_BEACON_MISS] s s.beaconLate :=
  (StandKept.setStand _ _ s _).trans (.wr _ _ (by decide) (by decide))

theorem stand_beaconLate : s.beaconLate.stand = { s.stand with noBeacon := s.stand.noBeacon + 1 } := incr_stand ..

theorem count_beaconLate : s.beaconLate.rd pStd O.STD_CNT_BEACON_MISS
    = (s.rd pStd O.STD_CNT_BEACON_MISS + 1) % 2 ^ 32 := by
  rw [beaconLate, rd_incr_same, rd_setStand]

theorem beaconLate_rest : s.beaconLate = { s with regs := s.beaconLate.regs, stand := s.beaconLate.stand } := rfl

variable {s} (hm : s.isMember = true) (hs : s.stdState = 2)
include hm hs

theorem beaconMissed_of_formed : s.beaconMissed = if 3 ≤ s.stand.noBeacon + 1 then s.beaconLate.isolate else s.beaconLate :=
  if_neg (by simp [hm, hs])

/-- The third miss in a row isolates. -/
theorem beaconMissed_third (h : 2 ≤ s.stand.noBeacon) : s.beaconMissed = s.beaconLate.isolate := by
  rw [beaconMissed_of_formed hm hs, if_pos (by omega)]

theorem beaconMissed_early (h : s.stand.noBeacon < 2) : s.beaconMissed = s.beaconLate := by
  rw [beaconMissed_of_formed hm hs, if_neg (by omega)]

theorem beaconMissed_keeps {γ : Type} (v : State → γ) (h : v s.beaconLate.isolate = v s.beaconLate) :
    v s.beaconMissed = v s.beaconLate := by
  rw [beaconMissed_of_formed hm hs]
  exact ite_keeps v h rfl

theorem isolates_beaconMissed (h : 2 ≤ s.stand.noBeacon) : Isolates s s.beaconMissed := by
  have kept := standKept_beaconLate s
  rw [beaconMissed_third hm hs h]
  exact (isolates_isolate _ ((kept.isMember fun _ => by decide).trans hm) ((kept.stdState fun _ => by decide).trans hs)).of_count
    (kept.rd_std (fun _ => by decide) (by decide))

end

theorem regsSame_beaconLate (s : State) :
    regsSame (fun p off => decide (p = pStd) && decide (off = O.STD_CNT_BEACON_MISS)) s s.beaconLate := by
  intro p off ho h
  refine Eq.trans ((PageRegs.wr (offs := [O.STD_CNT_BEACON_MISS]) _ _ (by decide) (by decide)).regs p off ho fun e => ?_)
    (rd_setStand ..)
  simpa [e] using h

/-! ## The path to the lead goes down (R426) -/

/-- Link k is down; where it was up, its loss is counted. -/
def treeCut (s : State) (k : Nat) : State :=
  (if s.crnState k = 2 then s.incr (cp k) O.CRN_CNT_LOCK_LOSS else s).crnDown k

section
variable (s : State) (k : Nat)

theorem standKept_treeCut : StandKept (cp k) downRegs s (s.treeCut k) :=
  (StandKept.ite (.wr _ _ (by decide) (by decide)) (.refl ..)).trans (standKept_crnDown ..)

theorem rd_std_treeCut {off : Nat} (ho : off < 0x10000) : (s.treeCut k).rd pStd off = s.rd pStd off :=
  (standKept_treeCut s k).rd_other (by decide) (cp_ne_std k).symm ho

theorem rd_link_treeCut {i off : Nat} (hi : i ≠ k) (ho : off < 0x10000) : (s.treeCut k).rd (cp i) off = s.rd (cp i) off :=
  (standKept_treeCut s k).rd_other (cp_ge i) (cp_ne hi) ho

theorem crnState_treeCut {i : Nat} (hi : i ≠ k) : (s.treeCut k).crnState i = s.crnState i :=
  fld_of_rd _ _ (rd_link_treeCut s k hi (by decide))

theorem stdState_treeCut : (s.treeCut k).stdState = s.stdState := fld_of_rd _ _ (rd_std_treeCut s k (by decide))

theorem isMember_treeCut : (s.treeCut k).isMember = s.isMember :=
  isMember_congr (standKept_treeCut s k).flt (rd_std_treeCut s k (by decide))

theorem isLead_treeCut : (s.treeCut k).isLead = s.isLead := bit_of_rd _ (rd_std_treeCut s k (by decide))

theorem present_treeCut : (s.treeCut k).present = s.present := by
  rw [present, present, rd64, rd64, rd_std_treeCut _ _ (by decide), rd_std_treeCut _ _ (by decide)]

/-- Link k is DOWN, with nothing sent or received on it kept. -/
def LinkGone (t : State) : Prop := t.crn k = {} ∧ t.rd (cp k) O.CRN_LINK_STAT = 0

theorem linkGone_treeCut : LinkGone k (s.treeCut k) := ⟨crn_crnDown .., rd_stat_crnDown ..⟩

end

section
variable {s t : State} {k : Nat}

theorem crn_of_links (h : t.stand.links = s.stand.links) (k : Nat) : t.crn k = s.crn k := by rw [crn, crn, h]

theorem LinkGone.of_keeps (h : LinkGone k s) (hl : t.stand.links = s.stand.links)
    (hr : t.rd (cp k) O.CRN_LINK_STAT = s.rd (cp k) O.CRN_LINK_STAT) : LinkGone k t :=
  ⟨(crn_of_links hl k).trans h.1, hr.trans h.2⟩

theorem LinkGone.loseEngines (h : LinkGone k s) (lost : Nat) : LinkGone k (s.loseEngines lost) :=
  h.of_keeps (by rw [stand_loseEngines]) ((standKept_loseEngines s lost).rd_other (cp_ge k) (cp_ne_std k) (by decide))

theorem LinkGone.isolate (h : LinkGone k s) : LinkGone k s.isolate :=
  h.of_keeps (by obtain e | e := stand_isolate s <;> rw [e])
    ((standKept_isolate s).rd_other (cp_ge k) (cp_ne_std k) (by decide))

theorem LinkGone.newParent (h : LinkGone k s) {i : Nat} (hi : i ≠ k) : LinkGone k (s.newParent i) :=
  h.of_keeps (by rw [stand_newParent]) (rd_link_newParent s i hi.symm (by decide))

variable {path : Option Nat} {lost : Nat}

theorem treeDown_of_branch (hp : s.crnParent k = false) (hl : s.stand.lostParent ≠ some k) :
    s.treeDown k path lost = (s.treeCut k).loseEngines lost := by
  unfold treeDown
  exact if_pos (by simp [hp, hl])

variable (hp : s.crnParent k = true ∨ s.stand.lostParent = some k)
include hp

theorem treeDown_of_parent : s.treeDown k path lost = match path with
    | some i => if i ≠ k ∧ (s.treeCut k).crnState i = 2 ∧ (s.treeCut k).bit (cp i) O.CRN_LINK_FLAGS 4 then
        (s.treeCut k).newParent i else (s.treeCut k).isolate
    | none => (s.treeCut k).isolate := by
  unfold treeDown
  exact if_neg (by simpa [Classical.or_iff_not_imp_left] using hp)

theorem treeDown_of_standby {i : Nat} (hi : i ≠ k) (hs : s.crnState i = 2)
    (hf : s.bit (cp i) O.CRN_LINK_FLAGS 4 = true) : s.treeDown k (some i) lost = (s.treeCut k).newParent i := by
  rw [treeDown_of_parent hp]
  exact if_pos ⟨hi, (crnState_treeCut s k hi).trans hs, (bit_of_rd _ (rd_link_treeCut s k hi (by decide))).trans hf⟩

theorem treeDown_of_no_path : s.treeDown k none lost = (s.treeCut k).isolate := treeDown_of_parent hp

omit hp in
/-- Whatever becomes of the path, the link is down and memory as before. -/
theorem treeDown_effect (s : State) (k : Nat) (path : Option Nat) (lost : Nat) :
    (s.treeDown k path lost).mems = s.mems ∧ LinkGone k (s.treeDown k path lost) := by
  have cut := (standKept_treeCut s k).mems
  have gone := linkGone_treeCut s k
  have alone := And.intro ((standKept_isolate (s.treeCut k)).mems.trans cut) gone.isolate
  by_cases hp : s.crnParent k = true ∨ s.stand.lostParent = some k
  · rw [treeDown_of_parent hp]
    cases path with
    | none => exact alone
    | some i =>
      simp only
      split
      next h => exact ⟨(mems_newParent ..).trans cut, gone.newParent h.1⟩
      next => exact alone
  · simp only [not_or, Bool.not_eq_true] at hp
    obtain ⟨hp, hl⟩ := hp
    rw [treeDown_of_branch hp hl]
    exact ⟨(standKept_loseEngines ..).mems.trans cut, gone.loseEngines lost⟩

theorem isolates_treeDown (hm : s.isMember = true) (hs : s.stdState = 2) : Isolates s (s.treeDown k none lost) := by
  rw [treeDown_of_no_path hp]
  exact (isolates_isolate _ ((isMember_treeCut s k).trans hm) ((stdState_treeCut s k).trans hs)).of_count
    (rd_std_treeCut s k (by decide))

end

end State
end Sys2Proof.Machine
end

section
/-! PROOFS. O56: engines that rejoin the stand, and FATAL broadcasts that arrive (R426, R427). -/
namespace Sys2Proof.Machine
namespace State

/-! ## Rejoining (R426) -/

/-- A member FORMED again, with link k its parent link. -/
def reformed (s : State) (k : Nat) : State := ((s.setStdState 2).setBit pStd O.STD_FLAGS 4 false).newParent k

/-- No miss of a BEACON is counted any more, and REJOINED is raised. -/
def rejoined (s : State) (k : Nat) : State := (s.reformed k).beaconSeen.setCause pStd 0x20

section
variable (s : State) (c : Cond)

theorem rd_endGlob (p off : Nat) : (s.endGlob c).rd p off = s.rd p off := rfl
theorem mems_endGlob : (s.endGlob c).mems = s.mems := rfl
theorem stand_endGlob : (s.endGlob c).stand = s.stand := rfl

theorem not_mem_endGlob : c ∉ (s.endGlob c).black.glob := fun h => by
  simpa using (List.mem_filter.mp h).2

end

section
variable (s : State) (k : Nat)

theorem standKept_rejoined : StandKept pStd [O.INT_CAUSE] (s.reformed k) (s.rejoined k) :=
  (StandKept.setStand _ _ (s.reformed k) _).trans (.setCause _ _ (by decide))

theorem mems_rejoined : (s.rejoined k).mems = s.mems := by
  rw [(standKept_rejoined s k).mems, reformed, mems_newParent, mems_setBit, setStdState, mems_setFld]

theorem noBeacon_rejoined : (s.rejoined k).stand.noBeacon = 0 := by
  rw [rejoined, stand_setCause, stand_beaconSeen]

theorem stdState_rejoined : (s.rejoined k).stdState = 2 := by
  refine ((standKept_rejoined s k).stdState fun _ => by decide).trans ((fld_of_rd _ _ ?_).trans
    (stdState_setStdState s (by decide)))
  rw [reformed, rd_std_newParent _ _ (by decide) (by decide), rd_setBit_off _ _ _ (by decide)]

theorem isolated_rejoined : (s.rejoined k).bit pStd O.STD_FLAGS 4 = false := by
  rw [bit_of_rd _ ((standKept_rejoined s k).rd_std (fun _ => by decide) (by decide)), reformed,
    flag_newParent_other _ _ (by decide) (by decide), bit_setBit_same _ _ _ _ _ (by decide)]

theorem crnParent_rejoined : (s.rejoined k).crnParent k = true :=
  (bit_of_rd _ ((standKept_rejoined s k).rd_other (cp_ge k) (cp_ne_std k) (by decide))).trans (crnParent_newParent ..)

theorem cause_rejoined : (s.rejoined k).bit pStd O.INT_CAUSE 5 = true :=
  (bit_setCause _ _ (by decide) (by decide)).trans (Bool.or_true _)

end

theorem rejoin_of_unaffected {s : State} {e k : Nat} (hm : s.isMember = true) (h : e ≠ s.ownEngine ∨ s.stdState ≠ 3) :
    s.rejoin e k = s := by
  unfold rejoin
  rw [if_pos hm]
  exact if_pos h

theorem rejoin_of_isolated {s : State} {e k : Nat} (hm : s.isMember = true) (he : e = s.ownEngine) (hs : s.stdState = 3) :
    s.rejoin e k = (s.rejoined k).missedOp.endGlob .isolated := by
  unfold rejoin
  rw [if_pos hm]
  exact if_neg (by simp [he, hs])

theorem rejoin_of_absent {s : State} {e k : Nat} (hm : s.isMember = false) (hl : s.isLead = true) (he : e < s.engines)
    (hp : bitOf s.present e = false) :
    s.rejoin e k = (s.wr64 pStd O.STD_PRESENT_LO (s.present + 2 ^ e)).setCause pStd 2 := by
  unfold rejoin
  refine (if_neg (by simp [hm])).trans (if_pos ⟨hl, he, ?_⟩)
  rw [hp]
  rfl

theorem rejoin_of_not_lead {s : State} {e k : Nat} (hm : s.isMember = false)
    (h : ¬ (s.isLead = true ∧ e < s.engines ∧ bitOf s.present e = false)) : s.rejoin e k = s := by
  unfold rejoin
  exact (if_neg (by simp [hm])).trans (if_neg (by simpa using h))

theorem mems_rejoin (s : State) (e k : Nat) : (s.rejoin e k).mems = s.mems := by
  cases hm : s.isMember
  · by_cases h : s.isLead = true ∧ e < s.engines ∧ bitOf s.present e = false
    · obtain ⟨hl, he, hp⟩ := h
      rw [rejoin_of_absent hm hl he hp, setCause_mems, mems_wr64]
    · rw [rejoin_of_not_lead hm h]
  · by_cases h : e ≠ s.ownEngine ∨ s.stdState ≠ 3
    · rw [rejoin_of_unaffected hm h]
    · simp only [not_or, not_not] at h
      obtain ⟨he, hs⟩ := h
      rw [rejoin_of_isolated hm he hs, mems_endGlob, (standKept_missedOp _).mems, mems_rejoined]

/-- An isolated member rejoins as one that has missed. -/
theorem rejoin_effect (s : State) (k : Nat) : (s.rejoined k).missedOp.stdState = 2
    ∧ (s.rejoined k).missedOp.bit pStd O.STD_FLAGS 4 = false ∧ (s.rejoined k).missedOp.bit pStd O.STD_FLAGS 3 = true
    ∧ (s.rejoined k).missedOp.crnParent k = true ∧ (s.rejoined k).missedOp.stand.noBeacon = 0
    ∧ (s.rejoined k).missedOp.bit pStd O.INT_CAUSE 5 = true := by
  have missed := standKept_missedOp (s.rejoined k)
  refine ⟨(missed.stdState fun _ => by decide).trans (stdState_rejoined s k),
    (flag_missedOp_other _ (by decide) (by decide)).trans (isolated_rejoined s k), missed_missedOp _,
    (bit_of_rd _ (missed.rd_other (cp_ge k) (cp_ne_std k) (by decide))).trans (crnParent_rejoined s k), ?_,
    cause_missedOp_of_set (by decide) (cause_rejoined s k)⟩
  rw [stand_missedOp, noBeacon_rejoined]

/-- A number with a bit clear has room for that bit within its width. -/
theorem add_two_pow_lt {w m e : Nat} (h : w < 2 ^ m) (he : e < m) (hb : bitOf w e = false) : w + 2 ^ e < 2 ^ m := by
  have low : w % 2 ^ (e + 1) < 2 ^ e := by
    have clear : w / 2 ^ e % 2 = 0 := by
      have bit : decide (w / 2 ^ e % 2 = 1) = false := Nat.testBit_eq_decide_div_mod_eq.symm.trans hb
      have := of_decide_eq_false bit
      omega
    rw [Nat.mod_pow_succ, clear, Nat.mul_zero, Nat.add_zero]
    exact Nat.mod_lt _ (by positivity)
  have split : 2 ^ m = 2 ^ (e + 1) * 2 ^ (m - (e + 1)) := by rw [← Nat.pow_add, Nat.add_sub_cancel' he]
  have high : w / 2 ^ (e + 1) + 1 ≤ 2 ^ (m - (e + 1)) := Nat.div_lt_of_lt_mul (split ▸ h)
  have whole := Nat.div_add_mod w (2 ^ (e + 1))
  have next : 2 ^ (e + 1) = 2 ^ e + 2 ^ e := by rw [Nat.pow_succ]; omega
  calc w + 2 ^ e < 2 ^ (e + 1) * (w / 2 ^ (e + 1)) + 2 ^ (e + 1) := by omega
    _ = 2 ^ (e + 1) * (w / 2 ^ (e + 1) + 1) := by rw [Nat.mul_succ]
    _ ≤ 2 ^ m := split ▸ Nat.mul_le_mul_left _ high

/-! ## What interrupt requests leave in the output log -/

/-- What `s` has put out `t` has put out too. -/
structure OutGrows (s t : State) : Prop where
  mem : ∀ o ∈ s.out, o ∈ t.out

namespace OutGrows

variable {s t u : State}

theorem refl (s : State) : OutGrows s s := ⟨fun _ h => h⟩

theorem trans (h : OutGrows s t) (k : OutGrows t u) : OutGrows s u :=
  ⟨fun o ho => k.mem o (h.mem o ho)⟩

theorem emit (s : State) (o : Output) : OutGrows s (s.emit o) := ⟨fun _ => List.mem_cons_of_mem _⟩

theorem of_out (h : t.out = s.out) : OutGrows s t := ⟨fun _ ho => h ▸ ho⟩

theorem wr (s : State) (p off v : Nat) : OutGrows s (s.wr p off v) := of_out (wr_out ..)

theorem setTab (s : State) (p k i v : Nat) : OutGrows s (s.setTab p k i v) := of_out rfl

theorem setSat (s : State) (l : List Nat) : OutGrows s { s with eicSat := l } := of_out rfl

theorem ite {c : Prop} [Decidable c] (h : OutGrows s t) (k : OutGrows s u) : OutGrows s (if c then t else u) := by
  split
  · exact h
  · exact k

theorem pmeSend (s : State) : OutGrows s s.pmeSend :=
  .ite (emit ..) (.ite (((wr ..).trans (emit ..)).trans (of_out rfl)) (refl s))

theorem sendVector (s : State) (v : Nat) : OutGrows s (s.sendVector v) :=
  .ite ((wr ..).trans (pmeSend _)) (.ite (wr ..) ((wr ..).trans (emit ..)))

variable {raise : State → Nat → State} (hr : ∀ s n, OutGrows s (raise s n))
include hr

theorem raiseTargetsWith (s : State) (p : Nat) : OutGrows s (raiseTargetsWith raise s p) := by
  have first : OutGrows s (if bitOf (s.rd p O.INT_ROUTE) 30 then raise s (bitsOf (s.rd p O.INT_ROUTE) 0 10) else s) :=
    .ite (hr ..) (refl s)
  exact .ite (first.trans (sendVector ..)) first

theorem setCauseWith (s : State) (p m : Nat) : OutGrows s (setCauseWith raise s p m) :=
  .ite ((wr ..).trans (raiseTargetsWith hr ..)) (wr ..)

omit hr in
theorem eicRaiseF : ∀ (n : Nat) (s : State) (src : Nat), OutGrows s (eicRaiseF n s src)
  | 0, s, _ => refl s
  | n + 1, s, src => by
    refine (wr s pEic O.EIC_CNT_RAISES _).trans (.ite (wr ..) (.ite ?_ (.ite ?_ ?_)))
    · exact (wr ..).trans (setCauseWith (eicRaiseF n) ..)
    · exact (setTab ..).trans (setSat ..)
    · refine (wr _ pEic O.EIC_CNT_COALESCED _).trans (.ite (.ite (refl _) ?_) (setTab ..))
      exact (setSat ..).trans (setCauseWith (eicRaiseF n) ..)

omit hr in
theorem setCause (s : State) (p m : Nat) : OutGrows s (s.setCause p m) := setCauseWith (eicRaiseF 3) s p m

end OutGrows

/-! ## DEVICE_FATAL (R460) -/

/-- What the entry into DEVICE_FATAL leaves: the memories, the fault state, the stand's registers, what has been put out,
and the conditions of BLACK that stand. -/
structure HaltKept (s t : State) : Prop where
  mems : t.mems = s.mems
  flt : t.flt = s.flt
  std : ∀ off, off < 0x10000 → t.rd pStd off = s.rd pStd off
  out : OutGrows s t
  glob : ∀ c ∈ s.black.glob, c ∈ t.black.glob

namespace HaltKept

variable {s t u : State}

theorem refl (s : State) : HaltKept s s := ⟨rfl, rfl, fun _ _ => rfl, .refl s, fun _ h => h⟩

theorem trans (h : HaltKept s t) (k : HaltKept t u) : HaltKept s u :=
  ⟨k.mems.trans h.mems, k.flt.trans h.flt, fun off ho => (k.std off ho).trans (h.std off ho), h.out.trans k.out,
    fun c hc => k.glob c (h.glob c hc)⟩

theorem ite {c : Prop} [Decidable c] (h : HaltKept s t) (k : HaltKept s u) : HaltKept s (if c then t else u) := by
  split
  · exact h
  · exact k

theorem wr (s : State) {p off : Nat} (v : Nat) (hp : pStd ≠ p) (ho : off < 0x10000) : HaltKept s (s.wr p off v) :=
  ⟨mems_wr .., wr_flt .., fun _ ho' => rd_wr_other s v (regKey_ne_of_page ho' ho hp), .wr .., fun _ h => by rwa [wr_black]⟩

theorem setTab (s : State) (p k i v : Nat) : HaltKept s (s.setTab p k i v) :=
  ⟨rfl, rfl, fun _ _ => rfl, .setTab .., fun _ h => h⟩

theorem emit (s : State) (o : Output) : HaltKept s (s.emit o) :=
  ⟨rfl, rfl, fun _ _ => rfl, .emit .., fun _ h => h⟩

theorem startGlob (s : State) (c : Cond) : HaltKept s (s.startGlob c) :=
  ⟨(StandKept.startGlob 0 [] s c).mems, flt_startGlob .., fun _ _ => rd_startGlob .., .of_out (ite_keeps State.out rfl rfl),
    fun _ h => mem_startGlob _ _ _ (.inr h)⟩

theorem discardFrames (s : State) : HaltKept s s.discardFrames := ⟨rfl, rfl, fun _ _ => rfl, .of_out rfl, fun _ h => h⟩

/-- Causes set on another page than the stand's. -/
theorem setCause (s : State) {p : Nat} (m : Nat) (hp : pStd ≠ p) : HaltKept s (s.setCause p m) :=
  ⟨setCause_mems .., setCause_flt .., fun _ ho => (StandKept.setCause (offs := [O.INT_CAUSE]) s m (by decide)).rd_other
    (by decide) hp ho, .setCause .., fun _ h => by rwa [black_setCause]⟩

theorem errCapture (s : State) {p : Nat} (code info addr : Nat) (hp : pStd ≠ p) : HaltKept s (s.errCapture p code info addr) :=
  .ite (wr _ _ hp (by decide)) (((((wr _ _ hp (by decide)).trans (wr _ _ hp (by decide))).trans (wr _ _ hp (by decide))).trans
    (wr _ _ hp (by decide))).trans (setCause _ _ hp))

theorem faultLog (s : State) (cls : Nat) (spare noSpare : Bool) (p code info : Nat) :
    HaltKept s (s.faultLog cls spare noSpare p code info) :=
  ((((((setTab ..).trans (setTab ..)).trans (setTab ..)).trans (setTab ..)).trans (wr _ _ (by decide) (by decide))).trans
    (wr _ _ (by decide) (by decide))).trans (setCause _ _ (by decide))

theorem fatalRecord (s : State) (cls code info : Nat) : HaltKept s (s.fatalRecord cls code info) :=
  .ite (refl s) ((((wr _ _ (by decide) (by decide)).trans (wr _ _ (by decide) (by decide))).trans
    (wr _ _ (by decide) (by decide))).trans (wr _ _ (by decide) (by decide)))

end HaltKept

/-- What the engine does on its way into DEVICE_FATAL, up to the state of life itself. -/
def fatalPrepared (s : State) (cls code info : Nat) : State :=
  let s := (s.errCapture pDev code info 0).faultLog cls false false pDev code info
  let s := (s.fatalRecord cls code info).setBit pDev O.DEV_FLAGS 0 true
  let s := (s.startGlob .fatal).discardFrames
  let s := if s.isMember then s else ((s.setCause pDev 0x20).emit (.aer true 0)).setCause pHif 0x10
  if cls = 2 ∧ s.bit pStd O.STD_CFG 31 ∧ 1 < s.fld pStd O.STD_STAT 8 7 then s.emit (.fatalBroadcast s.ownEngine) else s

section
variable (s : State) (cls code info : Nat)

/-- The record, before the ports go dark. -/
theorem haltKept_recorded : HaltKept s ((((s.errCapture pDev code info 0).faultLog cls false false pDev code
    info).fatalRecord cls code info).setBit pDev O.DEV_FLAGS 0 true) :=
  (((HaltKept.errCapture s _ _ _ (by decide)).trans (.faultLog ..)).trans (.fatalRecord ..)).trans
    (.wr _ _ (by decide) (by decide))

/-- The messages, after the ports go dark. -/
theorem haltKept_announced : HaltKept (((((s.errCapture pDev code info 0).faultLog cls false false pDev code
    info).fatalRecord cls code info).setBit pDev O.DEV_FLAGS 0 true).startGlob .fatal) (s.fatalPrepared cls code info) := by
  have sent : ∀ t : State, HaltKept t (if t.isMember then t else ((t.setCause pDev 0x20).emit (.aer true 0)).setCause pHif 0x10) :=
    fun t => .ite (.refl t) (((HaltKept.setCause t _ (by decide)).trans (.emit ..)).trans (.setCause _ _ (by decide)))
  exact ((HaltKept.discardFrames _).trans (sent _)).trans (.ite (.emit ..) (.refl _))

theorem haltKept_fatalPrepared : HaltKept s (s.fatalPrepared cls code info) :=
  ((haltKept_recorded s cls code info).trans (.startGlob ..)).trans (haltKept_announced ..)

theorem fatal_fatalPrepared : Cond.fatal ∈ (s.fatalPrepared cls code info).black.glob :=
  (haltKept_announced s cls code info).glob _ (mem_startGlob _ _ _ (.inl rfl))

variable {s}

theorem enterFatal_of_up (h : s.flt.life = .up) : s.enterFatal cls code info
    = { s.fatalPrepared cls code info with
        flt := { (s.fatalPrepared cls code info).flt with life := .fatal, fatalCode := code } } := by
  unfold enterFatal
  rw [h]
  rfl

theorem enterFatal_of_fatal (h : s.flt.life = .fatal) :
    s.enterFatal cls code info = s.faultLog cls false false pDev code info := by
  unfold enterFatal
  rw [h]

/-- A change of the fault state alone. -/
theorem mems_setFlt (t : State) (f : Flt) : mems { t with flt := f } = t.mems := rfl

/-- DEVICE_FATAL is entered, or held already. -/
theorem enterFatal_effect (h : s.flt.life = .up ∨ s.flt.life = .fatal) :
    (s.enterFatal cls code info).mems = s.mems ∧ (s.enterFatal cls code info).flt.life = .fatal
    ∧ (∀ off, off < 0x10000 → (s.enterFatal cls code info).rd pStd off = s.rd pStd off)
    ∧ OutGrows s (s.enterFatal cls code info)
    ∧ (s.flt.life = .up → Cond.fatal ∈ (s.enterFatal cls code info).black.glob
        ∧ (s.enterFatal cls code info).flt.fatalCode = code) := by
  obtain up | fatal := h
  · have kept := haltKept_fatalPrepared s cls code info
    have dark := fatal_fatalPrepared s cls code info
    rw [enterFatal_of_up cls code info up]
    generalize s.fatalPrepared cls code info = p at kept dark
    exact ⟨(mems_setFlt ..).trans kept.mems, rfl, fun off ho => (rd_setFlt ..).trans (kept.std off ho), ⟨kept.out.mem⟩,
      fun _ => ⟨dark, rfl⟩⟩
  · have kept := HaltKept.faultLog s cls false false pDev code info
    rw [enterFatal_of_fatal cls code info fatal]
    exact ⟨kept.mems, kept.flt ▸ fatal, kept.std, kept.out, fun up => absurd (fatal.symm.trans up) (by decide)⟩

end

/-! ## A FATAL broadcast (R427) -/

/-- A FATAL broadcast has raised its cause, and the lead has sent it on. -/
def fatalHeard (s : State) (e : Nat) : State :=
  let t := s.setCause pStd 0x80
  if t.isLead then t.emit (.fatalBroadcast e) else t

theorem fatalIn_of_sole {s : State} {e : Nat} (hl : s.isLead = true) (h : s.bit pStd O.STD_CFG 31 = false) :
    s.fatalIn e = s.loseEngines (2 ^ e) := if_pos (by simp [hl, h])

theorem fatalIn_of_spread {s : State} {e : Nat} (h : s.isLead = false ∨ s.bit pStd O.STD_CFG 31 = true) :
    s.fatalIn e = (s.fatalHeard e).enterFatal 3 0x0104 e := if_neg (by cases h <;> simp_all)

section
variable (s : State) (e : Nat)

theorem standKept_fatalHeard : StandKept pStd [O.INT_CAUSE] s (s.fatalHeard e) :=
  (StandKept.setCause s _ (by decide)).trans (.ite (.emit ..) (.refl ..))

theorem cause_fatalHeard : (s.fatalHeard e).bit pStd O.INT_CAUSE 7 = true := by
  have raised : (s.setCause pStd 0x80).bit pStd O.INT_CAUSE 7 = true :=
    (bit_setCause _ _ (by decide) (by decide)).trans (Bool.or_true _)
  exact ite_keeps (fun t : State => t.bit pStd O.INT_CAUSE 7) raised raised

variable {s} in
theorem sent_fatalHeard (h : s.isLead = true) : .fatalBroadcast e ∈ (s.fatalHeard e).out := by
  have lead : (s.setCause pStd 0x80).isLead = true :=
    (bit_of_rd _ (rd_std_setCause _ _ _ (by decide) (by decide))).trans h
  unfold fatalHeard
  simp only [lead]
  exact List.mem_cons_self

end

end State
end Sys2Proof.Machine
end

section
/-! PROOFS. O56: what each event of the stand's block leads to, from a state of which only that is known, and the settling of
it. -/
namespace Sys2Proof.Machine
namespace State

/-- The state of an event that changes nothing. -/
theorem setPending_of_eq {s u : State} (h : u = s) : { u with pending := s.pending } = s := by rw [h]

/-- A condition on every port makes every port BLACK, whatever commands wait. -/
theorem allBlack_setPending {u : State} {c : Cond} (h : c ∈ u.black.glob) (l : List Instr) :
    allBlack { u with pending := l } := allBlack_of_mem (s := { u with pending := l }) h

section
variable {s u : State} {k : Nat} {lost : Nat}

/-- A BEACON that shows a missed operation, to a member that has missed none yet. -/
theorem beaconIn_missed_effect {x : Bool} (hu : u = (s.beaconHeard x).missedOp) (hf : s.bit pStd O.STD_FLAGS 3 = false) :
    u.rd pStd O.STD_CNT_MISSED = (s.rd pStd O.STD_CNT_MISSED + 1) % 2 ^ 32 ∧ Cond.missed ∈ u.black.glob
    ∧ u.bit pStd O.INT_CAUSE 3 = true ∧ .missedReport s.ownEngine ∈ u.out := by
  have heard : ∀ off, off < 0x10000 → (s.beaconHeard x).rd pStd off = s.rd pStd off := fun off => rd_std_beaconHeard s x
  have own : (s.beaconHeard x).ownEngine = s.ownEngine := fld_of_rd _ _ (heard _ (by decide))
  have effect := missedOp_effect ((bit_of_rd _ (heard _ (by decide))).trans hf)
  rwa [own, heard _ (by decide), ← hu] at effect

theorem beaconMissed_effect (hm : s.isMember = true) (hs : s.stdState = 2) (hu : u = s.beaconMissed) :
    u.mems = s.mems ∧ u.stand.noBeacon = s.stand.noBeacon + 1
    ∧ u.rd pStd O.STD_CNT_BEACON_MISS = (s.rd pStd O.STD_CNT_BEACON_MISS + 1) % 2 ^ 32 := by
  have late := standKept_isolate s.beaconLate
  have mems := beaconMissed_keeps hm hs State.mems late.mems
  have misses := beaconMissed_keeps hm hs (fun t => t.stand.noBeacon) (noBeacon_isolate _)
  have count := beaconMissed_keeps hm hs (fun t => t.rd pStd O.STD_CNT_BEACON_MISS)
    (late.rd_std (fun _ => by decide) (by decide))
  rw [← hu] at mems misses count
  exact ⟨mems.trans (standKept_beaconLate s).mems, misses.trans (congrArg Stand.noBeacon (stand_beaconLate s)),
    count.trans (count_beaconLate s)⟩

/-- The standby path taken. -/
theorem treeDown_standby_effect {i : Nat} (hi : i ≠ k) (hs : s.crnState i = 2) (hu : u = (s.treeCut k).newParent i) :
    u.crnParent i = true ∧ u.crnTree i = true ∧ u.bit pStd O.STD_FLAGS 2 = true ∧ u.stand.measures = 16
    ∧ u.stdState = s.stdState := by
  have stat : ((s.treeCut k).newParent i).rd pStd O.STD_STAT = s.rd pStd O.STD_STAT :=
    (rd_std_newParent _ _ (by decide) (by decide)).trans (rd_std_treeCut s k (by decide))
  have stand := stand_newParent (s.treeCut k) i
  rw [hu]
  exact ⟨crnParent_newParent .., crnTree_newParent _ _ ((crnState_treeCut s k hi).trans hs), held_newParent ..,
    congrArg Stand.measures stand, fld_of_rd _ _ stat⟩

/-- The engines that the lead can no longer reach. -/
theorem treeDown_lost_effect (hl : s.isLead = true) (hg : s.present &&& lost ≠ 0) (hu : u = (s.treeCut k).loseEngines lost) :
    u.present = s.present - (s.present &&& lost) ∧ u.bit pStd O.INT_CAUSE 2 = true := by
  have lead := (isLead_treeCut s k).trans hl
  have present := present_loseEngines _ lost lead
  have cause : ((s.treeCut k).loseEngines lost).bit pStd O.INT_CAUSE 2 = true := by
    rw [loseEngines_of_lost _ lead (by rwa [present_treeCut]), bit_setCause _ _ (by decide) (by decide)]
    exact Bool.or_true _
  rw [present_treeCut] at present
  rw [hu]
  exact ⟨present, cause⟩

/-- An isolated member rejoins, and its ports light again unless something else keeps them dark. -/
theorem rejoin_isolated_effect (hu : u = (s.rejoined k).missedOp.endGlob .isolated) :
    u.stdState = 2 ∧ u.bit pStd O.STD_FLAGS 4 = false ∧ u.bit pStd O.STD_FLAGS 3 = true ∧ Cond.isolated ∉ u.black.glob
    ∧ u.crnParent k = true ∧ u.stand.noBeacon = 0 ∧ u.bit pStd O.INT_CAUSE 5 = true := by
  obtain ⟨state, isolated, missed, parent, beacons, cause⟩ := rejoin_effect s k
  have released := not_mem_endGlob (s.rejoined k).missedOp .isolated
  have kept : ∀ p off, u.rd p off = (s.rejoined k).missedOp.rd p off := fun p off => hu ▸ rd_endGlob ..
  have stand : u.stand = (s.rejoined k).missedOp.stand := hu ▸ stand_endGlob ..
  rw [← hu] at released
  exact ⟨(fld_of_rd _ _ (kept ..)).trans state, (bit_of_rd _ (kept ..)).trans isolated, (bit_of_rd _ (kept ..)).trans missed,
    released, (bit_of_rd _ (kept ..)).trans parent, (congrArg Stand.noBeacon stand).trans beacons,
    (bit_of_rd _ (kept ..)).trans cause⟩

/-- The lead marks an engine present. -/
theorem rejoin_absent_effect {e : Nat} (he : e < 64) (hp : bitOf s.present e = false)
    (hu : u = (s.wr64 pStd O.STD_PRESENT_LO (s.present + 2 ^ e)).setCause pStd 2) :
    u.present = s.present + 2 ^ e ∧ u.bit pStd O.INT_CAUSE 1 = true := by
  have cause := bit_setCause (s.wr64 pStd O.STD_PRESENT_LO (s.present + 2 ^ e)) 2 (p := pStd) (b := 1) (by decide) (by decide)
  rw [hu]
  exact ⟨present_set _ _ _ (add_two_pow_lt (rd64_lt ..) he hp), cause.trans (Bool.or_true _)⟩

/-- A FATAL broadcast halts the engine. -/
theorem fatalIn_spread_effect {e : Nat} (ha : s.alive .std = true) (hu : u = (s.fatalHeard e).enterFatal 3 0x0104 e) :
    u.mems = s.mems ∧ u.bit pStd O.INT_CAUSE 7 = true ∧ u.flt.life = .fatal
    ∧ (s.isLead = true → .fatalBroadcast e ∈ u.out)
    ∧ (s.flt.life = .up → Cond.fatal ∈ u.black.glob ∧ u.flt.fatalCode = 0x0104) := by
  have kept := standKept_fatalHeard s e
  have life : s.flt.life = .up ∨ s.flt.life = .fatal := by
    revert ha
    rw [alive]
    cases s.flt.life <;> simp
  rw [← kept.flt] at life ⊢
  obtain ⟨mems, fatal, std, out, entered⟩ := enterFatal_effect 3 0x0104 e life
  rw [← hu] at mems fatal std out entered
  exact ⟨mems.trans kept.mems, (bit_of_rd _ (std _ (by decide))).trans (cause_fatalHeard s e), fatal,
    fun hl => out.mem _ (sent_fatalHeard e hl), entered⟩

theorem setRegs_emit (s : State) (m : Store W32) (o : Output) :
    emit { s with regs := m } o = { s with regs := m, out := o :: s.out } := rfl

/-- A picture sent to the sinks of a share. -/
theorem shareOut_ready_effect {n i : Nat} (hu : u = (s.incr pStd (shr O.STD_SH_PICS n)).emit (s.sharedPicture n i)) :
    u.rd pStd (shr O.STD_SH_PICS n) = (s.rd pStd (shr O.STD_SH_PICS n) + 1) % 2 ^ 32
    ∧ u = { s with regs := u.regs, out := u.out } ∧ u.out = s.sharedPicture n i :: s.out := by
  have pics := rd_incr_same s pStd (shr O.STD_SH_PICS n)
  rw [incr, addReg, wr] at pics hu
  generalize sset regReset s.regs _ _ = m at pics hu
  rw [setRegs_emit] at hu
  rw [hu]
  exact ⟨pics, rfl, rfl⟩

/-- A picture put into a sink's ring. -/
theorem sharePut_effect {n slot : Nat} {x : Ctx} {p : SharePic} (hu : u = (s.sinkOpened n x).sharePut n slot x p) :
    u.shareRing n = x ∧ u.sstate x slot = 2
    ∧ u.rd pStd (shr O.STD_SH_PICS n) = (s.rd pStd (shr O.STD_SH_PICS n) + 1) % 2 ^ 32 := by
  have pics := pics_sharePut (s.sinkOpened n x) n slot x p
  rw [(hbmOnly_sinkOpened s n x).rd] at pics
  rw [hu]
  exact ⟨shareRing_sharePut .., sstate_sharePut .., pics⟩

/-- A picture dropped. -/
theorem shareDrop_effect {n : Nat} {x : Ctx} (hu : u = (s.sinkOpened n x).shareDrop n) :
    u.rd pStd (shr O.STD_SH_DROP n) = (s.rd pStd (shr O.STD_SH_DROP n) + 1) % 2 ^ 32
    ∧ u.rd pStd O.STD_CNT_SH_DROP = (s.rd pStd O.STD_CNT_SH_DROP + 1) % 2 ^ 32 ∧ u.shares = s.shares := by
  have opened := hbmOnly_sinkOpened s n x
  obtain ⟨own, all⟩ := drops_shareDrop (s.sinkOpened n x) n
  rw [opened.rd] at own all
  rw [hu]
  exact ⟨own, all, (shares_shareDrop ..).trans opened.shares⟩

end

end State

/-- Settles O56: each event of the stand's block by the state it leads to, and of that state the registers, conditions and
memories that the statement names. -/
theorem beaconsIsolationAndSharedPictures : Obligations.BeaconsIsolationAndSharedPictures := by
  unfold Obligations.BeaconsIsolationAndSharedPictures
  intro one fl formed isolated host
  refine ⟨fun s ha => ?_, fun w q e x s ha => ?_, fun s hf => ?_, fun k path lost s ha => ?_, fun s ha => ?_,
    fun e k s ha => ?_, fun e s ha => ⟨fun hl hc => ?_, fun h => ?_⟩, fun n k s ha => ?_, fun n src pic s ha => ?_⟩
  · have run : exec .beaconSend s = act .std (·.beacon) s := rfl
    rw [run]
    refine act_next ha fun u hu => ⟨fun hl hs => ?_, fun h => State.setPending_of_eq (hu.trans (State.beacon_of_other h))⟩
    have sent := hu.trans (State.beacon_of_lead hl hs)
    rw [State.emit] at sent
    rw [sent]
  · intro ahead reached
    have run : exec (.beaconRx w q e x) s = act .std (·.beaconIn w.toNat q.toNat e.toNat x) s := rfl
    have hq : q.toNat < 2 ^ 32 := q.isLt
    have mems := State.mems_beaconIn s w.toNat q.toNat e.toNat x hq
    rw [run]
    refine act_next ha fun u hu => ?_
    rw [← hu] at mems
    refine ⟨State.memSame_of_mems mems, fun h => State.setPending_of_eq (hu.trans (State.beaconIn_of_other h)), ?_⟩
    rintro ⟨-, hm, hs⟩
    have stand := State.stand_beaconIn (frame := w.toNat) (epoch := e.toNat) (x := x) hm hs hq
    have exceeded := State.exceeded_beaconIn (frame := w.toNat) (epoch := e.toNat) (x := x) hm hs hq
    rw [← hu] at stand exceeded
    refine ⟨stand, exceeded, fun hx hold => ?_, fun h hx => ?_, fun h0 h => ?_⟩
    · subst hx
      have dark := State.holdover_beaconIn (frame := w.toNat) (epoch := e.toNat) hm hs hq hold
      rw [← hu] at dark
      exact State.allBlack_setPending dark _
    · have flags := State.rd_std_beaconHeard s x (off := O.STD_FLAGS) (by decide)
      obtain ⟨black, out⟩ := State.beaconHeard_of_same hx
      rw [State.beaconIn_in_step hm hs hq h] at hu
      rw [← hu] at flags black out
      exact ⟨flags, black, out⟩
    · rw [State.beaconIn_missed hm hs hq h0 h] at hu
      have missed := State.missed_missedOp (s.beaconHeard x)
      rw [← hu] at missed
      refine ⟨missed, fun hf => ?_⟩
      obtain ⟨count, dark, cause, sent⟩ := State.beaconIn_missed_effect hu hf
      exact ⟨count, State.allBlack_setPending dark _, cause, sent⟩
  · obtain ⟨ha, hm, hs⟩ := hf
    have run : exec .beaconMiss s = act .std (·.beaconMissed) s := rfl
    rw [run]
    refine act_next ha fun u hu => ?_
    obtain ⟨mems, misses, count⟩ := State.beaconMissed_effect hm hs hu
    refine ⟨State.memSame_of_mems mems, misses, count, fun h => ?_, fun h => ?_⟩
    · have alone := State.isolates_beaconMissed hm hs h
      rw [← hu] at alone
      exact alone
    · have rest := State.beaconLate_rest s
      have regs := State.regsSame_beaconLate s
      rw [← State.beaconMissed_early hm hs h, ← hu] at rest regs
      exact ⟨congrArg (fun v : State => { v with pending := s.pending }) rest, regs⟩
  · have run : exec (.parentLinkDown k path lost) s
        = act .std (·.treeDown k (path.map (·.val)) lost.toNat) s := rfl
    rw [run]
    refine act_next ha fun u hu => ?_
    obtain ⟨mems, links, stat⟩ := State.treeDown_effect s k (path.map (·.val)) lost.toNat
    rw [← hu] at mems links stat
    refine ⟨State.memSame_of_mems mems, links, stat, ?_, ?_, fun hp hl => ?_⟩
    · rintro ⟨-, hm, hs⟩ hp rfl
      have alone := State.isolates_treeDown (lost := lost.toNat) hp hm hs
      rw [Option.map_none] at hu
      rw [← hu] at alone
      exact alone
    · rintro i hp rfl hi hs hf
      have other : i.val ≠ k.val := fun e => hi (Fin.ext e)
      have taken := State.treeDown_standby_effect other hs (hu.trans (State.treeDown_of_standby hp other hs hf))
      exact taken
    · intro lead gone
      have reduced := State.treeDown_lost_effect lead gone (hu.trans (State.treeDown_of_branch hp hl))
      exact reduced
  · have run : exec .isoHoldExpiry s = act .std (fun s => when (s.stdState = 3) (·.startGlob .isolated) s) s := rfl
    rw [run]
    refine act_next ha fun u hu =>
      ⟨fun h => State.setPending_of_eq (hu.trans (if_neg (by simpa using h))), fun h => ?_⟩
    have dark : u = s.startGlob .isolated := hu.trans (if_pos (by simpa using h))
    have glob := State.mem_startGlob s .isolated _ (.inl rfl)
    rw [← dark] at glob
    refine ⟨State.allBlack_setPending glob _, ?_⟩
    rw [dark, State.startGlob_rest]
  · have run : exec (.standRejoin e k) s = act .std (·.rejoin e k) s := rfl
    have mems := State.mems_rejoin s e k
    rw [run]
    refine act_next ha fun u hu => ?_
    rw [← hu] at mems
    refine ⟨State.memSame_of_mems mems, fun hm h => State.setPending_of_eq (hu.trans (State.rejoin_of_unaffected hm h)),
      fun hm he hs => ?_, fun hm hl he hp => ?_⟩
    · have returned := State.rejoin_isolated_effect (hu.trans (State.rejoin_of_isolated hm he hs))
      exact returned
    · have marked := State.rejoin_absent_effect e.isLt hp (hu.trans (State.rejoin_of_absent hm hl he hp))
      exact marked
  · have run : exec (.fatalBroadcast e) s = act .std (·.fatalIn e) s := rfl
    have rest := State.loseEngines_rest s (2 ^ e.val)
    have present := State.present_loseEngines s (2 ^ e.val) hl
    rw [run]
    refine act_next ha fun u hu => ?_
    rw [State.fatalIn_of_sole hl hc] at hu
    rw [← hu] at rest present
    exact ⟨congrArg (fun v : State => { v with pending := s.pending }) rest, present⟩
  · have run : exec (.fatalBroadcast e) s = act .std (·.fatalIn e) s := rfl
    rw [run]
    refine act_next ha fun u hu => ?_
    rw [State.fatalIn_of_spread h] at hu
    obtain ⟨mems, cause, fatal, sent, entered⟩ := State.fatalIn_spread_effect ha hu
    exact ⟨State.memSame_of_mems mems, cause, fatal, fun hl _ => sent hl,
      fun up => ⟨State.allBlack_setPending (entered up).1 _, (entered up).2⟩⟩
  · intro c x
    have run : exec (.shareSend n k) s = act .std (·.shareOut n (k.map (·.val))) s := rfl
    have mems := State.mems_shareOut s n (k.map (·.val))
    rw [run]
    refine act_next ha fun u hu => ?_
    rw [← hu] at mems
    refine ⟨State.memSame_of_mems mems, fun h => State.setPending_of_eq (hu.trans (State.shareOut_of_no_source _ h)),
      fun he hs hr => ⟨?_, ?_⟩⟩
    · rintro rfl hc
      have closed := hu.trans (State.shareOut_of_closed he hs hr hc)
      rw [State.emit] at closed
      rw [closed]
    · rintro i rfl ho ht hi hready
      obtain ⟨pics, rest, out⟩ := State.shareOut_ready_effect (hu.trans (State.shareOut_of_ready he hs hr ho ht hi hready))
      exact ⟨pics, congrArg (fun v : State => { v with pending := s.pending }) rest, out⟩
  · intro c
    have run : exec (.shareReceive n src pic) s = act .std (·.shareIn n src pic) s := rfl
    have bytes := State.host_shareIn s n src pic
    rw [run]
    refine act_next ha fun u hu => ?_
    rw [← hu] at bytes
    refine ⟨fun a => congrArg (sget _ · a) bytes,
      fun h => State.setPending_of_eq (hu.trans (State.shareIn_of_no_sink _ h)), fun he hs hsrc hr => ⟨?_, ?_⟩⟩
    · rintro rfl
      have empty := State.shareRing_emptyShare s n
      rw [← State.shareIn_close he hs hsrc hr, ← hu] at empty
      exact empty
    · rintro p rfl x s1
      refine ⟨fun k hk hp => ?_, fun h => ?_⟩
      · have put := State.sharePut_effect (hu.trans (State.shareIn_put he hs hsrc hr hk hp))
        exact put
      · have dropped := State.shareDrop_effect (hu.trans (State.shareIn_drop he hs hsrc hr h))
        exact dropped

end Sys2Proof.Machine
end

section
/-! PROOFS. O32 fails, as O28 and O31 do, at a store of contexts that lists a context twice: the core that the captured
picture waits for finds its contexts by the entries of the store, where a context is read by its first entry. It so starts
the picture of a context that reads as no encode context, which the statement's hypothesis about other encode contexts
passes over, and scaling that picture's source into its input ring changes HBM. On a store in canonical form the contexts
on a core read as contexts of its kind (`typ_of_mem_onCore`), so the counterexample is again a matter of the statement's
range of states. -/
namespace Sys2Proof.Machine
open State

/-- With the contexts in canonical form, what a core finds by the store's entries reads as a context of the core's kind, so
O32's failure takes a store that lists a context twice. -/
theorem typ_of_mem_onCore {s : State} (hs : swf (fun _ => {}) s.ctxs = true) {typ k c : Nat} (h : c ∈ s.onCore typ k) :
    (s.ctx c).typ = typ := by
  obtain ⟨⟨c, x⟩, listed, rfl⟩ := List.mem_map.mp h
  obtain ⟨listed, hx⟩ := List.mem_filter.mp listed
  have read : s.ctx c = x := (sget_of_mem_swfFrom _ hs listed).2
  exact read ▸ (of_decide_eq_true hx).1

/-- The picture of context 5 of `doubledCtx` has a source still to be scaled; context 0 is a TAP encode context in ENCODING,
its capture complete and no picture of it in progress. -/
def capturedCtx : State :=
  (doubledCtx.modCtx 5 fun x => { x with width := 2, height := 1, enc := { pic := some { pts := 0, src := some 0 } } }).setCtx 0
    { typ := 3, st := 2, enc := { cap := some (0, 0) } }

/-- No context of `capturedCtx` but context 0 reads as an encode context. -/
theorem capturedCtx_typ {k : Nat} (h : k ≠ 0) : (capturedCtx.ctx k).typ ≠ 3 := by
  rw [capturedCtx, ctx_setCtx_other _ _ h]
  by_cases h5 : k = 5
  · subst h5
    rw [ctx_modCtx_same]
    exact doubledCtx_typ 5
  · rw [modCtx, ctx_setCtx_other _ _ h5]
    exact doubledCtx_typ k

/-- An encoder's result with nothing in it. -/
def emptyOut : EncOut := ⟨[], [], ([], [], []), [], 0⟩

/-- The encode instant of context 0 has the source of context 5's picture scaled into HBM, where it was all zeros. -/
theorem encodeInstant_writes_capturedCtx :
    (after (.encodeInstant 0 emptyOut) capturedCtx).hbmByte 1 ≠ capturedCtx.hbmByte 1 := by
  decide

/-- Refutes O32: the ENCODE_INSTANT of context 0 writes HBM for context 5, which the store of contexts lists twice. -/
theorem not_encoderPicturesFollowInstantsAndPasses : ¬ Obligations.EncoderPicturesFollowInstantsAndPasses := by
  unfold Obligations.EncoderPicturesFollowInstantsAndPasses
  rintro ⟨instant, -, -⟩
  obtain ⟨t, ht, -, ⟨-, hbm, -⟩, -⟩ := instant 0 emptyOut 0 0 capturedCtx (by decide)
    (fun k h ht => absurd ht (capturedCtx_typ h)) (by decide) (by decide) (by decide) (by decide) (by decide)
  have reached : after (.encodeInstant 0 emptyOut) capturedCtx = t := by rw [after, ht]
  exact encodeInstant_writes_capturedCtx (by rw [reached, hbm])

end Sys2Proof.Machine
end

section
/-! PROOFS. What interrupt requests leave of the blocks from the ports on, and bytes of HBM and of words. -/
namespace Sys2Proof.Machine

/-! ## Words as bytes -/

/-- The bytes of a number are those of its low part. -/
theorem leBytes_mod (n v : Nat) : leBytes n (v % 256 ^ n) = leBytes n v := by
  induction n generalizing v with
  | zero => rfl
  | succ n ih =>
    have byte : BitVec.ofNat 8 (v % 256 ^ (n + 1)) = BitVec.ofNat 8 v := by
      apply BitVec.eq_of_toNat_eq
      rw [BitVec.toNat_ofNat, BitVec.toNat_ofNat, Nat.pow_succ']
      exact Nat.mod_mul_right_mod v 256 _
    rw [leBytes, leBytes, byte, Nat.pow_succ', Nat.mod_mul_right_div_self, ih]

theorem leWord_head (a : Nat) (l : List Byte) : leWord (leBytes 4 a ++ l) 0 = a % 2 ^ 32 := by
  rw [leWord, List.drop_zero, List.take_left' (length_leBytes 4 a), leNat_leBytes]
  rfl

theorem leWord_tail (a off : Nat) (l : List Byte) : leWord (leBytes 4 a ++ l) (off + 4) = leWord l off := rfl

namespace State

/-! ## Requests and register writes -/

section
variable (s : State) (p m : Nat)

@[simp] theorem host_setCause : (s.setCause p m).host = s.host := (congrArg State.host (s.setCause_rest p m)).trans rfl
@[simp] theorem tly_setCause : (s.setCause p m).tly = s.tly := (congrArg State.tly (s.setCause_rest p m)).trans rfl
@[simp] theorem lmp_setCause : (s.setCause p m).lmp = s.lmp := (congrArg State.lmp (s.setCause_rest p m)).trans rfl

/-- A register from the ports' pages on that is no cause, after causes are set on any page. -/
theorem rd_block_setCause {q off : Nat} (hq : pNet ≤ q) (ho : off < 0x10000) (h : off ≠ O.INT_CAUSE) :
    (s.setCause p m).rd q off = s.rd q off := rd_setCause_other ho (sigReg_of_ge hq h)

/-- A cause that is given stands. -/
theorem cause_setCause {p b : Nat} (hp : p ≠ pEic) (hb : b < 32) (hm : bitOf m b = true) :
    (s.setCause p m).bit p O.INT_CAUSE b = true := by
  rw [bit_setCause s m hp hb, hm, Bool.or_true]

@[simp] theorem mems_incr (off : Nat) : (s.incr p off).mems = s.mems := mems_wr ..

end

theorem rd_addReg_off (s : State) {p a b : Nat} (n : Nat) (h : b ≠ a) : (s.addReg p a n).rd p b = s.rd p b := rd_wr_off s _ h
theorem rd_incr_off (s : State) {p a b : Nat} (h : b ≠ a) : (s.incr p a).rd p b = s.rd p b := rd_wr_off s _ h

/-- A PW write with none pending is applied. -/
theorem pwWrite_of_free {s : State} {p : Nat} (h : s.postBusy p = false) (f : State → State) : s.pwWrite p f = f s :=
  if_neg (by simp [h])

/-! ## Bytes of HBM -/

/-- The first bytes of a run, read where the run was written. -/
theorem hbmBytes_setHbm_take (s : State) (a : Nat) {n : Nat} {l : List Byte} (h : n ≤ l.length) :
    (s.setHbm a l).hbmBytes a n = l.take n := by
  apply List.ext_getElem (by simp [hbmBytes, sgetList, h])
  intro i hi _
  have hn : i < n := by simpa [hbmBytes, sgetList] using hi
  simp only [hbmBytes, setHbm, sgetList, List.getElem_map, List.getElem_range, List.getElem_take]
  rw [sget_ssetList, if_pos (by omega), Nat.add_sub_cancel_left, List.getD_eq_getElem?_getD,
    List.getElem?_eq_getElem (by omega)]
  rfl

theorem hbmByte_setHbm_other (s : State) {a x : Nat} {l : List Byte} (h : ¬ (a ≤ x ∧ x < a + l.length)) :
    (s.setHbm a l).hbmByte x = s.hbmByte x := (sget_ssetList ..).trans (if_neg h)

theorem rd64_of_rd {s t : State} {p off : Nat} (lo : t.rd p off = s.rd p off) (hi : t.rd p (off + 4) = s.rd p (off + 4)) :
    t.rd64 p off = s.rd64 p off := by rw [rd64, rd64, lo, hi]

end State
end Sys2Proof.Machine
end

section
/-! PROOFS. O37, samples: when one is taken or deferred (R237), and what a fold adds to a lamp pixel's doses (R238). -/
namespace Sys2Proof.Machine

/-! ## Dose records (R235) -/

theorem length_doseBytes (r : Dose) : r.bytes.length = 16 := by
  simp only [Dose.bytes, List.length_append, length_leBytes]

/-- Doses read back from a record's bytes are cut to 32 bits. -/
theorem doseOf_bytes_d (r : Dose) : (doseOf r.bytes).d = (r.d.1 % 2 ^ 32, r.d.2.1 % 2 ^ 32, r.d.2.2 % 2 ^ 32) := by
  simp only [doseOf, Dose.bytes, List.append_assoc]
  rw [leWord_head, leWord_tail _ 0, leWord_head, leWord_tail _ 4, leWord_tail _ 0, leWord_head]

namespace State

theorem doseAddr_of_rd {s t : State} (h : ∀ off, off < O.TLY_CNT_SAMPLES → t.rd pTly off = s.rd pTly off) (i : Nat) :
    t.doseAddr i = s.doseAddr i := by
  rw [doseAddr, doseAddr, rd64_of_rd (h _ (by decide)) (h _ (by decide))]

theorem dose_of_rd {s t : State} (hb : t.hbm = s.hbm) (h : ∀ off, off < O.TLY_CNT_SAMPLES → t.rd pTly off = s.rd pTly off)
    (i : Nat) : t.dose i = s.dose i := by
  rw [dose, dose, hbmBytes, hbmBytes, hb, doseAddr_of_rd h]

theorem rd_setDose (s : State) (i : Nat) (r : Dose) (p off : Nat) : (s.setDose i r).rd p off = s.rd p off := by
  rw [rd, setDose, setHbm_regs, rd]

/-- A record written reads back. -/
theorem dose_setDose_same (s : State) (i : Nat) (r : Dose) : (s.setDose i r).dose i = doseOf r.bytes := by
  rw [dose, doseAddr_of_rd (s := s) fun off _ => rd_setDose .., setDose,
    hbmBytes_setHbm_take s _ (length_doseBytes r).ge, List.take_of_length_le (length_doseBytes r).le]

theorem hbmByte_setDose_other (s : State) {i x : Nat} (r : Dose) (h : ¬ (s.doseAddr i ≤ x ∧ x < s.doseAddr i + 16)) :
    (s.setDose i r).hbmByte x = s.hbmByte x := hbmByte_setHbm_other s (by rwa [length_doseBytes])

theorem hbmOnly_setDose (s : State) (i : Nat) (r : Dose) : HbmOnly s (s.setDose i r) := by
  rw [setDose]
  exact .setHbm ..

/-! ## A sample is taken or deferred (R237) -/

/-- A sample falls due in slot `k`: the wall frame is one to be sampled, the feed's turn has come, the frame has not been
sampled yet, and no supply fails. -/
structure SampleDue (s : State) (k : Nat) : Prop where
  slot : s.lnd.slot = some k
  run : s.running pTly = true
  interval : s.fld pTly O.TLY_INTERVAL 0 16 ≠ 0
  frame : s.tim.wframe % s.fld pTly O.TLY_INTERVAL 0 16 = 0
  turn : k = s.tly.n % max 1 s.feeds
  fresh : s.tly.last ≠ some s.tim.wframe
  power : Cond.pwrFail ∉ s.black.glob

/-- The wall frame in progress is the one last sampled or deferred. -/
def sampleMarked (s : State) : State := { s with tly := { s.tly with last := some s.tim.wframe } }

/-- A sample put off, before its cause is set. -/
def sampleDeferred (s : State) : State :=
  { s with tly := { s.tly with last := some s.tim.wframe, deferred := s.tly.deferred + 1 } }.incr pTly O.TLY_CNT_DEFERRED

theorem tallySample_of_none {s : State} (h : s.lnd.slot = none) : s.tallySample = s := by
  simp only [tallySample, h]

theorem tallySample_of_due {s : State} {k : Nat} (h : s.SampleDue k) : s.tallySample
    = if s.tly.fold.isSome then s.sampleDeferred.setCause pTly 1 else s.sampleMarked.takeSample k := by
  have due : ¬ (!s.running pTly ∨ s.fld pTly O.TLY_INTERVAL 0 16 = 0 ∨ s.tim.wframe % s.fld pTly O.TLY_INTERVAL 0 16 ≠ 0
      ∨ k ≠ s.tly.n % max 1 s.feeds ∨ s.tly.last = some s.tim.wframe ∨ Cond.pwrFail ∈ s.black.glob) := by
    simp [h.run, h.interval, h.frame, h.turn.symm, h.fresh, h.power]
  simp only [tallySample, h.slot]
  exact if_neg due

theorem mems_takeSample (s : State) (k : Nat) : (s.takeSample k).mems = s.mems := rfl

theorem mems_tallySample (s : State) : s.tallySample.mems = s.mems := by
  unfold tallySample
  cases s.lnd.slot with
  | none => rfl
  | some k =>
    refine ite_keeps mems rfl (ite_keeps mems ?_ (mems_takeSample ..))
    exact (setCause_mems ..).trans (mems_incr ..)

theorem takeSample_stages (s : State) (k : Nat) : (∃ l, (s.takeSample k).tly.fold = some l ∧ l.length ≤ 65536)
    ∧ (s.takeSample k).tly.live = true ∧ (s.takeSample k).tly.n = s.tly.n + 1 ∧ (s.takeSample k).tly.deferred = 0
    ∧ (s.takeSample k).tly.last = s.tly.last :=
  ⟨⟨_, rfl, List.length_take_le ..⟩, rfl, rfl, rfl, rfl⟩

/-- A sample that is due with no fold under way. -/
theorem tallySample_takes {s : State} {k : Nat} (h : s.SampleDue k) (hf : s.tly.fold = none) :
    s.tallySample = s.sampleMarked.takeSample k := by
  rw [tallySample_of_due h, hf]
  rfl

/-- A sample that is due while a fold is under way. -/
theorem tallySample_defers {s : State} {k : Nat} (h : s.SampleDue k) (hf : s.tly.fold ≠ none) :
    s.tallySample = s.sampleDeferred.setCause pTly 1 := by
  rw [tallySample_of_due h, if_pos (Option.isSome_iff_ne_none.mpr hf)]

theorem deferred_effect (s : State) : let t := s.sampleDeferred.setCause pTly 1
    t.tly.last = some s.tim.wframe ∧ t.tly.fold = s.tly.fold ∧ t.tly.deferred = s.tly.deferred + 1
    ∧ t.rd pTly O.TLY_CNT_DEFERRED = (s.rd pTly O.TLY_CNT_DEFERRED + 1) % 2 ^ 32 ∧ t.bit pTly O.INT_CAUSE 0 = true := by
  intro t
  have tly : t.tly = { s.tly with last := some s.tim.wframe, deferred := s.tly.deferred + 1 } :=
    (tly_setCause ..).trans (incr_tly ..)
  refine ⟨by rw [tly], by rw [tly], by rw [tly], ?_, cause_setCause _ _ (by decide) (by decide) (by decide)⟩
  exact (rd_block_setCause _ _ _ (by decide) (by decide) (by decide)).trans (rd_incr_same ..)

/-! ## A fold (R238) -/

section
variable (s : State) (x : Nat × Nat × Nat × Nat)

/-- The record that a lamp pixel's increments leave. -/
def doseAdded : Dose :=
  let r := s.dose x.1
  let a := addDose (r.d.1, 0) x.2.1
  let b := addDose (r.d.2.1, a.2) x.2.2.1
  { r with d := (a.1, b.1, (addDose (r.d.2.2, b.2) x.2.2.2).1) }

theorem foldOne_eq : ∃ k, s.foldOne x = (s.setDose x.1 (s.doseAdded x)).addReg pTly O.TLY_CNT_DOSE_SAT k := ⟨_, rfl⟩

theorem host_foldOne : (s.foldOne x).host = s.host := by
  obtain ⟨k, h⟩ := foldOne_eq s x
  rw [h, addReg, wr_host, setDose, setHbm_host]

theorem tly_foldOne : (s.foldOne x).tly = s.tly := by
  obtain ⟨k, h⟩ := foldOne_eq s x
  rw [h, addReg, wr_tly, setDose, setHbm_tly]

theorem rd_foldOne_other {off : Nat} (h : off ≠ O.TLY_CNT_DOSE_SAT) : (s.foldOne x).rd pTly off = s.rd pTly off := by
  obtain ⟨k, e⟩ := foldOne_eq s x
  rw [e, rd_addReg_off _ _ h, rd_setDose]

/-- One lamp pixel's increments are added to its doses, which saturate. -/
theorem dose_foldOne : ((s.foldOne x).dose x.1).d = (min (2 ^ 32 - 1) ((s.dose x.1).d.1 + x.2.1),
    min (2 ^ 32 - 1) ((s.dose x.1).d.2.1 + x.2.2.1), min (2 ^ 32 - 1) ((s.dose x.1).d.2.2 + x.2.2.2)) := by
  have cut : ∀ n, min (2 ^ 32 - 1) n % 2 ^ 32 = min (2 ^ 32 - 1) n := fun n => Nat.mod_eq_of_lt (by omega)
  obtain ⟨k, e⟩ := foldOne_eq s x
  rw [e, dose_of_rd (s := s.setDose x.1 (s.doseAdded x)) (t := addReg _ _ _ k) (wr_hbm ..)
      fun off h => rd_addReg_off _ _ (h.trans (by decide)).ne,
    dose_setDose_same, doseOf_bytes_d]
  simp only [doseAdded, addDose]
  simp only [Nat.reducePow, Nat.reduceSub] at cut ⊢
  simp only [cut]

theorem hbmByte_foldOne_other {y : Nat} (h : ¬ (s.doseAddr x.1 ≤ y ∧ y < s.doseAddr x.1 + 16)) :
    (s.foldOne x).hbmByte y = s.hbmByte y := by
  obtain ⟨k, e⟩ := foldOne_eq s x
  rw [e, ← hbmByte_setDose_other s (s.doseAdded x) h, hbmByte, hbmByte, addReg, wr_hbm]

end

section
variable (s : State) (l : List (Nat × Nat × Nat × Nat))

theorem host_foldAll : (l.foldl foldOne s).host = s.host := foldl_keeps State.host _ _ _ fun t x _ => host_foldOne t x
theorem tly_foldAll : (l.foldl foldOne s).tly = s.tly := foldl_keeps State.tly _ _ _ fun t x _ => tly_foldOne t x
theorem rd_foldAll_other {off : Nat} (h : off ≠ O.TLY_CNT_DOSE_SAT) : (l.foldl foldOne s).rd pTly off = s.rd pTly off :=
  foldl_keeps (fun t : State => t.rd pTly off) _ _ _ fun t x _ => rd_foldOne_other t x h

end

/-- The fold of a sample's last increments is at an end: the sample counts. -/
def sampleFolded (s : State) : State := { s.incr pTly O.TLY_CNT_SAMPLES with tly := { s.tly with fold := none } }

/-- The next increments of the sample are staged. -/
def nextStaged (s : State) : State :=
  { s with tly := { s.tly with fold := some (s.tly.rest.take stagedMax), rest := s.tly.rest.drop stagedMax } }

theorem foldDone_of_idle {s : State} (h : s.tly.fold = none ∨ s.tly.live = true) : s.foldDone = s := by
  unfold foldDone foldStaged
  rcases h with h | h
  · simp only [h, ite_self]
  · rw [h]
    rfl

/-- What is staged is folded; the next of the sample are staged, or the sample counts. -/
theorem foldDone_of_staged {s : State} {l : List (Nat × Nat × Nat × Nat)} (hl : s.tly.live = false)
    (hf : s.tly.fold = some l) : s.foldDone
      = if s.tly.rest.isEmpty then (l.foldl foldOne s).sampleFolded else (l.foldl foldOne s).nextStaged := by
  have same : s.tly.rest = (l.foldl foldOne s).tly.rest := by rw [tly_foldAll]
  unfold foldDone foldStaged
  rw [if_neg (by simp [hl]), hf, same]
  rfl

/-- What folding what is staged keeps, FOLD_DONE keeps where neither the count nor the staging of the next has a part in it. -/
theorem foldDone_keeps {γ : Type} (v : State → γ) {s : State} {l : List (Nat × Nat × Nat × Nat)} (hl : s.tly.live = false)
    (hf : s.tly.fold = some l) (hn : ∀ u : State, v u.sampleFolded = v u ∧ v u.nextStaged = v u) :
    v s.foldDone = v (l.foldl foldOne s) := by
  rw [foldDone_of_staged hl hf]
  exact ite_keeps v (hn _).1 (hn _).2

theorem hbm_sampleFolded (s : State) : s.sampleFolded.hbm = s.hbm := incr_hbm s pTly O.TLY_CNT_SAMPLES
theorem host_sampleFolded (s : State) : s.sampleFolded.host = s.host := incr_host s pTly O.TLY_CNT_SAMPLES

theorem rd_sampleFolded_other (s : State) {off : Nat} (h : off ≠ O.TLY_CNT_SAMPLES) :
    s.sampleFolded.rd pTly off = s.rd pTly off := rd_incr_off s h

theorem host_foldDone (s : State) : s.foldDone.host = s.host := by
  by_cases idle : s.tly.fold = none ∨ s.tly.live = true
  · rw [foldDone_of_idle idle]
  · simp only [not_or, Bool.not_eq_true] at idle
    obtain ⟨l, hf⟩ := Option.ne_none_iff_exists'.mp idle.1
    exact (foldDone_keeps State.host idle.2 hf fun u => ⟨host_sampleFolded u, rfl⟩).trans (host_foldAll s l)

/-- The next increments of the sample are staged. -/
theorem foldDone_next {s : State} (hf : s.tly.fold ≠ none) (hl : s.tly.live = false) (hr : s.tly.rest ≠ []) :
    s.foldDone.tly.fold = some (s.tly.rest.take 65536) ∧ s.foldDone.tly.rest = s.tly.rest.drop 65536 := by
  obtain ⟨l, hf⟩ := Option.ne_none_iff_exists'.mp hf
  rw [foldDone_of_staged hl hf, if_neg (by simpa using hr), ← tly_foldAll s l]
  exact ⟨rfl, rfl⟩

/-- With its last increments folded, the sample counts. -/
theorem foldDone_last {s : State} (hf : s.tly.fold ≠ none) (hl : s.tly.live = false) (hr : s.tly.rest = []) :
    s.foldDone.tly.fold = none ∧ s.foldDone.rd pTly O.TLY_CNT_SAMPLES = (s.rd pTly O.TLY_CNT_SAMPLES + 1) % 2 ^ 32 := by
  obtain ⟨l, hf⟩ := Option.ne_none_iff_exists'.mp hf
  rw [foldDone_of_staged hl hf, if_pos (by simp [hr]), ← rd_foldAll_other s l (by decide)]
  exact ⟨rfl, rd_incr_same ..⟩

/-- A single staged increment is added to its lamp pixel's doses, and no other byte of HBM changes. -/
theorem foldDone_single {s : State} {i a b c : Nat} (hl : s.tly.live = false) (hf : s.tly.fold = some [(i, a, b, c)]) :
    (s.foldDone.dose i).d = (min (2 ^ 32 - 1) ((s.dose i).d.1 + a), min (2 ^ 32 - 1) ((s.dose i).d.2.1 + b),
      min (2 ^ 32 - 1) ((s.dose i).d.2.2 + c))
    ∧ ∀ x, ¬ (s.doseAddr i ≤ x ∧ x < s.doseAddr i + 16) → s.foldDone.hbmByte x = s.hbmByte x := by
  have hbm := foldDone_keeps State.hbm hl hf fun u => ⟨hbm_sampleFolded u, rfl⟩
  have regs : ∀ off, off < O.TLY_CNT_SAMPLES → s.foldDone.rd pTly off = (s.foldOne (i, a, b, c)).rd pTly off :=
    fun off h => foldDone_keeps (fun t : State => t.rd pTly off) hl hf fun u => ⟨rd_sampleFolded_other u h.ne, rfl⟩
  refine ⟨?_, fun x hx => ?_⟩
  · rw [dose_of_rd hbm regs]
    exact dose_foldOne s (i, a, b, c)
  · rw [hbmByte, hbm]
    exact hbmByte_foldOne_other s (i, a, b, c) hx

end State
end Sys2Proof.Machine
end

section
/-! PROOFS. O37, sweeps, tile by tile (R241-R243), and the ledger (R246). -/
namespace Sys2Proof.Machine
namespace State

/-! ## A tile of a sweep (R241) -/

theorem host_writeLamp (s : State) (i v : Nat) : (s.writeLamp i v).host = s.host := by
  have put : (s.putLamp i v).host = s.host := by rw [putLamp, setTab, setTabAt_host]
  unfold writeLamp
  exact ite_keeps State.host put put

theorem host_errCapture (s : State) (p code info addr : Nat) : (s.errCapture p code info addr).host = s.host :=
  congrArg (·.1) (mems_errCapture s p code info addr)

theorem host_sweepLamp (ue : List Nat) (e : TileCfg) (a : State × SweepSt × (Nat × Nat × Nat)) (n : Nat) :
    (sweepLamp ue e a n).1.host = a.1.host := by
  unfold sweepLamp
  refine ite_keeps (fun b : State × SweepSt × (Nat × Nat × Nat) => b.1.host) ?_ ?_
  · exact (host_errCapture ..).trans (incr_host ..)
  · exact ite_keeps State.host ((hbmOnly_setDose ..).host.trans (ite_keeps State.host (host_writeLamp ..) rfl))
      (ite_keeps State.host (host_writeLamp ..) rfl)

/-! ## The end of a sweep -/

/-- The derate that a sweep found for a tile comes into force. -/
def derateTaken (w : SweepSt) (s : State) (t : Nat) : State :=
  let v := sget (fun _ => 0) w.found t
  if s.rd pTly (O.TLY_DERATE + 4 * t) = v then s else s.wr pTly (O.TLY_DERATE + 4 * t) v

/-- Every derate found, and the counts of lamps. -/
def sweepShown (s : State) (w : SweepSt) : State :=
  (((List.range 4032).foldl (derateTaken w) s).wr pTly O.TLY_EXH_LAMPS w.exh).wr pTly O.TLY_SNAG_LAMPS w.snag

/-- No sweep is in progress, and the one that ended counts. -/
def sweepCounted (s : State) : State := { s.incr pTly O.TLY_CNT_SWEEPS with tly := { s.tly with sweep := none } }

theorem endSweep_eq (s : State) (w : SweepSt) : s.endSweep w
    = (if w.exhNew then (s.sweepShown w).sweepCounted.setCause pTly 4 else (s.sweepShown w).sweepCounted).setCause pTly 2 := by
  unfold endSweep sweepShown
  generalize List.range 4032 = l
  rfl

section
variable (s : State) (w : SweepSt)

theorem host_derateTaken (t : Nat) : (derateTaken w s t).host = s.host := ite_keeps State.host rfl (wr_host ..)

theorem rd_derateTaken_other {t off : Nat} (h : off ≠ O.TLY_DERATE + 4 * t) :
    (derateTaken w s t).rd pTly off = s.rd pTly off := ite_keeps (fun u : State => u.rd pTly off) rfl (rd_wr_off s _ h)

theorem rd_derateTaken_same (t : Nat) : (derateTaken w s t).rd pTly (O.TLY_DERATE + 4 * t)
    = sget (fun _ => 0) w.found t % 2 ^ 32 := by
  unfold derateTaken
  simp only
  split
  next h => exact h.trans (Nat.mod_eq_of_lt (h ▸ rd_lt ..)).symm
  next => exact rd_wr_same ..

theorem rd_derates_low (l : List Nat) {off : Nat} (h : off < O.TLY_DERATE) :
    (l.foldl (derateTaken w) s).rd pTly off = s.rd pTly off :=
  foldl_keeps (fun u : State => u.rd pTly off) _ _ _ fun u t _ => rd_derateTaken_other u w (by omega)

/-- Of the tiles gone through, and of those that had it, DERATE shows the derate found. -/
theorem rd_derates {l : List Nat} {n : Nat} (h : n ∈ l ∨ s.rd pTly (O.TLY_DERATE + 4 * n) = sget (fun _ => 0) w.found n % 2 ^ 32) :
    (l.foldl (derateTaken w) s).rd pTly (O.TLY_DERATE + 4 * n) = sget (fun _ => 0) w.found n % 2 ^ 32 := by
  induction l generalizing s with
  | nil => exact h.resolve_left (List.not_mem_nil)
  | cons t l ih =>
    refine ih _ ?_
    by_cases e : n = t
    · subst e
      exact .inr (rd_derateTaken_same s w n)
    · rw [rd_derateTaken_other s w (by omega)]
      exact h.imp_left fun m => (List.mem_cons.mp m).resolve_left e

theorem rd_sweepShown_other {off : Nat} (h : off < O.TLY_EXH_LAMPS) : (s.sweepShown w).rd pTly off = s.rd pTly off := by
  rw [sweepShown, rd_wr_off _ _ (h.trans (by decide)).ne, rd_wr_off _ _ h.ne,
    rd_derates_low s w _ (h.trans (by decide))]

theorem host_sweepShown : (s.sweepShown w).host = s.host := by
  rw [sweepShown, wr_host, wr_host]
  exact foldl_keeps State.host _ _ _ fun u t _ => host_derateTaken u w t

theorem rd_exh_sweepShown : (s.sweepShown w).rd pTly O.TLY_EXH_LAMPS = w.exh % 2 ^ 32 := by
  rw [sweepShown, rd_wr_off _ _ (by decide)]
  exact rd_wr_same ..

theorem rd_snag_sweepShown : (s.sweepShown w).rd pTly O.TLY_SNAG_LAMPS = w.snag % 2 ^ 32 := rd_wr_same ..

theorem rd_derate_sweepShown {n : Nat} (h : n < 4032) : (s.sweepShown w).rd pTly (O.TLY_DERATE + 4 * n)
    = sget (fun _ => 0) w.found n % 2 ^ 32 := by
  have low : O.TLY_SNAG_LAMPS < O.TLY_DERATE := by decide
  have low' : O.TLY_EXH_LAMPS < O.TLY_DERATE := by decide
  rw [sweepShown, rd_wr_off _ _ (by omega), rd_wr_off _ _ (by omega), rd_derates s w (.inl (List.mem_range.mpr h))]

theorem host_sweepCounted : s.sweepCounted.host = s.host := incr_host s pTly O.TLY_CNT_SWEEPS

theorem sweep_sweepCounted : s.sweepCounted.tly.sweep = none := rfl

theorem rd_sweepCounted_other {off : Nat} (h : off ≠ O.TLY_CNT_SWEEPS) : s.sweepCounted.rd pTly off = s.rd pTly off :=
  rd_incr_off s h

theorem rd_sweepCounted_same : s.sweepCounted.rd pTly O.TLY_CNT_SWEEPS = (s.rd pTly O.TLY_CNT_SWEEPS + 1) % 2 ^ 32 :=
  rd_incr_same ..

/-- What setting the Tally's causes keeps, the end of a sweep has of the sweep counted. -/
theorem endSweep_keeps {γ : Type} (v : State → γ) (hv : ∀ u m, v (setCause u pTly m) = v u) :
    v (s.endSweep w) = v (s.sweepShown w).sweepCounted := by
  rw [endSweep_eq, hv]
  exact ite_keeps v (hv ..) rfl

theorem rd_endSweep {off : Nat} (ho : off < 0x10000) (h : off ≠ O.INT_CAUSE) :
    (s.endSweep w).rd pTly off = (s.sweepShown w).sweepCounted.rd pTly off :=
  endSweep_keeps s w (fun t : State => t.rd pTly off) fun u m => rd_block_setCause u _ m (by decide) ho h

theorem host_endSweep : (s.endSweep w).host = s.host := by
  rw [endSweep_keeps s w State.host fun u m => host_setCause u pTly m, host_sweepCounted, host_sweepShown]

/-- A sweep's end: none in progress, its cause and count, and the derates and counts of lamps found. -/
theorem endSweep_effect : (s.endSweep w).tly.sweep = none ∧ (s.endSweep w).bit pTly O.INT_CAUSE 1 = true
    ∧ (s.endSweep w).rd pTly O.TLY_CNT_SWEEPS = (s.rd pTly O.TLY_CNT_SWEEPS + 1) % 2 ^ 32
    ∧ (s.endSweep w).rd pTly O.TLY_EXH_LAMPS = w.exh % 2 ^ 32 ∧ (s.endSweep w).rd pTly O.TLY_SNAG_LAMPS = w.snag % 2 ^ 32
    ∧ ∀ n, n < 4032 → (s.endSweep w).rd pTly (O.TLY_DERATE + 4 * n) = sget (fun _ => 0) w.found n % 2 ^ 32 := by
  refine ⟨?_, cause_setCause _ _ (by decide) (by decide) (by decide), ?_, ?_, ?_, fun n hn => ?_⟩
  · exact (endSweep_keeps s w (·.tly.sweep) fun u m => congrArg Tly.sweep (tly_setCause u pTly m)).trans
      (sweep_sweepCounted _)
  · rw [rd_endSweep s w (by decide) (by decide), rd_sweepCounted_same, rd_sweepShown_other s w (by decide)]
  · rw [rd_endSweep s w (by decide) (by decide), rd_sweepCounted_other _ (by decide), rd_exh_sweepShown]
  · rw [rd_endSweep s w (by decide) (by decide), rd_sweepCounted_other _ (by decide), rd_snag_sweepShown]
  · have base : O.TLY_DERATE = 0x1000 := rfl
    rw [rd_endSweep s w (by omega) (by simp only [O.INT_CAUSE]; omega),
      rd_sweepCounted_other _ (by simp only [O.TLY_CNT_SWEEPS]; omega), rd_derate_sweepShown s w hn]

/-! ## A step of a sweep -/

variable (ue : List Nat)

theorem sweepTile_of_none (h : (s.tiles.find? fun e => decide (w.next ≤ e.t)) = none) : s.sweepTile ue w = s.endSweep w := by
  unfold sweepTile
  rw [h]

/-- After a tile's lamp pixels the sweep goes on with the next entry. -/
theorem next_sweepTile {e : TileCfg} (h : (s.tiles.find? fun e => decide (w.next ≤ e.t)) = some e) :
    (s.sweepTile ue w).tly.sweep.map (·.next) = some (e.t + 1) := by
  unfold sweepTile
  rw [h]
  rfl

theorem host_sweepTile : (s.sweepTile ue w).host = s.host := by
  unfold sweepTile
  split
  · exact host_endSweep s w
  next e _ =>
    exact foldl_keeps (fun a : State × SweepSt × (Nat × Nat × Nat) => a.1.host) (sweepLamp ue e) (List.range e.lamps)
      (s, w, 0, 0, 0) fun a n _ => host_sweepLamp ue e a n

theorem host_sweepStep : (s.sweepStep ue).host = s.host := by
  unfold sweepStep
  refine ite_keeps State.host rfl ?_
  cases s.tly.sweep with
  | some w => exact host_sweepTile s w ue
  | none => exact ite_keeps State.host rfl (host_sweepTile ..)

end

theorem sweepStep_of_paused {s : State} (ue : List Nat) (h : s.bit pTly O.TLY_SWEEP_CTL 1 = true) : s.sweepStep ue = s :=
  if_pos (.inr h)

theorem sweepStep_of_sweep {s : State} {w : SweepSt} (ue : List Nat) (hr : s.running pTly = true)
    (hp : s.bit pTly O.TLY_SWEEP_CTL 1 = false) (hw : s.tly.sweep = some w) : s.sweepStep ue = s.sweepTile ue w := by
  unfold sweepStep
  rw [if_neg (by simp [hr, hp]), hw]

theorem sweepNow_of_none {s : State} (hr : s.running pTly = true) (hw : s.tly.sweep = none) :
    s.sweepNow = { s with tly := { s.tly with sweep := some s.newSweep } } := if_pos ⟨hr, by rw [hw]; rfl⟩

/-! ## The ledger (R246) -/

/-- The first two words of a tile's summary, of the sixteen it has. -/
theorem ledgerRec_eq (s : State) (e : TileCfg) : ∃ l : List Byte, l.length = 56
    ∧ s.ledgerRec e = leBytes 4 0x544C0100 ++ (leBytes 4 (s.rd pTly O.TLY_LEDGER_SEQ) ++ l) := by
  unfold ledgerRec
  simp only [List.map_cons, List.map_nil, List.flatten_cons, List.flatten_nil, List.append_assoc, List.append_nil]
  exact ⟨_, by simp only [List.length_append, length_leBytes], rfl⟩

/-- A tile's summary is written to its place. -/
def ledgerPut (s : State) (e : TileCfg) : State := s.setHbm (s.rd64 pTly O.TLY_LEDGER_BASE_LO + 64 * e.t) (s.ledgerRec e)

theorem hbmOnly_ledger (s : State) (l : List TileCfg) : HbmOnly s (l.foldl ledgerPut s) := by
  induction l generalizing s with
  | nil => exact .refl s
  | cons e l ih => exact (HbmOnly.setHbm s ..).trans (ih _)

theorem ledgerExpiry_of_due {s : State} (hr : s.running pTly = true) (hp : s.fld pTly O.TLY_LEDGER_PERIOD 0 8 ≠ 0) :
    s.ledgerExpiry = (s.tiles.foldl ledgerPut (s.incr pTly O.TLY_LEDGER_SEQ)).setCause pTly 8 :=
  if_neg (by simp [hr, hp])

/-- A ledger period's end: the sequence number, the cause, and with one tile its summary alone. -/
theorem ledger_effect (s : State) (l : List TileCfg) :
    let t := (l.foldl ledgerPut (s.incr pTly O.TLY_LEDGER_SEQ)).setCause pTly 8
    t.host = s.host ∧ t.bit pTly O.INT_CAUSE 3 = true
    ∧ t.rd pTly O.TLY_LEDGER_SEQ = (s.rd pTly O.TLY_LEDGER_SEQ + 1) % 2 ^ 32
    ∧ ∀ e, l = [e] → t.hbmBytes (s.rd64 pTly O.TLY_LEDGER_BASE_LO + 64 * e.t) 8
          = leBytes 4 0x544C0100 ++ leBytes 4 (s.rd pTly O.TLY_LEDGER_SEQ + 1)
        ∧ ∀ x, ¬ (s.rd64 pTly O.TLY_LEDGER_BASE_LO + 64 * e.t ≤ x ∧ x < s.rd64 pTly O.TLY_LEDGER_BASE_LO + 64 * e.t + 64) →
            t.hbmByte x = s.hbmByte x := by
  have only := hbmOnly_ledger (s.incr pTly O.TLY_LEDGER_SEQ) l
  refine ⟨?_, cause_setCause _ _ (by decide) (by decide) (by decide), ?_, fun e he => ?_⟩
  · rw [host_setCause, only.host, incr_host]
  · rw [rd_block_setCause _ _ _ (by decide) (by decide) (by decide), only.rd, rd_incr_same]
  · subst he
    have base : (s.incr pTly O.TLY_LEDGER_SEQ).rd64 pTly O.TLY_LEDGER_BASE_LO = s.rd64 pTly O.TLY_LEDGER_BASE_LO :=
      rd64_of_rd (rd_incr_off s (by decide)) (rd_incr_off s (by decide))
    obtain ⟨l, len, record⟩ := ledgerRec_eq (s.incr pTly O.TLY_LEDGER_SEQ) e
    have len : ((s.incr pTly O.TLY_LEDGER_SEQ).ledgerRec e).length = 64 := by
      rw [record, List.length_append, List.length_append, length_leBytes, length_leBytes, len]
    rw [rd_incr_same, show (2 : Nat) ^ 32 = 256 ^ 4 by norm_num, leBytes_mod] at record
    simp only [List.foldl_cons, List.foldl_nil, ledgerPut, base]
    refine ⟨?_, fun x hx => ?_⟩
    · rw [hbmBytes, hbm_setCause, ← hbmBytes, hbmBytes_setHbm_take _ _ (by omega), record]
      rfl
    · rw [hbmByte, hbm_setCause, ← hbmByte, hbmByte_setHbm_other _ (by rwa [len]), hbmByte, incr_hbm, hbmByte]

end State
end Sys2Proof.Machine
end

section
/-! PROOFS. The settling of O37. -/
namespace Sys2Proof.Machine

/-- Settles O37, event by event: what a sample stages or defers, what a fold adds, how a sweep goes on and ends, and what a
ledger period writes. -/
theorem tallySamplesFoldsSweepsAndLedger : Obligations.TallySamplesFoldsSweepsAndLedger := by
  unfold Obligations.TallySamplesFoldsSweepsAndLedger
  intro iv
  refine ⟨fun s ha => ?_, fun s ha => ?_, fun ue s ha hr => ?_, fun s ha hb hr hw => ?_, fun on s ha hb => ?_,
    fun s ha hr hp => ?_⟩
  · have run : exec .tallySample s = act .tly (·.tallySample) s := rfl
    rw [run]
    refine act_next ha fun u hu => ⟨State.memSame_of_mems ((congrArg State.mems hu).trans (State.mems_tallySample s)),
      fun h => State.setPending_of_eq (hu.trans (State.tallySample_of_none h)), ?_⟩
    intro k slot hr hi frame turn fresh power
    have due : s.SampleDue k := ⟨slot, hr, hi, frame, turn, fresh, power⟩
    by_cases hf : s.tly.fold = none
    · rw [State.tallySample_takes due hf] at hu
      obtain ⟨staged, live, taken, none_deferred, last⟩ := s.sampleMarked.takeSample_stages k
      rw [← hu] at staged live taken none_deferred last
      exact ⟨last, fun _ => ⟨staged, live, taken, none_deferred⟩, fun h => absurd hf h⟩
    · rw [State.tallySample_defers due hf] at hu
      obtain ⟨last, fold, deferred, count, cause⟩ := s.deferred_effect
      rw [← hu] at last fold deferred count cause
      exact ⟨last, fun h => absurd h hf, fun _ => ⟨fold, deferred, count, cause⟩⟩
  · have run : exec .foldDone s = act .tly (·.foldDone) s := rfl
    rw [run]
    refine act_next ha fun u hu => ⟨(congrArg State.host hu).trans (State.host_foldDone s),
      fun h => State.setPending_of_eq (hu.trans (State.foldDone_of_idle h)), fun hf hl hr => ?_, fun hf hl hr => ?_,
      fun i a b c hl hf => ?_⟩
    · have next := State.foldDone_next hf hl hr
      rw [← hu] at next
      exact next
    · have last := State.foldDone_last hf hl hr
      rw [← hu] at last
      exact last
    · have added := State.foldDone_single hl hf
      rw [← hu] at added
      exact added
  · have run : exec (.sweep ue) s = act .tly (·.sweepStep (ue.map (·.val))) s := rfl
    rw [run]
    refine act_next ha fun u hu => ⟨(congrArg State.host hu).trans (State.host_sweepStep s _),
      fun h => State.setPending_of_eq (hu.trans (State.sweepStep_of_paused _ h)), fun w e hp hw he => ?_,
      fun w hp hw he => ?_⟩
    · rw [State.sweepStep_of_sweep _ hr hp hw] at hu
      have next := State.next_sweepTile s w (ue.map (·.val)) he
      rw [← hu] at next
      exact next
    · rw [State.sweepStep_of_sweep _ hr hp hw, State.sweepTile_of_none s w _ he] at hu
      have ended := State.endSweep_effect s w
      rw [← hu] at ended
      exact ended
  · have run : exec .sweepNow s = act .tly (fun s => s.pwWrite pTly (·.sweepNow)) s := rfl
    rw [run]
    refine act_next ha fun u hu => ?_
    rw [State.pwWrite_of_free hb, State.sweepNow_of_none hr hw] at hu
    rw [hu]
    exact ⟨rfl, rfl, State.memSame_of_mems rfl⟩
  · have run : exec (.sweepPause on) s = act .tly (fun s => s.pwWrite pTly (·.setBit pTly O.TLY_SWEEP_CTL 1 on)) s := rfl
    rw [run]
    refine act_next ha fun u hu => ?_
    rw [State.pwWrite_of_free hb] at hu
    have bit := State.bit_setBit_same s pTly O.TLY_SWEEP_CTL 1 on (by decide)
    have regs : State.PageRegs pTly [O.TLY_SWEEP_CTL] s (s.setBit pTly O.TLY_SWEEP_CTL 1 on) :=
      .wr s _ (by decide) (by decide)
    rw [← hu] at bit regs
    refine ⟨bit, congrArg (fun v : State => { v with pending := s.pending }) regs.rest, State.memSame_of_mems regs.mems, ?_⟩
    exact regs.regsSame (by simp)
  · have run : exec .ledgerPeriodExpiry s = act .tly (·.ledgerExpiry) s := rfl
    rw [run]
    refine act_next ha fun u hu => ?_
    rw [State.ledgerExpiry_of_due hr hp] at hu
    have written := State.ledger_effect s s.tiles
    rw [← hu] at written
    exact written

end Sys2Proof.Machine
end

section
/-! PROOFS. O38, tile identity: what the evaluation of an entry changes (R231, R233), and TILE_CONFIRM (R232). -/
namespace Sys2Proof.Machine

/-- The opcode bit of a TILE_CONFIRM write stands alone above its tile number. -/
theorem bitOf_opcode {n k b : Nat} (hn : n < 4096) (hk : 12 ≤ k) (hb : 12 ≤ b) : bitOf (2 ^ k + n) b = decide (k = b) := by
  have e : 2 ^ k + n = 2 ^ 12 * 2 ^ (k - 12) + n := by rw [← Nat.pow_add, Nat.add_sub_cancel' hk]
  rw [bitOf, e, Nat.testBit_two_pow_mul_add _ hn, if_neg (by omega), Nat.testBit_two_pow]
  simp only [decide_eq_decide]
  omega

theorem bitsOf_opcode {n k : Nat} (hn : n < 4096) (hk : 12 ≤ k) : bitsOf (2 ^ k + n) 0 12 = n := by
  obtain ⟨j, rfl⟩ := Nat.exists_eq_add_of_le hk
  rw [bitsOf, Nat.shiftRight_zero, Nat.pow_add, Nat.mul_add_mod, Nat.mod_eq_of_lt hn]

namespace State

/-! ## The evaluation of an entry (R231, R233) -/

theorem tstat_lt {n : Nat} (h : n < 4032) : tstat n < 0xC000 := by simp only [tstat, O.LMP_TILE_STAT]; omega
theorem le_tstat (n : Nat) : 0x8000 ≤ tstat n := Nat.le_add_right ..

/-- The registers of LMP that the evaluation of an entry changes. -/
def tileRegs (n : Nat) : List Nat := [O.LMP_TILE_SEEN + 4 * n, tstat n, O.LMP_CNT_MISMATCH, O.INT_CAUSE]

/-- The serial number seen at an entry's place, where a tile is enumerated there. -/
def seenTaken (s : State) (n : Nat) : State :=
  if s.tileEn n && s.enumerated (s.tile n).port (s.tile n).pos then
    s.wr pLmp (O.LMP_TILE_SEEN + 4 * n) (s.rd (pJlk + (s.tile n).port) (tbr O.JLK_T_SERIAL (s.tile n).pos)) else s

/-- VALID cleared and counted where the state entered is MISMATCH, and the causes of a change of state. -/
def changeNoted (s : State) (n old new : Nat) : State :=
  let s := if new = 2 then (s.setValid n false).incr pLmp O.LMP_CNT_MISMATCH else s
  let s := if old = 4 then s.setCause pLmp 8 else s
  if new = 4 then s.setCause pLmp 4 else s

/-- Automatic admission is asked for on a port with AUTO_EN, where the state entered is MISMATCH or UNVALIDATED (R233). -/
def autoAsked (s : State) (n port new : Nat) : State :=
  if (new = 2 ∨ new = 3) ∧ s.autoEn port then
    ((s.setBit pLmp (tstat n) 26 true).setBit pLmp (tstat n) 25 false).setCause pLmp 0x40
  else s

theorem evalTile_eq (s : State) (n : Nat) : s.evalTile n
    = if (s.seenTaken n).identity n = (s.seenTaken n).tileState n then s.seenTaken n
      else (((s.seenTaken n).setFld pLmp (tstat n) 29 3 ((s.seenTaken n).identity n)).changeNoted n
        ((s.seenTaken n).tileState n) ((s.seenTaken n).identity n)).autoAsked n (s.tile n).port
          ((s.seenTaken n).identity n) := rfl

section
variable (s : State) {n : Nat} (hn : n < 4032)
include hn

theorem kept_setStat (lo k v : Nat) : StandKept pLmp (tileRegs n) s (s.setFld pLmp (tstat n) lo k v) :=
  .wr s _ (by simp [tileRegs]) ((tstat_lt hn).trans (by decide))

omit hn in
theorem kept_cause (m : Nat) : StandKept pLmp (tileRegs n) s (s.setCause pLmp m) := .setCause s m (by simp [tileRegs])

theorem kept_seenTaken : StandKept pLmp (tileRegs n) s (s.seenTaken n) := by
  refine .ite (.wr s _ (by simp [tileRegs]) ?_) (.refl ..)
  simp only [O.LMP_TILE_SEEN]
  omega

theorem kept_changeNoted (old new : Nat) : StandKept pLmp (tileRegs n) s (s.changeNoted n old new) := by
  have valid : StandKept pLmp (tileRegs n) s (if new = 2 then (s.setValid n false).incr pLmp O.LMP_CNT_MISMATCH else s) :=
    .ite ((kept_setStat s hn ..).trans (.wr _ _ (by simp [tileRegs]) (by decide))) (.refl ..)
  have left := StandKept.ite (c := old = 4) (valid.trans (kept_cause _ 8)) valid
  exact .ite (left.trans (kept_cause _ 4)) left

theorem kept_autoAsked (port new : Nat) : StandKept pLmp (tileRegs n) s (s.autoAsked n port new) :=
  .ite (((kept_setStat s hn ..).trans (kept_setStat _ hn ..)).trans (kept_cause _ _)) (.refl ..)

theorem kept_evalTile : StandKept pLmp (tileRegs n) s (s.evalTile n) := by
  rw [evalTile_eq]
  have seen := kept_seenTaken s hn
  exact .ite seen (((seen.trans (kept_setStat _ hn ..)).trans (kept_changeNoted _ hn ..)).trans
    (kept_autoAsked _ hn ..))

/-! ## Bits of TILE_STAT -/

theorem rd_stat_setCause (m : Nat) : (s.setCause pLmp m).rd pLmp (tstat n) = s.rd pLmp (tstat n) := by
  refine rd_block_setCause s _ m (by decide) ((tstat_lt hn).trans (by decide)) ?_
  have := le_tstat n
  simp only [O.INT_CAUSE]
  omega

theorem rd_stat_seenTaken : (s.seenTaken n).rd pLmp (tstat n) = s.rd pLmp (tstat n) := by
  refine ite_keeps (fun t : State => t.rd pLmp (tstat n)) (rd_wr_off s _ ?_) rfl
  have := tstat_lt hn
  simp only [O.LMP_TILE_SEEN]
  omega

theorem rd_stat_changeNoted {new : Nat} (h : new ≠ 2) (old : Nat) :
    (s.changeNoted n old new).rd pLmp (tstat n) = s.rd pLmp (tstat n) := by
  unfold changeNoted
  rw [if_neg h]
  have left : (if old = 4 then s.setCause pLmp 8 else s).rd pLmp (tstat n) = s.rd pLmp (tstat n) :=
    ite_keeps (fun t : State => t.rd pLmp (tstat n)) (rd_stat_setCause s hn 8) rfl
  exact ite_keeps (fun t : State => t.rd pLmp (tstat n)) ((rd_stat_setCause _ hn 4).trans left) left

theorem bit_stat_changeNoted {b : Nat} (hb : b < 32) (h : b ≠ 28) (old new : Nat) :
    (s.changeNoted n old new).bit pLmp (tstat n) b = s.bit pLmp (tstat n) b := by
  by_cases e : new = 2
  · subst e
    have counted : O.LMP_CNT_MISMATCH < tstat n := (by decide : O.LMP_CNT_MISMATCH < 0x8000).trans_le (le_tstat n)
    have valid : ((s.setValid n false).incr pLmp O.LMP_CNT_MISMATCH).bit pLmp (tstat n) b = s.bit pLmp (tstat n) b :=
      (bit_of_rd b (rd_incr_off _ counted.ne')).trans (bit_setBit_other s _ _ _ hb h)
    have left : ∀ t : State, (if old = 4 then t.setCause pLmp 8 else t).bit pLmp (tstat n) b = t.bit pLmp (tstat n) b :=
      fun t => ite_keeps (fun u : State => u.bit pLmp (tstat n) b) (bit_of_rd b (rd_stat_setCause t hn 8)) rfl
    unfold changeNoted
    rw [if_pos rfl, if_neg (by decide)]
    exact (left _).trans valid
  · exact bit_of_rd b (rd_stat_changeNoted s hn e old)

/-- Above AUTO_PEND, TILE_STAT stays. -/
theorem bit_stat_autoAsked {b : Nat} (hb : b < 32) (h : 26 < b) (port new : Nat) :
    (s.autoAsked n port new).bit pLmp (tstat n) b = s.bit pLmp (tstat n) b := by
  refine ite_keeps (fun t : State => t.bit pLmp (tstat n) b) ?_ rfl
  rw [bit_of_rd b (rd_stat_setCause _ hn _), bit_setBit_other _ _ _ _ hb (by omega), bit_setBit_other _ _ _ _ hb (by omega)]

/-- An entry's evaluation leaves BUSY alone. -/
theorem busy_evalTile : (s.evalTile n).bit pLmp (tstat n) 27 = s.bit pLmp (tstat n) 27 := by
  rw [evalTile_eq]
  have seen := bit_of_rd 27 (rd_stat_seenTaken s hn)
  refine ite_keeps (fun t : State => t.bit pLmp (tstat n) 27) seen ?_
  rw [bit_stat_autoAsked _ hn (by decide) (by decide), bit_stat_changeNoted _ hn (by decide) (by decide),
    bit_setFld_other _ _ (by decide) (by decide), seen]

end

/-- A field of a register follows from its bits. -/
theorem fld_of_bits {s t : State} {p off lo k : Nat} (h : ∀ b, lo ≤ b → b < lo + k → t.bit p off b = s.bit p off b) :
    t.fld p off lo k = s.fld p off lo k := by
  apply Nat.eq_of_testBit_eq
  intro i
  rw [fld, fld, testBit_bitsOf, testBit_bitsOf]
  by_cases hi : i < k
  · have same := h (lo + i) (by omega) (by omega)
    rw [bit, bit, bitOf, bitOf] at same
    rw [same]
  · simp [hi]

/-- A state other than MISMATCH is entered, and VALID stays. -/
theorem evalTile_effect (s : State) {n : Nat} (hn : n < 4032) (h2 : (s.seenTaken n).identity n ≠ 2)
    (h8 : (s.seenTaken n).identity n < 8) : (s.evalTile n).tileState n = (s.seenTaken n).identity n
    ∧ (s.evalTile n).tileValid n = s.tileValid n := by
  have seen := bit_of_rd 28 (rd_stat_seenTaken s hn)
  rw [evalTile_eq]
  generalize hw : s.seenTaken n = w at *
  generalize w.identity n = new at *
  generalize ho : w.tileState n = old
  split
  next same => exact ⟨ho.trans same.symm, seen⟩
  next =>
    have above : ∀ b, 26 < b → b < 32 → (((w.setFld pLmp (tstat n) 29 3 new).changeNoted n old new).autoAsked n
        (s.tile n).port new).bit pLmp (tstat n) b = (w.setFld pLmp (tstat n) 29 3 new).bit pLmp (tstat n) b := fun b h hb =>
      (bit_stat_autoAsked _ hn hb h _ _).trans (bit_of_rd b (rd_stat_changeNoted _ hn h2 old))
    refine ⟨?_, ?_⟩
    · refine (fld_of_bits fun b h hb => above b (by omega) (by omega)).trans ?_
      exact (fld_setFld_same _ _ _ _ _ _ (by decide)).trans (Nat.mod_eq_of_lt h8)
    · exact (above 28 (by decide) (by decide)).trans ((bit_setFld_other _ _ (by decide) (by decide)).trans seen)

/-! ## An entry whose tile is the one expected (Table 9.4) -/

/-- The entry is enabled, and the tile enumerated at its place has the serial number and the shape expected. -/
structure Fits (s : State) (n : Nat) : Prop where
  enabled : s.tileEn n = true
  found : s.enumerated (s.tile n).port (s.tile n).pos = true
  serial : s.rd (jp (s.tile n).port) (tbr O.JLK_T_SERIAL (s.tile n).pos) = s.rd pLmp (O.LMP_TILE_EXP + 4 * n)
  width : bitsOf (s.rd (jp (s.tile n).port) (tbr O.JLK_T_GEOM (s.tile n).pos)) 16 16 = (s.tile n).w
  height : bitsOf (s.rd (jp (s.tile n).port) (tbr O.JLK_T_GEOM (s.tile n).pos)) 0 16 = (s.tile n).h
  form : decide ((s.tile n).pos ∈ (s.jport (s.tile n).port).fmt36) = (s.tile n).fmt36

theorem tbr_lt {off : Nat} (h : off < 0x8000) (s : State) (n : Nat) : tbr off (s.tile n).pos < 0x10000 := by
  have : (s.tile n).pos < 2 ^ 6 := bitsOf_lt ..
  simp only [tbr]
  omega

theorem jp_ne_pLmp (p : Nat) : jp p ≠ pLmp := by simp only [jp, pJlk, pLmp]; omega

/-- Registers of LMP changed, but for the serial number expected. -/
theorem Fits.of_pageRegs {s t : State} {n : Nat} {offs : List Nat} (h : s.Fits n) (k : PageRegs pLmp offs s t) (hn : n < 4032)
    (he : O.LMP_TILE_EXP + 4 * n ∉ offs) : t.Fits n := by
  have tile : t.tile n = s.tile n := (congrArg (fun u : State => u.tile n) k.rest).trans rfl
  have jport : ∀ p, t.jport p = s.jport p := fun p => (congrArg (fun u : State => u.jport p) k.rest).trans rfl
  have rd : ∀ off, off < 0x8000 → t.rd (jp (s.tile n).port) (tbr off (s.tile n).pos)
      = s.rd (jp (s.tile n).port) (tbr off (s.tile n).pos) :=
    fun off ho => k.regs _ _ (tbr_lt ho s n) fun e => absurd e (jp_ne_pLmp _)
  have exp : t.rd pLmp (O.LMP_TILE_EXP + 4 * n) = s.rd pLmp (O.LMP_TILE_EXP + 4 * n) :=
    k.regs _ _ (by simp only [O.LMP_TILE_EXP]; omega) fun _ => he
  obtain ⟨enabled, found, serial, width, height, form⟩ := h
  refine ⟨((congrArg (fun u : State => u.tileEn n) k.rest).trans rfl).trans enabled, ?_, ?_, ?_, ?_, ?_⟩
  · rw [tile]
    exact (bit_of_rd 31 (rd _ (by decide))).trans found
  · rw [tile, rd _ (by decide), exp, serial]
  · rw [tile, rd _ (by decide), width]
  · rw [tile, rd _ (by decide), height]
  · rw [tile, jport, form]

/-- Such an entry is CONFIRMED where it is valid, and else UNVALIDATED. -/
theorem Fits.identity_seenTaken {s : State} {n : Nat} (h : s.Fits n) (hn : n < 4032) :
    (s.seenTaken n).identity n = if s.tileValid n then 4 else 3 := by
  have seen : s.seenTaken n = s.wr pLmp (O.LMP_TILE_SEEN + 4 * n) (s.rd pLmp (O.LMP_TILE_EXP + 4 * n)) := by
    rw [seenTaken, if_pos (by rw [h.enabled, h.found]; rfl), ← h.serial]
    rfl
  have lt : O.LMP_TILE_SEEN + 4 * n < 0x10000 := by simp only [O.LMP_TILE_SEEN]; omega
  have ne : O.LMP_TILE_EXP + 4 * n ≠ O.LMP_TILE_SEEN + 4 * n := by simp only [O.LMP_TILE_EXP, O.LMP_TILE_SEEN]; omega
  have valid : (s.seenTaken n).tileValid n = s.tileValid n := bit_of_rd 28 (rd_stat_seenTaken s hn)
  have regs : PageRegs pLmp [O.LMP_TILE_SEEN + 4 * n] s (s.seenTaken n) := seen ▸ .wr s _ (by simp) lt
  obtain ⟨enabled, found, -, width, height, form⟩ := h.of_pageRegs regs hn (by simp)
  have same : (s.seenTaken n).rd pLmp (O.LMP_TILE_SEEN + 4 * n) = (s.seenTaken n).rd pLmp (O.LMP_TILE_EXP + 4 * n) := by
    rw [seen, rd_wr_same, rd_wr_off _ _ ne, Nat.mod_eq_of_lt (rd_lt ..)]
  rw [← valid]
  generalize s.seenTaken n = t at *
  unfold identity
  rw [if_neg (by simp [enabled])]
  simp only [jp] at width height
  simp [found, same, width, height, form]

/-! ## TILE_CONFIRM (R232) -/

/-- The entry is evaluated with BUSY set, and the operation is in progress. -/
def confirmBegun (s : State) (n : Nat) : State :=
  { (s.setBit pLmp (tstat n) 27 true).evalTile n with
    lmp := { ((s.setBit pLmp (tstat n) 27 true).evalTile n).lmp with busy := some n } }

theorem tileConfirm_of_idle {s : State} {n k : Nat} (hb : s.lmp.busy = none) (hn : n < 4032) (hk : 12 ≤ k) :
    s.tileConfirm (2 ^ k + n) = (if k = 31 then s.adopt n else if k = 30 then s.setValid n true else
      if k = 29 then s.setValid n false else s).confirmBegun n := by
  have code := bitsOf_opcode (n := n) (by omega) hk
  have op := fun b => bitOf_opcode (n := n) (b := b) (by omega) hk
  unfold tileConfirm
  simp only [hb, code, Option.isSome_none, op 31 (by decide), op 30 (by decide), op 29 (by decide), decide_eq_true_eq]
  rw [if_neg (by decide), if_neg (by omega)]
  by_cases h31 : k = 31
  · subst h31
    rfl
  · by_cases h30 : k = 30
    · subst h30
      rfl
    · rw [if_neg h31, if_neg h30, if_neg h31, if_neg h30]
      rfl

theorem tileConfirm_of_busy {s : State} (h : s.lmp.busy ≠ none) (v : Nat) : s.tileConfirm v = s.lockedWrite pLmp :=
  if_pos (Option.isSome_iff_ne_none.mpr h)

section
variable (s : State) {n : Nat} (hn : n < 4032)
include hn

theorem kept_busySet : StandKept pLmp (tileRegs n) s ((s.setBit pLmp (tstat n) 27 true).evalTile n) :=
  (kept_setStat s hn ..).trans (kept_evalTile _ hn)

/-- An operation begun is busy, and leaves the memories and every register but those of its evaluation. -/
theorem confirmBegun_effect : ((s.confirmBegun n).lmp.busy = some n ∧ (s.confirmBegun n).bit pLmp (tstat n) 27 = true)
    ∧ StandKept pLmp (tileRegs n) s (s.confirmBegun n) := by
  obtain ⟨mems, flt, regs⟩ := kept_busySet s hn
  refine ⟨⟨rfl, ?_⟩, ⟨mems, flt, regs⟩⟩
  exact (busy_evalTile _ hn).trans (bit_setBit_same _ _ _ _ _ (by decide))

/-- An entry whose tile fits is CONFIRMED by VALIDATE and UNVALIDATED by REVOKE. -/
theorem Fits.confirmBegun {s : State} (h : s.Fits n) (v : Bool) :
    ((s.setValid n v).confirmBegun n).tileState n = (if v then 4 else 3)
    ∧ ((s.setValid n v).confirmBegun n).tileValid n = v := by
  have lt : tstat n < 0x10000 := (tstat_lt hn).trans (by decide)
  have regs : PageRegs pLmp [tstat n] s ((s.setValid n v).setBit pLmp (tstat n) 27 true) :=
    (PageRegs.wr s _ (by simp) lt).trans (.wr _ _ (by simp) lt)
  have exp : O.LMP_TILE_EXP + 4 * n ∉ [tstat n] := by
    simp only [List.mem_singleton, tstat, O.LMP_TILE_EXP, O.LMP_TILE_STAT]
    omega
  have valid : ((s.setValid n v).setBit pLmp (tstat n) 27 true).tileValid n = v :=
    (bit_setBit_other _ _ _ _ (by decide) (by decide)).trans (bit_setBit_same _ _ _ _ _ (by decide))
  have state := (h.of_pageRegs regs hn exp).identity_seenTaken hn
  rw [valid] at state
  obtain ⟨entered, kept⟩ := evalTile_effect ((s.setValid n v).setBit pLmp (tstat n) 27 true) hn
    (by rw [state]; split <;> decide) (by rw [state]; split <;> decide)
  exact ⟨entered.trans state, kept.trans valid⟩

end

/-! ## ADOPT -/

theorem hbmOnly_resetDoses (s : State) (e : TileCfg) (d : Nat × Nat × Nat) : HbmOnly s (s.resetDoses e d) := by
  unfold resetDoses
  generalize List.range e.lamps = l
  induction l generalizing s with
  | nil => exact .refl s
  | cons i l ih => exact (hbmOnly_setDose s ..).trans (ih _)

/-- ADOPT of an entry with a tile expects the serial number seen. -/
theorem adopt_effect {s : State} {n : Nat} (h : 2 ≤ s.tileState n) : (s.adopt n).host = s.host
    ∧ (s.adopt n).rd pLmp (O.LMP_TILE_EXP + 4 * n) = s.rd pLmp (O.LMP_TILE_SEEN + 4 * n) := by
  unfold adopt
  rw [if_neg (by omega)]
  simp only
  generalize hw : s.wr pLmp (O.LMP_TILE_EXP + 4 * n) _ = w
  have only := hbmOnly_resetDoses w (w.tile n)
    (w.rd pLmp O.LMP_ADOPT_DOSE_R, w.rd pLmp O.LMP_ADOPT_DOSE_G, w.rd pLmp O.LMP_ADOPT_DOSE_B)
  rw [only.host, only.rd, ← hw]
  exact ⟨wr_host .., (rd_wr_same ..).trans (Nat.mod_eq_of_lt (rd_lt ..))⟩

/-! ## A locked write, and the end of an operation -/

theorem lockedWrite_effect (s : State) {p : Nat} (hp : p ≠ pEic) : (s.lockedWrite p).bit p O.PAGE_STAT 10 = true
    ∧ (s.lockedWrite p).bit p O.INT_CAUSE 30 = true ∧ (s.lockedWrite p).lmp = s.lmp ∧ (s.lockedWrite p).mems = s.mems := by
  refine ⟨?_, cause_setCause _ _ hp (by decide) (by decide), ?_, ?_⟩
  · exact (bit_of_rd 10 (rd_header_setCause _ _ _ (by decide) (by decide))).trans (bit_setBit_same _ _ _ _ _ (by decide))
  · exact (lmp_setCause ..).trans (setBit_lmp ..)
  · exact (setCause_mems ..).trans (mems_setBit ..)

theorem setBit_rest (s : State) (p off b : Nat) (v : Bool) : ∃ m, s.setBit p off b v = { s with regs := m } := ⟨_, rfl⟩

/-- The end of an operation clears BUSY and changes nothing else. -/
theorem confirmDone_effect {s : State} {n : Nat} (h : s.lmp.busy = some n) : s.confirmDone.lmp.busy = none
    ∧ s.confirmDone.bit pLmp (tstat n) 27 = false
    ∧ s.confirmDone = { s with regs := s.confirmDone.regs, lmp := s.confirmDone.lmp } ∧ s.confirmDone.mems = s.mems := by
  have done : s.confirmDone = { s.setBit pLmp (tstat n) 27 false with lmp := { s.lmp with busy := none } } := by
    unfold confirmDone
    rw [h]
  have clear := bit_setBit_same s pLmp (tstat n) 27 false (by decide)
  obtain ⟨m, rest⟩ := setBit_rest s pLmp (tstat n) 27 false
  rw [rest] at done clear
  rw [done]
  exact ⟨rfl, clear, rfl, rfl⟩

end State
end Sys2Proof.Machine
end

section
/-! PROOFS. O38, lamps with uncorrectable entries (R230), and Cruise: its runs and its reports (R248, R249). -/
namespace Sys2Proof.Machine
namespace State

/-! ## A lamp's uncorrectable entry (R230) -/

section
variable (s : State) (p code info addr : Nat)

theorem lmp_errCapture : (s.errCapture p code info addr).lmp = s.lmp := by
  unfold errCapture
  refine ite_keeps State.lmp (setBit_lmp ..) ?_
  rw [lmp_setCause, wr64, wr_lmp, wr_lmp, wr_lmp, wr_lmp]

theorem lmp_faultLog (cls : Nat) (spare noSpare : Bool) : (s.faultLog cls spare noSpare p code info).lmp = s.lmp := by
  unfold faultLog
  simp only
  rw [lmp_setCause, incr_lmp, wr_lmp, setTab, setTab, setTab, setTab, setTabAt_lmp, setTabAt_lmp, setTabAt_lmp, setTabAt_lmp]

theorem mems_containedFault : (s.containedFault p code info addr).mems = s.mems := by
  rw [containedFault, mems_faultLog, mems_errCapture]

theorem lmp_containedFault : (s.containedFault p code info addr).lmp = s.lmp := by
  rw [containedFault, lmp_faultLog, lmp_errCapture]

/-- A contained fault changes no register of its page past the error registers. -/
theorem rd_containedFault_past (hp : pNet ≤ p) {off : Nat} (ho : off < 0x10000) (h : 0x100 ≤ off) :
    (s.containedFault p code info addr).rd p off = s.rd p off := by
  have cause : off ≠ O.INT_CAUSE := by simp only [O.INT_CAUSE]; omega
  have past : ∀ (t : State) (r v : Nat), r < 0x100 → (t.wr p r v).rd p off = t.rd p off :=
    fun t r v hr => rd_wr_off t v (by omega)
  have dev : p ≠ pDev := by rintro rfl; exact absurd hp (by decide)
  rw [containedFault, rd_faultLog_other _ _ _ _ _ _ _ ho dev (sigReg_of_ge hp cause)]
  unfold errCapture
  refine ite_keeps (fun t : State => t.rd p off) (past _ _ _ (by decide)) ?_
  rw [rd_block_setCause _ _ _ hp ho cause, wr64, past _ _ _ (by decide), past _ _ _ (by decide), past _ _ _ (by decide),
    past _ _ _ (by decide)]

end

/-- The entry's tile counts a lamp that is dark. -/
def lampDarkened (s : State) (i : Nat) : State :=
  match s.lampTile i with
  | some t => s.setFld pLmp (tstat t) 0 16 (min 0xFFFF (s.fld pLmp (tstat t) 0 16 + 1))
  | none => s

/-- An entry is known to hold an uncorrectable error. -/
def ueKnown (s : State) (i : Nat) : State := { s with lmp := { s.lmp with ue := i :: s.lmp.ue } }

theorem lampUe_of_known {s : State} {i : Nat} (h : i ∈ s.lmp.ue) : s.lampUe i = s := if_pos h

theorem lampUe_of_new {s : State} {i : Nat} (h : i ∉ s.lmp.ue) : s.lampUe i
    = ((((s.ueKnown i).incr pLmp O.LMP_CNT_LAMP_UE).containedFault pLmp 0x0100 0 i).lampDarkened i).setCause pLmp 2 := by
  unfold lampUe ueKnown
  rw [if_neg h]
  dsimp only
  generalize containedFault _ _ _ _ _ = w
  refine congrArg (fun t : State => t.setCause pLmp 2) ?_
  unfold lampDarkened
  cases w.lampTile i <;> rfl

section
variable (s : State) (i : Nat)

theorem mems_lampDarkened : (s.lampDarkened i).mems = s.mems := by
  unfold lampDarkened
  split
  · exact mems_setFld ..
  · rfl

theorem lmp_lampDarkened : (s.lampDarkened i).lmp = s.lmp := by
  unfold lampDarkened
  split
  · exact setFld_lmp ..
  · rfl

theorem rd_lampDarkened_low {off : Nat} (h : off < O.LMP_TILE_STAT) : (s.lampDarkened i).rd pLmp off = s.rd pLmp off := by
  unfold lampDarkened
  split
  next t _ => exact rd_setFld_off s _ _ _ (h.trans_le (le_tstat t)).ne
  · rfl

theorem mems_lampUe : (s.lampUe i).mems = s.mems := by
  by_cases h : i ∈ s.lmp.ue
  · rw [lampUe_of_known h]
  · rw [lampUe_of_new h, setCause_mems, mems_lampDarkened, mems_containedFault, mems_incr]
    rfl

variable {s i}

/-- An entry found for the first time is known, counted, and raises its cause. -/
theorem lampUe_effect (h : i ∉ s.lmp.ue) : (s.lampUe i).lmp.ue = i :: s.lmp.ue
    ∧ (s.lampUe i).bit pLmp O.INT_CAUSE 1 = true
    ∧ (s.lampUe i).rd pLmp O.LMP_CNT_LAMP_UE = (s.rd pLmp O.LMP_CNT_LAMP_UE + 1) % 2 ^ 32 := by
  rw [lampUe_of_new h]
  refine ⟨?_, cause_setCause _ _ (by decide) (by decide) (by decide), ?_⟩
  · rw [lmp_setCause, lmp_lampDarkened, lmp_containedFault, incr_lmp]
    rfl
  · rw [rd_block_setCause _ _ _ (by decide) (by decide) (by decide), rd_lampDarkened_low _ _ (by decide),
      rd_containedFault_past _ _ _ _ _ (by decide) (by decide) (by decide), rd_incr_same]
    rfl

end

/-! ## Runs of Cruise (R248) -/

section
variable (s : State) {st : Nat} (h : st < 16)

theorem mems_setCruise : (s.setCruise st).mems = s.mems := mems_wr ..

include h

theorem cruiseState_setCruise : (s.setCruise st).cruiseState = st := by
  have word : (s.setCruise st).rd pLmp O.LMP_CRUISE_STAT = st * 2 ^ 28 + s.lmp.asked.length % 4096 := by
    refine (rd_wr_same ..).trans (Nat.mod_eq_of_lt ?_)
    have := Nat.mod_lt s.lmp.asked.length (show 4096 > 0 by decide)
    omega
  rw [cruiseState, fld, word, bitsOf, Nat.shiftRight_eq_div_pow]
  omega

end

theorem cruising_of_state {s : State} (h : s.cruiseState = 1 ∨ s.cruiseState = 2) : s.cruising = true := by
  simpa [cruising] using h

theorem mems_cruiseEnd (s : State) (st : Nat) : (s.cruiseEnd st).mems = s.mems :=
  ite_keeps mems ((setCause_mems ..).trans (mems_setCruise ..)) rfl

theorem lmp_cruiseEnd (s : State) (st : Nat) : (s.cruiseEnd st).lmp = s.lmp :=
  ite_keeps State.lmp ((lmp_setCause ..).trans (wr_lmp ..)) rfl

theorem lmp_cruiseMode (s : State) : s.cruiseMode.lmp = s.lmp := ite_keeps State.lmp (wr_lmp ..) rfl

theorem cruiseEnd_of_none {s : State} (h : s.cruising = false) (st : Nat) : s.cruiseEnd st = s := if_neg (by simp [h])

/-- A run's end shows its state and raises its cause. -/
theorem cruiseEnd_effect {s : State} {st : Nat} (h : s.cruising = true) (hs : st < 16) :
    (s.cruiseEnd st).cruiseState = st ∧ (s.cruiseEnd st).bit pLmp O.INT_CAUSE 5 = true := by
  have ended : s.cruiseEnd st = (s.setCruise st).setCause pLmp 0x20 := if_pos h
  rw [ended]
  refine ⟨?_, cause_setCause _ _ (by decide) (by decide) (by decide)⟩
  exact (fld_of_rd _ _ (rd_block_setCause _ _ _ (by decide) (by decide) (by decide))).trans (cruiseState_setCruise s hs)

/-- An event that ends a run is of effect where one is in progress. -/
theorem cruiseEnd_event {s u : State} {st : Nat} (hs : st < 16) (hu : u = s.cruiseEnd st) : memSame s u
    ∧ (s.cruising = false → u = s)
    ∧ (s.cruising = true → u.cruiseState = st ∧ u.bit pLmp O.INT_CAUSE 5 = true) := by
  subst hu
  exact ⟨memSame_of_mems (mems_cruiseEnd s st), fun h => cruiseEnd_of_none h st, fun h => cruiseEnd_effect h hs⟩

/-- A run waits while a running Landing has no maintenance slot, and else runs. -/
theorem cruiseState_cruiseMode (s : State) : ((s.setCruise 1).cruiseMode).cruiseState
    = if s.running pLnd ∧ s.maintEn = false then 2 else 1 := by
  have far : ∀ off, off < 0x10000 → (s.setCruise 1).rd pLnd off = s.rd pLnd off :=
    fun off ho => rd_wr_other s _ (regKey_ne_of_page ho (by decide) (by decide))
  have run : (s.setCruise 1).running pLnd = s.running pLnd := by
    rw [running, running, pstate_of_rd (far _ (by decide))]
  have slot : (s.setCruise 1).maintEn = s.maintEn := bit_of_rd 28 (far _ (by decide))
  have on := cruising_of_state (.inl (cruiseState_setCruise s (st := 1) (by decide)))
  unfold cruiseMode
  rw [if_pos on, run, slot, cruiseState_setCruise _ (by split <;> decide)]
  simp

/-- A run's number, its APPLY, its ports and the tiles it asks. -/
def cruiseBegun (s : State) (snag : Bool) : State :=
  { s with lmp := { s.lmp with
      run := (s.lmp.run + 1) % 256, apply := snag, ports := s.rd64 pLmp O.LMP_CRUISE_PORTS_LO
      asked := (s.tiles.filter fun e => bitOf (s.rd64 pLmp O.LMP_CRUISE_PORTS_LO) e.port && s.confirmed e.t).map (·.t) } }

theorem cruiseStart_of_none {s : State} (h : s.cruising = false) (snag : Bool) : s.cruiseStart snag
    = if (s.cruiseBegun snag).lmp.asked.isEmpty then (((s.cruiseBegun snag).setCruise 1).cruiseMode).cruiseEnd 3
      else ((s.cruiseBegun snag).setCruise 1).cruiseMode := by
  unfold cruiseStart cruiseBegun
  rw [if_neg (by simp [h])]

theorem lmp_cruiseStart {s : State} (h : s.cruising = false) (snag : Bool) :
    (s.cruiseStart snag).lmp = (s.cruiseBegun snag).lmp := by
  have on : ((s.cruiseBegun snag).setCruise 1).cruiseMode.lmp = (s.cruiseBegun snag).lmp :=
    (lmp_cruiseMode _).trans (wr_lmp ..)
  rw [cruiseStart_of_none h]
  exact ite_keeps State.lmp ((lmp_cruiseEnd ..).trans on) on

theorem mems_cruiseStart {s : State} (h : s.cruising = false) (snag : Bool) : (s.cruiseStart snag).mems = s.mems := by
  have on : ((s.cruiseBegun snag).setCruise 1).cruiseMode.mems = s.mems :=
    (mems_cruiseMode _).trans (mems_setCruise ..)
  rw [cruiseStart_of_none h]
  exact ite_keeps mems ((mems_cruiseEnd ..).trans on) on

/-- A run with no tile to ask is DONE at once. -/
theorem cruiseState_cruiseStart {s : State} (h : s.cruising = false) (snag : Bool) : (s.cruiseStart snag).cruiseState
    = if (s.cruiseStart snag).lmp.asked = [] then 3 else if s.running pLnd ∧ s.maintEn = false then 2 else 1 := by
  have on : ((s.cruiseBegun snag).setCruise 1).cruiseMode.cruiseState
      = if s.running pLnd ∧ s.maintEn = false then 2 else 1 := cruiseState_cruiseMode (s.cruiseBegun snag)
  rw [lmp_cruiseStart h, cruiseStart_of_none h]
  simp only [List.isEmpty_iff]
  split
  · refine (cruiseEnd_effect (cruising_of_state ?_) (by decide)).1
    rw [on]
    split
    · exact .inr rfl
    · exact .inl rfl
  · exact on

/-! ## A cell that reports lamps (R249) -/

/-- `t` is `s` but for registers and the port side of Jelek ports. -/
structure PortKept (s t : State) : Prop where
  rest : t = { s with regs := t.regs, jports := t.jports }
  regs : ∀ p off, off < 0x10000 → p < pJlk → t.rd p off = s.rd p off

theorem PortKept.ite {s t u : State} {c : Prop} [Decidable c] (h : PortKept s t) (k : PortKept s u) :
    PortKept s (if c then t else u) := by
  split
  · exact h
  · exact k

theorem portKept_modJport (s : State) (p : Nat) (f : JPort → JPort) : PortKept s (s.modJport p f) :=
  ⟨rfl, fun _ _ _ _ => rfl⟩

/-- Registers of a port's page. -/
theorem PortKept.addReg {s t : State} (h : PortKept s t) (p n : Nat) {off : Nat} (ho : off < 0x10000) :
    PortKept s (t.addReg (jp p) off n) := by
  refine ⟨?_, fun q o ho' hq => ?_⟩
  · rw [State.addReg, State.wr, h.rest]
  · exact (rd_wr_other t _ (regKey_ne_of_page ho' ho (hq.trans_le (Nat.le_add_right ..)).ne)).trans (h.regs q o ho' hq)

/-- Lost cells are counted on the port's page. -/
theorem portKept_seqUp (s : State) (p : Nat) (c : Cell) : PortKept s (s.seqUp p c) :=
  .ite (portKept_modJport ..) ((portKept_modJport ..).addReg _ _ (by decide))

/-- A valid cell of the row's type takes its effect. -/
theorem cellIn_of_lamp {s : State} {p : Nat} {l : List Byte} (f : Cell → State → State) (hr : s.running (jp p) = true)
    (hs : s.lstate p = 3 ∨ s.lstate p = 4) (hc : cellOk l = true) (ht : (cellOf l).typ = tyLamp) :
    s.cellIn tyLamp f p l = f (cellOf l) (s.seqUp p (cellOf l)) := by
  have idle : tyLamp ≠ tyIdle := by decide
  have hello : tyLamp ≠ tyHello := by decide
  unfold cellIn
  rw [if_neg (by simpa [hr, Classical.or_iff_not_imp_left] using hs), if_neg (by simp [hc])]
  simp only [ht]
  rw [if_neg idle, if_neg (by simp [hello]), if_neg (by simp)]

/-! ## Results of a report -/

theorem host_snagLamp (s : State) (i c : Nat) (isOpen : Bool) : (s.snagLamp i c isOpen).host = s.host := by
  unfold snagLamp
  simp only
  rw [incr_host, (hbmOnly_setDose ..).host, putLamp, setTab, setTabAt_host]

theorem host_cruiseResult (s : State) (i v : Nat) : (s.cruiseResult i v).host = s.host := by
  unfold cruiseResult
  refine ite_keeps State.host (setHbm_host ..) ((foldl_keeps State.host _ _ _ fun t c _ => ?_).trans (setHbm_host ..))
  exact ite_keeps State.host (host_snagLamp ..) rfl

theorem cruiseResult_of_plain {s : State} (h : s.lmp.apply = false) (i v : Nat) :
    s.cruiseResult i v = s.setHbm (s.rd64 pLmp O.LMP_CRUISE_BASE_LO + i) [BitVec.ofNat 8 v] := by
  unfold cruiseResult
  exact if_pos (by rw [setHbm_lmp, h]; rfl)

/-- The results of `n` lamp pixels from `a` on, where `v` gives each. -/
def resultsTaken (s : State) (a : Nat) (v : Nat → Nat) (n : Nat) : State :=
  (List.range n).foldl (fun s k => s.cruiseResult (a + k) (v k)) s

theorem host_resultsTaken (s : State) (a : Nat) (v : Nat → Nat) (n : Nat) : (s.resultsTaken a v n).host = s.host :=
  foldl_keeps State.host _ _ _ fun t _ _ => host_cruiseResult t _ _

section
variable {s : State} (ha : s.lmp.apply = false) (a : Nat) (v : Nat → Nat)
include ha

omit ha in
theorem resultsTaken_succ (n : Nat) : s.resultsTaken a v (n + 1) = (s.resultsTaken a v n).cruiseResult (a + n) (v n) := by
  simp only [resultsTaken, List.range_succ, List.foldl_append, List.foldl_cons, List.foldl_nil]

/-- Without APPLY the results only stand in the map. -/
theorem hbmOnly_resultsTaken (n : Nat) : HbmOnly s (s.resultsTaken a v n) := by
  induction n with
  | zero => exact .refl s
  | succ n ih =>
    have plain : (s.resultsTaken a v n).lmp.apply = false := by rw [ih.eq]; exact ha
    rw [resultsTaken_succ, cruiseResult_of_plain plain]
    exact ih.trans (.setHbm ..)

theorem hbmByte_resultsTaken (n : Nat) {k : Nat} (hk : k < n) :
    (s.resultsTaken a v n).hbmByte (s.rd64 pLmp O.LMP_CRUISE_BASE_LO + (a + k)) = BitVec.ofNat 8 (v k) := by
  induction n with
  | zero => exact absurd hk (Nat.not_lt_zero k)
  | succ n ih =>
    have only := hbmOnly_resultsTaken ha a v n
    have plain : (s.resultsTaken a v n).lmp.apply = false := by rw [only.eq]; exact ha
    have base : (s.resultsTaken a v n).rd64 pLmp O.LMP_CRUISE_BASE_LO = s.rd64 pLmp O.LMP_CRUISE_BASE_LO :=
      rd64_of_rd (only.rd ..) (only.rd ..)
    rw [resultsTaken_succ, cruiseResult_of_plain plain, base]
    by_cases e : k = n
    · subst e
      exact (sget_ssetList ..).trans ((if_pos (by simp)).trans (by simp))
    · rw [hbmByte_setHbm_other _ (by simp only [List.length_singleton]; omega)]
      exact ih (by omega)

end

/-- After a tile's last report the run goes on without it, and ends with the last tile. -/
def reportClosed (s : State) (t : Nat) (last : Bool) : State :=
  if !last then s
  else
    let s : State := { s with lmp := { s.lmp with asked := s.lmp.asked.filter (· ≠ t) } }
    if s.lmp.asked.isEmpty then s.cruiseEnd 3 else s.setCruise s.cruiseState

theorem mems_reportClosed (s : State) (t : Nat) (last : Bool) : (s.reportClosed t last).mems = s.mems :=
  ite_keeps mems rfl (ite_keeps mems (mems_cruiseEnd ..) (mems_setCruise ..))

theorem host_reportClosed (s : State) (t : Nat) (last : Bool) : (s.reportClosed t last).host = s.host :=
  congrArg (·.1) (mems_reportClosed s t last)

theorem hbm_reportClosed (s : State) (t : Nat) (last : Bool) : (s.reportClosed t last).hbm = s.hbm :=
  congrArg (·.2.1) (mems_reportClosed s t last)

theorem lampReport_of_other {s : State} (e : TileCfg) (offset : Nat) {body : List Byte}
    (h : (body.getD 498 0).toNat ≠ s.lmp.run) : s.lampReport e offset body = s := if_pos (.inr h)

theorem lampReport_of_run {s : State} (e : TileCfg) (offset : Nat) {body : List Byte} (hc : s.cruising = true)
    (h : (body.getD 498 0).toNat = s.lmp.run) : s.lampReport e offset body
      = (s.resultsTaken (e.lmbase + offset) (fun k => bitsOf (beNat (body.take 498)) (3984 - 6 - 6 * k) 6)
          (min 664 (e.lamps - offset))).reportClosed e.t (bitOf (body.getD 499 0).toNat 7) :=
  if_neg fun o => o.elim (by simp [hc]) fun n => n h

theorem host_lampReport (s : State) (e : TileCfg) (offset : Nat) (body : List Byte) :
    (s.lampReport e offset body).host = s.host := by
  by_cases h : s.cruising = true ∧ (body.getD 498 0).toNat = s.lmp.run
  · obtain ⟨hc, hr⟩ := h
    rw [lampReport_of_run e offset hc hr, host_reportClosed, host_resultsTaken]
  · have other : s.lampReport e offset body = s := if_pos (by
      rw [Classical.not_and_iff_not_or_not] at h
      simpa using h)
    rw [other]

/-! ## LAMP_REPORT_RX -/

namespace PortKept

variable {s t : State} (h : PortKept s t)
include h

theorem host : t.host = s.host := (congrArg State.host h.rest).trans rfl
theorem lmp : t.lmp = s.lmp := (congrArg State.lmp h.rest).trans rfl
theorem tables : t.tables = s.tables := (congrArg State.tables h.rest).trans rfl
theorem mems : t.mems = s.mems := (congrArg State.mems h.rest).trans rfl
theorem tiles : t.tiles = s.tiles := (congrArg State.tiles h.rest).trans rfl
theorem tileAt (p q : Nat) : t.tileAt p q = s.tileAt p q := by rw [State.tileAt, State.tileAt, h.tiles]

theorem rd_lmp {off : Nat} (ho : off < 0x10000) : t.rd pLmp off = s.rd pLmp off := h.regs _ _ ho (by decide)

theorem cruising : t.cruising = s.cruising := by
  rw [State.cruising, State.cruising, cruiseState, cruiseState, fld_of_rd _ _ (h.rd_lmp (by decide))]

end PortKept

/-- A report acts for the tile in force at the place it comes from, if there is one. -/
theorem exec_lampReportRx (p : Fin 64) (l : List Byte) (s : State) : ∃ f : Cell → State → State,
    exec (.lampReportRx p l) s = act .jlk (fun s => s.cellIn tyLamp f p l) s
    ∧ ∀ c t, (t.tileAt p c.tile = none ∧ f c t = t)
      ∨ ∃ e, t.tileAt p c.tile = some e ∧ f c t = t.lampReport e c.offset c.body := by
  refine ⟨_, rfl, fun c t => ?_⟩
  cases t.tileAt p c.tile with
  | none => exact .inl ⟨rfl, rfl⟩
  | some e => exact .inr ⟨e, rfl, rfl⟩

/-- Of the run in progress without APPLY, each lamp pixel that a report covers has its six bits in the map. -/
theorem hbmByte_lampReport {s : State} (e : TileCfg) {offset k : Nat} {body : List Byte} (hc : s.cruising = true)
    (hr : (body.getD 498 0).toNat = s.lmp.run) (ha : s.lmp.apply = false) (hk : k < min 664 (e.lamps - offset)) :
    (s.lampReport e offset body).hbmByte (s.rd64 pLmp O.LMP_CRUISE_BASE_LO + (e.lmbase + offset + k))
      = BitVec.ofNat 8 (bitsOf (beNat (body.take 498)) (3984 - 6 - 6 * k) 6) := by
  rw [lampReport_of_run e offset hc hr, hbmByte, hbm_reportClosed]
  exact hbmByte_resultsTaken ha _ (fun k => bitsOf (beNat (body.take 498)) (3984 - 6 - 6 * k) 6) _ hk

end State
end Sys2Proof.Machine
end

section
/-! PROOFS. The settling of O38. -/
namespace Sys2Proof.Machine

/-- Settles O38, event by event: BRIGHTNESS, the operations of TILE_CONFIRM and its end, an uncorrectable lamp, and the
start, the ends and the reports of Cruise. -/
theorem lampsTilesAndCruiseObeyTheHost : Obligations.LampsTilesAndCruiseObeyTheHost := by
  unfold Obligations.LampsTilesAndCruiseObeyTheHost
  intro ok busy fitsEntry
  refine ⟨fun v s hs => ?_, fun n s ha hn hb h2 => ?_, fun n s ha hn hb hf => ?_, fun n s ha hb => ?_,
    fun n s ha hb hn => ?_, fun i s ha => ?_, fun b s hs hc => ?_, fun s hs => ⟨?_, ?_⟩, fun p l s ha hr hl hc ht => ?_⟩
  · obtain ⟨ha, hp⟩ := hs
    have run : exec (.brightnessWrite v) s
        = act .lmp (fun s => s.pwWrite pLmp (·.wr pLmp O.LMP_BRIGHTNESS (bitsOf v.toNat 0 16))) s := rfl
    rw [run]
    refine act_next ha fun u hu => ?_
    rw [State.pwWrite_of_free hp] at hu
    have value : u.rd pLmp O.LMP_BRIGHTNESS = v.toNat % 65536 := by
      rw [hu, State.rd_wr_same, Nat.mod_eq_of_lt ((bitsOf_lt ..).trans (by decide)), bitsOf, Nat.shiftRight_zero]
      rfl
    have kept : State.PageRegs pLmp [O.LMP_BRIGHTNESS] s u := hu ▸ .wr s _ (by decide) (by decide)
    exact ⟨value, congrArg (fun w : State => { w with pending := s.pending }) kept.rest, State.memSame_of_mems kept.mems⟩
  · have run : exec (.adopt n) s = act .lmp (·.tileConfirm (2 ^ 31 + n)) s := rfl
    rw [run]
    refine act_next ha fun u hu => ?_
    rw [State.tileConfirm_of_idle hb hn (by decide), if_pos rfl] at hu
    obtain ⟨host, exp⟩ := State.adopt_effect h2
    obtain ⟨held, kept⟩ := (s.adopt n).confirmBegun_effect hn
    rw [← hu] at held kept
    refine ⟨held, ?_, (congrArg (·.1) kept.mems).trans host⟩
    refine (kept.regs pLmp _ (by decide) ?_ fun _ => ?_).trans exp
    · simp only [O.LMP_TILE_EXP]; omega
    · simp only [State.tileRegs, State.tstat, O.LMP_TILE_EXP, O.LMP_TILE_SEEN, O.LMP_TILE_STAT, O.LMP_CNT_MISMATCH,
        O.INT_CAUSE, List.mem_cons, List.not_mem_nil, or_false, not_or]
      omega
  · obtain ⟨enabled, found, serial, width, height, form⟩ := hf
    have fits : s.Fits n := ⟨enabled, found, serial, width, height, form⟩
    have begun : ∀ (v : Bool) (u : State), u = (s.setValid n v).confirmBegun n →
        busy u n ∧ u.tileState n = (if v then 4 else 3) ∧ u.tileValid n = v ∧ memSame s u := by
      rintro v u rfl
      obtain ⟨held, kept⟩ := (s.setValid n v).confirmBegun_effect hn
      obtain ⟨state, valid⟩ := fits.confirmBegun hn v
      exact ⟨held, state, valid, State.memSame_of_mems (kept.mems.trans (State.mems_setBit ..))⟩
    refine ⟨?_, ?_⟩
    · have run : exec (.validate n) s = act .lmp (·.tileConfirm (2 ^ 30 + n)) s := rfl
      rw [run]
      refine act_next ha fun u hu => ?_
      rw [State.tileConfirm_of_idle hb hn (by decide), if_neg (by decide), if_pos rfl] at hu
      exact begun true u hu
    · have run : exec (.revoke n) s = act .lmp (·.tileConfirm (2 ^ 29 + n)) s := rfl
      rw [run]
      refine act_next ha fun u hu => ?_
      rw [State.tileConfirm_of_idle hb hn (by decide), if_neg (by decide), if_neg (by decide), if_pos rfl] at hu
      exact begun false u hu
  · have run : exec (.validate n) s = act .lmp (·.tileConfirm (2 ^ 30 + n)) s := rfl
    rw [run]
    refine act_next ha fun u hu => ?_
    rw [State.tileConfirm_of_busy hb] at hu
    obtain ⟨locked, cause, lmp, mems⟩ := s.lockedWrite_effect (p := pLmp) (by decide)
    rw [← hu] at locked cause lmp mems
    exact ⟨locked, cause, lmp, State.memSame_of_mems mems⟩
  · have run : exec .tileConfirmDone s = act .lmp (·.confirmDone) s := rfl
    rw [run]
    refine act_next ha fun u hu => ?_
    obtain ⟨idle, clear, rest, mems⟩ := State.confirmDone_effect hb
    rw [← hu] at idle clear rest mems
    exact ⟨idle, clear, congrArg (fun w : State => { w with pending := s.pending }) rest, State.memSame_of_mems mems⟩
  · have run : exec (.lampUe i) s = actFault .lmp pLmp 0x0100 0 (·.lampUe i) s := rfl
    have next : actFault .lmp pLmp 0x0100 0 (·.lampUe i) s = act .lmp (·.lampUe i) s := by
      rw [actFault, act, if_pos ha, if_pos ha]
    rw [run, next]
    refine act_next ha fun u hu => ⟨State.memSame_of_mems ((congrArg State.mems hu).trans (State.mems_lampUe s i)),
      fun h => State.setPending_of_eq (hu.trans (State.lampUe_of_known h)), fun h => ?_⟩
    have found := State.lampUe_effect h
    rw [← hu] at found
    exact found
  · obtain ⟨ha, hp⟩ := hs
    have run : exec (.cruiseStart b) s = act .lmp (fun s => s.pwWrite pLmp (·.cruiseStart b)) s := rfl
    rw [run]
    refine act_next ha fun u hu => ?_
    rw [State.pwWrite_of_free hp] at hu
    have lmp := State.lmp_cruiseStart hc b
    have mems := State.mems_cruiseStart hc b
    have state := State.cruiseState_cruiseStart hc b
    rw [← hu] at lmp mems state
    exact ⟨(congrArg Lmp.run lmp).trans rfl, (congrArg Lmp.apply lmp).trans rfl, State.memSame_of_mems mems, state⟩
  · obtain ⟨ha, hp⟩ := hs
    have run : exec .cruiseAbort s = act .lmp (fun s => s.pwWrite pLmp (·.cruiseEnd 5)) s := rfl
    rw [run]
    refine act_next ha fun u hu => ?_
    obtain ⟨mems, still, ended⟩ := State.cruiseEnd_event (by decide) (hu.trans (State.pwWrite_of_free hp _))
    exact ⟨mems, fun h => State.setPending_of_eq (still h), ended⟩
  · obtain ⟨ha, -⟩ := hs
    have run : exec .cruiseTimeout s = act .lmp (·.cruiseEnd 4) s := rfl
    rw [run]
    refine act_next ha fun u hu => ?_
    obtain ⟨mems, still, ended⟩ := State.cruiseEnd_event (by decide) hu
    exact ⟨mems, fun h => State.setPending_of_eq (still h), ended⟩
  · intro c number
    obtain ⟨f, run, effect⟩ := State.exec_lampReportRx p l s
    rw [run]
    refine act_next ha fun u hu => ?_
    rw [State.cellIn_of_lamp f hr hl hc ht] at hu
    have kept := State.portKept_seqUp s p c
    generalize s.seqUp p c = w at hu kept
    have base : w.rd64 pLmp O.LMP_CRUISE_BASE_LO = s.rd64 pLmp O.LMP_CRUISE_BASE_LO :=
      State.rd64_of_rd (kept.rd_lmp (by decide)) (kept.rd_lmp (by decide))
    have still : f c w = w → u.lmp = s.lmp ∧ u.tables = s.tables ∧ memSame s u := fun h => by
      rw [hu.trans h]
      exact ⟨kept.lmp, kept.tables, State.memSame_of_mems kept.mems⟩
    rcases effect c w with ⟨none, same⟩ | ⟨e, place, report⟩
    · refine ⟨(congrArg State.host (hu.trans same)).trans kept.host, fun _ => still same, fun e k _ _ _ he => ?_⟩
      rw [← kept.tileAt, none] at he
      exact absurd he (by simp)
    · refine ⟨(congrArg State.host (hu.trans report)).trans ((State.host_lampReport ..).trans kept.host),
        fun h => still (report.trans (State.lampReport_of_other e _ (kept.lmp ▸ h))), fun e' k h hc hp he hk => ?_⟩
      rw [← kept.tileAt, place] at he
      obtain rfl := Option.some.inj he
      have mapped := State.hbmByte_lampReport e (kept.cruising.trans hc) (h.trans (congrArg Lmp.run kept.lmp).symm)
        ((congrArg Lmp.apply kept.lmp).trans hp) hk
      rw [base, ← report, ← hu] at mapped
      exact mapped

end Sys2Proof.Machine
end
